-- ==== Sys2Proof/Word.lean ====
section
/-! DEFINITION. The word types of the Sloade 6400: 32-bit registers (R4) and bytes. -/

namespace Sys2Proof

/-- A register word, 32 bits wide (R4). -/
abbrev Word := BitVec 32

/-- A byte of a frame, a message or a memory structure. -/
abbrev Byte := BitVec 8

/-- A string of bytes, the first-transmitted or lowest-addressed byte first. -/
abbrev Bytes := List Byte

end Sys2Proof
end

