-- ==== Sys2Proof/Syntax.lean ====
section
/-! DEFINITION. The commands of the Sloade 6400: one constructor per row of the table of operations and
events, with the row's operands. A command is a host access, an event on a pin or a line, a message, or an
event in time whose instant the outside (or the clock) brings about. What a command reads from outside
(DMA data, received bytes, a test's outcome) is its operand. -/

namespace Sys2Proof

/-- A byte address inside BAR0 or BAR2. -/
abbrev Addr := BitVec 32
/-- A client port CP0–CP31 or a line port LP0–LP31, whichever the row names. -/
abbrev Port32 := Fin 32
/-- A port index of PEN: 0–31 client ports, 32–63 line ports (R352). -/
abbrev Port64 := Fin 64
/-- A span S0–S31. -/
abbrev SpanNo := Fin 32
/-- A cipher island I00–I23. -/
abbrev Island := Fin 24
/-- A time base TB0–TB3. -/
abbrev Base := Fin 4
/-- A DRAM channel. -/
abbrev Channel := Fin 8
/-- A lane page: 0–31 client lanes, 32–63 line lanes, 64–71 harness lanes, 72 HCK (R351). -/
abbrev Lane := Fin 73
/-- A transmit SC index (R186). -/
abbrev TxSc := Fin 16384
/-- A receive SC index (R186). -/
abbrev RxSc := Fin 32768
/-- An SA index (R186). -/
abbrev SaNo := Fin 65536

/-- What a DMA read of host memory brought: the bytes, or a DMA error (R410). -/
inductive DmaData where
  | data (bytes : Bytes)
  | error
deriving DecidableEq, Repr

/-- Requests answered with Unsupported Request (R405). -/
inductive RequestKind where
  | io | atomicOp | outside
deriving DecidableEq, Repr

/-- How a frame that arrives ends: with its terminate character, or with an error marker; or it is not received, since
it begins while the raw LOS, LOL and LOBL conditions `raw`, bits 0 to 2, are present (R338). -/
inductive RxEnd where
  | terminate | errorMarker
  | notReceived (raw : BitVec 3)
deriving DecidableEq, Repr

/-- A 66-bit client block: its two sync bits and its 64-bit content, first-sent bit least significant
(R152, R153). -/
structure Block66 where
  sync : BitVec 2
  content : BitVec 64
deriving DecidableEq, Repr

/-- A 257-bit block of the trunk stream, bit 0 sent first (R159). -/
abbrev Block257 := BitVec 257

/-- Why the harness lanes go down (R333). -/
inductive HarnessLoss where
  | clock | signal | link | prbs
deriving DecidableEq, Repr

/-- What a receiver met since its last report: on a port, invalid blocks or code groups, and codewords received,
corrected and uncorrectable with the symbols corrected (R348); on a lane, errors and bits that its locked pattern checker
compared (R335). -/
inductive LineReport where
  | port (p : Port64) (invalid codewords corrected uncorrectable symbols : Nat)
  | checker (lane : Fin 72) (errors bits : Nat)
deriving DecidableEq, Repr

/-- The result of one scrub read (R384). -/
inductive ScrubOutcome where
  | clean | corrected | uncorrectable
deriving DecidableEq, Repr

/-- What the supply meter reports (R503, R522): the input voltage in 0.1 V, its power in mW and its frequency in 0.1 Hz,
0 for DC, and VBAT in mV. -/
structure SupplyReading where
  decivolts : BitVec 16
  milliwatts : BitVec 20
  decihertz : BitVec 10
  vbat : BitVec 12
deriving DecidableEq, Repr

/-- The two clock faults of R508. -/
inductive ClockFaultCause where
  | pllLock (domain : BitVec 6) | islands
deriving DecidableEq, Repr

/-- What the fetch of a firmware image brought (R514): a DMA error, or an image: its bytes, whether its signatures
verify, and its version. -/
inductive FwImage where
  | dmaError
  | image (bytes : Bytes) (signaturesOk : Bool) (version : Word)
deriving DecidableEq, Repr

/-- What start-up tests report (R519): which islands fail BIST, which channels fail training, which lanes
fail their loopback, and the state of the two vault slots and firmware banks as read. -/
structure StartupReport where
  islandFails : BitVec 24
  channelFails : BitVec 8
  laneFails : BitVec 73
  /-- Vault records that fail their tag (R250): slots A and B, parent set, SC entries with epochs and marks, keeper
  image, PAT_FLOOR and PAT_BOOT, bits 0 to 5; and the newer and the older copy of the enrolment record (R251), bits 6
  and 7. -/
  vaultFails : BitVec 8 := 0
  ok : Bool
  /-- TROX_HEAD_N is strapped low; sampled at step 2 (R539, R540). -/
  head : Bool := false
deriving DecidableEq, Repr

/-- The commands, one constructor per row of the table. -/
inductive Instr where
  /-- REGISTER_WRITE (R7): A host write to a BAR0 register that has no row of its own acts on each field as its access type gives. -/
  | registerWrite (addr : Addr) (value : Word)
  /-- COUNTER_CLEARING_READ (R9): A read of an RC register returns its value and clears it, and keeps any event of the same cycle. -/
  | counterClearingRead (addr : Addr)
  /-- HOLDING_LOWER_READ (R150): A read of the lower half of a 64-bit counter copies its upper half into the block's holding register. -/
  | holdingLowerRead (addr : Addr)
  /-- PMC_EVEN_READ (R489): A read of an even programmable counter copies the odd partner into the bank's holding register for the BAR0 path or the observe page. -/
  | pmcEvenRead (n : Fin 512) (observe : Bool)
  /-- ALIAS_WRITE (R413): A write to a bit-alias word acts on one bit according to that bit's type. -/
  | aliasWrite (addr : Addr) (value : Word)
  /-- RWL_REGISTER_WRITE (R415): A write to a register with RWL fields acts as RW until LOCK is set, and is then a lock violation. -/
  | rwlRegisterWrite (addr : Addr) (value : Word)
  /-- KPR_WRITE (R416): A host write to the keeper mirror changes nothing, is counted and recorded, raises vector 4 and posts an event. -/
  | kprWrite (addr : Addr) (value : Word)
  /-- BAD_SIZE_ACCESS (R408): An access of a size or alignment the region does not accept is aborted or discarded and logged as SIZE_RD or SIZE_WR. -/
  | badSizeAccess (bar2 : Bool) (addr : Addr) (bytes : Nat) (isWrite : Bool)
  /-- GATED_ACCESS (R411): An access to a block whose clock is gated is aborted or discarded and logged. -/
  | gatedAccess (addr : Addr) (isWrite : Bool) (value : Word)
  /-- UNSUPPORTED_REQUEST (R405): An I/O request, an AtomicOp request or a request outside BAR0 and BAR2 is answered with Unsupported Request. -/
  | unsupportedRequest (req : RequestKind) (addr : Nat)
  /-- PERST (R432): A PERST# resets configuration space, MSI-X and the HIF registers and disables both queues, and traffic continues. -/
  | perst
  /-- FUNCTION_LEVEL_RESET (R405): A Function Level Reset acts on the host interface as PERST# does. -/
  | functionLevelReset
  /-- D3HOT_EXIT (R405): An exit from D3hot acts on the host interface as PERST# does. -/
  | d3hotExit
  /-- KEYQ_DOORBELL (R421): A write to HIF_KQ_DB submits descriptors if the value passes the acceptance test, and otherwise sets DB_ERR. -/
  | keyqDoorbell (count : BitVec 16)
  /-- EVQ_DOORBELL (R425): A write to HIF_EQ_DB accepts the consumed-record count if it is valid, and otherwise sets DB_ERR. -/
  | evqDoorbell (count : Word)
  /-- KEYQ_ENABLE (R423): Setting HIF_KQ_CTRL.EN resets HEAD and the expected doorbell count and starts the queue. -/
  | keyqEnable (ctrl : Word)
  /-- KEYQ_DISABLE (R423): Clearing HIF_KQ_CTRL.EN lets the running operation finish and drops the descriptors not yet started. -/
  | keyqDisable (ctrl : Word)
  /-- EVQ_ENABLE (R425): Setting HIF_EQ_CTRL.EN starts the event ring and the record and loss counts from zero. -/
  | evqEnable (ctrl : Word)
  /-- EVQ_DISABLE (R425): Clearing HIF_EQ_CTRL.EN stops the event ring, and later events are lost. -/
  | evqDisable (ctrl : Word)
  /-- KEYQ_DESCRIPTOR_START (R236): After the previous operation completes, the module fetches the next submitted descriptor and completes it with BAD_BUFFER on a DMA error. -/
  | keyqDescriptorStart (descriptor : DmaData)
  /-- EVQ_OVERFLOW_RECORD (R428): When EVQ has room for two records after a loss, the module writes an OVERFLOW record with the loss count. -/
  | evqOverflowRecord
  /-- MSIX_VECTOR_UNMASK (R419): Unmasking a vector whose pending bit is set sends its message. -/
  | msixVectorUnmask (v : Fin 64)
  /-- INTERRUPT_HOLDOFF_EXPIRE (R420): At the end of the holdoff interval, vector 1 or 2 is sent again if records were written during it. -/
  | interruptHoldoffExpire (key : Bool)
  /-- IRQ_TEST (R433): A write to IRQ_TEST with GO raises the named vector 0–39. -/
  | irqTest (value : Word)
  /-- FIRMWARE_RESTART (R515): The management firmware restarts from the preferred valid bank, disables both queues and clears FW_READY, and traffic runs on. -/
  | firmwareRestart
  /-- FW_READY (R430): At the end of a firmware restart, FW_READY is set, HIF_FW_RESTARTS is incremented, FW_RESTART is logged and vector 0 is raised. -/
  | fwReady
  /-- WATCHDOG_EXPIRE (R515): Expiry of the 2 s management watchdog triggers a firmware restart. -/
  | watchdogExpire
  /-- STAGE_WINDOW (R63): PAT_CTRL.OP STAGE_WINDOW checks the window arguments and starts the DMA fetch of a container into scratch. -/
  | stageWindow
  /-- STAGE_SLOT_A (R65): PAT_CTRL.OP STAGE_SLOT_A starts reading vault slot A for checking. -/
  | stageSlotA
  /-- STAGE_SLOT_B (R65): PAT_CTRL.OP STAGE_SLOT_B starts reading vault slot B for checking. -/
  | stageSlotB
  /-- STAGING_COMPLETE (R63): When the fetch or slot read ends, the module runs the acceptance checks, posts RESULT and REJ_INFO, and computes PAT_DIFF. -/
  | stagingComplete (container : Bytes) (failAt : Option Nat) (slotIntact : Bool)
  /-- APPLY (R71): PAT_CTRL.OP APPLY judges the APPLY checks and starts a full cut, a re-cut or a change that stops no span, as KIND selects. -/
  | apply
  /-- CUT_DRAIN_DONE (R72): Once leaving frames have finished, the stopped set's queues are discarded and the new structure is loaded. -/
  | cutDrainDone
  /-- CUT_RESUME (R72): When retrained ports are ready, the stopped set resumes, PAT_CUT_US is written, STATE goes to IDLE and an event is posted. -/
  | cutResume (us : Word)
  /-- DISCARD (R65): PAT_CTRL.OP DISCARD drops the staged Pattern. -/
  | discard
  /-- STORE_A (R68): PAT_CTRL.OP STORE_A starts an atomic write of the active Pattern to slot A. -/
  | storeA
  /-- STORE_B (R68): PAT_CTRL.OP STORE_B starts an atomic write of the active Pattern to slot B. -/
  | storeB
  /-- STORING_COMPLETE (R68): When the slot write has been verified, the slot is marked valid and the result is posted. -/
  | storingComplete (verified : Bool)
  /-- RAISE_FLOOR (R65): PAT_CTRL.OP RAISE_FLOOR sets PAT_FLOOR to the active serial, unless the vault is closed or no Pattern is active. -/
  | raiseFloor
  /-- ERASE_A (R65): PAT_CTRL.OP ERASE_A invalidates vault slot A. -/
  | eraseA
  /-- ERASE_B (R65): PAT_CTRL.OP ERASE_B invalidates vault slot B. -/
  | eraseB
  /-- PAT_NOP (R65): PAT_CTRL.OP NOP does nothing. -/
  | patNop
  /-- PAT_RESERVED_OP (R12): A write of a reserved PAT_CTRL.OP value 0xB–0xF is ignored. -/
  | patReservedOp (op : BitVec 4)
  /-- CELL_DISPATCH (R87): At each wheel slot, the owning span, or a borrower under the lending order, dispatches one ready cell to a free island. -/
  | cellDispatch
  /-- CELL_COMPLETE (R78): An island completes a cell and its GHASH partial into the output FIFO, and its slot is counted. -/
  | cellComplete (island : Island) (wrong : Bool)
  /-- AUDIT_COMPARE (R102): When both results of an audited cell are in, the output side compares them and releases the cell on a match. -/
  | auditCompare
  /-- PARTNER_KAT_DONE (R104): The known-answer test of a SUSPECT partner ends, and it is either cleared or fenced with cause KAT. -/
  | partnerKatDone (island : Island) (pass : Bool)
  /-- ISLAND_CLOCK_WINDOW (R80): At the end of each 1 µs monitor window, an island short of cycles for three windows at 0.80 V is fenced with cause CLOCK. -/
  | islandClockWindow (island : Island) (cycles : Nat) (millivolts : Nat)
  /-- ISLAND_SUPPLY_FAULT (R80): An island supply leaving 0.55–0.80 V fences the island with cause SUPPLY. -/
  | islandSupplyFault (island : Island)
  /-- HOST_FENCE (R107): A write of HOST_FENCE = 1 fences the island with cause HOST. -/
  | hostFence (island : Island)
  /-- HOST_FENCE_CLEAR (R107): A write of HOST_FENCE = 0 clears cause HOST and, with no other cause set, starts BIST. -/
  | hostFenceClear (island : Island)
  /-- ISLAND_BIST_DONE (R107): An island's BIST ends, and the island becomes healthy or is fenced with cause BIST. -/
  | islandBistDone (island : Island) (pass : Bool)
  /-- SHED_COMPLETE (R111): When a shed span's queues are empty, it runs as Discard, CPH_SHED shows it and an event is posted. -/
  | shedComplete
  /-- SPAN_RESTORE (R112): When LIMIT rises and 1 s has passed since the last shed, shed spans are restored in reverse order while they fit. -/
  | spanRestore
  /-- ISLAND_UNPARK_DONE (R99): An unparked island passes its known-answer test and runs, or is fenced with cause KAT. -/
  | islandUnparkDone (island : Island) (pass : Bool)
  /-- ISLAND_PARK (R99): An island chosen for parking is parked once its FIFOs and pipeline are empty. -/
  | islandPark (island : Island)
  /-- SEAL_FRAME_ARRIVAL (R143): A frame arrives on a client port and is parsed, classified, admitted, bound to an SA and sealed or discarded. -/
  | sealFrameArrival (port : Port32) (frame : Bytes) (ending : RxEnd)
  /-- OPEN_FRAME_ARRIVAL (R142): A frame arrives on a frame span's line port and passes checks 1–7 or is discarded before release. -/
  | openFrameArrival (port : Port32) (frame : Bytes) (ending : RxEnd)
  /-- ICV_VERDICT (R142): When the ICV has been checked, the frame passes the tail replay check and is delivered, or is discarded or stomped. -/
  | icvVerdict (tag : Fin 16384)
  /-- SCHEDULER_DECISION (R300): At a decision instant the scheduler picks class 7 or a DWRR class that is eligible and releases its head frame. -/
  | schedulerDecision (port : Port64)
  /-- FRAME_DEPARTURE_DONE (R95): When a frame's tail has left the port, its tag and cells are freed. -/
  | frameDepartureDone (port : Port64)
  /-- FRAME_ABORT (R338): A raw LOS, LOL or LOBL condition or an invalid or /E/ code inside a frame ends it, with a stomp or a discard. -/
  | frameAbort (port : Port64)
  /-- CLIENT_BLOCK_RECEIVED (R152): A trunk client 64b/66b block enters the seal-side elastic buffer. -/
  | clientBlockReceived (span : SpanNo) (block : Block66)
  /-- STITCH_BIND (R170): Taking a stitch's P0 binds the stitch to an SA and a tag and forms its header, or fill is sent instead. -/
  | stitchBind (span : SpanNo)
  /-- MARKER_BLOCK (R161): A trunk marker block is received and counts toward marker lock and deskew. `position` is the
  bit of the lane at which it began, counted on the port's clock alike for all its lanes. -/
  | markerBlock (span : SpanNo) (lane : Fin 8) (position : Nat) (marker : Bytes)
  /-- MARKER_LOCK_LOSS (R161): Four consecutive expected markers missing lose marker lock on a lane. -/
  | markerLockLoss (span : SpanNo) (lane : Fin 8)
  /-- STITCH_WORD_MATCH (R175): In HUNT, a block with the stitch word creates a candidate, or is counted in OPEN_CANDFULL. -/
  | stitchWordMatch (span : SpanNo) (position : Nat)
  /-- STITCH_HEADER_CHECK (R175): A header at a candidate's or the lock's expected position is judged and moves the receiver between HUNT and LOCK. `errored`: one of its blocks lies in an uncorrectable codeword. -/
  | stitchHeaderCheck (span : SpanNo) (position : Nat) (h1 h2 : Block257) (errored : Bool)
  /-- STITCH_TAG_CHECK (R177): When a stitch's tag has been checked in LOCK, the stitch is delivered or replaced. -/
  | stitchTagCheck (span : SpanNo) (body : Bytes)
  /-- STITCH_RELEASE (R179): Each verified client bit leaves the client port at the fixed T_OPEN after its line bit. -/
  | stitchRelease (span : SpanNo)
  /-- TRUNK_BINDING_WRITE (R182): A write to FRM_TRK_TXSC, RXSC or PEER is stored, and is applied at once while CFG_ERR is 1. -/
  | trunkBindingWrite (addr : Addr) (value : Word)
  /-- SC_CREATE (R195): A SECW commit with OP CREATE checks the staged entry and creates the SC with both slots EMPTY. -/
  | scCreate
  /-- SC_MODIFY (R195): A SECW commit with OP MODIFY checks the entry and holds it pending until the SC's next switch. -/
  | scModify
  /-- SC_DELETE (R196): A SECW commit with OP DELETE empties both slots and removes the SC. -/
  | scDelete
  /-- SCW_COMMIT_NO_OP (R194): A SECW commit with OP 0 completes with RESERVED_ENC and changes nothing. -/
  | scwCommitNoOp
  /-- SCW_RESULT (R193): Within 2 µs of GO the commit's check ends, and BUSY clears with CODE set. -/
  | scwResult
  /-- SC_READBACK_SELECT (R221): A write to SEC_SCR_SEL loads that SC's words, state and epoch within 2 µs. -/
  | scReadbackSelect (value : Word)
  /-- SA_READBACK_SELECT (R221): A write to SEC_SAR_SEL loads that SA's state, epoch, PN, MARK and SSCI within 2 µs. -/
  | saReadbackSelect (value : Word)
  /-- EPOCH_HOST_TRIGGER (R203): A write to SEC_EPOCH_CMD ends the SC's epoch if its next slot is READY, and is refused with NOT_READY otherwise. -/
  | epochHostTrigger (value : Word)
  /-- EPOCH_COUNT_EXPIRE (R201): An SA that has bound EP_COUNT × 65,536 frames or stitches triggers the end of the epoch. -/
  | epochCountExpire (sc : TxSc)
  /-- EPOCH_TIME_EXPIRE (R201): Expiry of EP_TIME triggers the end of the epoch. -/
  | epochTimeExpire (sc : TxSc)
  /-- PN_SOFT (R201): Reaching the soft PN limit triggers a switch if the next slot is READY, and otherwise posts PN_SOFT. -/
  | pnSoft (sc : TxSc)
  /-- PN_HARD (R211): An SA that has assigned its last PN empties its slot and triggers a switch or key gap. -/
  | pnHard (sc : TxSc)
  /-- ORPHAN_GRACE_EXPIRE (R220): Expiry of an orphaned SA's grace empties its slot. -/
  | orphanGraceExpire (sa : SaNo)
  /-- CINCH_INSTANT (R202): When the cinch instant is reached on CINCH_TB, SCs with CINCH_EN = 1 take an epoch trigger. -/
  | cinchInstant
  /-- OVERLAP_EXPIRE (R207): Expiry of the overlap timer empties an OLD receive slot and starts its refill. -/
  | overlapExpire (sc : RxSc)
  /-- SLOT_FILL_START (R199): The key sequencer takes up a requested fill and derives or unwraps the SA into the key store. -/
  | slotFillStart
  /-- SLOT_FILL_DONE (R199): After the MARK is journalled and any partner has acknowledged, the slot is marked READY in one step. -/
  | slotFillDone
  /-- MARK_JOURNAL_DONE (R210): A MARK journal write completes, and the next reservation block may be assigned. -/
  | markJournalDone (sa : SaNo)
  /-- HOLD_LIMIT_EXPIRE (R218): The keeper hold limit passes after gap entry, and class 7 frames are then discarded. -/
  | holdLimitExpire (sc : TxSc)
  /-- TK_ACCEPT (R230): KEYQ TK_ACCEPT verifies a signed request and derives a transport key from the hybrid secret. -/
  | tkAccept (input : DmaData) (written : Bool)
  /-- PARENT_LOAD (R242): KEYQ PARENT_LOAD unwraps a parent key into the key store and marks it valid. -/
  | parentLoad (input : DmaData)
  /-- PARENT_INVALIDATE (R244): KEYQ PARENT_INVALIDATE clears a parent, writes a tombstone and orphans its derived SAs. -/
  | parentInvalidate (written : Bool)
  /-- SA_INSTALL (R197): KEYQ SA_INSTALL unwraps a delivered SA into the slot of its epoch and fills it. -/
  | saInstall (input : DmaData)
  /-- SA_DERIVE (R200): KEYQ SA_DERIVE starts a derived SC at an epoch by filling its slots. -/
  | saDerive
  /-- SA_RETIRE (R238): KEYQ SA_RETIRE empties an OLD receive slot or a READY transmit slot. -/
  | saRetire
  /-- VAULT_COMMIT (R243): KEYQ VAULT_COMMIT writes the valid parent set as a new vault generation. -/
  | vaultCommit (verified : Bool)
  /-- ATTEST (R259): KEYQ ATTEST writes a statement signed over the module's measurements and the nonce. -/
  | attest (input : DmaData) (delivered : Bool)
  /-- KEY_QUERY_IDENTITY (R239): KEY_QUERY function 0 returns the four identity public keys. -/
  | keyQueryIdentity (delivered : Bool)
  /-- KEY_QUERY_PARENT (R239): KEY_QUERY function 1 returns the state of a parent index. -/
  | keyQueryParent
  /-- KEY_QUERY_TRANSPORT (R239): KEY_QUERY function 2 returns the valid transport slots and TK_FLOOR. -/
  | keyQueryTransport
  /-- KEY_QUERY_STATUS (R239): KEY_QUERY function 3 returns DRBG, re-mask and vault-generation status. -/
  | keyQueryStatus
  /-- KEEPER_KEY_ROLL (R252): KEYQ KEEPER_KEY_ROLL installs a new keeper key of a higher generation in the enrolment record. -/
  | keeperKeyRoll (input : DmaData) (written : Bool)
  /-- KEYQ_BAD_OPCODE (R240): A descriptor with an opcode outside 0x01–0x0A completes with BAD_OPCODE. -/
  | keyqBadOpcode
  /-- TAMPER_SOURCE (R254): A tamper source passes from absent to present and raises an alarm or starts a zeroize. -/
  | tamperSource (source : Fin 11) (present : Bool)
  /-- ZEROIZE_CLEAR_DONE (R256): When both key-store banks and the islands are cleared, ZDONE is set and the lifecycle and records are updated. -/
  | zeroizeClearDone
  /-- DRBG_REINSTANTIATED (R256): After a zeroize the DRBG is instantiated again and the identity keys become available. -/
  | drbgReinstantiated
  /-- DRBG_TEST_FAIL (R228): A failure of a continuous test puts the DRBG in error and raises the keeper alarm. -/
  | drbgTestFail
  /-- DRBG_RETRY (R228): 100 ms after an error, the module retries instantiation of the DRBG. -/
  | drbgRetry (pass : Bool)
  /-- REMASK_WORD (R247): The re-mask engine re-masks its next word pair in one indivisible update. -/
  | remaskWord
  /-- IDENTITY_KEY_EXPIRE (R227): 1 s after their last use, the identity keys are cleared from the identity region. -/
  | identityKeyExpire
  /-- LEARN_COMMIT (R282): The learn engine commits the next queued learn request as an insert, refresh, conflict or move. -/
  | learnCommit
  /-- RELOCATE_CLEAR (R283): At least 1 µs after a relocation copy, the original entry is cleared. -/
  | relocateClear
  /-- AGER_VISIT (R285): The ager visits a bucket and removes its expired dynamic entries through the learn engine. -/
  | agerVisit (bucket : Nat)
  /-- CLS_AGE_WRITE (R284): A write of CLS_AGE sets the age time, or is ignored with AGE_REJ set when out of range. -/
  | clsAgeWrite (value : Word)
  /-- LOOKUP (R287): CLS command LOOKUP copies the peer entry with the given key into CLS_CMD_DATA. -/
  | lookup
  /-- INSERT (R287): CLS command INSERT adds a host-written peer entry under R283. -/
  | insert
  /-- UPDATE (R287): CLS command UPDATE replaces FLAGS, TARGET, STAMP and USER of an existing entry. -/
  | update
  /-- DELETE (R287): CLS command DELETE removes the peer entry with the given key. -/
  | delete
  /-- AGE_SWEEP (R287): CLS command AGE_SWEEP starts removing dynamic entries of the listed spans older than the age given. -/
  | ageSweep
  /-- FLUSH_SPAN (R287): CLS command FLUSH_SPAN starts removing the entries of the listed spans. -/
  | flushSpan
  /-- SWEEP_BUCKET (R287): A running AGE_SWEEP or FLUSH_SPAN visits its next bucket and removes the matching entries. -/
  | sweepBucket
  /-- PREFIX_INSERT (R276): CLS command PREFIX_INSERT places a prefix entry at an index that keeps length order. -/
  | prefixInsert
  /-- PREFIX_DELETE (R276): CLS command PREFIX_DELETE clears the prefix entry with the given KEY and MASK. -/
  | prefixDelete
  /-- CLS_BAD_CODE (R288): A CLS command of code 0x0 or 0x9–0xF completes with BAD_CODE. -/
  | clsBadCode (code : BitVec 4)
  /-- CLS_CMD_COMPLETE (R288): A CLS command ends: RESULT and CLS_CMD_OUT are written, BUSY clears and vector 3 is raised. -/
  | clsCmdComplete
  /-- BUCKET_LOCK_READ (R290): A read of a bucket lock word that finds it free takes the lock for the host. -/
  | bucketLockRead (bucket : Nat)
  /-- BUCKET_ENTRY_WRITE (R290): A window write goes to the bucket's shadow under the host lock, and is a violation otherwise. -/
  | bucketEntryWrite (addr : Addr) (words : List Word)
  /-- BUCKET_COMMIT (R290): A write of 0 to the lock word commits the shadow after its checks and releases the lock. -/
  | bucketCommit (bucket : Nat)
  /-- BUCKET_ABORT (R290): A lock-word write with ABORT = 1 discards the shadow and releases the lock. -/
  | bucketAbort (bucket : Nat)
  /-- BUCKET_LOCK_TIMEOUT (R290): A lock held longer than 100 µs is released as ABORT and counted. -/
  | bucketLockTimeout
  /-- CLSP_COMMIT (R292): CLS_PORT_COMMIT.GO copies the CLS_PORT shadows into a pending set for each port's next frame boundary. -/
  | clspCommit
  /-- TABLE_WINDOW_WRITE (R292): A write to the prefix-table read view is ignored and counted in CLS_WIN_VIOL. -/
  | tableWindowWrite (addr : Addr) (value : Word)
  /-- GATE_CYCLE_START (R304): A gate cycle starts at M + P + k × C, or a running cycle is cut short there, and a pending list takes effect. -/
  | gateCycleStart (port : Port32)
  /-- GATE_ENTRY_CHANGE (R304): The end of a gate entry's duration opens and closes classes as the next entry gives. -/
  | gateEntryChange (port : Port32)
  /-- GATE_LIST_COMMIT (R307): SCH_GCL_COMMIT.GO checks the shadow gate list and sets PENDING or a refusal code. -/
  | gateListCommit
  /-- GATE_ENTRY_ACCESS (R320): An access to SCH_GCL_GATES reads or writes entry IDX and advances IDX. -/
  | gateEntryAccess (write : Option Word)
  /-- SCHP_COMMIT (R310): SCH_PCOMMIT.GO checks and applies a line port's weights and shapers at its next frame boundary. -/
  | schpCommit (port : Port32)
  /-- SCHC_COMMIT (R320): SCH_CCOMMIT.GO applies a client port's DWRR weights at its next frame boundary. -/
  | schcCommit (port : Port32)
  /-- SERVICE_MODE_WRITE (R310): A write of SCH_SVC with MODE 1–3 resets every class 0–6 bucket of the port by FILL. -/
  | serviceModeWrite (port : Port32) (value : Word)
  /-- TOKEN_ACCRUE (R309): A token bucket gains RATE / 8 bytes per µs up to DEPTH, which can make its class eligible. -/
  | tokenAccrue (port : Port32) (cls : Fin 8)
  /-- SPILL_WRITE_DONE (R311): When a spill write to DRAM completes, the frame's cells and tag are freed. -/
  | spillWriteDone (port : Port32) (cls : Fin 8)
  /-- SPILL_READBACK (R312): While on-die depth is below half the threshold and a tag is free, the next spilled frame is read back in queue order. -/
  | spillReadback (port : Port32) (cls : Fin 8)
  /-- PAUSE_REPEAT (R314): While occupancy stays at or above XON, PAUSE is sent again every half quanta time. -/
  | pauseRepeat (port : Port32)
  /-- PAUSE_RECEIVED (R317): A PAUSE or PFC frame received with FLOW = 1 or 2 pauses the matching client queues and is counted. -/
  | pauseReceived (port : Port32) (frame : Bytes)
  /-- PAUSE_EXPIRE (R317): The pause time received runs out, and the paused client queues become eligible again. -/
  | pauseExpire (port : Port32)
  /-- MAC_CONTROL_DISCARD (R316): A MAC control frame received on a client port with FLOW = 0 is discarded and counted. -/
  | macControlDiscard (port : Port32) (frame : Bytes)
  /-- QUEUE_SAMPLE (R318): Every PERIOD_NS all 512 queues are sampled for depth and head delay into their records. -/
  | queueSample
  /-- LS_SELECT (R318): A write to SCH_LS_SEL loads that queue's record into the SCH_LS registers as one unit. -/
  | lsSelect (value : Word)
  /-- LS_CLEAR (R318): SCH_LS_CLR.GO clears the selected queue's sample record. -/
  | lsClear
  /-- DEFECT_DECLARE (R341): SET_MS consecutive present ticks declare a defect and start its consequent actions and reporting. -/
  | defectDeclare (port : Port64) (defect : Fin 12)
  /-- DEFECT_CLEAR (R341): CLR_MS consecutive absent ticks clear a defect and end its consequent actions. -/
  | defectClear (port : Port64) (defect : Fin 12)
  /-- PORT_ENABLE_WRITE (R325): A write of PEN_EN powers a port's lanes up or down and clears its declared defects on disable. -/
  | portEnableWrite (port : Port64) (value : Word)
  /-- DINT_COMMIT (R342): PEN_INTEG_COMMIT.GO queues the integration times for the next TB0 second marker. -/
  | dintCommit
  /-- TXFFE_WRITE (R326): A write of LANE_TXFFE takes effect at a symbol boundary, or is rejected whole with FFE_REJ set. -/
  | txffeWrite (lane : Fin 72) (value : Word)
  /-- GUARD_WINDOW (R328): At the end of each 65,536-symbol window the guard freezes or resumes receive adaptation. -/
  | guardWindow (lane : Fin 72) (density : BitVec 10) (minPop : BitVec 10) (good : Bool)
  /-- CDR_LOCK (R325): A lane's CDR reaches lock and adaptation starts. -/
  | cdrLock (lane : Lane)
  /-- ANEG_COMPLETE (R339): Clause 37 auto-negotiation completes on a 1000BASE-X port. -/
  | anegComplete (port : Port64)
  /-- PRBS_LOCK (R335): A PRBS checker locks after 2,048 error-free bits and starts counting. -/
  | prbsLock (lane : Fin 72)
  /-- PRBS_LOSS (R335): 256 or more errors within 2,048 bits lose checker lock and set PRBS_LOST. -/
  | prbsLoss (lane : Fin 72) (errors : Nat) (bits : Nat)
  /-- LANE_PRBS_WRITE (R335): A write of LANE_PRBS starts or stops the generator or checker, and clears the counts when CHK_EN rises. -/
  | lanePrbsWrite (lane : Fin 72) (value : Word) (report : List LineReport)
  /-- ERROR_INJECT (R336): LANE_INJ.GO injects one bit or a burst of errored bits in the lane's output. -/
  | errorInject (lane : Fin 72) (value : Word)
  /-- HCK_LOCK (R332): HCK_R is present and the harness sampling clock locks, and training moves to ALIGN. -/
  | hckLock
  /-- TRAINING_WORD (R332): A harness training word received advances alignment, check, deskew or UP. -/
  | trainingWord (lane : Fin 8) (word : BitVec 64)
  /-- TRAINING_TIMEOUT (R332): Harness training that has not reached UP 1 ms after CLOCK fails with its cause recorded. -/
  | trainingTimeout
  /-- TRAINING_RESTART (R332): 10 ms after a failed training, the harness starts training again. -/
  | trainingRestart
  /-- HARNESS_DOWN (R333): A loss of the harness clock, signal or link takes the harness down, counts it, posts an event and retrains. -/
  | harnessDown (cause : HarnessLoss)
  /-- HARNESS_RETRAIN (R351): LANE_HRN_CTRL.RETRAIN starts harness training at once. -/
  | harnessRetrain
  /-- NS_WRAP (R353): A time base's NS wraps to 0 and WRAP increments. -/
  | nsWrap (base : Base)
  /-- SECOND_MARKER (R355): NS reaching M fires the second marker, advances M and TB_SECBASE, and runs the per-second actions. -/
  | secondMarker (base : Base) (report : List LineReport)
  /-- PPS_OUT_FALL (R364): WIDTH_US after the rising edge, 1PPS_OUT goes low. -/
  | ppsOutFall
  /-- TOD_TX_SEND (R366): 1 ms after each 1PPS_OUT edge, a time-of-day message is sent on TOD_TX. -/
  | todTxSend
  /-- TOD_RX_MESSAGE (R367): A time-of-day message received on TOD_RX corrects TB_SECBASE or is counted bad. -/
  | todRxMessage (message : Bytes)
  /-- SECMARK_WRITE (R355): A write of TB_SECMARK moves the marker if it lies less than 2^31 ns ahead, and is rejected and counted otherwise. -/
  | secmarkWrite (base : Base) (value : Word)
  /-- SECBASE_WRITE (R356): A write of TB_SECBASE_HI applies both halves of the seconds count. -/
  | secbaseWrite (base : Base) (value : Word)
  /-- TB_STEP (R358): A write of TB_STEP adds a signed step to NS, moves M and WRAP, and sets STEPPED. -/
  | tbStep (base : Base) (value : Word)
  /-- TB_SET (R358): TB_SET_CTRL.GO sets NS, FRAC and WRAP and acts as a step. -/
  | tbSet (base : Base) (value : Word)
  /-- OFFSET_SAMPLE (R361): A write of TB_OFFSET gives the servo a sample, or a step when it exceeds the threshold. -/
  | offsetSample (base : Base) (value : Word)
  /-- PPS_IN_EDGE (R361): A 1PPS_IN rising edge is stamped and gives a servo sample on the base with TB_SRC = 2. -/
  | ppsInEdge
  /-- PPS_MISS (R362): No 1PPS_IN edge within 1.1 s of the last increments TIM_PPS_MISS. -/
  | ppsMiss
  /-- HOLDOVER_ENTRY (R362): TB_HOLD_S seconds without samples put the base into holdover, with FADJ held at the integral. -/
  | holdoverEntry (base : Base)
  /-- FADJ_WRITE (R360): A write of TB_FADJ sets the frequency adjustment and loads the servo integral. -/
  | fadjWrite (base : Base) (value : Word)
  /-- SERVO_CTRL_WRITE (R360): A write of TB_SERVO enabling the servo loads its integral with FADJ. -/
  | servoCtrlWrite (base : Base) (value : Word)
  /-- FREF_LOST (R363): Loss or drift of F10M_IN moves the base to the reference clock and sets FREF_LOST. -/
  | frefLost (base : Base)
  /-- FREF_RESTORED (R363): 1 s after F10M_IN is valid again, the base returns to it with no step. -/
  | frefRestored (base : Base)
  /-- TIME_CAPTURE (R354): TIM_CAPTURE.GO copies all four bases at one tick into TIM_CAP_* and sets DONE. -/
  | timeCapture
  /-- EVIDENCE_RECORD_WRITE (R395): The ring writer stores a queued record, or counts it lost, and extends the hash chain. -/
  | evidenceRecordWrite
  /-- TRIG_IN (R398): A rising edge on TRIG_IN triggers the evidence ring when enabled. -/
  | trigIn
  /-- EVR_TRIG (R398): A host write of EVR_CTRL.TRIG triggers the evidence ring when enabled. -/
  | evrTrig
  /-- EVR_RELEASE (R399): EVR_CTRL.RELEASE returns a FROZEN ring to RUN, with a GAP record next. -/
  | evrRelease
  /-- FREEZE (R398): After EVR_POST records, the freeze checkpoint is written, the ring is FROZEN and vector 7 is raised. -/
  | freeze
  /-- EVR_READOUT (R400): EVR_RD_CMD.GO starts a DMA copy of records or checkpoints to host memory. -/
  | evrReadout (value : Word)
  /-- READOUT_COMPLETE (R400): A readout ends with its code, EVR_RD_DONE is set and vector 7 is raised. -/
  | readoutComplete (dmaOk : Bool)
  /-- PATROL_SCRUB (R384): The patrol scrubber reads a burst, corrects it and counts CE or UE. -/
  | patrolScrub (channel : Channel) (partition : Fin 5) (item : Nat) (outcome : ScrubOutcome)
  /-- CHANNEL_FENCE_WRITE (R385): A host write of 1 to EVR_CH_FENCE fences that channel. -/
  | channelFenceWrite (value : Word)
  /-- ADDRESS_MAP_REBUILT (R387): After a fence, the partitions are laid out anew and emptied, and recording restarts with a START record. -/
  | addressMapRebuilt
  /-- NOP (R435): Keeper NOP collects the response to the latest request. -/
  | nop (request : Bytes)
  /-- GET_STATUS (R441): Keeper GET_STATUS returns status, alarms, tamper, zeroize count and generations. -/
  | getStatus (request : Bytes)
  /-- GET_CHALLENGE (R444): Keeper GET_CHALLENGE returns the current 32-byte challenge. -/
  | getChallenge (request : Bytes)
  /-- LOAD_SEG (R443): Keeper LOAD_SEG writes bytes into the staging buffer at OFFSET. -/
  | loadSeg (request : Bytes)
  /-- IMG_WRITE (R445): Keeper IMG_WRITE writes words into the staged keeper image. -/
  | imgWrite (request : Bytes)
  /-- IMG_COMMIT (R446): Keeper IMG_COMMIT checks the staged image, writes it durably and applies it. -/
  | imgCommit (request : Bytes) (written : Bool)
  /-- IMG_DISCARD (R445): Keeper IMG_DISCARD resets the staged image to the active one. -/
  | imgDiscard (request : Bytes)
  /-- ZEROIZE (R441): Keeper ZEROIZE acts as tamper source KEEPER. -/
  | zeroize (request : Bytes)
  /-- ALARM_CLEAR (R449): Keeper ALARM_CLEAR clears the keeper alarm bits in MASK whose conditions have ended. -/
  | alarmClear (request : Bytes)
  /-- TRIGGER (R441): Keeper TRIGGER acts as the evidence trigger source KEEPER when routed. -/
  | trigger (request : Bytes)
  /-- TAKEOVER (R478): Keeper TAKEOVER starts a harness takeover when permitted and healthy. -/
  | takeover (request : Bytes)
  /-- WARM_RESET (R441): Keeper WARM_RESET schedules a warm reset 10 ms after the response is ready. -/
  | warmReset (request : Bytes)
  /-- KEEPER_RESET_DELAY_EXPIRE (R441): 10 ms after a WARM_RESET response is ready, the warm reset is performed. -/
  | keeperResetDelayExpire
  /-- DEBUG_LEVEL (R454): Keeper DEBUG_LEVEL sets Closed or Observe, or Invasive in Blank with a zeroize first. -/
  | debugLevel (request : Bytes)
  /-- NO_INVASIVE (R441): Keeper NO_INVASIVE blows the fuse that permanently disables Invasive debug. -/
  | noInvasive (request : Bytes) (written : Bool)
  /-- ENROL (R451): Keeper ENROL checks the enrolment package, writes the record, blows the fuse and opens a new vault. -/
  | enrol (request : Bytes) (written : Bool)
  /-- RELEASE (R452): Keeper RELEASE checks a token and returns a Quarantined module to Operational with a new vault key. -/
  | release (request : Bytes) (written : Bool)
  /-- UNLOCK (R454): Keeper UNLOCK checks a token and enters Invasive debug from Quarantined. -/
  | unlock (request : Bytes)
  /-- RETIRE (R450): Keeper RETIRE checks a token, zeroizes and blows the Retired fuse. -/
  | retire (request : Bytes) (written : Bool)
  /-- KEEPER_BAD_OPCODE (R438): A keeper request with an undefined opcode is answered BAD_OPCODE after consuming its SEQ. -/
  | keeperBadOpcode (request : Bytes)
  /-- LOCKOUT_EXPIRE (R439): One second after it starts, the keeper authentication lockout ends. -/
  | lockoutExpire
  /-- INPUT_LOSS (R457): The absent declaration of the mains input enters Hold. -/
  | inputLoss
  /-- INPUT_RETURN (R502): Input declared present again within 20 ms returns the module to Run or Trim and counts a dip. -/
  | inputReturn
  /-- HOLD_EXPIRE (R457): 20 ms after the loss of input, the orderly stop closes admission and finishes journal writes. -/
  | holdExpire
  /-- RAILS_OFF (R457): At the end of the orderly stop the rails go off and the module enters Battery or Off. -/
  | railsOff
  /-- TEMP_SAMPLE (R505): Every 10 ms the temperature sensors are sampled, and HOT or a thermal stop may follow. -/
  | tempSample (die : BitVec 12) (plate : BitVec 12) (supply : Option SupplyReading)
  /-- REF_LOST (R510): A reference with no edge for 50 ns puts every PLL in holdover. -/
  | refLost
  /-- REF_LOSS_EXTENDED (R510): 10 ms without the reference makes every span run as Discard. -/
  | refLossExtended
  /-- REF_BACK (R510): A reference valid for 100 ms relocks the PLLs and resumes the spans. -/
  | refBack
  /-- CLOCK_FAULT (R508): A PLL lock loss or two CLOCK fences within 10 ms move the islands plan to the aligned plan. -/
  | clockFault (cause : ClockFaultCause)
  /-- ALIGN (R508): A host write of CLK_CTRL.ALIGN moves the module to the aligned plan. -/
  | align
  /-- ROOT_LOCK_LOSS (R509): Loss of lock of the 3.2 GHz root or a counted PLL under the aligned plan causes a warm reset. -/
  | rootLockLoss
  /-- CLK_EN_WRITE (R512): A write of CLK_EN opens unit gates within 1 µs and defers closes until the unit's port is idle. -/
  | clkEnWrite (value : Word)
  /-- GATE_CLOSE (R512): A deferred gate closes when the port is idle, or after 64 cycles by aborting the access in progress. -/
  | gateClose (unit : Fin 5) (busy : Bool)
  /-- CLKOBS_SELECT (R513): A change of the CLKOBS source, divider or enable holds the output low and restarts it. -/
  | clkobsSelect (addr : Addr) (value : Word)
  /-- INSTALL (R514): PWR_FW_CTRL.OP INSTALL starts fetching a firmware image into the bank that is not running. -/
  | install
  /-- INSTALL_DONE (R514): The fetched firmware image is verified and its bank marked valid, or a result code is posted. -/
  | installDone (image : FwImage)
  /-- PREFER (R514): PWR_FW_CTRL.OP PREFER makes the valid bank that is not running the preferred bank. -/
  | prefer
  /-- RESTART (R515): PWR_FW_CTRL.OP RESTART triggers a firmware restart. -/
  | restart
  /-- FW_RAISE_FLOOR (R514): PWR_FW_CTRL.OP RAISE_FLOOR sets the fuse firmware floor to the running version. -/
  | fwRaiseFloor
  /-- MRESET_N (R516): MRESET_N held low for 10 µs or more triggers a warm reset. -/
  | mresetN
  /-- WARM_RESET_DRAINED (R517): Once frames and journal writes have finished, the core reset is asserted and start-up continues at step 3. -/
  | warmResetDrained
  /-- COLD_START (R519): Input declared present after Off, Battery or a completed stop starts the supply and start-up. -/
  | coldStart
  /-- STARTUP_STEP (R519): A start-up step completes and the next begins, up to spans enabled at step 9. -/
  | startupStep (report : StartupReport)
  /-- ENUM_COUNT (R465): A received ENUM count gives a joined module its position and is forwarded with COUNT + 1. -/
  | enumCount (message : Bytes)
  /-- ENUM_REQUEST (R466): An ENUM request reaching the head makes it send a count. -/
  | enumRequest (message : Bytes)
  /-- ALARM (R468): A received chain ALARM message updates the record of its origin position. -/
  | alarm (message : Bytes)
  /-- CINCH (R469): A received CINCH message schedules the cinch instant and records it. -/
  | cinch (message : Bytes)
  /-- ZEROIZE_MESSAGE (R470): A received ZEROIZE message is forwarded and, when accepted and not a duplicate, starts a zeroize with source CHAIN. -/
  | zeroizeMessage (message : Bytes)
  /-- HEARTBEAT (R468): A received HEARTBEAT message updates the record of its origin position. -/
  | heartbeat (message : Bytes)
  /-- CHAIN_MESSAGE_SEND (R464): The chain port sends its next own or forwarded message in priority order. -/
  | chainMessageSend
  /-- ENUM_TIMER (R465): Every 10 ms the head sends an ENUM count. -/
  | enumTimer
  /-- ORPHAN_TIMEOUT (R467): 35 ms without a count puts a module in Orphan Chain, or sets RING_OPEN at the head. -/
  | orphanTimeout
  /-- CHAIN_LINK_DOWN (R461): Loss of chain synchronisation for 1 ms takes the input link down. -/
  | chainLinkDown
  /-- CHAIN_LINK_UP (R466): The return of the input link makes a joined module send an ENUM request. -/
  | chainLinkUp
  /-- HEARTBEAT_TIMER (R463): Every HEARTBEAT_MS a joined module with bit 3 set sends a HEARTBEAT. -/
  | heartbeatTimer
  /-- PEER_RECORD_EXPIRE (R468): A position record older than its age limit has VALID cleared. -/
  | peerRecordExpire (position : Fin 64)
  /-- ZEROIZE_REPEAT (R470): At 10 µs intervals the zeroizing module repeats its ZEROIZE message three times. -/
  | zeroizeRepeat
  /-- CINCH_COMMAND (R469): CHN_CINCH_CMD.GO originates a cinch, or is refused with a code. -/
  | cinchCommand
  /-- HELLO (R475): A received HELLO record pairs the modules and decides their roles, or fails with cause PEER. -/
  | hello (record : Bytes)
  /-- HELLO_RETRY (R475): A failed HELLO is retried every 1 s. -/
  | helloRetry
  /-- ACK (R474): A received ACK record acknowledges harness records cumulatively. -/
  | ack (record : Bytes)
  /-- ACK_TIMER (R474): While records are outstanding, each side sends an ACK at least every 1 µs. -/
  | ackTimer
  /-- HARNESS_RETRANSMIT (R474): No progress for 10 µs resends from the oldest unacknowledged record. -/
  | harnessRetransmit
  /-- SC_RECORD (R476): A received SC record is applied on the standby as a SECW commit. -/
  | scRecord (record : Bytes)
  /-- EPOCH_RECORD (R476): A received EPOCH record updates the standby's epoch and slot of an SC. -/
  | epochRecord (record : Bytes)
  /-- MARK_RECORD (R476): A received MARK record is journalled on the standby and then acknowledged. -/
  | markRecord (record : Bytes)
  /-- SNAP_END (R476): A received SNAP_END ends the snapshot and sets SYNCED. -/
  | snapEnd (record : Bytes)
  /-- LEARN_RECORD (R476): A received LEARN record mirrors a peer-table change on the standby. -/
  | learnRecord (record : Bytes)
  /-- GATE_RECORD (R476): A received GATE record aligns the standby's gate cycle. -/
  | gateRecord (record : Bytes)
  /-- TAKEOVER_RECORD (R479): A received TAKEOVER makes the active stop binding, journal STANDBY, send its final marks and send TAKEOVER_ACK. -/
  | takeoverRecord (record : Bytes)
  /-- TAKEOVER_ACK (R479): A received TAKEOVER_ACK lets the standby journal its marks and claim. -/
  | takeoverAck (record : Bytes)
  /-- TAKEOVER_JOURNAL_DONE (R479): When the standby's takeover journal write completes, its spans carry traffic as ACTIVE or SOLO. -/
  | takeoverJournalDone
  /-- HOST_TAKEOVER (R478): CHN_HRN_CMD.TAKEOVER starts a takeover, or is refused with a code. -/
  | hostTakeover
  /-- SOLO_TIMEOUT (R477): CHN_HRN_WAIT seconds unpaired in WAIT make an eligible module SOLO. -/
  | soloTimeout
  /-- TRACE_START (R455): Writing DBG_TRACE_CTRL.EN = 1 clears the trace buffer and starts a capture. -/
  | traceStart (value : Word)
  /-- MRESET_N_RELEASE (R517): MRESET_N returning high releases a warm reset that is still held, and start-up continues from step 3. -/
  | mresetNRelease
  /-- VBAT_AND_CAPACITOR_LOST (R456): In Battery, the loss of VBAT once the bridging capacitor is exhausted moves the module to Off, and the vault key is lost. -/
  | vbatAndCapacitorLost
  /-- KEEPER_BAD_FRAME (R438): A keeper transaction whose frame has a wrong KMAGIC, a LEN above 232 or ends before KSEL_N rises is answered BAD_FRAME. -/
  | keeperBadFrame (request : Bytes)
  /-- CHAIN_BAD_CRC (R464): A chain message whose CRC fails is dropped and counted in CHN_CRC_ERR. -/
  | chainBadCrc (message : Bytes)
  /-- D3HOT_ENTRY (R405): A configuration write that places the function in D3hot stops the module serving memory requests while traffic continues. -/
  | d3hotEntry
deriving DecidableEq, Repr

end Sys2Proof
end

