-- ==== Sys2Proof/Machine/Bits.lean ====
section
/-! DEFINITION. Bit fields, byte orders and list helpers: registers are little-endian (R4), wire
formats are most significant byte first (R5), memory structures little-endian (R6). -/

namespace Sys2Proof.Machine

/-- Bits [lsb+len−1 : lsb] of a number. -/
def field (v lsb len : Nat) : Nat := (v >>> lsb) % 2 ^ len

/-- `v` with bits [lsb+len−1 : lsb] replaced by `x`. -/
def putField (v lsb len x : Nat) : Nat :=
  v - (field v lsb len) * 2 ^ lsb + (x % 2 ^ len) * 2 ^ lsb

/-- Bit `n` of a number. -/
def bitOf (v n : Nat) : Bool := Nat.testBit v n

/-- 1 for true, 0 for false. -/
def b2n (b : Bool) : Nat := if b then 1 else 0

/-- `v` with bit `n` set to `b`. -/
def putBit (v n : Nat) (b : Bool) : Nat := putField v n 1 (b2n b)

/-- A register word from a number. -/
def word (n : Nat) : Word := BitVec.ofNat 32 n

/-- The little-endian value of a byte string (R6). -/
def leNat : Bytes → Nat
  | [] => 0
  | b :: t => b.toNat + 256 * leNat t

/-- The big-endian value of a byte string (R5). -/
def beNat (bs : Bytes) : Nat := bs.foldl (fun a b => 256 * a + b.toNat) 0

/-- `n` little-endian bytes of a number (R6). -/
def leBytes : Nat → Nat → Bytes
  | 0, _ => []
  | n + 1, v => BitVec.ofNat 8 v :: leBytes n (v / 256)

/-- `n` big-endian bytes of a number (R5). -/
def beBytes (n v : Nat) : Bytes := (leBytes n v).reverse

/-- `n` bytes from offset `o`. -/
def slice (bs : Bytes) (o n : Nat) : Bytes := (bs.drop o).take n

/-- Little-endian number in `n` bytes at offset `o` (R6). -/
def leAt (bs : Bytes) (o n : Nat) : Nat := leNat (slice bs o n)

/-- Big-endian number in `n` bytes at offset `o` (R5). -/
def beAt (bs : Bytes) (o n : Nat) : Nat := beNat (slice bs o n)

/-- Byte `o` as a number, 0 beyond the end. -/
def byteAt (bs : Bytes) (o : Nat) : Nat := (bs.getD o 0).toNat

/-- Replaces the bytes at offset `o`. -/
def splice (bs : Bytes) (o : Nat) (new : Bytes) : Bytes :=
  bs.take o ++ new ++ bs.drop (o + new.length)

/-- `n` zero bytes. -/
def zeros (n : Nat) : Bytes := List.replicate n 0

/-- Pads with zero bytes to `n`. -/
def padTo (n : Nat) (bs : Bytes) : Bytes := bs ++ zeros (n - bs.length)

/-- Bytewise exclusive or, to the shorter length. -/
def xorBytes (a b : Bytes) : Bytes := List.zipWith (· ^^^ ·) a b

/-- The two's-complement value of the low `w` bits. -/
def signedOf (w v : Nat) : Int :=
  let x := v % 2 ^ w
  if x < 2 ^ (w - 1) then (x : Int) else (x : Int) - (2 ^ w : Nat)

/-- The low `w` bits of an integer, two's complement. -/
def unsignedOf (w : Nat) (i : Int) : Nat := (i % ((2 ^ w : Nat) : Int)).toNat

/-- Sets element `i` of a list, which keeps its length. -/
def setAt {α : Type} (l : List α) (i : Nat) (a : α) : List α := l.set i a

/-- Applies `f` to element `i` of a list. -/
def modifyAt {α : Type} (l : List α) (i : Nat) (f : α → α) : List α := l.modify i f

/-- The bits of a mask, lowest first, of the low `n`. -/
def bitsOf (n mask : Nat) : List Nat := (List.range n).filter (fun i => mask.testBit i)

/-- The mask of a list of bit numbers. -/
def maskOf (l : List Nat) : Nat := l.foldl (fun m i => m ||| 2 ^ i) 0

/-- Saturating increment of a 32-bit counter. -/
def satInc (v by_ : Nat) : Nat := min (v + by_) 0xFFFFFFFF

end Sys2Proof.Machine
end

