-- ==== Sys2Proof/Machine/Crypto.lean ====
section
/-! DEFINITION. The symmetric cryptography the manual names by standard (R38, R127 to R131, R168,
R198, R225): CRC-32C and the Ethernet CRC, AES with 128- and 256-bit keys, GCM, CMAC, KW unwrap,
SHA-384, HMAC and the two KDFs. The standards' own text is not in the manual: PRESUMED from them (log
entry 4). -/

namespace Sys2Proof.Machine

/-- One reflected CRC step over a bit, for the reflected polynomial `poly`. -/
def crcBit (poly : BitVec 32) (c : BitVec 32) : BitVec 32 :=
  if c.getLsbD 0 then (c >>> 1) ^^^ poly else c >>> 1

/-- One byte into a reflected 32-bit CRC register. -/
def crcByte (poly : BitVec 32) (c : BitVec 32) (b : Byte) : BitVec 32 :=
  (List.range 8).foldl (fun x _ => crcBit poly x) (c ^^^ b.setWidth 32)

/-- A reflected CRC with initial value and final XOR of all ones. -/
def crc32With (poly : BitVec 32) (bs : Bytes) : BitVec 32 :=
  ~~~ (bs.foldl (crcByte poly) 0xFFFFFFFF#32)

/-- CRC-32C: polynomial 0x1EDC6F41 reflected, initial value and final XOR 0xFFFFFFFF (R38). -/
def crc32c (bs : Bytes) : Nat := (crc32With 0x82F63B78#32 bs).toNat

/-- The Ethernet frame check sequence, as the four bytes sent. -/
def ethFcs (bs : Bytes) : Bytes := leBytes 4 (crc32With 0xEDB88320#32 bs).toNat

/-- Multiplication by x in the AES field. -/
def xtime (b : Byte) : Byte :=
  if b.getLsbD 7 then (b <<< 1) ^^^ 0x1B#8 else b <<< 1

/-- Multiplication in the AES field: `n` bits of the second factor are taken. -/
def gmulN : Nat → Byte → Byte → Byte
  | 0, _, _ => 0
  | n + 1, a, b => (if b.getLsbD 0 then a else 0) ^^^ gmulN n (xtime a) (b >>> 1)

/-- Multiplication in the AES field. -/
def gmul (a b : Byte) : Byte := gmulN 8 a b

/-- The field inverse a^254, with 0 for 0. -/
def ginv (a : Byte) : Byte :=
  let a2 := gmul a a
  let a4 := gmul a2 a2
  let a8 := gmul a4 a4
  let a16 := gmul a8 a8
  let a32 := gmul a16 a16
  let a64 := gmul a32 a32
  let a128 := gmul a64 a64
  gmul a128 (gmul a64 (gmul a32 (gmul a16 (gmul a8 (gmul a4 a2)))))

/-- The AES S-box: inverse, then the affine map. -/
def subByte (a : Byte) : Byte :=
  let i := ginv a
  i ^^^ i.rotateLeft 1 ^^^ i.rotateLeft 2 ^^^ i.rotateLeft 3 ^^^ i.rotateLeft 4 ^^^ 0x63#8

/-- The inverse S-box. -/
def invSubByte (a : Byte) : Byte :=
  ginv (a.rotateLeft 1 ^^^ a.rotateLeft 3 ^^^ a.rotateLeft 6 ^^^ 0x05#8)

/-- Splits a byte string into columns of four. -/
def columns : Nat → Bytes → List Bytes
  | 0, _ => []
  | n + 1, bs => bs.take 4 :: columns n (bs.drop 4)

/-- The key-schedule words: `more` words are appended to those present, newest last. -/
def expandKey (nk : Nat) : Nat → Byte → List Bytes → List Bytes
  | 0, _, ws => ws
  | more + 1, rcon, ws =>
    let i := ws.length
    let prev := ws.getLastD []
    let first := i % nk = 0
    let t :=
      if first then
        let r := (prev.drop 1 ++ prev.take 1).map subByte
        xorBytes r [rcon, 0, 0, 0]
      else if nk > 6 ∧ i % nk = 4 then prev.map subByte
      else prev
    let w := xorBytes (ws.getD (i - nk) []) t
    expandKey nk more (if first then xtime rcon else rcon) (ws ++ [w])

/-- The round keys, 16 bytes each: 11 for a 16-byte key, 15 for a 32-byte key. -/
def roundKeys (key : Bytes) : List Bytes :=
  let nk := key.length / 4
  let rounds := nk + 6
  let ws := expandKey nk (4 * (rounds + 1) - nk) 1 (columns nk key)
  (List.range (rounds + 1)).map (fun r => (ws.drop (4 * r)).take 4 |>.flatten)

/-- The byte permutation of ShiftRows: new byte i comes from the place named. -/
def shiftRows (s : Bytes) : Bytes :=
  (List.range 16).map (fun i => s.getD ((i + 4 * (i % 4)) % 16) 0)

/-- The inverse permutation. -/
def invShiftRows (s : Bytes) : Bytes :=
  (List.range 16).map (fun i => s.getD ((i + 12 * (i % 4)) % 16) 0)

/-- One column times the circulant matrix with first row a b c d. -/
def mixColumn (a b c d : Byte) (col : Bytes) : Bytes :=
  let g := fun i => col.getD (i % 4) 0
  (List.range 4).map (fun i =>
    gmul a (g i) ^^^ gmul b (g (i + 1)) ^^^ gmul c (g (i + 2)) ^^^ gmul d (g (i + 3)))

/-- MixColumns with the given circulant. -/
def mixWith (a b c d : Byte) (s : Bytes) : Bytes :=
  ((columns 4 s).map (mixColumn a b c d)).flatten

/-- The middle rounds of encryption. -/
def aesRounds : List Bytes → Bytes → Bytes
  | [], s => s
  | [k], s => xorBytes (shiftRows (s.map subByte)) k
  | k :: ks, s => aesRounds ks (xorBytes (mixWith 2 3 1 1 (shiftRows (s.map subByte))) k)

/-- The AES forward cipher on one 16-byte block. -/
def aesEncrypt (key blk : Bytes) : Bytes :=
  match roundKeys key with
  | [] => blk
  | k :: ks => aesRounds ks (xorBytes blk k)

/-- The rounds of decryption, round keys last first. -/
def aesInvRounds : List Bytes → Bytes → Bytes
  | [], s => s
  | [k], s => xorBytes ((invShiftRows s).map invSubByte) k
  | k :: ks, s =>
    aesInvRounds ks (mixWith 14 11 13 9 (xorBytes ((invShiftRows s).map invSubByte) k))

/-- The AES inverse cipher on one 16-byte block. -/
def aesDecrypt (key blk : Bytes) : Bytes :=
  match (roundKeys key).reverse with
  | [] => blk
  | k :: ks => aesInvRounds ks (xorBytes blk k)

/-- Splits a byte string into 16-byte blocks, the last padded with zeros. `fuel` bounds the count. -/
def blocks16 : Nat → Bytes → List Bytes
  | 0, _ => []
  | n + 1, bs => if bs.isEmpty then [] else padTo 16 (bs.take 16) :: blocks16 n (bs.drop 16)

/-- The blocks of a string. -/
def blocksOf (bs : Bytes) : List Bytes := blocks16 (bs.length / 16 + 1) bs

/-- The GCM product: bits of `x` from the most significant, `v` the shifted other factor. -/
def ghashMulN : Nat → BitVec 128 → BitVec 128 → BitVec 128 → BitVec 128
  | 0, _, _, z => z
  | n + 1, x, v, z =>
    let z' := if x.getLsbD n then z ^^^ v else z
    let v' := if v.getLsbD 0 then (v >>> 1) ^^^ 0xE1000000000000000000000000000000#128 else v >>> 1
    ghashMulN n x v' z'

/-- The product of the GCM field. -/
def ghashMul (x y : BitVec 128) : BitVec 128 := ghashMulN 128 x y 0

/-- A 16-byte block as a 128-bit value, first byte most significant. -/
def blockVal (b : Bytes) : BitVec 128 := BitVec.ofNat 128 (beNat b)

/-- GHASH over padded blocks. -/
def ghash (h : BitVec 128) (bs : List Bytes) : BitVec 128 :=
  bs.foldl (fun y b => ghashMul (y ^^^ blockVal b) h) 0

/-- The one of the GCM field: its first bit. -/
def ghashOne : BitVec 128 := 1#128 <<< 127

/-- Powers in the GCM field: the low `n` bits of the exponent are taken. -/
def ghashPow : Nat → BitVec 128 → Nat → BitVec 128
  | 0, _, _ => ghashOne
  | n + 1, x, e =>
    let r := ghashPow n (ghashMul x x) (e / 2)
    if e % 2 = 1 then ghashMul r x else r

/-- H^(−j): the nonzero elements of the field have order 2^128 − 1. -/
def ghashInvPow (h : BitVec 128) (j : Nat) : BitVec 128 := ghashPow 128 h (2 ^ 128 - 1 - j)

/-- The partial of bytes at places of the hashed string: the XOR of B_j × H^(−j) over its blocks j, counted from 1,
with zeros where other cells stand (R86). -/
def ghashPartial (h : BitVec 128) (bs : List (Nat × Byte)) : BitVec 128 :=
  (bs.map (fun e => e.1 / 16)).dedup.foldl (fun y j =>
    let b := (bs.filter (fun e => e.1 / 16 == j)).foldl (fun v e =>
      v ^^^ (BitVec.ofNat 128 e.2.toNat <<< (8 * (15 - e.1 % 16)))) 0
    y ^^^ ghashMul b (ghashInvPow h (j + 1))) 0

/-- The tag joiner's last step: a sum of partials over `m` blocks times H^(m+1) (R86). -/
def ghashJoin (h : BitVec 128) (m : Nat) (sum : BitVec 128) : BitVec 128 := ghashMul sum (ghashPow 128 h (m + 1))

/-- The GCM key stream: `n` blocks under counter values from `ctr`. -/
def ctrStream (key iv : Bytes) : Nat → Nat → Bytes
  | 0, _ => []
  | n + 1, ctr => aesEncrypt key (iv ++ beBytes 4 ctr) ++ ctrStream key iv n (ctr + 1)

/-- GCM encryption or decryption of the text alone (the two are one XOR). -/
def gcmText (key iv text : Bytes) : Bytes :=
  xorBytes text (ctrStream key iv (text.length / 16 + 1) 2)

/-- The 16-byte GCM tag over the associated data and the ciphertext. -/
def gcmTag (key iv aad ct : Bytes) : Bytes :=
  let h := blockVal (aesEncrypt key (zeros 16))
  let y := ghash h (blocksOf aad ++ blocksOf ct ++
    [beBytes 8 (8 * aad.length) ++ beBytes 8 (8 * ct.length)])
  xorBytes (aesEncrypt key (iv ++ beBytes 4 1)) (beBytes 16 y.toNat)

/-- GCM authenticated encryption with a 96-bit IV and a 128-bit tag (SP 800-38D). -/
def gcmSeal (key iv aad pt : Bytes) : Bytes × Bytes :=
  let ct := gcmText key iv pt
  (ct, gcmTag key iv aad ct)

/-- GCM authenticated decryption: the plaintext, and whether the tag checks. -/
def gcmOpen (key iv aad ct tag : Bytes) : Bytes × Bool :=
  (gcmText key iv ct, decide (gcmTag key iv aad ct = tag))

/-- Doubling in GF(2^128) for CMAC subkeys. -/
def cmacDouble (b : BitVec 128) : BitVec 128 :=
  if b.getLsbD 127 then (b <<< 1) ^^^ 0x87#128 else b <<< 1

/-- The chaining of CMAC. -/
def cmacChain (key : Bytes) : List Bytes → Bytes → Bytes
  | [], x => x
  | b :: t, x => cmacChain key t (aesEncrypt key (xorBytes x b))

/-- AES CMAC with a 128-bit tag (SP 800-38B, R437). -/
def cmac (key msg : Bytes) : Bytes :=
  let l := blockVal (aesEncrypt key (zeros 16))
  let k1 := cmacDouble l
  let k2 := cmacDouble k1
  let full := msg.length % 16 = 0 ∧ msg ≠ []
  let cut := if full then msg.length - 16 else msg.length - msg.length % 16
  let last := msg.drop cut
  let lastBlk :=
    if full then xorBytes last (beBytes 16 k1.toNat)
    else xorBytes (padTo 16 (last ++ [0x80#8])) (beBytes 16 k2.toNat)
  cmacChain key (blocksOf (msg.take cut) ++ [lastBlk]) (zeros 16)

/-- The tweaks of consecutive blocks of a data unit, each times α the one before, as little-endian integers. -/
def xtsTweaks : Nat → BitVec 128 → List Bytes
  | 0, _ => []
  | n + 1, t => leBytes 16 t.toNat :: xtsTweaks n (cmacDouble t)

/-- AES-XTS-256 of whole blocks of data unit `n` under K1 and K2 (IEEE 1619, SP 800-38E, R382). -/
def xtsEncrypt (key : Bytes) (n : Nat) (pt : Bytes) : Bytes :=
  let t := BitVec.ofNat 128 (leAt (aesEncrypt (key.drop 32) (leBytes 16 n)) 0 16)
  let ps := (blocksOf pt).take (pt.length / 16)
  ((ps.zip (xtsTweaks ps.length t)).map (fun e => xorBytes (aesEncrypt (key.take 32) (xorBytes e.1 e.2)) e.2)).flatten

/-- One pass of KW unwrapping over semiblocks `i` down to 1, `n` semiblocks in all. -/
def kwPass (kek : Bytes) (n j : Nat) : Nat → Bytes → List Bytes → Bytes × List Bytes
  | 0, a, rs => (a, rs)
  | i + 1, a, rs =>
    let t := n * j + (i + 1)
    let b := aesDecrypt kek (xorBytes a (beBytes 8 t) ++ rs.getD i [])
    kwPass kek n j i (b.take 8) (rs.set i (b.drop 8))

/-- The six passes of KW unwrapping. -/
def kwPasses (kek : Bytes) (n : Nat) : Nat → Bytes → List Bytes → Bytes × List Bytes
  | 0, a, rs => (a, rs)
  | j + 1, a, rs =>
    let r := kwPass kek n j n a rs
    kwPasses kek n j r.1 r.2

/-- Splits into 8-byte semiblocks. -/
def semiblocks : Nat → Bytes → List Bytes
  | 0, _ => []
  | n + 1, bs => bs.take 8 :: semiblocks n (bs.drop 8)

/-- KW-AD of SP 800-38F with the default ICV: the plaintext, or nothing when the ICV fails. -/
def kwUnwrap (kek ct : Bytes) : Option Bytes :=
  let n := ct.length / 8 - 1
  let r := kwPasses kek n 6 (ct.take 8) (semiblocks n (ct.drop 8))
  if r.1 = List.replicate 8 (0xA6 : Byte) then some r.2.flatten else none

/-- Integer `k`-th root by bits, from bit `n − 1` down. -/
def rootBits (k x : Nat) : Nat → Nat → Nat
  | 0, r => r
  | n + 1, r => if (r + 2 ^ n) ^ k ≤ x then rootBits k x n (r + 2 ^ n) else rootBits k x n r

/-- Whether `n` has no divisor among 2 to `d`. -/
def noDivisor (n : Nat) : Nat → Bool
  | 0 => true
  | 1 => true
  | d + 2 => n % (d + 2) ≠ 0 && noDivisor n (d + 1)

/-- The primes below 410: the 80 that the SHA-384 constants use. -/
def primes80 : List Nat := (List.range 410).filter (fun n => n ≥ 2 && noDivisor n (min (n - 1) 20))

/-- The SHA-384 round constants: fractional bits of the cube roots of the first 80 primes. -/
def shaK : List (BitVec 64) :=
  primes80.map (fun p => BitVec.ofNat 64 (rootBits 3 (p * 2 ^ 192) 68 0))

/-- The SHA-384 initial value: fractional bits of the square roots of the 9th to 16th primes. -/
def shaIV : List (BitVec 64) :=
  ((primes80.drop 8).take 8).map (fun p => BitVec.ofNat 64 (rootBits 2 (p * 2 ^ 128) 68 0))

/-- Rotation to the right of a 64-bit word. -/
def rotr64 (x : BitVec 64) (n : Nat) : BitVec 64 := x.rotateRight n

/-- The message schedule: `n` words are still to be appended; the list holds the newest first. -/
def shaSchedule : Nat → List (BitVec 64) → List (BitVec 64)
  | 0, ws => ws
  | n + 1, ws =>
    let w2 := ws.getD 1 0
    let w7 := ws.getD 6 0
    let w15 := ws.getD 14 0
    let w16 := ws.getD 15 0
    let s0 := rotr64 w15 1 ^^^ rotr64 w15 8 ^^^ (w15 >>> 7)
    let s1 := rotr64 w2 19 ^^^ rotr64 w2 61 ^^^ (w2 >>> 6)
    shaSchedule n ((w16 + s0 + w7 + s1) :: ws)

/-- One SHA-384 round on the eight working words. -/
def shaRound (st : List (BitVec 64)) (kw : BitVec 64 × BitVec 64) : List (BitVec 64) :=
  match st with
  | [a, b, c, d, e, f, g, h] =>
    let s1 := rotr64 e 14 ^^^ rotr64 e 18 ^^^ rotr64 e 41
    let ch := (e &&& f) ^^^ (~~~ e &&& g)
    let t1 := h + s1 + ch + kw.1 + kw.2
    let s0 := rotr64 a 28 ^^^ rotr64 a 34 ^^^ rotr64 a 39
    let mj := (a &&& b) ^^^ (a &&& c) ^^^ (b &&& c)
    [t1 + s0 + mj, a, b, c, d + t1, e, f, g]
  | other => other

/-- The 16 words of a 128-byte block, newest first. -/
def shaWords (blk : Bytes) : List (BitVec 64) :=
  ((List.range 16).map (fun i => BitVec.ofNat 64 (beAt blk (8 * i) 8))).reverse

/-- Compression of one block. -/
def shaBlock (st : List (BitVec 64)) (blk : Bytes) : List (BitVec 64) :=
  let w := (shaSchedule 64 (shaWords blk)).reverse
  List.zipWith (· + ·) st ((List.zip shaK w).foldl shaRound st)

/-- Splits into 128-byte blocks. -/
def shaBlocks : Nat → Bytes → List Bytes
  | 0, _ => []
  | n + 1, bs => bs.take 128 :: shaBlocks n (bs.drop 128)

/-- SHA-384. -/
def sha384 (msg : Bytes) : Bytes :=
  let z := (111 + 128 - msg.length % 128) % 128
  let padded := msg ++ [0x80#8] ++ zeros z ++ beBytes 16 (8 * msg.length)
  ((shaBlocks (padded.length / 128) padded).foldl shaBlock shaIV).take 6
    |>.flatMap (fun x => beBytes 8 x.toNat)

/-- HMAC-SHA-384. -/
def hmac384 (key msg : Bytes) : Bytes :=
  let k := padTo 128 (if key.length > 128 then sha384 key else key)
  sha384 (k.map (· ^^^ 0x5C#8) ++ sha384 (k.map (· ^^^ 0x36#8) ++ msg))

/-- The KDF in counter mode of SP 800-108 with HMAC-SHA-384 and a 32-bit counter before the fixed
input (R198, R226): `blocks` blocks, counted from 1. -/
def kdfBlocks (key fixed : Bytes) : Nat → Nat → Bytes
  | 0, _ => []
  | n + 1, i => hmac384 key (beBytes 4 i ++ fixed) ++ kdfBlocks key fixed n (i + 1)

/-- The first `bytes` bytes of the counter-mode KDF. -/
def kdf108 (key fixed : Bytes) (bytes : Nat) : Bytes :=
  (kdfBlocks key fixed (bytes / 48 + 1) 1).take bytes

end Sys2Proof.Machine
end

