-- ==== Sys2Proof/Machine/Curve.lean ====
section
/-! DEFINITION. P-384: ECDSA with SHA-384, public-key validation and the ECC CDH primitive (R225). FIPS 186-5 and
SP 800-56A, which the manual names, are PRESUMED (log entry 4). -/

namespace Sys2Proof.Machine

/-- The prime of P-384. -/
def ecP : Nat := 2 ^ 384 - 2 ^ 128 - 2 ^ 96 + 2 ^ 32 - 1

/-- The order of the base point. -/
def ecN : Nat :=
  0xFFFFFFFFFFFFFFFFFFFFFFFFFFFFFFFFFFFFFFFFFFFFFFFFC7634D81F4372DDF581A0DB248B0A77AECEC196ACCC52973

/-- The curve y² = x³ − 3x + b. -/
def ecB : Nat :=
  0xB3312FA7E23EE7E4988E056BE3F82D19181D9C6EFE8141120314088F5013875AC656398D8A2ED19D2A85C8EDD3EC2AEF

/-- A point: none is the point at infinity. -/
abbrev EcPoint := Option (Nat × Nat)

/-- The base point. -/
def ecG : EcPoint :=
  some (0xAA87CA22BE8B05378EB1C71EF320AD746E1D3B628BA79B9859F741E082542A385502F25DBF55296C3A545E3872760AB7,
    0x3617DE4A96262C6F5D9E98BF9292DC29F8F41DBD289A147CE9DA3113B5F0B8C00A60B1CE1D7E819D7A431D7C90EA0E5F)

/-- a to the power of the low `k` bits of e, modulo m. -/
def modPow (m : Nat) : Nat → Nat → Nat → Nat
  | 0, _, _ => 1 % m
  | k + 1, a, e => (if e % 2 = 1 then a else 1) * modPow m k (a * a % m) (e / 2) % m

/-- The inverse modulo a 384-bit prime, 0 for 0. -/
def modInv (m a : Nat) : Nat := modPow m 384 (a % m) (m - 2)

/-- a − b modulo m, for b below m. -/
def modSub (m a b : Nat) : Nat := (a + m - b) % m

/-- The third point of a line with slope `l` through two points, reflected. -/
def ecChord (l x₁ y₁ x₂ : Nat) : EcPoint :=
  let x := modSub ecP (modSub ecP (l * l % ecP) x₁) x₂
  some (x, modSub ecP (l * modSub ecP x₁ x % ecP) y₁)

/-- Point addition. -/
def ecAdd : EcPoint → EcPoint → EcPoint
  | none, q => q
  | p, none => p
  | some (x₁, y₁), some (x₂, y₂) =>
    if x₁ ≠ x₂ then ecChord (modSub ecP y₂ y₁ * modInv ecP (modSub ecP x₂ x₁) % ecP) x₁ y₁ x₂
    else if (y₁ + y₂) % ecP = 0 then none
    else ecChord (modSub ecP (3 * x₁ * x₁) 3 * modInv ecP (2 * y₁) % ecP) x₁ y₁ x₂

/-- The low `n` bits of k times a point. -/
def ecTimes : Nat → Nat → EcPoint → EcPoint
  | 0, _, _ => none
  | n + 1, k, p => ecAdd (if k % 2 = 1 then p else none) (ecTimes n (k / 2) (ecAdd p p))

/-- k times a point, for a k of 384 bits. -/
def ecMul (k : Nat) (p : EcPoint) : EcPoint := ecTimes 384 k p

/-- Whether two coordinates are a point of the curve. The curve has prime order, so every such point is valid. -/
def ecOn (x y : Nat) : Bool :=
  decide (x < ecP) && decide (y < ecP) && (y * y) % ecP == modSub ecP ((x * x * x + ecB) % ecP) (3 * x % ecP)

/-- The point of x ‖ y, when valid. -/
def ecDecode (xy : Bytes) : EcPoint :=
  if xy.length = 96 ∧ ecOn (beAt xy 0 48) (beAt xy 48 48) = true then some (beAt xy 0 48, beAt xy 48 48) else none

/-- x ‖ y of a point. -/
def ecEncode : EcPoint → Bytes
  | none => []
  | some (x, y) => beBytes 48 x ++ beBytes 48 y

/-- The uncompressed public point of a private scalar. -/
def ecPublic (priv : Bytes) : Bytes := 0x04#8 :: ecEncode (ecMul (beNat priv) ecG)

/-- Full public-key validation of an uncompressed point. -/
def ecPointValid (pt : Bytes) : Bool := byteAt pt 0 == 4 && (ecDecode (pt.drop 1)).isSome

/-- The ECC CDH shared secret Z: the x coordinate. -/
def ecdh (priv pub : Bytes) : Bytes :=
  match ecMul (beNat priv) (ecDecode (pub.drop 1)) with
  | some (x, _) => beBytes 48 x
  | none => []

/-- Verification of an ECDSA signature r ‖ s under a public key x ‖ y. -/
def ecdsaVerify (pub msg sig : Bytes) : Bool :=
  let r := beAt sig 0 48
  let s := beAt sig 48 48
  match ecDecode pub with
  | none => false
  | some q =>
    if sig.length ≠ 96 ∨ r = 0 ∨ ecN ≤ r ∨ s = 0 ∨ ecN ≤ s then false
    else
      let w := modInv ecN s
      let e := beNat (sha384 msg)
      match ecAdd (ecMul (e * w % ecN) ecG) (ecMul (r * w % ecN) (some q)) with
      | none => false
      | some (x, _) => x % ecN == r

/-- An ECDSA signature r ‖ s with the per-message secrets `ks` in order, of which the first that gives no zero is
used. -/
def ecdsaSign (priv msg : Bytes) : List Nat → Bytes
  | [] => []
  | k :: ks =>
    let r := match ecMul k ecG with
      | some (x, _) => x % ecN
      | none => 0
    let s := modInv ecN k * ((beNat (sha384 msg) + r * beNat priv) % ecN) % ecN
    if r = 0 ∨ s = 0 then ecdsaSign priv msg ks else beBytes 48 r ++ beBytes 48 s

end Sys2Proof.Machine
end

