-- ==== Sys2Proof/Machine/Keccak.lean ====
section
/-! DEFINITION. SHA-3 and SHAKE, which ML-KEM and ML-DSA use (R225). FIPS 202 is PRESUMED (log entry 4). -/

namespace Sys2Proof.Machine

/-- Lane (x, y) of a Keccak state of 25 lanes, x + 5y. -/
def lane (a : List (BitVec 64)) (x y : Nat) : BitVec 64 := a.getD (x % 5 + 5 * (y % 5)) 0

/-- A state from its lanes. -/
def lanes (f : Nat → Nat → BitVec 64) : List (BitVec 64) := (List.range 25).map (fun i => f (i % 5) (i / 5))

/-- One step of the linear feedback shift register of ι. -/
def rcStep (r : Nat) : Nat := if r < 128 then 2 * r else (2 * r) ^^^ 0x171

/-- Bit t of that register's sequence. -/
def rcBit : Nat → Nat → Nat
  | 0, r => r % 2
  | n + 1, r => rcBit n (rcStep r)

/-- The round constant of round `k`. -/
def roundConst (k : Nat) : BitVec 64 :=
  BitVec.ofNat 64 (((List.range 7).map (fun j => rcBit (7 * k + j) 1 * 2 ^ (2 ^ j - 1))).sum)

/-- Where ρ and π move a lane, and by how much it is rotated: the walk over the 24 lanes but (0, 0). -/
def rhoWalk : Nat → Nat → Nat → Nat → List (Nat × Nat × Nat)
  | 0, _, _, _ => []
  | n + 1, t, x, y => (x, y, (t + 1) * (t + 2) / 2 % 64) :: rhoWalk n (t + 1) y ((2 * x + 3 * y) % 5)

/-- The rotation of a lane. -/
def rhoOf (x y : Nat) : Nat := ((rhoWalk 24 0 1 0).find? (fun e => e.1 == x && e.2.1 == y)).elim 0 (fun e => e.2.2)

/-- The rotations of the 25 lanes. -/
def rhoTable : List Nat := (List.range 25).map (fun i => rhoOf (i % 5) (i / 5))

/-- One round: θ, ρ and π, χ, ι. -/
def keccakRound (a : List (BitVec 64)) (rc : BitVec 64) : List (BitVec 64) :=
  let c := (List.range 5).map (fun x => (List.range 5).foldl (fun v y => v ^^^ lane a x y) 0#64)
  let d := (List.range 5).map (fun x => c.getD ((x + 4) % 5) 0 ^^^ (c.getD ((x + 1) % 5) 0).rotateLeft 1)
  let b := (a.zipIdx.zip rhoTable).map (fun e => (e.1.1 ^^^ d.getD (e.1.2 % 5) 0).rotateLeft e.2)
  let m := lanes (fun x y => lane b ((x + 3 * y) % 5) x)
  let n := lanes (fun x y => lane m x y ^^^ (~~~ lane m (x + 1) y &&& lane m (x + 2) y))
  match n with
  | h :: t => (h ^^^ rc) :: t
  | [] => []

/-- The permutation of 24 rounds. -/
def keccakF (a : List (BitVec 64)) : List (BitVec 64) :=
  (List.range 24).foldl (fun a k => keccakRound a (roundConst k)) a

/-- Absorbs whole blocks of `rate` bytes. -/
def keccakAbsorb (rate : Nat) : Nat → Bytes → List (BitVec 64) → List (BitVec 64)
  | 0, _, a => a
  | n + 1, m, a =>
    keccakAbsorb rate n (m.drop rate)
      (keccakF (a.zipIdx.map (fun e => if 8 * e.2 < rate then e.1 ^^^ BitVec.ofNat 64 (leNat (slice m (8 * e.2) 8)) else e.1)))

/-- Squeezes `n` blocks of `rate` bytes. -/
def keccakSqueeze (rate : Nat) : Nat → List (BitVec 64) → Bytes
  | 0, _ => []
  | n + 1, a => (a.flatMap (fun l => leBytes 8 l.toNat)).take rate ++ keccakSqueeze rate n (keccakF a)

/-- The sponge: `out` bytes for a message with the suffix `dom`. -/
def sponge (rate dom : Nat) (m : Bytes) (out : Nat) : Bytes :=
  let k := m.length / rate + 1
  let p := padTo (k * rate) (m ++ [BitVec.ofNat 8 dom])
  let p := p.set (k * rate - 1) (p.getD (k * rate - 1) 0 ^^^ 0x80#8)
  (keccakSqueeze rate (out / rate + 1) (keccakAbsorb rate k p (List.replicate 25 0))).take out

/-- SHA3-256. -/
def sha3_256 (m : Bytes) : Bytes := sponge 136 0x06 m 32
/-- SHA3-512. -/
def sha3_512 (m : Bytes) : Bytes := sponge 72 0x06 m 64
/-- SHAKE128. -/
def shake128 (m : Bytes) (out : Nat) : Bytes := sponge 168 0x1F m out
/-- SHAKE256. -/
def shake256 (m : Bytes) (out : Nat) : Bytes := sponge 136 0x1F m out

end Sys2Proof.Machine
end

