-- ==== Sys2Proof/Machine/Lattice.lean ====
section
/-! DEFINITION. ML-KEM-1024 and ML-DSA-87: key generation from a seed, decapsulation with implicit rejection, hedged
signing and verification with a context string (R225). FIPS 203 and FIPS 204, which the manual names, are PRESUMED (log
entry 4). Number-theoretic transforms are written as the evaluations they are. -/

namespace Sys2Proof.Machine

/-- A polynomial of 256 coefficients, or its transform. -/
abbrev Poly := List Nat

/-- Powers of z modulo q from 1 up. -/
def powersOf (q z : Nat) : Nat → Nat → List Nat
  | 0, _ => []
  | n + 1, a => a :: powersOf q z n (a * z % q)

/-- The low `n` bits of a number in reverse order. -/
def bitRev : Nat → Nat → Nat
  | 0, _ => 0
  | n + 1, v => (v % 2) * 2 ^ n + bitRev n (v / 2)

/-- Sum of products modulo q. -/
def dotMod (q : Nat) (a b : List Nat) : Nat := (List.zipWith (· * ·) a b).foldl (· + ·) 0 % q

/-- Sum, difference and scalar multiple of polynomials modulo q. -/
def polyPlus (q : Nat) (a b : Poly) : Poly := List.zipWith (fun x y => (x + y) % q) a b
/-- Difference modulo q. -/
def polyMinus (q : Nat) (a b : Poly) : Poly := List.zipWith (fun x y => (x + q - y) % q) a b

/-- The zero polynomial. -/
def polyZero : Poly := List.replicate 256 0

/-- Bits of bytes, least significant first. -/
def byteBits (bs : Bytes) : List Nat := bs.flatMap (fun b => (List.range 8).map (fun j => b2n (b.toNat.testBit j)))

/-- Numbers of `d` bits from a string of bits, `n` of them. -/
def bitFields (d : Nat) : Nat → List Nat → List Nat
  | 0, _ => []
  | n + 1, l => (l.take d).foldr (fun b a => b + 2 * a) 0 :: bitFields d n (l.drop d)

/-- `n` numbers of `d` bits from bytes, and back. -/
def unpackInts (d n : Nat) (bs : Bytes) : List Nat := bitFields d n (byteBits bs)
/-- Numbers of `d` bits packed into bytes. -/
def packInts (d : Nat) (l : List Nat) : Bytes :=
  (bitFields 8 (l.length * d / 8) (l.flatMap (fun v => (List.range d).map (fun j => b2n (v.testBit j))))).map
    (BitVec.ofNat 8)

/-! ## ML-KEM-1024 (FIPS 203) -/

/-- The modulus of ML-KEM. -/
def kemQ : Nat := 3329

/-- The 256 powers of ζ = 17. -/
def kemZetas : List Nat := powersOf kemQ 17 256 1

/-- Exponent of ζ of residue pair `i`. -/
def kemExp (i : Nat) : Nat := 2 * bitRev 7 i + 1

/-- Even and odd coefficients. -/
def evens (f : Poly) : List Nat := (List.range 128).map (fun j => f.getD (2 * j) 0)
/-- Odd coefficients. -/
def odds (f : Poly) : List Nat := (List.range 128).map (fun j => f.getD (2 * j + 1) 0)

/-- The transform: the residues modulo X² − ζ^(2 BitRev(i) + 1). -/
def kemNtt (f : Poly) : Poly :=
  let e := evens f
  let o := odds f
  (List.range 128).flatMap (fun i =>
    let z := (List.range 128).map (fun j => kemZetas.getD (kemExp i * j % 256) 0)
    [dotMod kemQ e z, dotMod kemQ o z])

/-- The inverse transform; 3303 is the inverse of 128. -/
def kemInv (f : Poly) : Poly :=
  let e := evens f
  let o := odds f
  (List.range 128).flatMap (fun j =>
    let z := (List.range 128).map (fun i => kemZetas.getD ((256 - kemExp i * j % 256) % 256) 0)
    [dotMod kemQ e z * 3303 % kemQ, dotMod kemQ o z * 3303 % kemQ])

/-- Product of two transforms. -/
def kemMul (f g : Poly) : Poly :=
  (List.range 128).flatMap (fun i =>
    let a := f.getD (2 * i) 0
    let b := f.getD (2 * i + 1) 0
    let c := g.getD (2 * i) 0
    let d := g.getD (2 * i + 1) 0
    [(a * c + b * d % kemQ * kemZetas.getD (kemExp i) 0) % kemQ, (a * d + b * c) % kemQ])

/-- Inner product of vectors of transforms. -/
def kemDot (f g : List Poly) : Poly := (List.zipWith kemMul f g).foldl (polyPlus kemQ) polyZero

/-- Candidates of SampleNTT from three bytes each. -/
def kemCands : Nat → Bytes → List Nat
  | 0, _ => []
  | n + 1, b =>
    let x := byteAt b 0
    let y := byteAt b 1
    let z := byteAt b 2
    [x + 256 * (y % 16), y / 16 + 16 * z] ++ kemCands n (b.drop 3)

/-- SampleNTT of a seed and two indices. Nine blocks of output hold 256 accepted values. -/
def kemSample (rho : Bytes) (j i : Nat) : Poly :=
  (padNats ((kemCands 504 (shake128 (rho ++ [BitVec.ofNat 8 j, BitVec.ofNat 8 i]) 1512)).filter (fun v => decide (v < kemQ)))).take 256
where
  /-- At least 256 values. -/
  padNats (l : List Nat) : List Nat := l ++ List.replicate (256 - l.length) 0

/-- The centred binomial distribution with η = 2, from PRF(σ, N). -/
def kemCbd (sigma : Bytes) (n : Nat) : Poly :=
  let l := byteBits (shake256 (sigma ++ [BitVec.ofNat 8 n]) 128)
  (List.range 256).map (fun i =>
    let b := fun k => l.getD (4 * i + k) 0
    (b 0 + b 1 + kemQ - b 2 - b 3) % kemQ)

/-- Compression to `d` bits, and decompression. -/
def kemCompress (d v : Nat) : Nat := (2 ^ d * v * 2 + kemQ) / (2 * kemQ) % 2 ^ d
/-- Decompression from `d` bits. -/
def kemDecompress (d v : Nat) : Nat := (kemQ * v * 2 + 2 ^ d) / 2 ^ (d + 1)

/-- The matrix Â, row i, column j. -/
def kemMatrix (rho : Bytes) : List (List Poly) :=
  (List.range 4).map (fun i => (List.range 4).map (fun j => kemSample rho j i))

/-- K-PKE key generation from d: ŝ, t̂ and ρ. -/
def kemKey (d : Bytes) : List Poly × List Poly × Bytes :=
  let g := sha3_512 (d ++ [4#8])
  let rho := g.take 32
  let sigma := g.drop 32
  let s := (List.range 4).map (fun n => kemNtt (kemCbd sigma n))
  let e := (List.range 4).map (fun n => kemNtt (kemCbd sigma (4 + n)))
  (s, List.zipWith (fun row x => polyPlus kemQ (kemDot row s) x) (kemMatrix rho) e, rho)

/-- The encapsulation key of a seed pair d ‖ z. -/
def mlkemPublic (seed : Bytes) : Bytes :=
  let k := kemKey (seed.take 32)
  k.2.1.flatMap (packInts 12) ++ k.2.2

/-- K-PKE encryption of a 32-byte message with randomness r. -/
def kemEncrypt (t : List Poly) (rho m r : Bytes) : Bytes :=
  let a := kemMatrix rho
  let y := (List.range 4).map (fun n => kemNtt (kemCbd r n))
  let u := (List.range 4).map (fun i =>
    polyPlus kemQ (kemInv (kemDot (a.map (fun row => row.getD i [])) y)) (kemCbd r (4 + i)))
  let mu := (unpackInts 1 256 m).map (kemDecompress 1)
  let v := polyPlus kemQ (polyPlus kemQ (kemInv (kemDot t y)) (kemCbd r 8)) mu
  u.flatMap (fun p => packInts 11 (p.map (kemCompress 11))) ++ packInts 5 (v.map (kemCompress 5))

/-- K-PKE decryption. -/
def kemDecrypt (s : List Poly) (c : Bytes) : Bytes :=
  let u := (List.range 4).map (fun i => (unpackInts 11 256 (slice c (352 * i) 352)).map (kemDecompress 11))
  let v := (unpackInts 5 256 (slice c 1408 160)).map (kemDecompress 5)
  packInts 1 ((polyMinus kemQ v (kemInv (kemDot s (u.map kemNtt)))).map (kemCompress 1))

/-- Decapsulation under a seed pair d ‖ z: a ciphertext that does not come out again gives the rejection value. -/
def mlkemDecaps (seed ct : Bytes) : Bytes :=
  let k := kemKey (seed.take 32)
  let ek := mlkemPublic seed
  let m := kemDecrypt k.1 ct
  let g := sha3_512 (m ++ sha3_256 ek)
  if kemEncrypt k.2.1 k.2.2 m (g.drop 32) = ct then g.take 32 else shake256 (slice seed 32 32 ++ ct) 32

/-! ## ML-DSA-87 (FIPS 204) -/

/-- The modulus of ML-DSA. -/
def dsaQ : Nat := 8380417

/-- The 512 powers of ζ = 1753. -/
def dsaZetas : List Nat := powersOf dsaQ 1753 512 1

/-- The transform: the values at ζ^(2 BitRev(i) + 1). -/
def dsaNtt (f : Poly) : Poly :=
  (List.range 256).map (fun i =>
    let k := 2 * bitRev 8 i + 1
    dotMod dsaQ f ((List.range 256).map (fun j => dsaZetas.getD (k * j % 512) 0)))

/-- The inverse transform; 8347681 is the inverse of 256. -/
def dsaInv (f : Poly) : Poly :=
  (List.range 256).map (fun j =>
    dotMod dsaQ f ((List.range 256).map (fun i => dsaZetas.getD ((512 - (2 * bitRev 8 i + 1) * j % 512) % 512) 0)) *
      8347681 % dsaQ)

/-- Product of two transforms. -/
def dsaMul (f g : Poly) : Poly := List.zipWith (fun a b => a * b % dsaQ) f g

/-- Matrix times vector, all transforms. -/
def dsaApply (a : List (List Poly)) (v : List Poly) : List Poly :=
  a.map (fun row => (List.zipWith dsaMul row v).foldl (polyPlus dsaQ) polyZero)

/-- The symmetric residue modulo α. -/
def dsaMod (alpha v : Nat) : Int := if 2 * (v % alpha) ≤ alpha then ((v % alpha : Nat) : Int) else ((v % alpha : Nat) : Int) - alpha

/-- A number modulo q. -/
def dsaNat (i : Int) : Nat := (i % (dsaQ : Int)).toNat

/-- Largest absolute value of symmetric residues modulo q. -/
def dsaNorm (l : List Poly) : Nat := l.foldl (fun m p => p.foldl (fun m v => max m (dsaMod dsaQ v).natAbs) m) 0

/-- Candidates of RejNTTPoly. -/
def dsaCands : Nat → Bytes → List Nat
  | 0, _ => []
  | n + 1, b => (byteAt b 0 + 256 * byteAt b 1 + 65536 * (byteAt b 2 % 128)) :: dsaCands n (b.drop 3)

/-- Entry (r, s) of the matrix. Eight blocks of output hold 256 accepted values. -/
def dsaSample (rho : Bytes) (r s : Nat) : Poly :=
  let l := (dsaCands 448 (shake128 (rho ++ [BitVec.ofNat 8 s, BitVec.ofNat 8 r]) 1344)).filter (fun v => decide (v < dsaQ))
  (l ++ List.replicate (256 - l.length) 0).take 256

/-- ExpandA. -/
def dsaMatrix (rho : Bytes) : List (List Poly) :=
  (List.range 8).map (fun r => (List.range 7).map (fun s => dsaSample rho r s))

/-- RejBoundedPoly with η = 2. Four blocks of output hold 256 accepted values. -/
def dsaShort (rho : Bytes) (k : Nat) : Poly :=
  let l := ((shake256 (rho ++ leBytes 2 k) 544).flatMap (fun b => [b.toNat % 16, b.toNat / 16])).filter (fun v => decide (v < 15))
  ((l ++ List.replicate (256 - l.length) 2).take 256).map (fun v => dsaNat (2 - ((v % 5 : Nat) : Int)))

/-- ExpandMask with γ1 = 2^19. -/
def dsaMask (rho : Bytes) (k : Nat) : Poly :=
  (unpackInts 20 256 (shake256 (rho ++ leBytes 2 k) 640)).map (fun v => dsaNat (524288 - (v : Int)))

/-- γ2 = (q − 1) / 32. -/
def dsaG2 : Nat := 261888

/-- Decompose: high and low part. -/
def dsaDecompose (r : Nat) : Nat × Int :=
  let r0 := dsaMod (2 * dsaG2) r
  if (r : Int) - r0 = dsaQ - 1 then (0, r0 - 1) else (((r : Int) - r0).toNat / (2 * dsaG2), r0)

/-- UseHint. -/
def dsaUseHint (h r : Nat) : Nat :=
  let d := dsaDecompose r
  if h = 0 then d.1 else if 0 < d.2 then (d.1 + 1) % 16 else (d.1 + 15) % 16

/-- Power2Round with d = 13: high and low part. -/
def dsaRound (r : Nat) : Nat × Int :=
  let r0 := dsaMod 8192 r
  (((r : Int) - r0).toNat / 8192, r0)

/-- The steps of SampleInBall with τ = 60: position, signs left, bytes left, polynomial. -/
def dsaBall : Nat → Nat → List Nat → Bytes → List Nat → List Nat
  | 0, _, _, _, c => c
  | _, _, [], _, c => c
  | _, _, _, [], c => c
  | n + 1, i, g :: gs, b :: bs, c =>
    if b.toNat ≤ i then
      let c := (c.set i (c.getD b.toNat 0)).set b.toNat (if g = 1 then dsaQ - 1 else 1)
      if i = 255 then c else dsaBall n (i + 1) gs bs c
    else dsaBall n i (g :: gs) bs c

/-- SampleInBall. -/
def dsaChallenge (seed : Bytes) : Poly :=
  let x := shake256 seed 1088
  dsaBall 1080 196 (byteBits (x.take 8)) (x.drop 8) polyZero

/-- A key pair from ξ: ρ, K, s1, s2, t. -/
structure DsaKey where
  rho : Bytes
  k : Bytes
  s1 : List Poly
  s2 : List Poly
  t : List Poly

/-- ML-DSA.KeyGen_internal. -/
def dsaKey (xi : Bytes) : DsaKey :=
  let h := shake256 (xi ++ [8#8, 7#8]) 128
  let rho := h.take 32
  let rho1 := slice h 32 64
  let s1 := (List.range 7).map (dsaShort rho1)
  let s2 := (List.range 8).map (fun r => dsaShort rho1 (7 + r))
  let w := (dsaApply (dsaMatrix rho) (s1.map dsaNtt)).map dsaInv
  { rho := rho, k := h.drop 96, s1 := s1, s2 := s2, t := List.zipWith (polyPlus dsaQ) w s2 }

/-- The encoded public key. -/
def dsaPublic (key : DsaKey) : Bytes :=
  key.rho ++ key.t.flatMap (fun p => packInts 10 (p.map (fun v => (dsaRound v).1)))

/-- ML-DSA-87 public key of a seed. -/
def mldsaPublic (seed : Bytes) : Bytes := dsaPublic (dsaKey seed)

/-- μ of a message and a context in the pure form. -/
def dsaMu (pub msg ctx : Bytes) : Bytes :=
  shake256 (shake256 pub 64 ++ ([0#8, BitVec.ofNat 8 ctx.length] ++ ctx ++ msg)) 64

/-- w1Encode. -/
def dsaW1 (w : List Poly) : Bytes := w.flatMap (packInts 4)

/-- HintBitPack with ω = 75. -/
def dsaHintPack (h : List Poly) : Bytes :=
  let idx := h.map (fun p => (List.range 256).filter (fun j => p.getD j 0 == 1))
  let ends := (List.range 8).map (fun i => ((idx.take (i + 1)).map List.length).sum)
  padTo 75 (idx.flatten.map (BitVec.ofNat 8)) ++ ends.map (BitVec.ofNat 8)

/-- Strictly rising. -/
def rising : List Nat → Bool
  | a :: b :: l => decide (a < b) && rising (b :: l)
  | _ => true

/-- HintBitUnpack: none for an encoding that no HintBitPack gives. -/
def dsaHintUnpack (b : Bytes) : Option (List Poly) :=
  let ends := (List.range 8).map (fun i => byteAt b (75 + i))
  let starts := 0 :: ends.dropLast
  let runs := (starts.zip ends).map (fun e => (slice b e.1 (e.2 - e.1)).map BitVec.toNat)
  let ok := (starts.zip ends).all (fun e => decide (e.1 ≤ e.2) && decide (e.2 ≤ 75)) && runs.all rising &&
    (slice b (ends.getLastD 0) (75 - ends.getLastD 0)).all (· == 0)
  if ok then some (runs.map (fun r => (List.range 256).map (fun j => b2n (r.contains j)))) else none

/-- One attempt of signing: none where a check rejects it. -/
def dsaAttempt (key : DsaKey) (a : List (List Poly)) (mu rho2 : Bytes) (kappa : Nat) : Option Bytes :=
  let y := (List.range 7).map (fun r => dsaMask rho2 (kappa + r))
  let w := (dsaApply a (y.map dsaNtt)).map dsaInv
  let ct := shake256 (mu ++ dsaW1 (w.map (fun p => p.map (fun v => (dsaDecompose v).1)))) 64
  let c := dsaNtt (dsaChallenge ct)
  let times := fun (v : List Poly) => v.map (fun p => dsaInv (dsaMul c (dsaNtt p)))
  let z := List.zipWith (polyPlus dsaQ) y (times key.s1)
  let r := List.zipWith (polyMinus dsaQ) w (times key.s2)
  let r0 := r.foldl (fun m p => p.foldl (fun m v => max m (dsaDecompose v).2.natAbs) m) 0
  let ct0 := times (key.t.map (fun p => p.map (fun v => dsaNat (dsaRound v).2)))
  let up := List.zipWith (polyPlus dsaQ) r ct0
  let h := List.zipWith (List.zipWith (fun v u => b2n ((dsaDecompose u).1 != (dsaDecompose v).1))) r up
  if 524288 - 120 ≤ dsaNorm z ∨ dsaG2 - 120 ≤ r0 ∨ dsaG2 ≤ dsaNorm ct0 ∨ 75 < (h.map List.sum).sum then none
  else
    some (ct ++ z.flatMap (fun p => packInts 20 (p.map (fun v => (524288 - dsaMod dsaQ v).toNat))) ++ dsaHintPack h)

/-- Attempts from κ on. -/
def dsaAttempts (key : DsaKey) (a : List (List Poly)) (mu rho2 : Bytes) : Nat → Nat → Bytes
  | 0, _ => []
  | n + 1, kappa =>
    match dsaAttempt key a mu rho2 kappa with
    | some sig => sig
    | none => dsaAttempts key a mu rho2 n (kappa + 7)

/-- Hedged pure signing with 32 random bytes. FIPS 204 allows no fewer than 814 attempts as a bound. -/
def mldsaSign (seed msg ctx rnd : Bytes) : Bytes :=
  let key := dsaKey seed
  let mu := dsaMu (dsaPublic key) msg ctx
  dsaAttempts key (dsaMatrix key.rho) mu (shake256 (key.k ++ rnd ++ mu) 64) 814 0

/-- Pure verification with a context string. -/
def mldsaVerify (pub msg ctx sig : Bytes) : Bool :=
  if pub.length ≠ 2592 ∨ sig.length ≠ 4627 ∨ 255 < ctx.length then false
  else
    let ct := sig.take 64
    let z := (List.range 7).map (fun i =>
      (unpackInts 20 256 (slice sig (64 + 640 * i) 640)).map (fun v => dsaNat (524288 - (v : Int))))
    match dsaHintUnpack (sig.drop 4544) with
    | none => false
    | some h =>
      let t1 := (List.range 8).map (fun i => (unpackInts 10 256 (slice pub (32 + 320 * i) 320)).map (fun v => v * 8192 % dsaQ))
      let mu := dsaMu pub msg ctx
      let c := dsaNtt (dsaChallenge ct)
      let w := List.zipWith (fun x t => dsaInv (polyMinus dsaQ x (dsaMul c (dsaNtt t))))
        (dsaApply (dsaMatrix (pub.take 32)) (z.map dsaNtt)) t1
      let w1 := List.zipWith (List.zipWith dsaUseHint) h w
      decide (dsaNorm z < 524288 - 120) && ct == shake256 (mu ++ dsaW1 w1) 64

end Sys2Proof.Machine
end

