-- ==== Sys2Proof/Config.lean ====
section
/-! DEFINITION. What one implementation fixes, and the free values: opaque constants with no body, so
that a claim about one holds for every value. A free value that is drawn anew each time is applied to
the counter `State.rng`, which each draw advances (log entry 3). -/

namespace Sys2Proof.Config

/-- DRBG output byte `j` of draw `i` (R228: the DRBG's output is not stated). -/
opaque drbgByte (i j : Nat) : Byte

/-- The DRBG's one-in-256 spot-audit choice for draw `i` (R101). -/
opaque spotAudit (i : Nat) : Bool

/-- The MAC address a port sends its own PAUSE and PFC frames from (R314: not stated). -/
opaque portMac (port : Nat) : Bytes

/-- A value the manual leaves open, drawn as number `i`. -/
opaque freeNat (i : Nat) : Nat

/-- The fuse root of the module (R223): a secret of manufacture. -/
opaque fuseRoot : Bytes

/-- SHA-384 of the firmware image that the module left the factory with (R259). -/
opaque factoryDigest : Bytes

/-- The permutation of the key-store word addresses that a 128-bit key selects (R246: the permutation is not
stated). -/
opaque addressOf (key : Bytes) : Equiv.Perm (Fin 524288)

/-- The fuse map revision of R259. -/
opaque fuseMapRev : Byte

end Sys2Proof.Config
end

