-- ==== Sys2Proof/Machine/RegMap.lean ====
section
/-! DEFINITION. The register map: every BAR0 register of the Register Map chapter with its address,
its repetition, and for each field its place, access type, reset value and the values a write may give
it (R7, R12, R547). One row stands for all instances of an indexed register; an index past the last one wraps,
so that no register's name reaches into another's instances. A reset value the manual gives as a dash is named
in log entry 5. -/

namespace Sys2Proof.Machine

/-- The access types of R7. -/
inductive Access where
  | rw | ro | wo | w1c | w1s | rwl | rws | rc
deriving DecidableEq, Repr

/-- The values a field accepts: any, a range (R547), or a signed range about zero. -/
inductive Legal where
  | any
  | range (lo hi : Nat)
  | signedRange (width bound : Nat)
deriving DecidableEq, Repr

/-- One field of a register. -/
structure RegField where
  name : String
  lsb : Nat
  width : Nat
  acc : Access
  reset : Nat
  legal : Legal
deriving DecidableEq, Repr

/-- One register: its name, the BAR0 address of its first instance, the (stride, count) pairs of its
indices from the outermost, and its fields. -/
structure RegRow where
  name : String
  base : Nat
  strides : List (Nat × Nat)
  fields : List RegField
deriving DecidableEq, Repr

/-- Whether the offset from the first instance is that of an instance. -/
def strideHit : List (Nat × Nat) → Nat → Bool
  | [], off => off == 0
  | (s, n) :: t, off => decide (off / s < n) && strideHit t (off % s)

/-- Whether an address is an instance of the register. -/
def RegRow.hit (r : RegRow) (a : Nat) : Bool := decide (r.base ≤ a) && strideHit r.strides (a - r.base)

/-- Whether a field accepts a value (R12, R547). -/
def Legal.ok : Legal → Nat → Bool
  | .any, _ => true
  | .range lo hi, v => decide (lo ≤ v) && decide (v ≤ hi)
  | .signedRange w b, v => decide ((signedOf w v).natAbs ≤ b)

/-! ## Register addresses -/

/-- GLB_ID_PART. -/
def Reg.GLB_ID_PART : Nat := 0x0

/-- GLB_ID_REV. -/
def Reg.GLB_ID_REV : Nat := 0x4

/-- GLB_FWVER. -/
def Reg.GLB_FWVER : Nat := 0x8

/-- GLB_UNIT. -/
def Reg.GLB_UNIT : Nat := 0xC

/-- GLB_SCRATCH. -/
def Reg.GLB_SCRATCH : Nat := 0x10

/-- CLK_CTRL. -/
def Reg.CLK_CTRL : Nat := 0x4000

/-- CLK_STATUS. -/
def Reg.CLK_STATUS : Nat := 0x4004

/-- CLK_FAULT_INFO. -/
def Reg.CLK_FAULT_INFO : Nat := 0x4008

/-- CLK_EN. -/
def Reg.CLK_EN : Nat := 0x4010

/-- CLK_ON. -/
def Reg.CLK_ON : Nat := 0x4014

/-- CLK_GATE_ABORTS. -/
def Reg.CLK_GATE_ABORTS : Nat := 0x4018

/-- CLK_OBS_SEL. -/
def Reg.CLK_OBS_SEL : Nat := 0x4020

/-- CLK_OBS_DIV. -/
def Reg.CLK_OBS_DIV : Nat := 0x4024

/-- CLK_OBS_STATUS. -/
def Reg.CLK_OBS_STATUS : Nat := 0x4028

/-- IRQ_MSIX_ADDR_LO, i below 64. -/
def Reg.IRQ_MSIX_ADDR_LO (i : Nat) : Nat := 0x8000 + 0x10 * (i % 64)

/-- IRQ_MSIX_ADDR_HI, i below 64. -/
def Reg.IRQ_MSIX_ADDR_HI (i : Nat) : Nat := 0x8004 + 0x10 * (i % 64)

/-- IRQ_MSIX_DATA, i below 64. -/
def Reg.IRQ_MSIX_DATA (i : Nat) : Nat := 0x8008 + 0x10 * (i % 64)

/-- IRQ_MSIX_CTRL, i below 64. -/
def Reg.IRQ_MSIX_CTRL (i : Nat) : Nat := 0x800C + 0x10 * (i % 64)

/-- IRQ_PBA, i below 2. -/
def Reg.IRQ_PBA (i : Nat) : Nat := 0x8800 + 0x4 * (i % 2)

/-- IRQ_TEST. -/
def Reg.IRQ_TEST : Nat := 0x8C00

/-- PAT_CTRL. -/
def Reg.PAT_CTRL : Nat := 0x10000

/-- PAT_APPLY. -/
def Reg.PAT_APPLY : Nat := 0x10004

/-- PAT_STATUS. -/
def Reg.PAT_STATUS : Nat := 0x10008

/-- PAT_REJ_INFO. -/
def Reg.PAT_REJ_INFO : Nat := 0x1000C

/-- PAT_WIN_LO. -/
def Reg.PAT_WIN_LO : Nat := 0x10010

/-- PAT_WIN_HI. -/
def Reg.PAT_WIN_HI : Nat := 0x10014

/-- PAT_WIN_LEN. -/
def Reg.PAT_WIN_LEN : Nat := 0x10018

/-- PAT_DIFF. -/
def Reg.PAT_DIFF : Nat := 0x1001C

/-- PAT_DIFF_SECT. -/
def Reg.PAT_DIFF_SECT : Nat := 0x10020

/-- PAT_CUT_US. -/
def Reg.PAT_CUT_US : Nat := 0x10024

/-- PAT_BOOT. -/
def Reg.PAT_BOOT : Nat := 0x10028

/-- PAT_CUT_DROPS. -/
def Reg.PAT_CUT_DROPS : Nat := 0x1002C

/-- PAT_SLOT_INFO, i below 2. -/
def Reg.PAT_SLOT_INFO (i : Nat) : Nat := 0x10030 + 0x4 * (i % 2)

/-- PAT_SLOT_SERIAL, i below 2. -/
def Reg.PAT_SLOT_SERIAL (i : Nat) : Nat := 0x10038 + 0x4 * (i % 2)

/-- PAT_ACT_SERIAL. -/
def Reg.PAT_ACT_SERIAL : Nat := 0x10040

/-- PAT_FLOOR. -/
def Reg.PAT_FLOOR : Nat := 0x10044

/-- PAT_ACT_DIG, i below 12. -/
def Reg.PAT_ACT_DIG (i : Nat) : Nat := 0x10080 + 0x4 * (i % 12)

/-- PAT_STG_DIG, i below 12. -/
def Reg.PAT_STG_DIG (i : Nat) : Nat := 0x100C0 + 0x4 * (i % 12)

/-- PEN_INTEG_COMMIT. -/
def Reg.PEN_INTEG_COMMIT : Nat := 0x20000

/-- PEN_INTEG_STATUS. -/
def Reg.PEN_INTEG_STATUS : Nat := 0x20004

/-- PEN_CNT_HOLD. -/
def Reg.PEN_CNT_HOLD : Nat := 0x20008

/-- PEN_LATCH_SEQ. -/
def Reg.PEN_LATCH_SEQ : Nat := 0x2000C

/-- PEN_LATCH_NS. -/
def Reg.PEN_LATCH_NS : Nat := 0x20010

/-- PEN_EN, i below 64. -/
def Reg.PEN_EN (i : Nat) : Nat := 0x20100 + 0x10 * (i % 64)

/-- PEN_DEF_RAW, i below 64. -/
def Reg.PEN_DEF_RAW (i : Nat) : Nat := 0x20104 + 0x10 * (i % 64)

/-- PEN_DEF, i below 64. -/
def Reg.PEN_DEF (i : Nat) : Nat := 0x20108 + 0x10 * (i % 64)

/-- PEN_DEF_EVT, i below 64. -/
def Reg.PEN_DEF_EVT (i : Nat) : Nat := 0x2010C + 0x10 * (i % 64)

/-- PEN_DEF_MASK, i below 64. -/
def Reg.PEN_DEF_MASK (i : Nat) : Nat := 0x20500 + 0x4 * (i % 64)

/-- PEN_FECDEG, i below 64. -/
def Reg.PEN_FECDEG (i : Nat) : Nat := 0x20700 + 0x4 * (i % 64)

/-- PEN_PSTAT, i below 64. -/
def Reg.PEN_PSTAT (i : Nat) : Nat := 0x20800 + 0x4 * (i % 64)

/-- PEN_PAGE, i below 64, j below 34. -/
def Reg.PEN_PAGE (i j : Nat) : Nat := 0x21000 + 0x100 * (i % 64) + 0x4 * (j % 34)

/-- PEN_LATCH, i below 64, j below 34. -/
def Reg.PEN_LATCH (i j : Nat) : Nat := 0x26000 + 0x100 * (i % 64) + 0x4 * (j % 34)

/-- LANE_CTRL, i below 73. -/
def Reg.LANE_CTRL (i : Nat) : Nat := 0x40000 + 0x400 * (i % 73)

/-- LANE_TXFFE, i below 72. -/
def Reg.LANE_TXFFE (i : Nat) : Nat := 0x40004 + 0x400 * (i % 72)

/-- LANE_STATUS, i below 73. -/
def Reg.LANE_STATUS (i : Nat) : Nat := 0x40008 + 0x400 * (i % 73)

/-- LANE_GUARD, i below 73. -/
def Reg.LANE_GUARD (i : Nat) : Nat := 0x4000C + 0x400 * (i % 73)

/-- LANE_FREEZES, i below 73. -/
def Reg.LANE_FREEZES (i : Nat) : Nat := 0x40010 + 0x400 * (i % 73)

/-- LANE_DFE, i below 73, j below 12. -/
def Reg.LANE_DFE (i j : Nat) : Nat := 0x40040 + 0x400 * (i % 73) + 0x4 * (j % 12)

/-- LANE_PRBS, i below 72. -/
def Reg.LANE_PRBS (i : Nat) : Nat := 0x40100 + 0x400 * (i % 72)

/-- LANE_INJ, i below 72. -/
def Reg.LANE_INJ (i : Nat) : Nat := 0x40104 + 0x400 * (i % 72)

/-- LANE_PRBS_CNT, i below 72, j below 4. -/
def Reg.LANE_PRBS_CNT (i j : Nat) : Nat := 0x40108 + 0x400 * (i % 72) + 0x4 * (j % 4)

/-- LANE_PRBS_HOLD, i below 72. -/
def Reg.LANE_PRBS_HOLD (i : Nat) : Nat := 0x40118 + 0x400 * (i % 72)

/-- LANE_HRN_STATUS. -/
def Reg.LANE_HRN_STATUS : Nat := 0x52400

/-- LANE_HRN_CTRL. -/
def Reg.LANE_HRN_CTRL : Nat := 0x52404

/-- LANE_HRN_DOWNS. -/
def Reg.LANE_HRN_DOWNS : Nat := 0x52408

/-- LANE_HRN_TRAINS. -/
def Reg.LANE_HRN_TRAINS : Nat := 0x5240C

/-- FRM_CTRL. -/
def Reg.FRM_CTRL : Nat := 0x80000

/-- FRM_EVT. -/
def Reg.FRM_EVT : Nat := 0x80004

/-- FRM_EVT_EN. -/
def Reg.FRM_EVT_EN : Nat := 0x80008

/-- FRM_CNT_HOLD. -/
def Reg.FRM_CNT_HOLD : Nat := 0x8000C

/-- FRM_STOMPS. -/
def Reg.FRM_STOMPS : Nat := 0x80010

/-- FRM_ICVFAILS. -/
def Reg.FRM_ICVFAILS : Nat := 0x80014

/-- FRM_LAST_FAIL. -/
def Reg.FRM_LAST_FAIL : Nat := 0x80018

/-- FRM_LAST_SC. -/
def Reg.FRM_LAST_SC : Nat := 0x8001C

/-- FRM_LAST_SCI, i below 2. -/
def Reg.FRM_LAST_SCI (i : Nat) : Nat := 0x80020 + 0x4 * (i % 2)

/-- FRM_TRK_EVT. -/
def Reg.FRM_TRK_EVT : Nat := 0x80040

/-- FRM_TRK_EVT_EN. -/
def Reg.FRM_TRK_EVT_EN : Nat := 0x80044

/-- FRM_TRK_LAST. -/
def Reg.FRM_TRK_LAST : Nat := 0x80048

/-- FRM_PAGE, i below 32, j below 40. -/
def Reg.FRM_PAGE (i j : Nat) : Nat := 0x81000 + 0x100 * (i % 32) + 0x4 * (j % 40)

/-- FRM_TRK_TXSC, i below 32. -/
def Reg.FRM_TRK_TXSC (i : Nat) : Nat := 0x83000 + 0x20 * (i % 32)

/-- FRM_TRK_RXSC, i below 32. -/
def Reg.FRM_TRK_RXSC (i : Nat) : Nat := 0x83004 + 0x20 * (i % 32)

/-- FRM_TRK_PEER, i below 32. -/
def Reg.FRM_TRK_PEER (i : Nat) : Nat := 0x83008 + 0x20 * (i % 32)

/-- FRM_TRK_STATUS, i below 32. -/
def Reg.FRM_TRK_STATUS (i : Nat) : Nat := 0x8300C + 0x20 * (i % 32)

/-- FRM_TRK_SEQ_LO, i below 32. -/
def Reg.FRM_TRK_SEQ_LO (i : Nat) : Nat := 0x83010 + 0x20 * (i % 32)

/-- FRM_TRK_SEQ_HI, i below 32. -/
def Reg.FRM_TRK_SEQ_HI (i : Nat) : Nat := 0x83014 + 0x20 * (i % 32)

/-- FRM_TRK_LASTSW, i below 32. -/
def Reg.FRM_TRK_LASTSW (i : Nat) : Nat := 0x83018 + 0x20 * (i % 32)

/-- FRM_TRK_LASTSW_T, i below 32. -/
def Reg.FRM_TRK_LASTSW_T (i : Nat) : Nat := 0x8301C + 0x20 * (i % 32)

/-- FRM_TRK_PAGE, i below 32, j below 40. -/
def Reg.FRM_TRK_PAGE (i j : Nat) : Nat := 0x84000 + 0x100 * (i % 32) + 0x4 * (j % 40)

/-- FRM_LATCH, i below 32, j below 40. -/
def Reg.FRM_LATCH (i j : Nat) : Nat := 0x88000 + 0x100 * (i % 32) + 0x4 * (j % 40)

/-- FRM_TRK_LATCH, i below 32, j below 40. -/
def Reg.FRM_TRK_LATCH (i j : Nat) : Nat := 0x8A000 + 0x100 * (i % 32) + 0x4 * (j % 40)

/-- CPH_CTRL. -/
def Reg.CPH_CTRL : Nat := 0xC0000

/-- CPH_HEALTH. -/
def Reg.CPH_HEALTH : Nat := 0xC0004

/-- CPH_CAP. -/
def Reg.CPH_CAP : Nat := 0xC0008

/-- CPH_SHED. -/
def Reg.CPH_SHED : Nat := 0xC000C

/-- CPH_ACTIVE. -/
def Reg.CPH_ACTIVE : Nat := 0xC0010

/-- CPH_EVT. -/
def Reg.CPH_EVT : Nat := 0xC0014

/-- CPH_TAG_FREE. -/
def Reg.CPH_TAG_FREE : Nat := 0xC0018

/-- CPH_TAG_DROPS. -/
def Reg.CPH_TAG_DROPS : Nat := 0xC001C

/-- CPH_FENCE_DROPS. -/
def Reg.CPH_FENCE_DROPS : Nat := 0xC0020

/-- CPH_AUDIT_FAILS. -/
def Reg.CPH_AUDIT_FAILS : Nat := 0xC0024

/-- CPH_AUDIT_SKIPS. -/
def Reg.CPH_AUDIT_SKIPS : Nat := 0xC0028

/-- CPH_LATE. -/
def Reg.CPH_LATE : Nat := 0xC002C

/-- CPH_LAST_AUDIT. -/
def Reg.CPH_LAST_AUDIT : Nat := 0xC0030

/-- CPH_EVT_EN. -/
def Reg.CPH_EVT_EN : Nat := 0xC0034

/-- CPH_ISL_CTRL, i below 24. -/
def Reg.CPH_ISL_CTRL (i : Nat) : Nat := 0xC0100 + 0x4 * (i % 24)

/-- CPH_ISL_STATUS, i below 24. -/
def Reg.CPH_ISL_STATUS (i : Nat) : Nat := 0xC0200 + 0x4 * (i % 24)

/-- CPH_ISL_MV, i below 24. -/
def Reg.CPH_ISL_MV (i : Nat) : Nat := 0xC0300 + 0x4 * (i % 24)

/-- CPH_SHARE, i below 32. -/
def Reg.CPH_SHARE (i : Nat) : Nat := 0xC0400 + 0x4 * (i % 32)

/-- SEC_SCW_SEL. -/
def Reg.SEC_SCW_SEL : Nat := 0x100000

/-- SEC_SCW_OP. -/
def Reg.SEC_SCW_OP : Nat := 0x100004

/-- SEC_SCW_COMMIT. -/
def Reg.SEC_SCW_COMMIT : Nat := 0x100008

/-- SEC_SCW_STATUS. -/
def Reg.SEC_SCW_STATUS : Nat := 0x10000C

/-- SEC_SCW_W, i below 8. -/
def Reg.SEC_SCW_W (i : Nat) : Nat := 0x100020 + 0x4 * (i % 8)

/-- SEC_SCR_SEL. -/
def Reg.SEC_SCR_SEL : Nat := 0x100040

/-- SEC_SCR_W, i below 8. -/
def Reg.SEC_SCR_W (i : Nat) : Nat := 0x100060 + 0x4 * (i % 8)

/-- SEC_SCR_STATE. -/
def Reg.SEC_SCR_STATE : Nat := 0x100080

/-- SEC_SCR_EPOCH. -/
def Reg.SEC_SCR_EPOCH : Nat := 0x100084

/-- SEC_SAR_SEL. -/
def Reg.SEC_SAR_SEL : Nat := 0x100090

/-- SEC_SAR_STATE. -/
def Reg.SEC_SAR_STATE : Nat := 0x100094

/-- SEC_SAR_EPOCH. -/
def Reg.SEC_SAR_EPOCH : Nat := 0x100098

/-- SEC_SAR_PN, i below 2. -/
def Reg.SEC_SAR_PN (i : Nat) : Nat := 0x10009C + 0x4 * (i % 2)

/-- SEC_SAR_MARK_LO. -/
def Reg.SEC_SAR_MARK_LO : Nat := 0x1000A4

/-- SEC_SAR_MARK_HI. -/
def Reg.SEC_SAR_MARK_HI : Nat := 0x1000A8

/-- SEC_SAR_SSCI. -/
def Reg.SEC_SAR_SSCI : Nat := 0x1000AC

/-- SEC_EPOCH_CMD. -/
def Reg.SEC_EPOCH_CMD : Nat := 0x1000B0

/-- SEC_EPOCH_STATUS. -/
def Reg.SEC_EPOCH_STATUS : Nat := 0x1000B4

/-- SEC_EVT. -/
def Reg.SEC_EVT : Nat := 0x1000C0

/-- SEC_EVT_EN. -/
def Reg.SEC_EVT_EN : Nat := 0x1000C4

/-- SEC_LAST. -/
def Reg.SEC_LAST : Nat := 0x1000C8

/-- SEC_TX_SWITCHES. -/
def Reg.SEC_TX_SWITCHES : Nat := 0x100100

/-- SEC_RX_SWITCHES. -/
def Reg.SEC_RX_SWITCHES : Nat := 0x100104

/-- SEC_RETIRES. -/
def Reg.SEC_RETIRES : Nat := 0x100108

/-- SEC_DERIVES. -/
def Reg.SEC_DERIVES : Nat := 0x10010C

/-- SEC_GAP_ENTRIES. -/
def Reg.SEC_GAP_ENTRIES : Nat := 0x100110

/-- SEC_HOLD_FRAMES. -/
def Reg.SEC_HOLD_FRAMES : Nat := 0x100114

/-- SEC_RES_BLOCKS. -/
def Reg.SEC_RES_BLOCKS : Nat := 0x100118

/-- SEC_RES_FAIL. -/
def Reg.SEC_RES_FAIL : Nat := 0x10011C

/-- SEC_CINCH_LATE. -/
def Reg.SEC_CINCH_LATE : Nat := 0x100120

/-- SEC_ORPHAN_CLEARS. -/
def Reg.SEC_ORPHAN_CLEARS : Nat := 0x100124

/-- SEC_TXGAP, i below 512. -/
def Reg.SEC_TXGAP (i : Nat) : Nat := 0x101000 + 0x4 * (i % 512)

/-- KEY_STATUS. -/
def Reg.KEY_STATUS : Nat := 0x140000

/-- KEY_TAMPER. -/
def Reg.KEY_TAMPER : Nat := 0x140004

/-- KEY_ZSRC. -/
def Reg.KEY_ZSRC : Nat := 0x140008

/-- KEY_ALARM. -/
def Reg.KEY_ALARM : Nat := 0x14000C

/-- KEY_ZCOUNT. -/
def Reg.KEY_ZCOUNT : Nat := 0x140010

/-- KEY_ZTIME. -/
def Reg.KEY_ZTIME : Nat := 0x140014

/-- KEY_TK_VALID. -/
def Reg.KEY_TK_VALID : Nat := 0x140018

/-- KEY_TK_FLOOR, i below 2. -/
def Reg.KEY_TK_FLOOR (i : Nat) : Nat := 0x14001C + 0x4 * (i % 2)

/-- KEY_VAULT_GEN. -/
def Reg.KEY_VAULT_GEN : Nat := 0x140024

/-- KEY_REMASK_PASSES. -/
def Reg.KEY_REMASK_PASSES : Nat := 0x140028

/-- KEY_REMASK_LATE. -/
def Reg.KEY_REMASK_LATE : Nat := 0x14002C

/-- KEY_DRBG_FAILS. -/
def Reg.KEY_DRBG_FAILS : Nat := 0x140030

/-- KEY_UNWRAP_FAILS. -/
def Reg.KEY_UNWRAP_FAILS : Nat := 0x140034

/-- KEY_VAULT_FAULTS. -/
def Reg.KEY_VAULT_FAULTS : Nat := 0x140038

/-- KEY_EVT. -/
def Reg.KEY_EVT : Nat := 0x14003C

/-- KEY_EVT_EN. -/
def Reg.KEY_EVT_EN : Nat := 0x140040

/-- KEY_PARENT_VALID, i below 128. -/
def Reg.KEY_PARENT_VALID (i : Nat) : Nat := 0x140100 + 0x4 * (i % 128)

/-- CLS_CTRL. -/
def Reg.CLS_CTRL : Nat := 0x180000

/-- CLS_AGE. -/
def Reg.CLS_AGE : Nat := 0x180004

/-- CLS_AGE_NOW. -/
def Reg.CLS_AGE_NOW : Nat := 0x180008

/-- CLS_STATUS. -/
def Reg.CLS_STATUS : Nat := 0x18000C

/-- CLS_ENTRIES. -/
def Reg.CLS_ENTRIES : Nat := 0x180010

/-- CLS_LEARNQ. -/
def Reg.CLS_LEARNQ : Nat := 0x180014

/-- CLS_PREFIXES. -/
def Reg.CLS_PREFIXES : Nat := 0x180018

/-- CLS_CMD. -/
def Reg.CLS_CMD : Nat := 0x180020

/-- CLS_CMD_STATUS. -/
def Reg.CLS_CMD_STATUS : Nat := 0x180024

/-- CLS_CMD_ARG, i below 2. -/
def Reg.CLS_CMD_ARG (i : Nat) : Nat := 0x180028 + 0x4 * (i % 2)

/-- CLS_CMD_OUT. -/
def Reg.CLS_CMD_OUT : Nat := 0x180030

/-- CLS_WIN_PAGE. -/
def Reg.CLS_WIN_PAGE : Nat := 0x180034

/-- CLS_CMD_DATA, i below 16. -/
def Reg.CLS_CMD_DATA (i : Nat) : Nat := 0x180040 + 0x4 * (i % 16)

/-- CLS_CMD_PKEY, i below 10. -/
def Reg.CLS_CMD_PKEY (i : Nat) : Nat := 0x180080 + 0x4 * (i % 10)

/-- CLS_CMD_PMASK, i below 10. -/
def Reg.CLS_CMD_PMASK (i : Nat) : Nat := 0x1800C0 + 0x4 * (i % 10)

/-- CLS_CMD_PRES, i below 2. -/
def Reg.CLS_CMD_PRES (i : Nat) : Nat := 0x1800F0 + 0x4 * (i % 2)

/-- CLS_PORT, i below 32. -/
def Reg.CLS_PORT (i : Nat) : Nat := 0x180100 + 0x4 * (i % 32)

/-- CLS_PORT_COMMIT. -/
def Reg.CLS_PORT_COMMIT : Nat := 0x180180

/-- CLS_GROUP, i below 32. -/
def Reg.CLS_GROUP (i : Nat) : Nat := 0x180200 + 0x4 * (i % 32)

/-- CLS_POLICY_DROPS. -/
def Reg.CLS_POLICY_DROPS : Nat := 0x180300

/-- CLS_BADSC_DROPS. -/
def Reg.CLS_BADSC_DROPS : Nat := 0x180304

/-- CLS_NOGROUP_DROPS. -/
def Reg.CLS_NOGROUP_DROPS : Nat := 0x180308

/-- CLS_LOCAL_DROPS. -/
def Reg.CLS_LOCAL_DROPS : Nat := 0x18030C

/-- CLS_SEAL_FLOODS. -/
def Reg.CLS_SEAL_FLOODS : Nat := 0x180310

/-- CLS_OPEN_FLOODS. -/
def Reg.CLS_OPEN_FLOODS : Nat := 0x180314

/-- CLS_LEARNS. -/
def Reg.CLS_LEARNS : Nat := 0x180318

/-- CLS_MOVES. -/
def Reg.CLS_MOVES : Nat := 0x18031C

/-- CLS_CONFLICTS. -/
def Reg.CLS_CONFLICTS : Nat := 0x180320

/-- CLS_STATIC_HITS. -/
def Reg.CLS_STATIC_HITS : Nat := 0x180324

/-- CLS_INSERT_FAILS. -/
def Reg.CLS_INSERT_FAILS : Nat := 0x180328

/-- CLS_LEARN_OVF. -/
def Reg.CLS_LEARN_OVF : Nat := 0x18032C

/-- CLS_LEARN_LOCKED. -/
def Reg.CLS_LEARN_LOCKED : Nat := 0x180330

/-- CLS_LEARN_NOMAP. -/
def Reg.CLS_LEARN_NOMAP : Nat := 0x180334

/-- CLS_AGED. -/
def Reg.CLS_AGED : Nat := 0x180338

/-- CLS_LATE. -/
def Reg.CLS_LATE : Nat := 0x18033C

/-- CLS_WIN_VIOL. -/
def Reg.CLS_WIN_VIOL : Nat := 0x180340

/-- CLS_EVT. -/
def Reg.CLS_EVT : Nat := 0x180400

/-- CLS_EVT_EN. -/
def Reg.CLS_EVT_EN : Nat := 0x180404

/-- CLS_LAST. -/
def Reg.CLS_LAST : Nat := 0x180408

/-- CLS_LAST_MAC_LO. -/
def Reg.CLS_LAST_MAC_LO : Nat := 0x18040C

/-- CLS_LAST_MAC_HI. -/
def Reg.CLS_LAST_MAC_HI : Nat := 0x180410

/-- CLS_PEERMAP, i below 32768. -/
def Reg.CLS_PEERMAP (i : Nat) : Nat := 0x1A0000 + 0x4 * (i % 32768)

/-- SCH_LS_CTRL. -/
def Reg.SCH_LS_CTRL : Nat := 0x1C0000

/-- SCH_LS_BIN. -/
def Reg.SCH_LS_BIN : Nat := 0x1C0004

/-- SCH_LS_SEL. -/
def Reg.SCH_LS_SEL : Nat := 0x1C0010

/-- SCH_LS_REC, i below 6. -/
def Reg.SCH_LS_REC (i : Nat) : Nat := 0x1C0014 + 0x4 * (i % 6)

/-- SCH_LS_HIST, i below 16. -/
def Reg.SCH_LS_HIST (i : Nat) : Nat := 0x1C0040 + 0x4 * (i % 16)

/-- SCH_LS_CLR. -/
def Reg.SCH_LS_CLR : Nat := 0x1C0080

/-- SCH_GCL_SEL. -/
def Reg.SCH_GCL_SEL : Nat := 0x1C0100

/-- SCH_GCL_DUR. -/
def Reg.SCH_GCL_DUR : Nat := 0x1C0104

/-- SCH_GCL_GATES. -/
def Reg.SCH_GCL_GATES : Nat := 0x1C0108

/-- SCH_GCL_COUNT. -/
def Reg.SCH_GCL_COUNT : Nat := 0x1C010C

/-- SCH_GCL_CYCLE. -/
def Reg.SCH_GCL_CYCLE : Nat := 0x1C0110

/-- SCH_GCL_PHASE. -/
def Reg.SCH_GCL_PHASE : Nat := 0x1C0114

/-- SCH_GCL_COMMIT. -/
def Reg.SCH_GCL_COMMIT : Nat := 0x1C0118

/-- SCH_GCL_STATUS. -/
def Reg.SCH_GCL_STATUS : Nat := 0x1C011C

/-- SCH_GSTAT, i below 32. -/
def Reg.SCH_GSTAT (i : Nat) : Nat := 0x1C0200 + 0x4 * (i % 32)

/-- SCH_PUSHOUTS. -/
def Reg.SCH_PUSHOUTS : Nat := 0x1C0300

/-- SCH_SPILL_FRAMES. -/
def Reg.SCH_SPILL_FRAMES : Nat := 0x1C0304

/-- SCH_SPILL_DENIED. -/
def Reg.SCH_SPILL_DENIED : Nat := 0x1C0308

/-- SCH_SPILL_LOST. -/
def Reg.SCH_SPILL_LOST : Nat := 0x1C030C

/-- SCH_GATE_WAITS. -/
def Reg.SCH_GATE_WAITS : Nat := 0x1C0310

/-- SCH_GATE_OVERSIZE. -/
def Reg.SCH_GATE_OVERSIZE : Nat := 0x1C0314

/-- SCH_GATE_TRUNC. -/
def Reg.SCH_GATE_TRUNC : Nat := 0x1C0318

/-- SCH_GATE_RESYNC. -/
def Reg.SCH_GATE_RESYNC : Nat := 0x1C031C

/-- SCH_SPILL_USED. -/
def Reg.SCH_SPILL_USED : Nat := 0x1C0320

/-- SCH_EVT. -/
def Reg.SCH_EVT : Nat := 0x1C0400

/-- SCH_EVT_EN. -/
def Reg.SCH_EVT_EN : Nat := 0x1C0404

/-- SCH_LAST. -/
def Reg.SCH_LAST : Nat := 0x1C0408

/-- SCH_WEIGHT, i below 32, j below 7. -/
def Reg.SCH_WEIGHT (i j : Nat) : Nat := 0x1C1000 + 0x80 * (i % 32) + 0x4 * (j % 7)

/-- SCH_SHP_RATE, i below 32, j below 7. -/
def Reg.SCH_SHP_RATE (i j : Nat) : Nat := 0x1C1020 + 0x80 * (i % 32) + 0x4 * (j % 7)

/-- SCH_SHP_RATE of class 7, i below 32. -/
def Reg.SCH_SHP_RATE7 (i : Nat) : Nat := 0x1C103C + 0x80 * (i % 32)

/-- SCH_SHP_DEPTH of class 7, i below 32. -/
def Reg.SCH_SHP_DEPTH7 (i : Nat) : Nat := 0x1C105C + 0x80 * (i % 32)

/-- SCH_SHP_DEPTH, i below 32, j below 7. -/
def Reg.SCH_SHP_DEPTH (i j : Nat) : Nat := 0x1C1040 + 0x80 * (i % 32) + 0x4 * (j % 7)

/-- SCH_PCOMMIT, i below 32. -/
def Reg.SCH_PCOMMIT (i : Nat) : Nat := 0x1C1060 + 0x80 * (i % 32)

/-- SCH_SVC, i below 32. -/
def Reg.SCH_SVC (i : Nat) : Nat := 0x1C1064 + 0x80 * (i % 32)

/-- SCH_PSTATUS, i below 32. -/
def Reg.SCH_PSTATUS (i : Nat) : Nat := 0x1C1068 + 0x80 * (i % 32)

/-- SCH_SPILL_TH, i below 32. -/
def Reg.SCH_SPILL_TH (i : Nat) : Nat := 0x1C106C + 0x80 * (i % 32)

/-- SCH_TOK, i below 32, j below 8. -/
def Reg.SCH_TOK (i j : Nat) : Nat := 0x1C2000 + 0x20 * (i % 32) + 0x4 * (j % 8)

/-- SCH_CQW, i below 32, j below 7. -/
def Reg.SCH_CQW (i j : Nat) : Nat := 0x1C3000 + 0x40 * (i % 32) + 0x4 * (j % 7)

/-- SCH_CCOMMIT, i below 32. -/
def Reg.SCH_CCOMMIT (i : Nat) : Nat := 0x1C3020 + 0x40 * (i % 32)

/-- SCH_FC_XOFF, i below 32. -/
def Reg.SCH_FC_XOFF (i : Nat) : Nat := 0x1C3024 + 0x40 * (i % 32)

/-- SCH_FC_XON, i below 32. -/
def Reg.SCH_FC_XON (i : Nat) : Nat := 0x1C3028 + 0x40 * (i % 32)

/-- SCH_FC_QUANTA, i below 32. -/
def Reg.SCH_FC_QUANTA (i : Nat) : Nat := 0x1C302C + 0x40 * (i % 32)

/-- SCH_CSTATUS, i below 32. -/
def Reg.SCH_CSTATUS (i : Nat) : Nat := 0x1C3030 + 0x40 * (i % 32)

/-- SCH_LDROPS, i below 32, j below 8. -/
def Reg.SCH_LDROPS (i j : Nat) : Nat := 0x1C4000 + 0x20 * (i % 32) + 0x4 * (j % 8)

/-- SCH_CDROPS, i below 32, j below 8. -/
def Reg.SCH_CDROPS (i j : Nat) : Nat := 0x1C4400 + 0x20 * (i % 32) + 0x4 * (j % 8)

/-- SCH_PAUSE_TX, i below 32. -/
def Reg.SCH_PAUSE_TX (i : Nat) : Nat := 0x1C4800 + 0x8 * (i % 32)

/-- SCH_PAUSE_RX, i below 32. -/
def Reg.SCH_PAUSE_RX (i : Nat) : Nat := 0x1C4804 + 0x8 * (i % 32)

/-- TB_NS, i below 4. -/
def Reg.TB_NS (i : Nat) : Nat := 0x200000 + 0x100 * (i % 4)

/-- TB_FRAC, i below 4. -/
def Reg.TB_FRAC (i : Nat) : Nat := 0x200004 + 0x100 * (i % 4)

/-- TB_WRAP, i below 4. -/
def Reg.TB_WRAP (i : Nat) : Nat := 0x200008 + 0x100 * (i % 4)

/-- TB_SECMARK, i below 4. -/
def Reg.TB_SECMARK (i : Nat) : Nat := 0x20000C + 0x100 * (i % 4)

/-- TB_SECBASE_LO, i below 4. -/
def Reg.TB_SECBASE_LO (i : Nat) : Nat := 0x200010 + 0x100 * (i % 4)

/-- TB_SECBASE_HI, i below 4. -/
def Reg.TB_SECBASE_HI (i : Nat) : Nat := 0x200014 + 0x100 * (i % 4)

/-- TB_STEP, i below 4. -/
def Reg.TB_STEP (i : Nat) : Nat := 0x200018 + 0x100 * (i % 4)

/-- TB_SET_NS, i below 4. -/
def Reg.TB_SET_NS (i : Nat) : Nat := 0x20001C + 0x100 * (i % 4)

/-- TB_SET_CTRL, i below 4. -/
def Reg.TB_SET_CTRL (i : Nat) : Nat := 0x200020 + 0x100 * (i % 4)

/-- TB_OFFSET, i below 4. -/
def Reg.TB_OFFSET (i : Nat) : Nat := 0x200024 + 0x100 * (i % 4)

/-- TB_FADJ, i below 4. -/
def Reg.TB_FADJ (i : Nat) : Nat := 0x200028 + 0x100 * (i % 4)

/-- TB_KP, i below 4. -/
def Reg.TB_KP (i : Nat) : Nat := 0x20002C + 0x100 * (i % 4)

/-- TB_KI, i below 4. -/
def Reg.TB_KI (i : Nat) : Nat := 0x200030 + 0x100 * (i % 4)

/-- TB_SERVO, i below 4. -/
def Reg.TB_SERVO (i : Nat) : Nat := 0x200034 + 0x100 * (i % 4)

/-- TB_STEP_TH, i below 4. -/
def Reg.TB_STEP_TH (i : Nat) : Nat := 0x200038 + 0x100 * (i % 4)

/-- TB_PPS_DELAY, i below 4. -/
def Reg.TB_PPS_DELAY (i : Nat) : Nat := 0x20003C + 0x100 * (i % 4)

/-- TB_STATUS, i below 4. -/
def Reg.TB_STATUS (i : Nat) : Nat := 0x200040 + 0x100 * (i % 4)

/-- TB_LAST_OFFSET, i below 4. -/
def Reg.TB_LAST_OFFSET (i : Nat) : Nat := 0x200044 + 0x100 * (i % 4)

/-- TB_HOLD_S, i below 4. -/
def Reg.TB_HOLD_S (i : Nat) : Nat := 0x200048 + 0x100 * (i % 4)

/-- TIM_CAPTURE. -/
def Reg.TIM_CAPTURE : Nat := 0x200400

/-- TIM_CAP_STATUS. -/
def Reg.TIM_CAP_STATUS : Nat := 0x200404

/-- TIM_PPS_CTRL. -/
def Reg.TIM_PPS_CTRL : Nat := 0x200440

/-- TIM_F10M_CTRL. -/
def Reg.TIM_F10M_CTRL : Nat := 0x200444

/-- TIM_TOD_CTRL. -/
def Reg.TIM_TOD_CTRL : Nat := 0x200448

/-- TIM_PPS_IN_NS. -/
def Reg.TIM_PPS_IN_NS : Nat := 0x20044C

/-- TIM_EVT. -/
def Reg.TIM_EVT : Nat := 0x200450

/-- TIM_EVT_EN. -/
def Reg.TIM_EVT_EN : Nat := 0x200454

/-- TIM_LAST. -/
def Reg.TIM_LAST : Nat := 0x200458

/-- TIM_CAP_NS, i below 4. -/
def Reg.TIM_CAP_NS (i : Nat) : Nat := 0x200480 + 0x10 * (i % 4)

/-- TIM_CAP_FRAC, i below 4. -/
def Reg.TIM_CAP_FRAC (i : Nat) : Nat := 0x200484 + 0x10 * (i % 4)

/-- TIM_CAP_WRAP, i below 4. -/
def Reg.TIM_CAP_WRAP (i : Nat) : Nat := 0x200488 + 0x10 * (i % 4)

/-- TIM_TC_CORR. -/
def Reg.TIM_TC_CORR : Nat := 0x200500

/-- TIM_TC_SKIP. -/
def Reg.TIM_TC_SKIP : Nat := 0x200504

/-- TIM_TC_STALE. -/
def Reg.TIM_TC_STALE : Nat := 0x200508

/-- TIM_TC_SAT. -/
def Reg.TIM_TC_SAT : Nat := 0x20050C

/-- TIM_MARK_SKIP. -/
def Reg.TIM_MARK_SKIP : Nat := 0x200510

/-- TIM_PPS_MISS. -/
def Reg.TIM_PPS_MISS : Nat := 0x200514

/-- TIM_TOD_SET. -/
def Reg.TIM_TOD_SET : Nat := 0x200518

/-- TIM_TOD_BAD. -/
def Reg.TIM_TOD_BAD : Nat := 0x20051C

/-- TIM_OFFSET_IGN. -/
def Reg.TIM_OFFSET_IGN : Nat := 0x200520

/-- TIM_MARK_REJ. -/
def Reg.TIM_MARK_REJ : Nat := 0x200524

/-- EVR_CTRL. -/
def Reg.EVR_CTRL : Nat := 0x240000

/-- EVR_STATUS. -/
def Reg.EVR_STATUS : Nat := 0x240004

/-- EVR_TRIG_EN. -/
def Reg.EVR_TRIG_EN : Nat := 0x240008

/-- EVR_TRIG_DEF. -/
def Reg.EVR_TRIG_DEF : Nat := 0x24000C

/-- EVR_TRIG_SPANS. -/
def Reg.EVR_TRIG_SPANS : Nat := 0x240010

/-- EVR_POST. -/
def Reg.EVR_POST : Nat := 0x240014

/-- EVR_CAP, i below 2. -/
def Reg.EVR_CAP (i : Nat) : Nat := 0x240018 + 0x4 * (i % 2)

/-- EVR_NEXT, i below 2. -/
def Reg.EVR_NEXT (i : Nat) : Nat := 0x240020 + 0x4 * (i % 2)

/-- EVR_OLDEST, i below 2. -/
def Reg.EVR_OLDEST (i : Nat) : Nat := 0x240028 + 0x4 * (i % 2)

/-- EVR_TRIG_REC, i below 2. -/
def Reg.EVR_TRIG_REC (i : Nat) : Nat := 0x240030 + 0x4 * (i % 2)

/-- EVR_CKPT_NO. -/
def Reg.EVR_CKPT_NO : Nat := 0x240038

/-- EVR_LOST. -/
def Reg.EVR_LOST : Nat := 0x24003C

/-- EVR_TRIG_IGN. -/
def Reg.EVR_TRIG_IGN : Nat := 0x240040

/-- EVR_RING_ID, i below 4. -/
def Reg.EVR_RING_ID (i : Nat) : Nat := 0x240044 + 0x4 * (i % 4)

/-- EVR_HOLD. -/
def Reg.EVR_HOLD : Nat := 0x240054

/-- EVR_RD_ADDR, i below 2. -/
def Reg.EVR_RD_ADDR (i : Nat) : Nat := 0x240080 + 0x4 * (i % 2)

/-- EVR_RD_FIRST, i below 2. -/
def Reg.EVR_RD_FIRST (i : Nat) : Nat := 0x240088 + 0x4 * (i % 2)

/-- EVR_RD_COUNT. -/
def Reg.EVR_RD_COUNT : Nat := 0x240090

/-- EVR_RD_CMD. -/
def Reg.EVR_RD_CMD : Nat := 0x240094

/-- EVR_RD_STATUS. -/
def Reg.EVR_RD_STATUS : Nat := 0x240098

/-- EVR_RD_DONE. -/
def Reg.EVR_RD_DONE : Nat := 0x24009C

/-- EVR_CH_STATUS, i below 8. -/
def Reg.EVR_CH_STATUS (i : Nat) : Nat := 0x240100 + 0x4 * (i % 8)

/-- EVR_CH_CE, i below 8. -/
def Reg.EVR_CH_CE (i : Nat) : Nat := 0x240120 + 0x4 * (i % 8)

/-- EVR_CH_UE, i below 8. -/
def Reg.EVR_CH_UE (i : Nat) : Nat := 0x240140 + 0x4 * (i % 8)

/-- EVR_CH_UE_TH. -/
def Reg.EVR_CH_UE_TH : Nat := 0x240160

/-- EVR_CH_FENCE. -/
def Reg.EVR_CH_FENCE : Nat := 0x240164

/-- EVR_PART, i below 5. -/
def Reg.EVR_PART (i : Nat) : Nat := 0x240170 + 0x4 * (i % 5)

/-- EVR_EVT. -/
def Reg.EVR_EVT : Nat := 0x240190

/-- EVR_EVT_EN. -/
def Reg.EVR_EVT_EN : Nat := 0x240194

/-- PMC_CNT, i below 512. -/
def Reg.PMC_CNT (i : Nat) : Nat := 0x280000 + 0x4 * (i % 512)

/-- PMC_SEL, i below 512. -/
def Reg.PMC_SEL (i : Nat) : Nat := 0x281000 + 0x4 * (i % 512)

/-- PMC_THR, i below 512. -/
def Reg.PMC_THR (i : Nat) : Nat := 0x282000 + 0x4 * (i % 512)

/-- PMC_HOLD, i below 16. -/
def Reg.PMC_HOLD (i : Nat) : Nat := 0x283000 + 0x4 * (i % 16)

/-- PMC_OVF, i below 16. -/
def Reg.PMC_OVF (i : Nat) : Nat := 0x283040 + 0x4 * (i % 16)

/-- PMC_OVF_LOST, i below 16. -/
def Reg.PMC_OVF_LOST (i : Nat) : Nat := 0x283080 + 0x4 * (i % 16)

/-- PMC_USER_EN. -/
def Reg.PMC_USER_EN : Nat := 0x2830C0

/-- PMC_EVT. -/
def Reg.PMC_EVT : Nat := 0x2830C4

/-- PMC_EVT_EN. -/
def Reg.PMC_EVT_EN : Nat := 0x2830C8

/-- PMC_LAST. -/
def Reg.PMC_LAST : Nat := 0x2830CC

/-- PMC_ISL_HOLD. -/
def Reg.PMC_ISL_HOLD : Nat := 0x2830D0

/-- PMC_ISL, i below 24, j below 8. -/
def Reg.PMC_ISL (i j : Nat) : Nat := 0x284000 + 0x20 * (i % 24) + 0x4 * (j % 8)

/-- CHN_STATUS. -/
def Reg.CHN_STATUS : Nat := 0x2C0000

/-- CHN_GEN. -/
def Reg.CHN_GEN : Nat := 0x2C0004

/-- CHN_CINCH_NS. -/
def Reg.CHN_CINCH_NS : Nat := 0x2C0008

/-- CHN_CINCH_CMD. -/
def Reg.CHN_CINCH_CMD : Nat := 0x2C000C

/-- CHN_CINCH_STATUS. -/
def Reg.CHN_CINCH_STATUS : Nat := 0x2C0010

/-- CHN_CINCH_RX. -/
def Reg.CHN_CINCH_RX : Nat := 0x2C0014

/-- CHN_CRC_ERR. -/
def Reg.CHN_CRC_ERR : Nat := 0x2C0020

/-- CHN_SYNC_LOSS. -/
def Reg.CHN_SYNC_LOSS : Nat := 0x2C0024

/-- CHN_ENUMS. -/
def Reg.CHN_ENUMS : Nat := 0x2C0028

/-- CHN_ZRX. -/
def Reg.CHN_ZRX : Nat := 0x2C002C

/-- CHN_EVT. -/
def Reg.CHN_EVT : Nat := 0x2C0030

/-- CHN_EVT_EN. -/
def Reg.CHN_EVT_EN : Nat := 0x2C0034

/-- CHN_PEER_ID, i below 64. -/
def Reg.CHN_PEER_ID (i : Nat) : Nat := 0x2C0100 + 0x8 * (i % 64)

/-- CHN_PEER_INFO, i below 64. -/
def Reg.CHN_PEER_INFO (i : Nat) : Nat := 0x2C0104 + 0x8 * (i % 64)

/-- CHN_HRN_STATUS. -/
def Reg.CHN_HRN_STATUS : Nat := 0x2C0400

/-- CHN_HRN_CTRL. -/
def Reg.CHN_HRN_CTRL : Nat := 0x2C0404

/-- CHN_HRN_CMD. -/
def Reg.CHN_HRN_CMD : Nat := 0x2C0408

/-- CHN_HRN_CODE. -/
def Reg.CHN_HRN_CODE : Nat := 0x2C040C

/-- CHN_HRN_WAIT. -/
def Reg.CHN_HRN_WAIT : Nat := 0x2C0410

/-- CHN_HRN_TAKEOVERS. -/
def Reg.CHN_HRN_TAKEOVERS : Nat := 0x2C0414

/-- CHN_HRN_RETX. -/
def Reg.CHN_HRN_RETX : Nat := 0x2C0418

/-- CHN_HRN_AUTH_FAILS. -/
def Reg.CHN_HRN_AUTH_FAILS : Nat := 0x2C041C

/-- CHN_HRN_LAST_US. -/
def Reg.CHN_HRN_LAST_US : Nat := 0x2C0420

/-- KPR_STATUS. -/
def Reg.KPR_STATUS : Nat := 0x300000

/-- KPR_ALARM. -/
def Reg.KPR_ALARM : Nat := 0x300004

/-- KPR_GEN. -/
def Reg.KPR_GEN : Nat := 0x300008

/-- KPR_SEQ, i below 2. -/
def Reg.KPR_SEQ (i : Nat) : Nat := 0x30000C + 0x4 * (i % 2)

/-- KPR_AUTH_FAILS. -/
def Reg.KPR_AUTH_FAILS : Nat := 0x300014

/-- KPR_REPLAYS. -/
def Reg.KPR_REPLAYS : Nat := 0x300018

/-- KPR_CMDS. -/
def Reg.KPR_CMDS : Nat := 0x30001C

/-- KPR_CHALLENGE, i below 8. -/
def Reg.KPR_CHALLENGE (i : Nat) : Nat := 0x300020 + 0x4 * (i % 8)

/-- KPR_DIGEST, i below 12. -/
def Reg.KPR_DIGEST (i : Nat) : Nat := 0x300040 + 0x4 * (i % 12)

/-- KPR_C7_FLAGS. -/
def Reg.KPR_C7_FLAGS : Nat := 0x300100

/-- KPR_GAP. -/
def Reg.KPR_GAP : Nat := 0x300104

/-- KPR_BYPASS. -/
def Reg.KPR_BYPASS : Nat := 0x300108

/-- KPR_TAMPER_RESP. -/
def Reg.KPR_TAMPER_RESP : Nat := 0x30010C

/-- KPR_ZFANOUT. -/
def Reg.KPR_ZFANOUT : Nat := 0x300110

/-- KPR_ORPHAN_CAP. -/
def Reg.KPR_ORPHAN_CAP : Nat := 0x300114

/-- KPR_TRIG_ROUTE. -/
def Reg.KPR_TRIG_ROUTE : Nat := 0x300118

/-- KPR_TAKEOVER. -/
def Reg.KPR_TAKEOVER : Nat := 0x30011C

/-- KPR_OBSERVE. -/
def Reg.KPR_OBSERVE : Nat := 0x300120

/-- KPR_PAT_HASH, i below 12. -/
def Reg.KPR_PAT_HASH (i : Nat) : Nat := 0x300140 + 0x4 * (i % 12)

/-- KPR_C7_RULE, i below 8, j below 4. -/
def Reg.KPR_C7_RULE (i j : Nat) : Nat := 0x300200 + 0x10 * (i % 8) + 0x4 * (j % 4)

/-- KPR_RES7_RATE, i below 32. -/
def Reg.KPR_RES7_RATE (i : Nat) : Nat := 0x300400 + 0x4 * (i % 32)

/-- KPR_RES7_DEPTH, i below 32. -/
def Reg.KPR_RES7_DEPTH (i : Nat) : Nat := 0x300480 + 0x4 * (i % 32)

/-- KPR_B7, i below 32. -/
def Reg.KPR_B7 (i : Nat) : Nat := 0x300500 + 0x4 * (i % 32)

/-- PWR_STATUS. -/
def Reg.PWR_STATUS : Nat := 0x340000

/-- PWR_IN_V. -/
def Reg.PWR_IN_V : Nat := 0x340004

/-- PWR_IN_MW. -/
def Reg.PWR_IN_MW : Nat := 0x340008

/-- PWR_IN_HZ. -/
def Reg.PWR_IN_HZ : Nat := 0x34000C

/-- PWR_TEMP. -/
def Reg.PWR_TEMP : Nat := 0x340010

/-- PWR_THR. -/
def Reg.PWR_THR : Nat := 0x340014

/-- PWR_VBAT. -/
def Reg.PWR_VBAT : Nat := 0x340018

/-- PWR_DIPS. -/
def Reg.PWR_DIPS : Nat := 0x340020

/-- PWR_STOPS. -/
def Reg.PWR_STOPS : Nat := 0x340024

/-- PWR_LAST_RESET. -/
def Reg.PWR_LAST_RESET : Nat := 0x340028

/-- PWR_FW_ADDR_LO. -/
def Reg.PWR_FW_ADDR_LO : Nat := 0x340040

/-- PWR_FW_ADDR_HI. -/
def Reg.PWR_FW_ADDR_HI : Nat := 0x340044

/-- PWR_FW_LEN. -/
def Reg.PWR_FW_LEN : Nat := 0x340048

/-- PWR_FW_CTRL. -/
def Reg.PWR_FW_CTRL : Nat := 0x34004C

/-- PWR_FW_STATUS. -/
def Reg.PWR_FW_STATUS : Nat := 0x340050

/-- PWR_EVT. -/
def Reg.PWR_EVT : Nat := 0x340060

/-- PWR_EVT_EN. -/
def Reg.PWR_EVT_EN : Nat := 0x340064

/-- DBG_STATUS. -/
def Reg.DBG_STATUS : Nat := 0x380000

/-- DBG_TRACE_CTRL. -/
def Reg.DBG_TRACE_CTRL : Nat := 0x380004

/-- DBG_TRACE_COUNT. -/
def Reg.DBG_TRACE_COUNT : Nat := 0x380008

/-- DBG_TRACE_REC, i below 1024, j below 16. -/
def Reg.DBG_TRACE_REC (i j : Nat) : Nat := 0x390000 + 0x40 * (i % 1024) + 0x4 * (j % 16)

/-- HIF_STATUS. -/
def Reg.HIF_STATUS : Nat := 0x3C0000

/-- HIF_FW_RESTARTS. -/
def Reg.HIF_FW_RESTARTS : Nat := 0x3C0004

/-- HIF_ERRADDR. -/
def Reg.HIF_ERRADDR : Nat := 0x3C0010

/-- HIF_ERRINFO. -/
def Reg.HIF_ERRINFO : Nat := 0x3C0014

/-- HIF_ERRCNT. -/
def Reg.HIF_ERRCNT : Nat := 0x3C0018

/-- HIF_LOCK_STATUS. -/
def Reg.HIF_LOCK_STATUS : Nat := 0x3C0020

/-- HIF_LOCK_ADDR. -/
def Reg.HIF_LOCK_ADDR : Nat := 0x3C0024

/-- HIF_LOCK_VCNT. -/
def Reg.HIF_LOCK_VCNT : Nat := 0x3C0028

/-- HIF_KPR_WRITES. -/
def Reg.HIF_KPR_WRITES : Nat := 0x3C002C

/-- HIF_KPR_ADDR. -/
def Reg.HIF_KPR_ADDR : Nat := 0x3C0030

/-- HIF_KQ_BASE_LO. -/
def Reg.HIF_KQ_BASE_LO : Nat := 0x3C0100

/-- HIF_KQ_BASE_HI. -/
def Reg.HIF_KQ_BASE_HI : Nat := 0x3C0104

/-- HIF_KQ_CBASE_LO. -/
def Reg.HIF_KQ_CBASE_LO : Nat := 0x3C0108

/-- HIF_KQ_CBASE_HI. -/
def Reg.HIF_KQ_CBASE_HI : Nat := 0x3C010C

/-- HIF_KQ_CTRL. -/
def Reg.HIF_KQ_CTRL : Nat := 0x3C0110

/-- HIF_KQ_STATUS. -/
def Reg.HIF_KQ_STATUS : Nat := 0x3C0114

/-- HIF_KQ_LAST. -/
def Reg.HIF_KQ_LAST : Nat := 0x3C0118

/-- HIF_KQ_HOLDOFF. -/
def Reg.HIF_KQ_HOLDOFF : Nat := 0x3C011C

/-- HIF_EQ_BASE_LO. -/
def Reg.HIF_EQ_BASE_LO : Nat := 0x3C0140

/-- HIF_EQ_BASE_HI. -/
def Reg.HIF_EQ_BASE_HI : Nat := 0x3C0144

/-- HIF_EQ_CTRL. -/
def Reg.HIF_EQ_CTRL : Nat := 0x3C0148

/-- HIF_EQ_STATUS. -/
def Reg.HIF_EQ_STATUS : Nat := 0x3C014C

/-- HIF_EQ_TAIL. -/
def Reg.HIF_EQ_TAIL : Nat := 0x3C0150

/-- HIF_EQ_LOST. -/
def Reg.HIF_EQ_LOST : Nat := 0x3C0154

/-- HIF_EQ_HOLDOFF. -/
def Reg.HIF_EQ_HOLDOFF : Nat := 0x3C0158

/-- PEN_INTEG[s][d] for side s and defect d (R342). -/
def Reg.PEN_INTEG (s d : Nat) : Nat := 0x20600 + 0x40 * s + 4 * d

/-! ## The rows, block by block -/

/-- Block GLB, part 0. -/
def regRowsGLB0 : List RegRow := [
  ⟨"GLB_ID_PART", 0x0, [], [⟨"PART", 0, 32, .ro, 1677724416, .any⟩]⟩,
  ⟨"GLB_ID_REV", 0x4, [], [⟨"DIE_REV", 0, 8, .ro, 162, .any⟩, ⟨"MOD_REV", 8, 4, .ro, 2, .any⟩]⟩,
  ⟨"GLB_FWVER", 0x8, [], [⟨"BUILD", 0, 16, .ro, 0, .any⟩, ⟨"MINOR", 16, 8, .ro, 0, .any⟩, ⟨"MAJOR", 24, 8, .ro, 3, .any⟩]⟩,
  ⟨"GLB_UNIT", 0xC, [], [⟨"UNIT", 0, 18, .ro, 0, .any⟩]⟩,
  ⟨"GLB_SCRATCH", 0x10, [], [⟨"VALUE", 0, 32, .rw, 0, .any⟩]⟩]

/-- The registers of block GLB. -/
def regRowsGLB : List RegRow := regRowsGLB0

/-- Block CLK, part 0. -/
def regRowsCLK0 : List RegRow := [
  ⟨"CLK_CTRL", 0x4000, [], [⟨"ALIGN", 0, 1, .w1s, 0, .any⟩]⟩,
  ⟨"CLK_STATUS", 0x4004, [], [⟨"PLAN", 0, 1, .ro, 0, .any⟩, ⟨"PLAN_SRC", 1, 2, .ro, 0, .any⟩, ⟨"REF_LOST", 3, 1, .ro, 0, .any⟩, ⟨"ROOT_LOCK", 4, 1, .ro, 0, .any⟩, ⟨"REF_DOWN", 5, 1, .ro, 0, .any⟩]⟩,
  ⟨"CLK_FAULT_INFO", 0x4008, [], [⟨"CAUSE", 0, 2, .ro, 0, .any⟩, ⟨"DOMAIN", 4, 6, .ro, 0, .any⟩, ⟨"VALID", 31, 1, .ro, 0, .any⟩]⟩,
  ⟨"CLK_EN", 0x4010, [], [⟨"EN", 0, 5, .rw, 0, .any⟩]⟩,
  ⟨"CLK_ON", 0x4014, [], [⟨"ON", 0, 5, .ro, 0, .any⟩]⟩,
  ⟨"CLK_GATE_ABORTS", 0x4018, [], [⟨"VALUE", 0, 32, .rc, 0, .any⟩]⟩,
  ⟨"CLK_OBS_SEL", 0x4020, [], [⟨"SRC", 0, 8, .rw, 0, .any⟩, ⟨"EN", 31, 1, .rw, 0, .any⟩]⟩,
  ⟨"CLK_OBS_DIV", 0x4024, [], [⟨"DIV_M1", 0, 16, .rw, 0, .any⟩]⟩,
  ⟨"CLK_OBS_STATUS", 0x4028, [], [⟨"RUNNING", 0, 1, .ro, 0, .any⟩, ⟨"TOO_FAST", 1, 1, .ro, 0, .any⟩]⟩]

/-- The registers of block CLK. -/
def regRowsCLK : List RegRow := regRowsCLK0

/-- Block IRQ, part 0. -/
def regRowsIRQ0 : List RegRow := [
  ⟨"IRQ_MSIX_ADDR_LO", 0x8000, [(16, 64)], [⟨"ADDR", 2, 30, .rw, 0, .any⟩]⟩,
  ⟨"IRQ_MSIX_ADDR_HI", 0x8004, [(16, 64)], [⟨"VALUE", 0, 32, .rw, 0, .any⟩]⟩,
  ⟨"IRQ_MSIX_DATA", 0x8008, [(16, 64)], [⟨"VALUE", 0, 32, .rw, 0, .any⟩]⟩,
  ⟨"IRQ_MSIX_CTRL", 0x800C, [(16, 64)], [⟨"MASK", 0, 1, .rw, 1, .any⟩]⟩,
  ⟨"IRQ_PBA", 0x8800, [(4, 2)], [⟨"VALUE", 0, 32, .ro, 0, .any⟩]⟩,
  ⟨"IRQ_TEST", 0x8C00, [], [⟨"VECTOR", 0, 6, .wo, 0, .any⟩, ⟨"GO", 31, 1, .wo, 0, .any⟩]⟩]

/-- The registers of block IRQ. -/
def regRowsIRQ : List RegRow := regRowsIRQ0

/-- Block PAT, part 0. -/
def regRowsPAT0 : List RegRow := [
  ⟨"PAT_CTRL", 0x10000, [], [⟨"OP", 0, 4, .wo, 0, .any⟩]⟩,
  ⟨"PAT_APPLY", 0x10004, [], [⟨"KIND", 0, 2, .rw, 0, .range 0 2⟩]⟩,
  ⟨"PAT_STATUS", 0x10008, [], [⟨"STATE", 0, 3, .ro, 0, .any⟩, ⟨"BUSY", 3, 1, .ro, 0, .any⟩, ⟨"OP_IGNORED", 4, 1, .w1c, 0, .any⟩, ⟨"RESULT", 8, 8, .ro, 83, .any⟩, ⟨"ACT_SIGNED", 16, 1, .ro, 0, .any⟩, ⟨"ACT_SOURCE", 17, 2, .ro, 0, .any⟩]⟩,
  ⟨"PAT_REJ_INFO", 0x1000C, [], [⟨"SECT", 0, 8, .ro, 0, .any⟩, ⟨"BYTE", 8, 24, .ro, 0, .any⟩]⟩,
  ⟨"PAT_WIN_LO", 0x10010, [], [⟨"VALUE", 0, 32, .rw, 0, .any⟩]⟩,
  ⟨"PAT_WIN_HI", 0x10014, [], [⟨"VALUE", 0, 32, .rw, 0, .any⟩]⟩,
  ⟨"PAT_WIN_LEN", 0x10018, [], [⟨"VALUE", 0, 32, .rw, 0, .any⟩]⟩,
  ⟨"PAT_DIFF", 0x1001C, [], [⟨"VALUE", 0, 32, .ro, 0, .any⟩]⟩,
  ⟨"PAT_DIFF_SECT", 0x10020, [], [⟨"TYPES", 1, 13, .ro, 0, .any⟩, ⟨"GLOBAL", 31, 1, .ro, 0, .any⟩]⟩,
  ⟨"PAT_CUT_US", 0x10024, [], [⟨"VALUE", 0, 32, .ro, 0, .any⟩]⟩,
  ⟨"PAT_BOOT", 0x10028, [], [⟨"SLOT", 0, 1, .rwl, 0, .any⟩, ⟨"LOCK", 31, 1, .w1s, 0, .any⟩]⟩,
  ⟨"PAT_CUT_DROPS", 0x1002C, [], [⟨"VALUE", 0, 32, .rc, 0, .any⟩]⟩,
  ⟨"PAT_SLOT_INFO", 0x10030, [(4, 2)], [⟨"VALID", 0, 1, .ro, 0, .any⟩, ⟨"SIGNED", 1, 1, .ro, 0, .any⟩]⟩,
  ⟨"PAT_SLOT_SERIAL", 0x10038, [(4, 2)], [⟨"VALUE", 0, 32, .ro, 0, .any⟩]⟩,
  ⟨"PAT_ACT_SERIAL", 0x10040, [], [⟨"VALUE", 0, 32, .ro, 0, .any⟩]⟩,
  ⟨"PAT_FLOOR", 0x10044, [], [⟨"VALUE", 0, 32, .ro, 0, .any⟩]⟩]

/-- Block PAT, part 1. -/
def regRowsPAT1 : List RegRow := [
  ⟨"PAT_ACT_DIG", 0x10080, [(4, 12)], [⟨"VALUE", 0, 32, .ro, 0, .any⟩]⟩,
  ⟨"PAT_STG_DIG", 0x100C0, [(4, 12)], [⟨"VALUE", 0, 32, .ro, 0, .any⟩]⟩]

/-- The registers of block PAT. -/
def regRowsPAT : List RegRow := regRowsPAT0 ++ regRowsPAT1

/-- Block PEN, part 0. -/
def regRowsPEN0 : List RegRow := [
  ⟨"PEN_INTEG_COMMIT", 0x20000, [], [⟨"GO", 0, 1, .wo, 0, .any⟩]⟩,
  ⟨"PEN_INTEG_STATUS", 0x20004, [], [⟨"PENDING", 0, 1, .ro, 0, .any⟩]⟩,
  ⟨"PEN_CNT_HOLD", 0x20008, [], [⟨"VALUE", 0, 32, .ro, 0, .any⟩]⟩,
  ⟨"PEN_LATCH_SEQ", 0x2000C, [], [⟨"VALUE", 0, 32, .ro, 0, .any⟩]⟩,
  ⟨"PEN_LATCH_NS", 0x20010, [], [⟨"VALUE", 0, 32, .ro, 0, .any⟩]⟩,
  ⟨"PEN_EN", 0x20100, [(16, 64)], [⟨"EN", 0, 1, .rw, 1, .any⟩]⟩,
  ⟨"PEN_DEF_RAW", 0x20104, [(16, 64)], [⟨"RAW", 0, 12, .ro, 0, .any⟩]⟩,
  ⟨"PEN_DEF", 0x20108, [(16, 64)], [⟨"DEF", 0, 12, .ro, 0, .any⟩]⟩,
  ⟨"PEN_DEF_EVT", 0x2010C, [(16, 64)], [⟨"EVT", 0, 12, .w1c, 0, .any⟩]⟩,
  ⟨"PEN_DEF_MASK", 0x20500, [(4, 64)], [⟨"MASK", 0, 12, .rw, 0, .any⟩]⟩,
  ⟨"PEN_INTEG_C0", 0x20600, [], [⟨"SET_MS", 0, 10, .rws, 0, .range 0 1000⟩, ⟨"CLR_MS", 16, 14, .rws, 100, .range 0 10000⟩]⟩,
  ⟨"PEN_INTEG_C1", 0x20604, [], [⟨"SET_MS", 0, 10, .rws, 0, .range 0 1000⟩, ⟨"CLR_MS", 16, 14, .rws, 100, .range 0 10000⟩]⟩,
  ⟨"PEN_INTEG_C2", 0x20608, [], [⟨"SET_MS", 0, 10, .rws, 1, .range 0 1000⟩, ⟨"CLR_MS", 16, 14, .rws, 100, .range 0 10000⟩]⟩,
  ⟨"PEN_INTEG_C3", 0x2060C, [], [⟨"SET_MS", 0, 10, .rws, 1, .range 0 1000⟩, ⟨"CLR_MS", 16, 14, .rws, 100, .range 0 10000⟩]⟩,
  ⟨"PEN_INTEG_C4", 0x20610, [], [⟨"SET_MS", 0, 10, .rws, 0, .range 0 1000⟩, ⟨"CLR_MS", 16, 14, .rws, 100, .range 0 10000⟩]⟩,
  ⟨"PEN_INTEG_C5", 0x20614, [], [⟨"SET_MS", 0, 10, .rws, 1, .range 0 1000⟩, ⟨"CLR_MS", 16, 14, .rws, 100, .range 0 10000⟩]⟩]

/-- Block PEN, part 1. -/
def regRowsPEN1 : List RegRow := [
  ⟨"PEN_INTEG_C6", 0x20618, [], [⟨"SET_MS", 0, 10, .rws, 1, .range 0 1000⟩, ⟨"CLR_MS", 16, 14, .rws, 100, .range 0 10000⟩]⟩,
  ⟨"PEN_INTEG_C7", 0x2061C, [], [⟨"SET_MS", 0, 10, .rws, 0, .range 0 1000⟩, ⟨"CLR_MS", 16, 14, .rws, 0, .range 0 10000⟩]⟩,
  ⟨"PEN_INTEG_L0", 0x20640, [], [⟨"SET_MS", 0, 10, .rws, 0, .range 0 1000⟩, ⟨"CLR_MS", 16, 14, .rws, 100, .range 0 10000⟩]⟩,
  ⟨"PEN_INTEG_L1", 0x20644, [], [⟨"SET_MS", 0, 10, .rws, 0, .range 0 1000⟩, ⟨"CLR_MS", 16, 14, .rws, 100, .range 0 10000⟩]⟩,
  ⟨"PEN_INTEG_L2", 0x20648, [], [⟨"SET_MS", 0, 10, .rws, 1, .range 0 1000⟩, ⟨"CLR_MS", 16, 14, .rws, 100, .range 0 10000⟩]⟩,
  ⟨"PEN_INTEG_L3", 0x2064C, [], [⟨"SET_MS", 0, 10, .rws, 1, .range 0 1000⟩, ⟨"CLR_MS", 16, 14, .rws, 100, .range 0 10000⟩]⟩,
  ⟨"PEN_INTEG_L4", 0x20650, [], [⟨"SET_MS", 0, 10, .rws, 0, .range 0 1000⟩, ⟨"CLR_MS", 16, 14, .rws, 100, .range 0 10000⟩]⟩,
  ⟨"PEN_INTEG_L5", 0x20654, [], [⟨"SET_MS", 0, 10, .rws, 1, .range 0 1000⟩, ⟨"CLR_MS", 16, 14, .rws, 100, .range 0 10000⟩]⟩,
  ⟨"PEN_INTEG_L6", 0x20658, [], [⟨"SET_MS", 0, 10, .rws, 1, .range 0 1000⟩, ⟨"CLR_MS", 16, 14, .rws, 100, .range 0 10000⟩]⟩,
  ⟨"PEN_INTEG_L7", 0x2065C, [], [⟨"SET_MS", 0, 10, .rws, 0, .range 0 1000⟩, ⟨"CLR_MS", 16, 14, .rws, 0, .range 0 10000⟩]⟩,
  ⟨"PEN_INTEG_L8", 0x20660, [], [⟨"SET_MS", 0, 10, .rws, 1, .range 0 1000⟩, ⟨"CLR_MS", 16, 14, .rws, 100, .range 0 10000⟩]⟩,
  ⟨"PEN_INTEG_L9", 0x20664, [], [⟨"SET_MS", 0, 10, .rws, 0, .range 0 1000⟩, ⟨"CLR_MS", 16, 14, .rws, 1000, .range 0 10000⟩]⟩,
  ⟨"PEN_INTEG_L10", 0x20668, [], [⟨"SET_MS", 0, 10, .rws, 0, .range 0 1000⟩, ⟨"CLR_MS", 16, 14, .rws, 1000, .range 0 10000⟩]⟩,
  ⟨"PEN_INTEG_L11", 0x2066C, [], [⟨"SET_MS", 0, 10, .rws, 1, .range 0 1000⟩, ⟨"CLR_MS", 16, 14, .rws, 100, .range 0 10000⟩]⟩,
  ⟨"PEN_FECDEG", 0x20700, [(4, 64)], [⟨"SET_EXP", 0, 4, .rw, 5, .range 2 8⟩, ⟨"CLR_EXP", 4, 4, .rw, 6, .range 2 9⟩]⟩,
  ⟨"PEN_PSTAT", 0x20800, [(4, 64)], [⟨"LINK_UP", 0, 1, .ro, 0, .any⟩, ⟨"TX_LF", 1, 1, .ro, 0, .any⟩, ⟨"TX_RF", 2, 1, .ro, 0, .any⟩, ⟨"TEST", 3, 1, .ro, 0, .any⟩, ⟨"ANEG_DONE", 4, 1, .ro, 0, .any⟩]⟩]

/-- Block PEN, part 2. -/
def regRowsPEN2 : List RegRow := [
  ⟨"PEN_PAGE", 0x21000, [(256, 64), (4, 34)], [⟨"VALUE", 0, 32, .ro, 0, .any⟩]⟩,
  ⟨"PEN_LATCH", 0x26000, [(256, 64), (4, 34)], [⟨"VALUE", 0, 32, .ro, 0, .any⟩]⟩]

/-- The registers of block PEN. -/
def regRowsPEN : List RegRow := regRowsPEN0 ++ regRowsPEN1 ++ regRowsPEN2

/-- Block LANE, part 0. -/
def regRowsLANE0 : List RegRow := [
  ⟨"LANE_CTRL", 0x40000, [(1024, 73)], [⟨"TX_INV", 0, 1, .rw, 0, .any⟩, ⟨"RX_INV", 1, 1, .rw, 0, .any⟩, ⟨"ADAPT_EN", 2, 1, .rw, 1, .any⟩, ⟨"CTLE_OVR_EN", 3, 1, .rw, 0, .any⟩, ⟨"CTLE_OVR", 8, 5, .rw, 8, .range 0 20⟩, ⟨"SQUELCH", 16, 1, .rw, 0, .any⟩]⟩,
  ⟨"LANE_TXFFE", 0x40004, [(1024, 64)], [⟨"PRE", 0, 5, .rw, 2, .any⟩, ⟨"POST", 8, 5, .rw, 6, .any⟩, ⟨"SWING", 16, 4, .rw, 8, .any⟩]⟩,
  ⟨"LANE_TXFFE_H", 0x50004, [(1024, 8)], [⟨"PRE", 0, 5, .rw, 0, .any⟩, ⟨"POST", 8, 5, .rw, 8, .any⟩, ⟨"SWING", 16, 4, .rw, 6, .any⟩]⟩,
  ⟨"LANE_STATUS", 0x40008, [(1024, 73)], [⟨"SIGDET", 0, 1, .ro, 0, .any⟩, ⟨"CDR_LOCK", 1, 1, .ro, 0, .any⟩, ⟨"ADAPT", 2, 2, .ro, 0, .any⟩, ⟨"GOOD_RUN", 4, 4, .ro, 0, .any⟩, ⟨"FFE_REJ", 8, 1, .w1c, 0, .any⟩, ⟨"FAILED", 9, 1, .ro, 0, .any⟩, ⟨"PRBS_LOCK", 10, 1, .ro, 0, .any⟩, ⟨"PRBS_LOST", 11, 1, .w1c, 0, .any⟩, ⟨"CTLE", 16, 5, .ro, 8, .any⟩]⟩,
  ⟨"LANE_GUARD", 0x4000C, [(1024, 73)], [⟨"DENSITY", 0, 10, .ro, 0, .any⟩, ⟨"MIN_POP", 16, 10, .ro, 0, .any⟩]⟩,
  ⟨"LANE_FREEZES", 0x40010, [(1024, 73)], [⟨"VALUE", 0, 32, .rc, 0, .any⟩]⟩,
  ⟨"LANE_DFE", 0x40040, [(1024, 73), (4, 12)], [⟨"TAP", 0, 8, .ro, 0, .any⟩]⟩,
  ⟨"LANE_PRBS", 0x40100, [(1024, 72)], [⟨"GEN_PAT", 0, 4, .rw, 0, .range 0 8⟩, ⟨"GEN_EN", 4, 1, .rw, 0, .any⟩, ⟨"CHK_PAT", 8, 4, .rw, 0, .range 0 8⟩, ⟨"CHK_EN", 12, 1, .rw, 0, .any⟩]⟩,
  ⟨"LANE_INJ", 0x40104, [(1024, 72)], [⟨"MODE", 0, 2, .rw, 0, .any⟩, ⟨"GO", 2, 1, .wo, 0, .any⟩, ⟨"BURST", 8, 8, .rw, 1, .range 1 255⟩, ⟨"RATE_EXP", 16, 5, .rw, 20, .range 10 30⟩]⟩,
  ⟨"LANE_PRBS_CNT", 0x40108, [(1024, 72), (4, 4)], [⟨"VALUE", 0, 32, .ro, 0, .any⟩]⟩,
  ⟨"LANE_PRBS_HOLD", 0x40118, [(1024, 72)], [⟨"VALUE", 0, 32, .ro, 0, .any⟩]⟩,
  ⟨"LANE_HRN_STATUS", 0x52400, [], [⟨"STATE", 0, 3, .ro, 0, .any⟩, ⟨"REVERSED", 3, 1, .ro, 0, .any⟩, ⟨"POL_INV", 8, 8, .ro, 0, .any⟩, ⟨"FAIL_CAUSE", 16, 3, .ro, 0, .any⟩]⟩,
  ⟨"LANE_HRN_CTRL", 0x52404, [], [⟨"RETRAIN", 0, 1, .wo, 0, .any⟩, ⟨"DISABLE", 1, 1, .rw, 0, .any⟩]⟩,
  ⟨"LANE_HRN_DOWNS", 0x52408, [], [⟨"VALUE", 0, 32, .rc, 0, .any⟩]⟩,
  ⟨"LANE_HRN_TRAINS", 0x5240C, [], [⟨"VALUE", 0, 32, .rc, 0, .any⟩]⟩]

/-- The registers of block LANE. -/
def regRowsLANE : List RegRow := regRowsLANE0

/-- Block FRM, part 0. -/
def regRowsFRM0 : List RegRow := [
  ⟨"FRM_CTRL", 0x80000, [], [⟨"FORCE_SF", 0, 1, .rw, 0, .any⟩]⟩,
  ⟨"FRM_EVT", 0x80004, [], [⟨"", 0, 6, .w1c, 0, .any⟩]⟩,
  ⟨"FRM_EVT_EN", 0x80008, [], [⟨"", 0, 6, .rw, 0, .any⟩]⟩,
  ⟨"FRM_CNT_HOLD", 0x8000C, [], [⟨"VALUE", 0, 32, .ro, 0, .any⟩]⟩,
  ⟨"FRM_STOMPS", 0x80010, [], [⟨"VALUE", 0, 32, .rc, 0, .any⟩]⟩,
  ⟨"FRM_ICVFAILS", 0x80014, [], [⟨"VALUE", 0, 32, .rc, 0, .any⟩]⟩,
  ⟨"FRM_LAST_FAIL", 0x80018, [], [⟨"SPAN", 0, 5, .ro, 0, .any⟩, ⟨"DIR", 5, 1, .ro, 0, .any⟩, ⟨"CAUSE", 8, 4, .ro, 0, .any⟩, ⟨"STOMPED", 12, 1, .ro, 0, .any⟩, ⟨"VALID", 31, 1, .ro, 0, .any⟩]⟩,
  ⟨"FRM_LAST_SC", 0x8001C, [], [⟨"SC", 0, 16, .ro, 0, .any⟩]⟩,
  ⟨"FRM_LAST_SCI", 0x80020, [(4, 2)], [⟨"VALUE", 0, 32, .ro, 0, .any⟩]⟩,
  ⟨"FRM_TRK_EVT", 0x80040, [], [⟨"", 0, 6, .w1c, 0, .any⟩]⟩,
  ⟨"FRM_TRK_EVT_EN", 0x80044, [], [⟨"", 0, 6, .rw, 0, .any⟩]⟩,
  ⟨"FRM_TRK_LAST", 0x80048, [], [⟨"SPAN", 0, 5, .ro, 0, .any⟩, ⟨"CAUSE", 8, 3, .ro, 0, .any⟩, ⟨"VALID", 31, 1, .ro, 0, .any⟩]⟩,
  ⟨"FRM_PAGE", 0x81000, [(256, 32), (4, 40)], [⟨"VALUE", 0, 32, .ro, 0, .any⟩]⟩,
  ⟨"FRM_TRK_TXSC", 0x83000, [(32, 32)], [⟨"SC", 0, 14, .rw, 0, .any⟩, ⟨"VALID", 31, 1, .rw, 0, .any⟩]⟩,
  ⟨"FRM_TRK_RXSC", 0x83004, [(32, 32)], [⟨"SC", 0, 15, .rw, 0, .any⟩, ⟨"VALID", 31, 1, .rw, 0, .any⟩]⟩,
  ⟨"FRM_TRK_PEER", 0x83008, [(32, 32)], [⟨"PEER_SPAN", 0, 5, .rw, 0, .any⟩]⟩]

/-- Block FRM, part 1. -/
def regRowsFRM1 : List RegRow := [
  ⟨"FRM_TRK_STATUS", 0x8300C, [(32, 32)], [⟨"", 0, 12, .ro, 0, .any⟩]⟩,
  ⟨"FRM_TRK_SEQ_LO", 0x83010, [(32, 32)], [⟨"VALUE", 0, 32, .ro, 0, .any⟩]⟩,
  ⟨"FRM_TRK_SEQ_HI", 0x83014, [(32, 32)], [⟨"", 0, 16, .ro, 0, .any⟩]⟩,
  ⟨"FRM_TRK_LASTSW", 0x83018, [(32, 32)], [⟨"KS", 0, 1, .ro, 0, .any⟩, ⟨"CINCH", 1, 1, .ro, 0, .any⟩, ⟨"VALID", 31, 1, .ro, 0, .any⟩]⟩,
  ⟨"FRM_TRK_LASTSW_T", 0x8301C, [(32, 32)], [⟨"VALUE", 0, 32, .ro, 0, .any⟩]⟩,
  ⟨"FRM_TRK_PAGE", 0x84000, [(256, 32), (4, 40)], [⟨"VALUE", 0, 32, .ro, 0, .any⟩]⟩,
  ⟨"FRM_LATCH", 0x88000, [(256, 32), (4, 40)], [⟨"VALUE", 0, 32, .ro, 0, .any⟩]⟩,
  ⟨"FRM_TRK_LATCH", 0x8A000, [(256, 32), (4, 40)], [⟨"VALUE", 0, 32, .ro, 0, .any⟩]⟩]

/-- The registers of block FRM. -/
def regRowsFRM : List RegRow := regRowsFRM0 ++ regRowsFRM1

/-- Block CPH, part 0. -/
def regRowsCPH0 : List RegRow := [
  ⟨"CPH_CTRL", 0xC0000, [], [⟨"TRIM_HOLD", 0, 1, .rw, 0, .any⟩]⟩,
  ⟨"CPH_HEALTH", 0xC0004, [], [⟨"HEALTHY", 0, 5, .ro, 24, .any⟩, ⟨"RUNNING", 8, 5, .ro, 24, .any⟩, ⟨"PARKED", 16, 5, .ro, 0, .any⟩, ⟨"FENCED", 24, 5, .ro, 0, .any⟩]⟩,
  ⟨"CPH_CAP", 0xC0008, [], [⟨"LIMIT", 0, 13, .ro, 4096, .any⟩, ⟨"RATED_MHZ", 16, 12, .ro, 1000, .any⟩]⟩,
  ⟨"CPH_SHED", 0xC000C, [], [⟨"VALUE", 0, 32, .ro, 0, .any⟩]⟩,
  ⟨"CPH_ACTIVE", 0xC0010, [], [⟨"VALUE", 0, 32, .ro, 0, .any⟩]⟩,
  ⟨"CPH_EVT", 0xC0014, [], [⟨"", 0, 5, .w1c, 0, .any⟩]⟩,
  ⟨"CPH_TAG_FREE", 0xC0018, [], [⟨"FREE", 0, 15, .ro, 16384, .any⟩]⟩,
  ⟨"CPH_TAG_DROPS", 0xC001C, [], [⟨"VALUE", 0, 32, .rc, 0, .any⟩]⟩,
  ⟨"CPH_FENCE_DROPS", 0xC0020, [], [⟨"VALUE", 0, 32, .rc, 0, .any⟩]⟩,
  ⟨"CPH_AUDIT_FAILS", 0xC0024, [], [⟨"VALUE", 0, 32, .rc, 0, .any⟩]⟩,
  ⟨"CPH_AUDIT_SKIPS", 0xC0028, [], [⟨"VALUE", 0, 32, .rc, 0, .any⟩]⟩,
  ⟨"CPH_LATE", 0xC002C, [], [⟨"VALUE", 0, 32, .rc, 0, .any⟩]⟩,
  ⟨"CPH_LAST_AUDIT", 0xC0030, [], [⟨"PRIMARY", 0, 5, .ro, 0, .any⟩, ⟨"PARTNER", 8, 5, .ro, 0, .any⟩, ⟨"TAG", 16, 14, .ro, 0, .any⟩, ⟨"VALID", 31, 1, .ro, 0, .any⟩]⟩,
  ⟨"CPH_EVT_EN", 0xC0034, [], [⟨"", 0, 5, .rw, 0, .any⟩]⟩,
  ⟨"CPH_ISL_CTRL", 0xC0100, [(4, 24)], [⟨"HOST_FENCE", 0, 1, .rw, 0, .any⟩]⟩,
  ⟨"CPH_ISL_STATUS", 0xC0200, [(4, 24)], [⟨"STATE", 0, 2, .ro, 0, .any⟩, ⟨"CAUSE", 2, 6, .ro, 0, .any⟩, ⟨"SUSPECT", 8, 1, .ro, 0, .any⟩, ⟨"MHZ", 16, 12, .ro, 1000, .any⟩]⟩]

/-- Block CPH, part 1. -/
def regRowsCPH1 : List RegRow := [
  ⟨"CPH_ISL_MV", 0xC0300, [(4, 24)], [⟨"MV", 0, 10, .ro, 800, .any⟩]⟩,
  ⟨"CPH_SHARE", 0xC0400, [(4, 32)], [⟨"SHARE", 0, 13, .ro, 0, .any⟩, ⟨"ACTIVE", 16, 1, .ro, 0, .any⟩, ⟨"SHED", 17, 1, .ro, 0, .any⟩]⟩]

/-- The registers of block CPH. -/
def regRowsCPH : List RegRow := regRowsCPH0 ++ regRowsCPH1

/-- Block SEC, part 0. -/
def regRowsSEC0 : List RegRow := [
  ⟨"SEC_SCW_SEL", 0x100000, [], [⟨"INDEX", 0, 16, .rw, 0, .any⟩, ⟨"DIR", 16, 1, .rw, 0, .any⟩]⟩,
  ⟨"SEC_SCW_OP", 0x100004, [], [⟨"OP", 0, 2, .rw, 0, .range 1 3⟩]⟩,
  ⟨"SEC_SCW_COMMIT", 0x100008, [], [⟨"GO", 0, 1, .wo, 0, .any⟩]⟩,
  ⟨"SEC_SCW_STATUS", 0x10000C, [], [⟨"BUSY", 0, 1, .ro, 0, .any⟩, ⟨"IGNORED", 1, 1, .w1c, 0, .any⟩, ⟨"CODE", 8, 8, .ro, 0, .any⟩]⟩,
  ⟨"SEC_SCW_W", 0x100020, [(4, 8)], [⟨"VALUE", 0, 32, .rws, 0, .any⟩]⟩,
  ⟨"SEC_SCR_SEL", 0x100040, [], [⟨"INDEX", 0, 16, .rw, 0, .any⟩, ⟨"DIR", 16, 1, .rw, 0, .any⟩]⟩,
  ⟨"SEC_SCR_W", 0x100060, [(4, 8)], [⟨"VALUE", 0, 32, .ro, 0, .any⟩]⟩,
  ⟨"SEC_SCR_STATE", 0x100080, [], [⟨"", 0, 8, .ro, 0, .any⟩]⟩,
  ⟨"SEC_SCR_EPOCH", 0x100084, [], [⟨"VALUE", 0, 32, .ro, 0, .any⟩]⟩,
  ⟨"SEC_SAR_SEL", 0x100090, [], [⟨"SA", 0, 16, .rw, 0, .any⟩]⟩,
  ⟨"SEC_SAR_STATE", 0x100094, [], [⟨"STATE/READY/AN/SOURCE/ORPHAN/KLEN", 0, 9, .ro, 0, .any⟩, ⟨"SC", 16, 15, .ro, 0, .any⟩, ⟨"DIR", 31, 1, .ro, 0, .any⟩]⟩,
  ⟨"SEC_SAR_EPOCH", 0x100098, [], [⟨"VALUE", 0, 32, .ro, 0, .any⟩]⟩,
  ⟨"SEC_SAR_PN", 0x10009C, [(4, 2)], [⟨"VALUE", 0, 32, .ro, 0, .any⟩]⟩,
  ⟨"SEC_SAR_MARK_LO", 0x1000A4, [], [⟨"VALUE", 0, 32, .ro, 0, .any⟩]⟩,
  ⟨"SEC_SAR_MARK_HI", 0x1000A8, [], [⟨"", 0, 8, .ro, 0, .any⟩]⟩,
  ⟨"SEC_SAR_SSCI", 0x1000AC, [], [⟨"VALUE", 0, 32, .ro, 0, .any⟩]⟩]

/-- Block SEC, part 1. -/
def regRowsSEC1 : List RegRow := [
  ⟨"SEC_EPOCH_CMD", 0x1000B0, [], [⟨"SC", 0, 14, .wo, 0, .any⟩, ⟨"GO", 31, 1, .wo, 0, .any⟩]⟩,
  ⟨"SEC_EPOCH_STATUS", 0x1000B4, [], [⟨"CODE", 0, 8, .ro, 0, .any⟩]⟩,
  ⟨"SEC_EVT", 0x1000C0, [], [⟨"", 0, 9, .w1c, 0, .any⟩]⟩,
  ⟨"SEC_EVT_EN", 0x1000C4, [], [⟨"", 0, 9, .rw, 0, .any⟩]⟩,
  ⟨"SEC_LAST", 0x1000C8, [], [⟨"SC", 0, 15, .ro, 0, .any⟩, ⟨"DIR", 15, 1, .ro, 0, .any⟩, ⟨"CAUSE", 16, 4, .ro, 0, .any⟩, ⟨"VALID", 31, 1, .ro, 0, .any⟩]⟩,
  ⟨"SEC_TX_SWITCHES", 0x100100, [], [⟨"VALUE", 0, 32, .rc, 0, .any⟩]⟩,
  ⟨"SEC_RX_SWITCHES", 0x100104, [], [⟨"VALUE", 0, 32, .rc, 0, .any⟩]⟩,
  ⟨"SEC_RETIRES", 0x100108, [], [⟨"VALUE", 0, 32, .rc, 0, .any⟩]⟩,
  ⟨"SEC_DERIVES", 0x10010C, [], [⟨"VALUE", 0, 32, .rc, 0, .any⟩]⟩,
  ⟨"SEC_GAP_ENTRIES", 0x100110, [], [⟨"VALUE", 0, 32, .rc, 0, .any⟩]⟩,
  ⟨"SEC_HOLD_FRAMES", 0x100114, [], [⟨"VALUE", 0, 32, .rc, 0, .any⟩]⟩,
  ⟨"SEC_RES_BLOCKS", 0x100118, [], [⟨"VALUE", 0, 32, .rc, 0, .any⟩]⟩,
  ⟨"SEC_RES_FAIL", 0x10011C, [], [⟨"VALUE", 0, 32, .rc, 0, .any⟩]⟩,
  ⟨"SEC_CINCH_LATE", 0x100120, [], [⟨"VALUE", 0, 32, .rc, 0, .any⟩]⟩,
  ⟨"SEC_ORPHAN_CLEARS", 0x100124, [], [⟨"VALUE", 0, 32, .rc, 0, .any⟩]⟩,
  ⟨"SEC_TXGAP", 0x101000, [(4, 512)], [⟨"VALUE", 0, 32, .ro, 0, .any⟩]⟩]

/-- The registers of block SEC. -/
def regRowsSEC : List RegRow := regRowsSEC0 ++ regRowsSEC1

/-- Block KEY, part 0. -/
def regRowsKEY0 : List RegRow := [
  ⟨"KEY_STATUS", 0x140000, [], [⟨"KS_MODE/REMASK_ACTIVE/DRBG_ERR/VAULT_OPEN/ENROLLED/ZDONE/ID_LOADED", 0, 7, .ro, 0, .any⟩]⟩,
  ⟨"KEY_TAMPER", 0x140004, [], [⟨"RAW", 0, 11, .ro, 0, .any⟩]⟩,
  ⟨"KEY_ZSRC", 0x140008, [], [⟨"SRC", 0, 11, .ro, 0, .any⟩]⟩,
  ⟨"KEY_ALARM", 0x14000C, [], [⟨"SRC", 0, 6, .w1c, 0, .any⟩]⟩,
  ⟨"KEY_ZCOUNT", 0x140010, [], [⟨"VALUE", 0, 32, .ro, 0, .any⟩]⟩,
  ⟨"KEY_ZTIME", 0x140014, [], [⟨"VALUE", 0, 32, .ro, 0, .any⟩]⟩,
  ⟨"KEY_TK_VALID", 0x140018, [], [⟨"SLOTS", 0, 16, .ro, 0, .any⟩]⟩,
  ⟨"KEY_TK_FLOOR", 0x14001C, [(4, 2)], [⟨"VALUE", 0, 32, .ro, 0, .any⟩]⟩,
  ⟨"KEY_VAULT_GEN", 0x140024, [], [⟨"VALUE", 0, 32, .ro, 0, .any⟩]⟩,
  ⟨"KEY_REMASK_PASSES", 0x140028, [], [⟨"VALUE", 0, 32, .rc, 0, .any⟩]⟩,
  ⟨"KEY_REMASK_LATE", 0x14002C, [], [⟨"VALUE", 0, 32, .rc, 0, .any⟩]⟩,
  ⟨"KEY_DRBG_FAILS", 0x140030, [], [⟨"VALUE", 0, 32, .rc, 0, .any⟩]⟩,
  ⟨"KEY_UNWRAP_FAILS", 0x140034, [], [⟨"VALUE", 0, 32, .rc, 0, .any⟩]⟩,
  ⟨"KEY_VAULT_FAULTS", 0x140038, [], [⟨"VALUE", 0, 32, .rc, 0, .any⟩]⟩,
  ⟨"KEY_EVT", 0x14003C, [], [⟨"", 0, 7, .w1c, 0, .any⟩]⟩,
  ⟨"KEY_EVT_EN", 0x140040, [], [⟨"", 0, 7, .rw, 0, .any⟩]⟩]

/-- Block KEY, part 1. -/
def regRowsKEY1 : List RegRow := [
  ⟨"KEY_PARENT_VALID", 0x140100, [(4, 128)], [⟨"VALUE", 0, 32, .ro, 0, .any⟩]⟩]

/-- The registers of block KEY. -/
def regRowsKEY : List RegRow := regRowsKEY0 ++ regRowsKEY1

/-- Block CLS, part 0. -/
def regRowsCLS0 : List RegRow := [
  ⟨"CLS_CTRL", 0x180000, [], [⟨"LEARN_PAUSE", 0, 1, .rw, 0, .any⟩]⟩,
  ⟨"CLS_AGE", 0x180004, [], [⟨"SECONDS", 0, 20, .rw, 300, .any⟩]⟩,
  ⟨"CLS_AGE_NOW", 0x180008, [], [⟨"TICK", 0, 16, .ro, 0, .any⟩]⟩,
  ⟨"CLS_STATUS", 0x18000C, [], [⟨"LAYOUT", 0, 1, .ro, 0, .any⟩, ⟨"AGE_REJ", 1, 1, .w1c, 0, .any⟩]⟩,
  ⟨"CLS_ENTRIES", 0x180010, [], [⟨"", 0, 25, .ro, 0, .any⟩]⟩,
  ⟨"CLS_LEARNQ", 0x180014, [], [⟨"", 0, 14, .ro, 0, .any⟩]⟩,
  ⟨"CLS_PREFIXES", 0x180018, [], [⟨"", 0, 16, .ro, 0, .any⟩]⟩,
  ⟨"CLS_CMD", 0x180020, [], [⟨"CODE", 0, 4, .wo, 0, .any⟩, ⟨"GO", 31, 1, .wo, 0, .any⟩]⟩,
  ⟨"CLS_CMD_STATUS", 0x180024, [], [⟨"BUSY", 0, 1, .ro, 0, .any⟩, ⟨"IGNORED", 1, 1, .w1c, 0, .any⟩, ⟨"RESULT", 8, 8, .ro, 0, .any⟩]⟩,
  ⟨"CLS_CMD_ARG", 0x180028, [(4, 2)], [⟨"VALUE", 0, 32, .rw, 0, .any⟩]⟩,
  ⟨"CLS_CMD_OUT", 0x180030, [], [⟨"VALUE", 0, 32, .ro, 0, .any⟩]⟩,
  ⟨"CLS_WIN_PAGE", 0x180034, [], [⟨"PAGE", 0, 2, .rw, 0, .any⟩]⟩,
  ⟨"CLS_CMD_DATA", 0x180040, [(4, 16)], [⟨"VALUE", 0, 32, .rw, 0, .any⟩]⟩,
  ⟨"CLS_CMD_PKEY", 0x180080, [(4, 10)], [⟨"VALUE", 0, 32, .rw, 0, .any⟩]⟩,
  ⟨"CLS_CMD_PMASK", 0x1800C0, [(4, 10)], [⟨"VALUE", 0, 32, .rw, 0, .any⟩]⟩,
  ⟨"CLS_CMD_PRES", 0x1800F0, [(4, 2)], [⟨"VALUE", 0, 32, .rw, 0, .any⟩]⟩]

/-- Block CLS, part 1. -/
def regRowsCLS1 : List RegRow := [
  ⟨"CLS_PORT", 0x180100, [(4, 32)], [⟨"DEF_ACT", 0, 2, .rws, 0, .any⟩, ⟨"PREFIX_EN", 2, 1, .rws, 0, .any⟩, ⟨"DROP_UNTAGGED", 3, 1, .rws, 0, .any⟩, ⟨"DROP_TAGGED", 4, 1, .rws, 0, .any⟩, ⟨"DEF_SC", 16, 14, .rws, 0, .any⟩]⟩,
  ⟨"CLS_PORT_COMMIT", 0x180180, [], [⟨"GO", 0, 1, .wo, 0, .any⟩]⟩,
  ⟨"CLS_GROUP", 0x180200, [(4, 32)], [⟨"SC", 0, 14, .rw, 0, .any⟩, ⟨"VALID", 31, 1, .rw, 0, .any⟩]⟩,
  ⟨"CLS_POLICY_DROPS", 0x180300, [], [⟨"VALUE", 0, 32, .rc, 0, .any⟩]⟩,
  ⟨"CLS_BADSC_DROPS", 0x180304, [], [⟨"VALUE", 0, 32, .rc, 0, .any⟩]⟩,
  ⟨"CLS_NOGROUP_DROPS", 0x180308, [], [⟨"VALUE", 0, 32, .rc, 0, .any⟩]⟩,
  ⟨"CLS_LOCAL_DROPS", 0x18030C, [], [⟨"VALUE", 0, 32, .rc, 0, .any⟩]⟩,
  ⟨"CLS_SEAL_FLOODS", 0x180310, [], [⟨"VALUE", 0, 32, .rc, 0, .any⟩]⟩,
  ⟨"CLS_OPEN_FLOODS", 0x180314, [], [⟨"VALUE", 0, 32, .rc, 0, .any⟩]⟩,
  ⟨"CLS_LEARNS", 0x180318, [], [⟨"VALUE", 0, 32, .rc, 0, .any⟩]⟩,
  ⟨"CLS_MOVES", 0x18031C, [], [⟨"VALUE", 0, 32, .rc, 0, .any⟩]⟩,
  ⟨"CLS_CONFLICTS", 0x180320, [], [⟨"VALUE", 0, 32, .rc, 0, .any⟩]⟩,
  ⟨"CLS_STATIC_HITS", 0x180324, [], [⟨"VALUE", 0, 32, .rc, 0, .any⟩]⟩,
  ⟨"CLS_INSERT_FAILS", 0x180328, [], [⟨"VALUE", 0, 32, .rc, 0, .any⟩]⟩,
  ⟨"CLS_LEARN_OVF", 0x18032C, [], [⟨"VALUE", 0, 32, .rc, 0, .any⟩]⟩,
  ⟨"CLS_LEARN_LOCKED", 0x180330, [], [⟨"VALUE", 0, 32, .rc, 0, .any⟩]⟩]

/-- Block CLS, part 2. -/
def regRowsCLS2 : List RegRow := [
  ⟨"CLS_LEARN_NOMAP", 0x180334, [], [⟨"VALUE", 0, 32, .rc, 0, .any⟩]⟩,
  ⟨"CLS_AGED", 0x180338, [], [⟨"VALUE", 0, 32, .rc, 0, .any⟩]⟩,
  ⟨"CLS_LATE", 0x18033C, [], [⟨"VALUE", 0, 32, .rc, 0, .any⟩]⟩,
  ⟨"CLS_WIN_VIOL", 0x180340, [], [⟨"VALUE", 0, 32, .rc, 0, .any⟩]⟩,
  ⟨"CLS_EVT", 0x180400, [], [⟨"", 0, 5, .w1c, 0, .any⟩]⟩,
  ⟨"CLS_EVT_EN", 0x180404, [], [⟨"", 0, 5, .rw, 0, .any⟩]⟩,
  ⟨"CLS_LAST", 0x180408, [], [⟨"LP", 0, 5, .ro, 0, .any⟩, ⟨"TYPE", 5, 2, .ro, 0, .any⟩, ⟨"VID", 8, 12, .ro, 0, .any⟩, ⟨"VALID", 31, 1, .ro, 0, .any⟩]⟩,
  ⟨"CLS_LAST_MAC_LO", 0x18040C, [], [⟨"VALUE", 0, 32, .ro, 0, .any⟩]⟩,
  ⟨"CLS_LAST_MAC_HI", 0x180410, [], [⟨"", 0, 16, .ro, 0, .any⟩]⟩,
  ⟨"CLS_PEERMAP", 0x1A0000, [(4, 32768)], [⟨"TXSC", 0, 14, .rw, 0, .any⟩, ⟨"VALID", 31, 1, .rw, 0, .any⟩]⟩]

/-- The registers of block CLS. -/
def regRowsCLS : List RegRow := regRowsCLS0 ++ regRowsCLS1 ++ regRowsCLS2

/-- Block SCH, part 0. -/
def regRowsSCH0 : List RegRow := [
  ⟨"SCH_LS_CTRL", 0x1C0000, [], [⟨"PERIOD_NS", 0, 30, .rw, 1000000, .range 1000 1000000000⟩, ⟨"EN", 31, 1, .rw, 0, .any⟩]⟩,
  ⟨"SCH_LS_BIN", 0x1C0004, [], [⟨"SHIFT", 0, 4, .rw, 8, .any⟩]⟩,
  ⟨"SCH_LS_SEL", 0x1C0010, [], [⟨"PORT", 0, 5, .rw, 0, .any⟩, ⟨"CLASS", 5, 3, .rw, 0, .any⟩, ⟨"SIDE", 8, 1, .rw, 0, .any⟩]⟩,
  ⟨"SCH_LS_REC", 0x1C0014, [(4, 6)], [⟨"DEPTH_MIN, DEPTH_MAX, DEPTH_LAST, DELAY_MIN, DELAY_MAX, DELAY_LAST", 0, 32, .ro, 0, .any⟩]⟩,
  ⟨"SCH_LS_HIST", 0x1C0040, [(4, 16)], [⟨"VALUE", 0, 32, .ro, 0, .any⟩]⟩,
  ⟨"SCH_LS_CLR", 0x1C0080, [], [⟨"GO", 0, 1, .wo, 0, .any⟩]⟩,
  ⟨"SCH_GCL_SEL", 0x1C0100, [], [⟨"PORT", 0, 5, .rw, 0, .any⟩, ⟨"IDX", 16, 10, .rw, 0, .any⟩, ⟨"BANK", 31, 1, .rw, 0, .any⟩]⟩,
  ⟨"SCH_GCL_DUR", 0x1C0104, [], [⟨"VALUE", 0, 32, .rw, 0, .any⟩]⟩,
  ⟨"SCH_GCL_GATES", 0x1C0108, [], [⟨"", 0, 8, .rw, 0, .any⟩]⟩,
  ⟨"SCH_GCL_COUNT", 0x1C010C, [], [⟨"", 0, 11, .rws, 0, .any⟩]⟩,
  ⟨"SCH_GCL_CYCLE", 0x1C0110, [], [⟨"", 0, 30, .rws, 0, .any⟩]⟩,
  ⟨"SCH_GCL_PHASE", 0x1C0114, [], [⟨"", 0, 30, .rws, 0, .any⟩]⟩,
  ⟨"SCH_GCL_COMMIT", 0x1C0118, [], [⟨"GO", 0, 1, .wo, 0, .any⟩]⟩,
  ⟨"SCH_GCL_STATUS", 0x1C011C, [], [⟨"PENDING", 0, 1, .ro, 0, .any⟩, ⟨"IGNORED", 1, 1, .w1c, 0, .any⟩, ⟨"CODE", 8, 8, .ro, 0, .any⟩]⟩,
  ⟨"SCH_GSTAT", 0x1C0200, [(4, 32)], [⟨"ENTRY", 0, 10, .ro, 0, .any⟩, ⟨"GATES", 16, 8, .ro, 0xFF, .any⟩, ⟨"GATES_EN", 24, 1, .ro, 0, .any⟩, ⟨"PENDING", 25, 1, .ro, 0, .any⟩]⟩,
  ⟨"SCH_PUSHOUTS", 0x1C0300, [], [⟨"VALUE", 0, 32, .rc, 0, .any⟩]⟩]

/-- Block SCH, part 1. -/
def regRowsSCH1 : List RegRow := [
  ⟨"SCH_SPILL_FRAMES", 0x1C0304, [], [⟨"VALUE", 0, 32, .rc, 0, .any⟩]⟩,
  ⟨"SCH_SPILL_DENIED", 0x1C0308, [], [⟨"VALUE", 0, 32, .rc, 0, .any⟩]⟩,
  ⟨"SCH_SPILL_LOST", 0x1C030C, [], [⟨"VALUE", 0, 32, .rc, 0, .any⟩]⟩,
  ⟨"SCH_GATE_WAITS", 0x1C0310, [], [⟨"VALUE", 0, 32, .rc, 0, .any⟩]⟩,
  ⟨"SCH_GATE_OVERSIZE", 0x1C0314, [], [⟨"VALUE", 0, 32, .rc, 0, .any⟩]⟩,
  ⟨"SCH_GATE_TRUNC", 0x1C0318, [], [⟨"VALUE", 0, 32, .rc, 0, .any⟩]⟩,
  ⟨"SCH_GATE_RESYNC", 0x1C031C, [], [⟨"VALUE", 0, 32, .rc, 0, .any⟩]⟩,
  ⟨"SCH_SPILL_USED", 0x1C0320, [], [⟨"MIB", 0, 15, .ro, 0, .any⟩]⟩,
  ⟨"SCH_EVT", 0x1C0400, [], [⟨"", 0, 6, .w1c, 0, .any⟩]⟩,
  ⟨"SCH_EVT_EN", 0x1C0404, [], [⟨"", 0, 6, .rw, 0, .any⟩]⟩,
  ⟨"SCH_LAST", 0x1C0408, [], [⟨"PORT", 0, 5, .ro, 0, .any⟩, ⟨"SIDE", 5, 1, .ro, 0, .any⟩, ⟨"CLASS", 6, 3, .ro, 0, .any⟩, ⟨"CAUSE", 9, 3, .ro, 0, .any⟩, ⟨"VALID", 31, 1, .ro, 0, .any⟩]⟩,
  ⟨"SCH_WEIGHT", 0x1C1000, [(128, 32), (4, 7)], [⟨"QUANTUM", 0, 11, .rws, 0, .any⟩]⟩,
  ⟨"SCH_SHP_RATE", 0x1C1020, [(128, 32), (4, 7)], [⟨"MBPS", 0, 20, .rws, 0, .any⟩, ⟨"EN", 31, 1, .rws, 0, .any⟩]⟩,
  ⟨"SCH_SHP_RATE7", 0x1C103C, [(128, 32)], [⟨"MBPS", 0, 20, .ro, 0, .any⟩, ⟨"EN", 31, 1, .ro, 0, .any⟩]⟩,
  ⟨"SCH_SHP_DEPTH", 0x1C1040, [(128, 32), (4, 7)], [⟨"BYTES", 0, 25, .rws, 16384, .any⟩]⟩,
  ⟨"SCH_SHP_DEPTH7", 0x1C105C, [(128, 32)], [⟨"BYTES", 0, 25, .ro, 16384, .any⟩]⟩]

/-- Block SCH, part 2. -/
def regRowsSCH2 : List RegRow := [
  ⟨"SCH_PCOMMIT", 0x1C1060, [(128, 32)], [⟨"GO", 0, 1, .wo, 0, .any⟩]⟩,
  ⟨"SCH_SVC", 0x1C1064, [(128, 32)], [⟨"MODE", 0, 2, .rw, 1, .any⟩, ⟨"FILL", 2, 1, .rw, 1, .any⟩]⟩,
  ⟨"SCH_PSTATUS", 0x1C1068, [(128, 32)], [⟨"PENDING", 0, 1, .ro, 0, .any⟩, ⟨"CODE", 8, 8, .ro, 0, .any⟩]⟩,
  ⟨"SCH_SPILL_TH", 0x1C106C, [(128, 32)], [⟨"KIB", 0, 16, .rw, 256, .any⟩]⟩,
  ⟨"SCH_TOK", 0x1C2000, [(32, 32), (4, 8)], [⟨"VALUE", 0, 32, .ro, 0x4000, .any⟩]⟩,
  ⟨"SCH_CQW", 0x1C3000, [(64, 32), (4, 7)], [⟨"QUANTUM", 0, 11, .rws, 0, .any⟩]⟩,
  ⟨"SCH_CCOMMIT", 0x1C3020, [(64, 32)], [⟨"GO", 0, 1, .wo, 0, .any⟩]⟩,
  ⟨"SCH_FC_XOFF", 0x1C3024, [(64, 32)], [⟨"", 0, 16, .rw, 192, .any⟩]⟩,
  ⟨"SCH_FC_XON", 0x1C3028, [(64, 32)], [⟨"", 0, 16, .rw, 128, .any⟩]⟩,
  ⟨"SCH_FC_QUANTA", 0x1C302C, [(64, 32)], [⟨"", 0, 16, .rw, 65535, .any⟩]⟩,
  ⟨"SCH_CSTATUS", 0x1C3030, [(64, 32)], [⟨"PENDING", 0, 1, .ro, 0, .any⟩, ⟨"CODE", 8, 8, .ro, 0, .any⟩]⟩,
  ⟨"SCH_LDROPS", 0x1C4000, [(32, 32), (4, 8)], [⟨"VALUE", 0, 32, .rc, 0, .any⟩]⟩,
  ⟨"SCH_CDROPS", 0x1C4400, [(32, 32), (4, 8)], [⟨"VALUE", 0, 32, .rc, 0, .any⟩]⟩,
  ⟨"SCH_PAUSE_TX", 0x1C4800, [(8, 32)], [⟨"VALUE", 0, 32, .rc, 0, .any⟩]⟩,
  ⟨"SCH_PAUSE_RX", 0x1C4804, [(8, 32)], [⟨"VALUE", 0, 32, .rc, 0, .any⟩]⟩]

/-- The registers of block SCH. -/
def regRowsSCH : List RegRow := regRowsSCH0 ++ regRowsSCH1 ++ regRowsSCH2

/-- Block TIM, part 0. -/
def regRowsTIM0 : List RegRow := [
  ⟨"TB_NS", 0x200000, [(256, 4)], [⟨"VALUE", 0, 32, .ro, 0, .any⟩]⟩,
  ⟨"TB_FRAC", 0x200004, [(256, 4)], [⟨"VALUE", 0, 32, .ro, 0, .any⟩]⟩,
  ⟨"TB_WRAP", 0x200008, [(256, 4)], [⟨"", 0, 16, .ro, 0, .any⟩]⟩,
  ⟨"TB_SECMARK", 0x20000C, [(256, 4)], [⟨"VALUE", 0, 32, .rw, 1000000000, .any⟩]⟩,
  ⟨"TB_SECBASE_LO", 0x200010, [(256, 4)], [⟨"VALUE", 0, 32, .rw, 0, .any⟩]⟩,
  ⟨"TB_SECBASE_HI", 0x200014, [(256, 4)], [⟨"", 0, 16, .rw, 0, .any⟩]⟩,
  ⟨"TB_STEP", 0x200018, [(256, 4)], [⟨"VALUE", 0, 32, .wo, 0, .any⟩]⟩,
  ⟨"TB_SET_NS", 0x20001C, [(256, 4)], [⟨"VALUE", 0, 32, .rw, 0, .any⟩]⟩,
  ⟨"TB_SET_CTRL", 0x200020, [(256, 4)], [⟨"WRAP", 0, 16, .rw, 0, .any⟩, ⟨"GO", 31, 1, .wo, 0, .any⟩]⟩,
  ⟨"TB_OFFSET", 0x200024, [(256, 4)], [⟨"VALUE", 0, 32, .wo, 0, .any⟩]⟩,
  ⟨"TB_FADJ", 0x200028, [(256, 4)], [⟨"FADJ", 0, 32, .rw, 0, .signedRange 32 2147483⟩]⟩,
  ⟨"TB_KP", 0x20002C, [(256, 4)], [⟨"VALUE", 0, 32, .rw, 8388608, .any⟩]⟩,
  ⟨"TB_KI", 0x200030, [(256, 4)], [⟨"VALUE", 0, 32, .rw, 1048576, .any⟩]⟩,
  ⟨"TB_SERVO", 0x200034, [(256, 4)], [⟨"EN", 0, 1, .rw, 0, .any⟩, ⟨"STEP_EN", 1, 1, .rw, 1, .any⟩]⟩,
  ⟨"TB_STEP_TH", 0x200038, [(256, 4)], [⟨"NS", 0, 23, .rw, 100000, .any⟩]⟩,
  ⟨"TB_PPS_DELAY", 0x20003C, [(256, 4)], [⟨"VALUE", 0, 32, .rw, 0, .any⟩]⟩]

/-- Block TIM, part 1. -/
def regRowsTIM1 : List RegRow := [
  ⟨"TB_STATUS", 0x200040, [(256, 4)], [⟨"ENABLED", 0, 1, .ro, 0, .any⟩, ⟨"SRC", 1, 2, .ro, 0, .any⟩, ⟨"HOLDOVER", 3, 1, .ro, 0, .any⟩, ⟨"STEPPED", 4, 1, .w1c, 0, .any⟩, ⟨"FREF_LOST", 5, 1, .ro, 0, .any⟩]⟩,
  ⟨"TB_LAST_OFFSET", 0x200044, [(256, 4)], [⟨"VALUE", 0, 32, .ro, 0, .any⟩]⟩,
  ⟨"TB_HOLD_S", 0x200048, [(256, 4)], [⟨"", 0, 8, .rw, 3, .range 1 255⟩]⟩,
  ⟨"TIM_CAPTURE", 0x200400, [], [⟨"GO", 0, 1, .wo, 0, .any⟩]⟩,
  ⟨"TIM_CAP_STATUS", 0x200404, [], [⟨"DONE", 0, 1, .ro, 0, .any⟩]⟩,
  ⟨"TIM_PPS_CTRL", 0x200440, [], [⟨"EN", 0, 1, .rw, 0, .any⟩, ⟨"WIDTH_US", 8, 24, .rw, 100000, .range 1 500000⟩]⟩,
  ⟨"TIM_F10M_CTRL", 0x200444, [], [⟨"EN", 0, 1, .rw, 0, .any⟩]⟩,
  ⟨"TIM_TOD_CTRL", 0x200448, [], [⟨"TX_EN", 0, 1, .rw, 0, .any⟩, ⟨"BAUD", 1, 1, .rw, 0, .any⟩, ⟨"RX_EN", 2, 1, .rw, 0, .any⟩]⟩,
  ⟨"TIM_PPS_IN_NS", 0x20044C, [], [⟨"VALUE", 0, 32, .ro, 0, .any⟩]⟩,
  ⟨"TIM_EVT", 0x200450, [], [⟨"", 0, 9, .w1c, 0, .any⟩]⟩,
  ⟨"TIM_EVT_EN", 0x200454, [], [⟨"", 0, 9, .rw, 0, .any⟩]⟩,
  ⟨"TIM_LAST", 0x200458, [], [⟨"TB", 0, 2, .ro, 0, .any⟩, ⟨"CAUSE", 4, 4, .ro, 0, .any⟩, ⟨"VALID", 31, 1, .ro, 0, .any⟩]⟩,
  ⟨"TIM_CAP_NS", 0x200480, [(16, 4)], [⟨"VALUE", 0, 32, .ro, 0, .any⟩]⟩,
  ⟨"TIM_CAP_FRAC", 0x200484, [(16, 4)], [⟨"VALUE", 0, 32, .ro, 0, .any⟩]⟩,
  ⟨"TIM_CAP_WRAP", 0x200488, [(16, 4)], [⟨"", 0, 16, .ro, 0, .any⟩]⟩,
  ⟨"TIM_TC_CORR", 0x200500, [], [⟨"VALUE", 0, 32, .rc, 0, .any⟩]⟩]

/-- Block TIM, part 2. -/
def regRowsTIM2 : List RegRow := [
  ⟨"TIM_TC_SKIP", 0x200504, [], [⟨"VALUE", 0, 32, .rc, 0, .any⟩]⟩,
  ⟨"TIM_TC_STALE", 0x200508, [], [⟨"VALUE", 0, 32, .rc, 0, .any⟩]⟩,
  ⟨"TIM_TC_SAT", 0x20050C, [], [⟨"VALUE", 0, 32, .rc, 0, .any⟩]⟩,
  ⟨"TIM_MARK_SKIP", 0x200510, [], [⟨"VALUE", 0, 32, .rc, 0, .any⟩]⟩,
  ⟨"TIM_PPS_MISS", 0x200514, [], [⟨"VALUE", 0, 32, .rc, 0, .any⟩]⟩,
  ⟨"TIM_TOD_SET", 0x200518, [], [⟨"VALUE", 0, 32, .rc, 0, .any⟩]⟩,
  ⟨"TIM_TOD_BAD", 0x20051C, [], [⟨"VALUE", 0, 32, .rc, 0, .any⟩]⟩,
  ⟨"TIM_OFFSET_IGN", 0x200520, [], [⟨"VALUE", 0, 32, .rc, 0, .any⟩]⟩,
  ⟨"TIM_MARK_REJ", 0x200524, [], [⟨"VALUE", 0, 32, .rc, 0, .any⟩]⟩]

/-- The registers of block TIM. -/
def regRowsTIM : List RegRow := regRowsTIM0 ++ regRowsTIM1 ++ regRowsTIM2

/-- Block EVR, part 0. -/
def regRowsEVR0 : List RegRow := [
  ⟨"EVR_CTRL", 0x240000, [], [⟨"EN", 0, 1, .rw, 1, .any⟩, ⟨"RELEASE", 1, 1, .wo, 0, .any⟩, ⟨"TRIG", 2, 1, .wo, 0, .any⟩]⟩,
  ⟨"EVR_STATUS", 0x240004, [], [⟨"STATE", 0, 2, .ro, 0, .any⟩, ⟨"TRIG_SRC", 2, 3, .ro, 0, .any⟩]⟩,
  ⟨"EVR_TRIG_EN", 0x240008, [], [⟨"SRC", 0, 4, .rw, 0, .any⟩]⟩,
  ⟨"EVR_TRIG_DEF", 0x24000C, [], [⟨"", 0, 12, .rw, 0, .any⟩]⟩,
  ⟨"EVR_TRIG_SPANS", 0x240010, [], [⟨"VALUE", 0, 32, .rw, 0, .any⟩]⟩,
  ⟨"EVR_POST", 0x240014, [], [⟨"RECORDS", 0, 32, .rw, 1048576, .any⟩]⟩,
  ⟨"EVR_CAP", 0x240018, [(4, 2)], [⟨"VALUE", 0, 32, .ro, 0, .any⟩]⟩,
  ⟨"EVR_NEXT", 0x240020, [(4, 2)], [⟨"VALUE", 0, 32, .ro, 0, .any⟩]⟩,
  ⟨"EVR_OLDEST", 0x240028, [(4, 2)], [⟨"VALUE", 0, 32, .ro, 0, .any⟩]⟩,
  ⟨"EVR_TRIG_REC", 0x240030, [(4, 2)], [⟨"VALUE", 0, 32, .ro, 0, .any⟩]⟩,
  ⟨"EVR_CKPT_NO", 0x240038, [], [⟨"VALUE", 0, 32, .ro, 0, .any⟩]⟩,
  ⟨"EVR_LOST", 0x24003C, [], [⟨"VALUE", 0, 32, .rc, 0, .any⟩]⟩,
  ⟨"EVR_TRIG_IGN", 0x240040, [], [⟨"VALUE", 0, 32, .rc, 0, .any⟩]⟩,
  ⟨"EVR_RING_ID", 0x240044, [(4, 4)], [⟨"VALUE", 0, 32, .ro, 0, .any⟩]⟩,
  ⟨"EVR_HOLD", 0x240054, [], [⟨"VALUE", 0, 32, .ro, 0, .any⟩]⟩,
  ⟨"EVR_RD_ADDR", 0x240080, [(4, 2)], [⟨"VALUE", 0, 32, .rw, 0, .any⟩]⟩]

/-- Block EVR, part 1. -/
def regRowsEVR1 : List RegRow := [
  ⟨"EVR_RD_FIRST", 0x240088, [(4, 2)], [⟨"VALUE", 0, 32, .rw, 0, .any⟩]⟩,
  ⟨"EVR_RD_COUNT", 0x240090, [], [⟨"", 0, 23, .rw, 0, .any⟩]⟩,
  ⟨"EVR_RD_CMD", 0x240094, [], [⟨"KIND", 0, 1, .rw, 0, .any⟩, ⟨"GO", 31, 1, .wo, 0, .any⟩]⟩,
  ⟨"EVR_RD_STATUS", 0x240098, [], [⟨"BUSY", 0, 1, .ro, 0, .any⟩, ⟨"CODE", 8, 4, .ro, 0, .any⟩]⟩,
  ⟨"EVR_RD_DONE", 0x24009C, [], [⟨"", 0, 23, .ro, 0, .any⟩]⟩,
  ⟨"EVR_CH_STATUS", 0x240100, [(4, 8)], [⟨"FENCED", 0, 1, .ro, 0, .any⟩, ⟨"CAUSE", 1, 3, .ro, 0, .any⟩]⟩,
  ⟨"EVR_CH_CE", 0x240120, [(4, 8)], [⟨"VALUE", 0, 32, .rc, 0, .any⟩]⟩,
  ⟨"EVR_CH_UE", 0x240140, [(4, 8)], [⟨"VALUE", 0, 32, .rc, 0, .any⟩]⟩,
  ⟨"EVR_CH_UE_TH", 0x240160, [], [⟨"", 0, 16, .rw, 16, .any⟩]⟩,
  ⟨"EVR_CH_FENCE", 0x240164, [], [⟨"CH", 0, 8, .w1s, 0, .any⟩]⟩,
  ⟨"EVR_PART", 0x240170, [(4, 5)], [⟨"GIB", 0, 8, .ro, 0, .any⟩]⟩,
  ⟨"EVR_EVT", 0x240190, [], [⟨"", 0, 4, .w1c, 0, .any⟩]⟩,
  ⟨"EVR_EVT_EN", 0x240194, [], [⟨"", 0, 4, .rw, 0, .any⟩]⟩]

/-- The registers of block EVR. -/
def regRowsEVR : List RegRow := regRowsEVR0 ++ regRowsEVR1

/-- Block PMC, part 0. -/
def regRowsPMC0 : List RegRow := [
  ⟨"PMC_CNT", 0x280000, [(4, 512)], [⟨"VALUE", 0, 32, .rw, 0, .any⟩]⟩,
  ⟨"PMC_SEL", 0x281000, [(4, 512)], [⟨"EVENT", 0, 16, .rw, 0, .any⟩, ⟨"QUAL", 16, 8, .rw, 255, .any⟩, ⟨"MODE", 24, 2, .rw, 0, .range 0 2⟩, ⟨"CHAIN", 30, 1, .rw, 0, .any⟩, ⟨"EN", 31, 1, .rw, 0, .any⟩]⟩,
  ⟨"PMC_THR", 0x282000, [(4, 512)], [⟨"VALUE", 0, 32, .rw, 0, .any⟩]⟩,
  ⟨"PMC_HOLD", 0x283000, [(4, 16)], [⟨"VALUE", 0, 32, .ro, 0, .any⟩]⟩,
  ⟨"PMC_OVF", 0x283040, [(4, 16)], [⟨"VALUE", 0, 32, .w1c, 0, .any⟩]⟩,
  ⟨"PMC_OVF_LOST", 0x283080, [(4, 16)], [⟨"VALUE", 0, 32, .w1c, 0, .any⟩]⟩,
  ⟨"PMC_USER_EN", 0x2830C0, [], [⟨"BANKS", 0, 16, .rwl, 0, .any⟩, ⟨"LOCK", 31, 1, .w1s, 0, .any⟩]⟩,
  ⟨"PMC_EVT", 0x2830C4, [], [⟨"", 0, 2, .w1c, 0, .any⟩]⟩,
  ⟨"PMC_EVT_EN", 0x2830C8, [], [⟨"", 0, 2, .rw, 0, .any⟩]⟩,
  ⟨"PMC_LAST", 0x2830CC, [], [⟨"COUNTER", 0, 9, .ro, 0, .any⟩, ⟨"CAUSE", 9, 1, .ro, 0, .any⟩, ⟨"VALID", 31, 1, .ro, 0, .any⟩]⟩,
  ⟨"PMC_ISL_HOLD", 0x2830D0, [], [⟨"VALUE", 0, 32, .ro, 0, .any⟩]⟩,
  ⟨"PMC_ISL", 0x284000, [(32, 24), (4, 8)], [⟨"VALUE", 0, 32, .ro, 0, .any⟩]⟩]

/-- The registers of block PMC. -/
def regRowsPMC : List RegRow := regRowsPMC0

/-- Block CHN, part 0. -/
def regRowsCHN0 : List RegRow := [
  ⟨"CHN_STATUS", 0x2C0000, [], [⟨"POS/POS_VALID/ORPHAN/HEAD/RING_OPEN/DUP_HEAD/OVERSIZE/IN_SYNC", 0, 13, .ro, 0, .any⟩, ⟨"SIZE", 16, 7, .ro, 0, .any⟩]⟩,
  ⟨"CHN_GEN", 0x2C0004, [], [⟨"", 0, 16, .ro, 0, .any⟩]⟩,
  ⟨"CHN_CINCH_NS", 0x2C0008, [], [⟨"VALUE", 0, 32, .rw, 0, .any⟩]⟩,
  ⟨"CHN_CINCH_CMD", 0x2C000C, [], [⟨"GO", 0, 1, .wo, 0, .any⟩]⟩,
  ⟨"CHN_CINCH_STATUS", 0x2C0010, [], [⟨"CODE", 0, 2, .ro, 0, .any⟩, ⟨"ID", 16, 16, .ro, 0, .any⟩]⟩,
  ⟨"CHN_CINCH_RX", 0x2C0014, [], [⟨"VALUE", 0, 32, .ro, 0, .any⟩]⟩,
  ⟨"CHN_CRC_ERR", 0x2C0020, [], [⟨"VALUE", 0, 32, .rc, 0, .any⟩]⟩,
  ⟨"CHN_SYNC_LOSS", 0x2C0024, [], [⟨"VALUE", 0, 32, .rc, 0, .any⟩]⟩,
  ⟨"CHN_ENUMS", 0x2C0028, [], [⟨"VALUE", 0, 32, .rc, 0, .any⟩]⟩,
  ⟨"CHN_ZRX", 0x2C002C, [], [⟨"VALUE", 0, 32, .rc, 0, .any⟩]⟩,
  ⟨"CHN_EVT", 0x2C0030, [], [⟨"", 0, 8, .w1c, 0, .any⟩]⟩,
  ⟨"CHN_EVT_EN", 0x2C0034, [], [⟨"", 0, 8, .rw, 0, .any⟩]⟩,
  ⟨"CHN_PEER_ID", 0x2C0100, [(8, 64)], [⟨"UNIT", 0, 18, .ro, 0, .any⟩, ⟨"LIFECYCLE", 20, 2, .ro, 0, .any⟩, ⟨"VALID", 31, 1, .ro, 0, .any⟩]⟩,
  ⟨"CHN_PEER_INFO", 0x2C0104, [(8, 64)], [⟨"ALARM", 0, 12, .ro, 0, .any⟩, ⟨"PAIR", 16, 3, .ro, 0, .any⟩, ⟨"AGE", 24, 8, .ro, 0, .any⟩]⟩,
  ⟨"CHN_HRN_STATUS", 0x2C0400, [], [⟨"STATE", 0, 3, .ro, 0, .any⟩, ⟨"SYNCED", 3, 1, .ro, 0, .any⟩, ⟨"CLAIM", 4, 2, .ro, 0, .any⟩, ⟨"LINK_UP", 6, 1, .ro, 0, .any⟩, ⟨"DOWN_CAUSE", 8, 3, .ro, 0, .any⟩]⟩,
  ⟨"CHN_HRN_CTRL", 0x2C0404, [], [⟨"PARENT", 0, 12, .rw, 0, .any⟩, ⟨"VALID", 31, 1, .rw, 0, .any⟩]⟩]

/-- Block CHN, part 1. -/
def regRowsCHN1 : List RegRow := [
  ⟨"CHN_HRN_CMD", 0x2C0408, [], [⟨"TAKEOVER", 0, 1, .wo, 0, .any⟩]⟩,
  ⟨"CHN_HRN_CODE", 0x2C040C, [], [⟨"", 0, 3, .ro, 0, .any⟩]⟩,
  ⟨"CHN_HRN_WAIT", 0x2C0410, [], [⟨"SECONDS", 0, 10, .rw, 30, .range 1 600⟩]⟩,
  ⟨"CHN_HRN_TAKEOVERS", 0x2C0414, [], [⟨"VALUE", 0, 32, .rc, 0, .any⟩]⟩,
  ⟨"CHN_HRN_RETX", 0x2C0418, [], [⟨"VALUE", 0, 32, .rc, 0, .any⟩]⟩,
  ⟨"CHN_HRN_AUTH_FAILS", 0x2C041C, [], [⟨"VALUE", 0, 32, .rc, 0, .any⟩]⟩,
  ⟨"CHN_HRN_LAST_US", 0x2C0420, [], [⟨"", 0, 16, .ro, 0, .any⟩]⟩]

/-- The registers of block CHN. -/
def regRowsCHN : List RegRow := regRowsCHN0 ++ regRowsCHN1

/-- Block KPR, part 0. -/
def regRowsKPR0 : List RegRow := [
  ⟨"KPR_STATUS", 0x300000, [], [⟨"LIFECYCLE/DEBUG/POWER/STAGED/NO_INV/LOCKOUT", 0, 10, .ro, 0, .any⟩]⟩,
  ⟨"KPR_ALARM", 0x300004, [], [⟨"CAUSE", 0, 12, .ro, 0, .any⟩]⟩,
  ⟨"KPR_GEN", 0x300008, [], [⟨"IMAGE_GEN, KEY_GEN", 0, 32, .ro, 0, .any⟩]⟩,
  ⟨"KPR_SEQ", 0x30000C, [(4, 2)], [⟨"VALUE", 0, 32, .ro, 0, .any⟩]⟩,
  ⟨"KPR_AUTH_FAILS", 0x300014, [], [⟨"VALUE", 0, 32, .ro, 0, .any⟩]⟩,
  ⟨"KPR_REPLAYS", 0x300018, [], [⟨"VALUE", 0, 32, .ro, 0, .any⟩]⟩,
  ⟨"KPR_CMDS", 0x30001C, [], [⟨"VALUE", 0, 32, .ro, 0, .any⟩]⟩,
  ⟨"KPR_CHALLENGE", 0x300020, [(4, 8)], [⟨"VALUE", 0, 32, .ro, 0, .any⟩]⟩,
  ⟨"KPR_DIGEST", 0x300040, [(4, 12)], [⟨"VALUE", 0, 32, .ro, 0, .any⟩]⟩,
  ⟨"KPR_C7_FLAGS", 0x300100, [], [⟨"PROTECT", 0, 1, .ro, 0, .any⟩, ⟨"DELIVERY", 1, 1, .ro, 1, .any⟩, ⟨"EVIDENCE", 2, 1, .ro, 1, .any⟩, ⟨"RULES", 8, 4, .ro, 0, .any⟩]⟩,
  ⟨"KPR_GAP", 0x300104, [], [⟨"POLICY", 0, 1, .ro, 0, .any⟩, ⟨"HOLD_MS", 8, 24, .ro, 0, .any⟩]⟩,
  ⟨"KPR_BYPASS", 0x300108, [], [⟨"VALUE", 0, 32, .ro, 0, .any⟩]⟩,
  ⟨"KPR_TAMPER_RESP", 0x30010C, [], [⟨"ZEROIZE", 0, 6, .ro, 63, .any⟩]⟩,
  ⟨"KPR_ZFANOUT", 0x300110, [], [⟨"SEND", 0, 1, .ro, 0, .any⟩, ⟨"ACCEPT", 1, 1, .ro, 0, .any⟩]⟩,
  ⟨"KPR_ORPHAN_CAP", 0x300114, [], [⟨"SECONDS", 0, 12, .ro, 60, .any⟩]⟩,
  ⟨"KPR_TRIG_ROUTE", 0x300118, [], [⟨"SRC", 0, 4, .ro, 2, .any⟩]⟩]

/-- Block KPR, part 1. -/
def regRowsKPR1 : List RegRow := [
  ⟨"KPR_TAKEOVER", 0x30011C, [], [⟨"KEEPER", 0, 1, .ro, 1, .any⟩, ⟨"HOST", 1, 1, .ro, 1, .any⟩, ⟨"HARNESS_LOSS", 2, 1, .ro, 1, .any⟩]⟩,
  ⟨"KPR_OBSERVE", 0x300120, [], [⟨"ALLOW", 0, 1, .ro, 0, .any⟩]⟩,
  ⟨"KPR_PAT_HASH", 0x300140, [(4, 12)], [⟨"VALUE", 0, 32, .ro, 0, .any⟩]⟩,
  ⟨"KPR_C7_RULE", 0x300200, [(16, 8), (4, 4)], [⟨"VALUE", 0, 32, .ro, 0, .any⟩]⟩,
  ⟨"KPR_RES7_RATE", 0x300400, [(4, 32)], [⟨"MBPS", 0, 20, .ro, 0, .any⟩]⟩,
  ⟨"KPR_RES7_DEPTH", 0x300480, [(4, 32)], [⟨"BYTES", 0, 25, .ro, 16384, .any⟩]⟩,
  ⟨"KPR_B7", 0x300500, [(4, 32)], [⟨"KIB", 0, 16, .ro, 64, .any⟩]⟩]

/-- The registers of block KPR. -/
def regRowsKPR : List RegRow := regRowsKPR0 ++ regRowsKPR1

/-- Block PWR, part 0. -/
def regRowsPWR0 : List RegRow := [
  ⟨"PWR_STATUS", 0x340000, [], [⟨"POWER", 0, 3, .ro, 0, .any⟩, ⟨"INPUT_OK", 3, 1, .ro, 1, .any⟩, ⟨"AC", 4, 1, .ro, 1, .any⟩, ⟨"HOT", 5, 1, .ro, 0, .any⟩, ⟨"VBAT_OK", 6, 1, .ro, 1, .any⟩, ⟨"STEP", 8, 4, .ro, 9, .any⟩]⟩,
  ⟨"PWR_IN_V", 0x340004, [], [⟨"DV", 0, 16, .ro, 2300, .any⟩]⟩,
  ⟨"PWR_IN_MW", 0x340008, [], [⟨"MW", 0, 20, .ro, 0, .any⟩]⟩,
  ⟨"PWR_IN_HZ", 0x34000C, [], [⟨"DHZ", 0, 10, .ro, 500, .any⟩]⟩,
  ⟨"PWR_TEMP", 0x340010, [], [⟨"DIE", 0, 12, .ro, 100, .any⟩, ⟨"PLATE", 16, 12, .ro, 100, .any⟩]⟩,
  ⟨"PWR_THR", 0x340014, [], [⟨"HOT_C", 0, 8, .rw, 115, .range 85 124⟩]⟩,
  ⟨"PWR_VBAT", 0x340018, [], [⟨"MV", 0, 12, .ro, 3000, .any⟩]⟩,
  ⟨"PWR_DIPS", 0x340020, [], [⟨"VALUE", 0, 32, .rc, 0, .any⟩]⟩,
  ⟨"PWR_STOPS", 0x340024, [], [⟨"VALUE", 0, 32, .ro, 0, .any⟩]⟩,
  ⟨"PWR_LAST_RESET", 0x340028, [], [⟨"CAUSE", 0, 4, .ro, 0, .any⟩]⟩,
  ⟨"PWR_FW_ADDR_LO", 0x340040, [], [⟨"ADDR", 6, 26, .rw, 0, .any⟩]⟩,
  ⟨"PWR_FW_ADDR_HI", 0x340044, [], [⟨"VALUE", 0, 32, .rw, 0, .any⟩]⟩,
  ⟨"PWR_FW_LEN", 0x340048, [], [⟨"", 0, 25, .rw, 0, .any⟩]⟩,
  ⟨"PWR_FW_CTRL", 0x34004C, [], [⟨"OP", 0, 3, .wo, 0, .any⟩]⟩,
  ⟨"PWR_FW_STATUS", 0x340050, [], [⟨"BUSY", 0, 1, .ro, 0, .any⟩, ⟨"RESULT", 1, 3, .ro, 0, .any⟩, ⟨"VALID_A", 4, 1, .ro, 1, .any⟩, ⟨"VALID_B", 5, 1, .ro, 0, .any⟩, ⟨"RUNNING", 6, 1, .ro, 0, .any⟩, ⟨"PREFERRED", 7, 1, .ro, 0, .any⟩]⟩,
  ⟨"PWR_EVT", 0x340060, [], [⟨"", 0, 8, .w1c, 0, .any⟩]⟩]

/-- Block PWR, part 1. -/
def regRowsPWR1 : List RegRow := [
  ⟨"PWR_EVT_EN", 0x340064, [], [⟨"", 0, 8, .rw, 0, .any⟩]⟩]

/-- The registers of block PWR. -/
def regRowsPWR : List RegRow := regRowsPWR0 ++ regRowsPWR1

/-- Block DBG, part 0. -/
def regRowsDBG0 : List RegRow := [
  ⟨"DBG_STATUS", 0x380000, [], [⟨"LEVEL", 0, 2, .ro, 0, .any⟩, ⟨"JTAG_FULL", 2, 1, .ro, 0, .any⟩, ⟨"TRACE_RUN", 3, 1, .ro, 0, .any⟩]⟩,
  ⟨"DBG_TRACE_CTRL", 0x380004, [], [⟨"SPAN", 0, 5, .rw, 0, .any⟩, ⟨"DIR", 5, 1, .rw, 0, .any⟩, ⟨"EN", 31, 1, .rw, 0, .any⟩]⟩,
  ⟨"DBG_TRACE_COUNT", 0x380008, [], [⟨"", 0, 11, .ro, 0, .any⟩]⟩,
  ⟨"DBG_TRACE_REC", 0x390000, [(64, 1024), (4, 16)], [⟨"VALUE", 0, 32, .ro, 0, .any⟩]⟩]

/-- The registers of block DBG. -/
def regRowsDBG : List RegRow := regRowsDBG0

/-- Block HIF, part 0. -/
def regRowsHIF0 : List RegRow := [
  ⟨"HIF_STATUS", 0x3C0000, [], [⟨"LINK_GEN", 0, 4, .ro, 4, .any⟩, ⟨"LINK_WIDTH", 4, 5, .ro, 4, .any⟩, ⟨"FW_READY", 16, 1, .ro, 1, .any⟩]⟩,
  ⟨"HIF_FW_RESTARTS", 0x3C0004, [], [⟨"VALUE", 0, 32, .ro, 0, .any⟩]⟩,
  ⟨"HIF_ERRADDR", 0x3C0010, [], [⟨"", 0, 26, .ro, 0, .any⟩]⟩,
  ⟨"HIF_ERRINFO", 0x3C0014, [], [⟨"CAUSE", 0, 4, .ro, 0, .any⟩, ⟨"BAR", 4, 1, .ro, 0, .any⟩, ⟨"WRITE", 5, 1, .ro, 0, .any⟩, ⟨"OVERFLOW", 30, 1, .ro, 0, .any⟩, ⟨"VALID", 31, 1, .w1c, 0, .any⟩]⟩,
  ⟨"HIF_ERRCNT", 0x3C0018, [], [⟨"VALUE", 0, 32, .rc, 0, .any⟩]⟩,
  ⟨"HIF_LOCK_STATUS", 0x3C0020, [], [⟨"VIOL", 0, 1, .w1c, 0, .any⟩]⟩,
  ⟨"HIF_LOCK_ADDR", 0x3C0024, [], [⟨"", 0, 24, .ro, 0, .any⟩]⟩,
  ⟨"HIF_LOCK_VCNT", 0x3C0028, [], [⟨"VALUE", 0, 32, .rc, 0, .any⟩]⟩,
  ⟨"HIF_KPR_WRITES", 0x3C002C, [], [⟨"VALUE", 0, 32, .rc, 0, .any⟩]⟩,
  ⟨"HIF_KPR_ADDR", 0x3C0030, [], [⟨"", 0, 24, .ro, 0, .any⟩]⟩,
  ⟨"HIF_KQ_BASE_LO", 0x3C0100, [], [⟨"", 12, 20, .rw, 0, .any⟩]⟩,
  ⟨"HIF_KQ_BASE_HI", 0x3C0104, [], [⟨"VALUE", 0, 32, .rw, 0, .any⟩]⟩,
  ⟨"HIF_KQ_CBASE_LO", 0x3C0108, [], [⟨"", 12, 20, .rw, 0, .any⟩]⟩,
  ⟨"HIF_KQ_CBASE_HI", 0x3C010C, [], [⟨"VALUE", 0, 32, .rw, 0, .any⟩]⟩,
  ⟨"HIF_KQ_CTRL", 0x3C0110, [], [⟨"EN", 0, 1, .rw, 0, .any⟩, ⟨"SIZE", 1, 4, .rw, 0, .range 0 4⟩, ⟨"IRQ_EN", 5, 1, .rw, 1, .any⟩]⟩,
  ⟨"HIF_KQ_STATUS", 0x3C0114, [], [⟨"RUNNING", 0, 1, .ro, 0, .any⟩, ⟨"DB_ERR", 1, 1, .w1c, 0, .any⟩, ⟨"BUSY", 2, 1, .ro, 0, .any⟩, ⟨"HEAD", 16, 16, .ro, 0, .any⟩]⟩]

/-- Block HIF, part 1. -/
def regRowsHIF1 : List RegRow := [
  ⟨"HIF_KQ_LAST", 0x3C0118, [], [⟨"VALUE", 0, 32, .ro, 0, .any⟩]⟩,
  ⟨"HIF_KQ_HOLDOFF", 0x3C011C, [], [⟨"", 0, 10, .rw, 0, .range 0 1000⟩]⟩,
  ⟨"HIF_EQ_BASE_LO", 0x3C0140, [], [⟨"", 12, 20, .rw, 0, .any⟩]⟩,
  ⟨"HIF_EQ_BASE_HI", 0x3C0144, [], [⟨"VALUE", 0, 32, .rw, 0, .any⟩]⟩,
  ⟨"HIF_EQ_CTRL", 0x3C0148, [], [⟨"EN", 0, 1, .rw, 0, .any⟩, ⟨"SIZE", 1, 4, .rw, 0, .range 0 10⟩, ⟨"IRQ_EN", 5, 1, .rw, 1, .any⟩]⟩,
  ⟨"HIF_EQ_STATUS", 0x3C014C, [], [⟨"RUNNING", 0, 1, .ro, 0, .any⟩, ⟨"FULL", 1, 1, .ro, 0, .any⟩, ⟨"DB_ERR", 2, 1, .w1c, 0, .any⟩]⟩,
  ⟨"HIF_EQ_TAIL", 0x3C0150, [], [⟨"VALUE", 0, 32, .ro, 0, .any⟩]⟩,
  ⟨"HIF_EQ_LOST", 0x3C0154, [], [⟨"VALUE", 0, 32, .rc, 0, .any⟩]⟩,
  ⟨"HIF_EQ_HOLDOFF", 0x3C0158, [], [⟨"", 0, 10, .rw, 0, .range 0 1000⟩]⟩]

/-- The registers of block HIF. -/
def regRowsHIF : List RegRow := regRowsHIF0 ++ regRowsHIF1

/-- The rows of the block an address lies in (R406): each block extends to the next base. -/
def blockRows (a : Nat) : List RegRow :=
  if a < 0x4000 then regRowsGLB
  else if a < 0x8000 then regRowsCLK
  else if a < 0x10000 then regRowsIRQ
  else if a < 0x20000 then regRowsPAT
  else if a < 0x40000 then regRowsPEN
  else if a < 0x80000 then regRowsLANE
  else if a < 0xC0000 then regRowsFRM
  else if a < 0x100000 then regRowsCPH
  else if a < 0x140000 then regRowsSEC
  else if a < 0x180000 then regRowsKEY
  else if a < 0x1C0000 then regRowsCLS
  else if a < 0x200000 then regRowsSCH
  else if a < 0x240000 then regRowsTIM
  else if a < 0x280000 then regRowsEVR
  else if a < 0x2C0000 then regRowsPMC
  else if a < 0x300000 then regRowsCHN
  else if a < 0x340000 then regRowsKPR
  else if a < 0x380000 then regRowsPWR
  else if a < 0x3C0000 then regRowsDBG
  else if a < 0x400000 then regRowsHIF
  else []

/-- The register at an address, if the map lists one. -/
def regAt (a : Nat) : Option RegRow := (blockRows a).find? (fun r => r.hit a)

/-- A register's whole reset value from its fields. -/
def resetOfFields (fs : List RegField) : Nat := fs.foldl (fun v f => v + (f.reset % 2 ^ f.width) * 2 ^ f.lsb) 0

/-- KPR_DIGEST of the keeper image at its reset values: the words of its SHA-384 (R446, R519 step 4). -/
def digestReset : List Nat :=
  [0x7CC58258, 0x83F5662B, 0x7501FEFE, 0x4FC982F1, 0x1860AD6B,
    0x119ADB6D, 0x96BFC3DC, 0xDEBB605F, 0x664F08DA, 0x6DD6592C, 0x9D3B6BC5, 0x0420D71C]

/-- What a register holds after the reset that clears it (Reset column of the Register Map). An address
the map does not list reads 0 (R11). TB_STATUS[0] shows ENABLED: TB0 runs with or without a Pattern (R54,
R77). -/
def regReset (a : Nat) : Nat :=
  match regAt a with
  | some r =>
    if Reg.KPR_DIGEST 0 ≤ a ∧ a < Reg.KPR_DIGEST 0 + 48 then digestReset.getD ((a - Reg.KPR_DIGEST 0) / 4) 0
    else resetOfFields r.fields + (if a = Reg.TB_STATUS 0 then 1 else 0)
  | none => 0

/-- The fields of the register at an address. -/
def regFields (a : Nat) : List RegField :=
  match regAt a with
  | some r => r.fields
  | none => []

end Sys2Proof.Machine
end

