-- ==== Sys2Proof/Machine/Tbl.lean ====
section
/-! DEFINITION. Sparse tables: a list of (key, value) pairs in one canonical form (keys strictly
rising, no entry equal to what an unlisted key reads as), with the one way to read and to write one.
Register files, SC and SA tables, spans, ports and the other indexed state are held in this form. -/

namespace Sys2Proof.Machine

/-- A sparse table keyed by a number. -/
abbrev Tbl (α : Type) := List (Nat × α)

/-- The entry listed under key `k`, if any. -/
def Tbl.find {α : Type} : Tbl α → Nat → Option α
  | [], _ => none
  | (k, v) :: t, n => if k = n then some v else Tbl.find t n

/-- What key `n` reads as: its entry, or the default `d n`. -/
def Tbl.get {α : Type} (d : Nat → α) (t : Tbl α) (n : Nat) : α :=
  match Tbl.find t n with
  | some v => v
  | none => d n

/-- Drops every entry of key `n`. -/
def Tbl.erase {α : Type} : Tbl α → Nat → Tbl α
  | [], _ => []
  | (k, v) :: t, n => if k = n then Tbl.erase t n else (k, v) :: Tbl.erase t n

/-- Puts `v` under key `n`, keeping the keys rising. -/
def Tbl.put {α : Type} : Tbl α → Nat → α → Tbl α
  | [], n, v => [(n, v)]
  | (k, w) :: t, n, v =>
    if n < k then (n, v) :: (k, w) :: t
    else if n = k then (n, v) :: t
    else (k, w) :: Tbl.put t n v

/-- Writes `v` at key `n`: an entry equal to the default is not listed. -/
def Tbl.set {α : Type} [DecidableEq α] (d : Nat → α) (t : Tbl α) (n : Nat) (v : α) : Tbl α :=
  if v = d n then Tbl.erase t n else Tbl.put t n v

/-- Every key of the table lies above `b`, and the keys rise. -/
def Tbl.sortedAbove {α : Type} : Option Nat → Tbl α → Bool
  | _, [] => true
  | none, (k, _) :: t => Tbl.sortedAbove (some k) t
  | some b, (k, _) :: t => decide (b < k) && Tbl.sortedAbove (some k) t

/-- The canonical form: keys strictly rising, no entry equal to its default. -/
def Tbl.wf {α : Type} [DecidableEq α] (d : Nat → α) (t : Tbl α) : Bool :=
  Tbl.sortedAbove none t && t.all (fun e => decide (e.2 ≠ d e.1))

/-- The keys listed. -/
def Tbl.keys {α : Type} (t : Tbl α) : List Nat := t.map Prod.fst

/-- Writes `f` of the present value back under key `n`. -/
def Tbl.modify {α : Type} [DecidableEq α] (d : Nat → α) (t : Tbl α) (n : Nat) (f : α → α) : Tbl α :=
  Tbl.set d t n (f (Tbl.get d t n))

end Sys2Proof.Machine
end

