-- ==== Sys2Proof/Machine/State.lean ====
section
/-! DEFINITION. The state of the Sloade 6400 as plain data, and the state after reset: a Blank module
that has completed a cold start-up (log entry 2). Every BAR0 register lives in one sparse register file;
what the manual gives the module beside its registers stands in one structure per chapter. -/

namespace Sys2Proof.Machine

/-- How a frame that leaves a port ends: with its terminate character, as a stomp with an error block in place of the
block that carries it, or on 1000BASE-X with /V/ in place of /T/ (R144). -/
inductive FrameEnd where
  | terminate
  | errorBlock (block : Block66)
  | codeV
deriving DecidableEq, Repr

/-- A unit of the trunk line signal, its bits numbered in the order sent: a marker block, a block of the stream where the
port type has no FEC, or a codeword of 20 blocks and 28 parity symbols (R159). -/
inductive LineUnit where
  | marker (block : Block257)
  | block (block : Block257)
  | codeword (bits : BitVec 5420)
deriving DecidableEq, Repr

/-- A test pattern (R334): the sequence of bits in which each is the sum modulo 2 of the bits that lie the exponents of
its polynomial before it, two bits to a Gray-coded symbol when `gray`; or SSPRQ, whose symbols Clause 120 tabulates. -/
inductive TestPattern where
  | prbs (exponents : List Nat) (gray : Bool)
  | ssprq
deriving DecidableEq, Repr

/-- What passes the module's boundary as the effect of the latest command. -/
inductive Output where
  /-- A read completes with these words (R409). -/
  | readData (words : List Word)
  /-- A read completes with Completer Abort (R408, R411). -/
  | completerAbort
  /-- A request is answered with Unsupported Request (R405). -/
  | unsupportedRequest
  /-- The MSI-X message of a vector is sent (R419). -/
  | msix (vector : Nat)
  /-- The module writes host memory by DMA (R421, R425, R400). -/
  | dmaWrite (addr : Nat) (bytes : Bytes)
  /-- The module starts a DMA read of host memory (R63, R421, R514). -/
  | dmaRead (addr len : Nat)
  /-- A frame leaves a port of PEN, stomped or not (R144). -/
  | frameOut (port : Nat) (bytes : Bytes) (ending : FrameEnd)
  /-- The frame leaving a port is cut off with an error marker (R338, R346). -/
  | frameCut (port : Nat)
  /-- A trunk stitch enters the line coder of a span: its 64 header bytes as sent, its body, its tag
  block (R164, R166). -/
  | stitchOut (span : Nat) (header body tag : Bytes)
  /-- A unit of the trunk line signal leaves a lane of the line port of a span (R159). -/
  | trunkLine (span lane : Nat) (unit : LineUnit)
  /-- Fill of one stitch period enters the line coder of a span (R162). -/
  | fillOut (span : Nat)
  /-- The 4,096 client blocks of a verified stitch, or its replacement of error blocks (`none`), leave the
  client port of a span at the fixed delay (R178, R179). -/
  | clientOut (span : Nat) (blocks : Option (List Block66))
  /-- A level on an output pin: 1PPS_OUT, KALARM_N, CLKOBS and others by name. -/
  | pin (name : String) (level : Bool)
  /-- The wave on F10M_OUT from now on: its base, and where the rising edges lie in the base's count without its steps,
modulo 100 ns; `none`: no wave (R365). -/
  | f10m (wave : Option (Nat × Nat))
  /-- A time-of-day message on TOD_TX (R366). -/
  | tod (bytes : Bytes)
  /-- A message on the chain output (R462). -/
  | chain (message : Bytes)
  /-- A record on the harness (R474). -/
  | harness (record : Bytes)
  /-- A harness training word repeated on a lane (R332). -/
  | training (lane : Nat) (word : Nat)
  /-- The keeper port carries a frame on KDO (R435). -/
  | keeper (frame : Bytes)
  /-- A lane sends one or more inverted bits (R336). -/
  | injected (lane bits : Nat)
  /-- From now on one bit in every 2^`exp` that the lane sends is inverted; `none`: no longer (R336). -/
  | injectRate (lane : Nat) (exp : Option Nat)
  /-- From now on the lane sends a test pattern in place of its signal; `none`: its signal again (R335). -/
  | pattern (lane : Nat) (pattern : Option TestPattern)
  /-- A Clause 37 base page sent on a 1000BASE-X port (R324, R345). -/
  | basePage (port word : Nat)
deriving DecidableEq, Repr

/-! ## Host interface -/

/-- An event whose bit is set and whose record is not yet posted: P3 where no register holds it, and whether the
vector of R379 is still to be raised. -/
structure OwedEvent where
  p3 : Nat := 0
  vector : Bool := false
deriving DecidableEq, Repr

/-- The host interface beside its registers (R419 to R432). -/
structure HostIf where
  /-- The function is in D3hot (R405). -/
  d3hot : Bool := false
  /-- MSI-X is enabled in configuration space (R419; log entry 6). -/
  msixEnable : Bool := true
  /-- L: the last KEYQ doorbell accepted (R421). -/
  kqAccepted : Nat := 0
  /-- Descriptor of the KEYQ operation in progress, 64 bytes (R235, R236). -/
  kqRun : Option Bytes := none
  /-- The operation in progress writes no completion: a reset of the interface met it (R424). -/
  kqMute : Bool := false
  /-- Whether KEYQ was disabled while an operation runs, so that RUNNING clears at its end (R423). -/
  kqStopping : Bool := false
  /-- C: the last consumed count accepted (R425). -/
  eqConsumed : Nat := 0
  /-- Events lost since the last record written, or since enable (R428). -/
  eqLostSince : Nat := 0
  /-- A holdoff interval of vector 1 or 2 runs (R420). -/
  hold1 : Bool := false
  hold2 : Bool := false
  /-- Records or completions were written during the interval (R420). -/
  dirty1 : Bool := false
  dirty2 : Bool := false
  /-- Tick of the last event of each (source, kind) key, plus one (R149). -/
  lastEvent : Tbl Nat := []
  /-- Events owed, by the same key: their bit is set, and they are disabled or met the rate limit (R149). -/
  owed : Tbl OwedEvent := []
  /-- Tick of the last lower-half read, plus one, and the counter read, for each holding register (R150). -/
  lastLow : Tbl Nat := []
  /-- A FW_READY record is owed at the next EVQ enable (R430). -/
  fwReadyOwed : Bool := false
deriving DecidableEq, Repr

/-! ## Counters -/

/-- The programmable counters beside their registers (R489, R485). -/
structure PmcState where
  /-- Bank k's BAR0 holding register is held for this odd counter (R489). -/
  mark : Tbl Nat := []
  /-- The observe pages' own holding registers and marks (R490). -/
  obsHold : Tbl Nat := []
  obsMark : Tbl Nat := []
  /-- Weights counted since the previous sample instant, by counter number (R485). -/
  since : Tbl Nat := []
deriving DecidableEq, Repr

/-! ## Evidence ring and DRAM -/

/-- A record waiting for the ring writer: its 32 bytes (R395). -/
structure EvidenceItem where
  bytes : Bytes
deriving DecidableEq, Repr

/-- The evidence ring and the DRAM channels beside their registers (R380 to R400). -/
structure EvrState where
  /-- Records waiting for the ring writer, oldest first (R395). -/
  queue : List EvidenceItem := []
  /-- The window in which records to write are counted, and those accepted in it (R395). -/
  writeWindow : Nat := 0
  accepted : Nat := 0
  /-- Record slots held, by slot r mod C (R394). -/
  records : Tbl Bytes := []
  /-- Checkpoint slots held, by slot k mod 13,107 (R394). -/
  ckpts : Tbl Bytes := []
  /-- h of the last record written (R396). -/
  hash : Bytes := []
  /-- Checkpoints written in this ring (R397). -/
  ckptCount : Nat := 0
  /-- A START record of this reason is due first (R392). -/
  startDue : Option Nat := none
  /-- Frames not recorded since the last record; a GAP record is due when nonzero or when released. -/
  lostFrames : Nat := 0
  gapDue : Bool := false
  /-- Records still to be written before the freeze (R398). -/
  postLeft : Nat := 0
  /-- Bursts of the evidence partition that read uncorrectable: record bursts first, then checkpoints (R384). -/
  badSlots : List Nat := []
  /-- A fence took place and the map is not yet rebuilt (R387). -/
  rebuilding : Bool := false
  /-- Ticks of the uncorrectable reads of the last second, per channel (R385). -/
  ueTimes : Tbl (List Nat) := []
  /-- The readout in progress: KIND, first number and count (R400). -/
  readout : Option (Nat × Nat × Nat) := none
  /-- What the readout in progress copies, as held when it started (R400). -/
  copied : Bytes := []
  /-- The DRAM encryption key, K1 and K2, drawn at each start-up and after each zeroize; empty while there is none
  (R382, R383). -/
  dramKey : Bytes := []
deriving DecidableEq, Repr

/-! ## Power, clocks, reset, firmware -/

/-- Power states beside Run and Trim, which differ only in parked islands (R456). -/
inductive PowerMode where
  | on | hold | stopping | battery | off
deriving DecidableEq, Repr

/-- Where a warm reset stands (R517): admission closed and draining, or the core held in reset. -/
inductive WarmPhase where
  | draining | asserted
deriving DecidableEq, Repr

/-- Supply, clocks, resets and firmware banks beside their registers (R500 to R523). -/
structure PwrState where
  mode : PowerMode := .on
  /-- Mains input present (R500). -/
  inputPresent : Bool := true
  /-- The stop in progress or last completed is a thermal stop (R505). -/
  thermal : Bool := false
  /-- A stop was completed without passing through Battery or Off since (R516). -/
  afterStop : Bool := false
  /-- The first sample at or above 125 °C has been seen (R505). -/
  overTemp : Bool := false
  /-- A warm reset in progress, and its cause code of PWR_LAST_RESET. -/
  warm : Option WarmPhase := none
  warmCause : Nat := 0
  /-- A warm reset held until a zeroize reaches step 4 (R518). -/
  warmHeld : Option Nat := none
  /-- MRESET_N is low. -/
  mresetLow : Bool := false
  /-- A keeper WARM_RESET is due 10 ms after its response (R441). -/
  keeperReset : Bool := false
  /-- Ticks at which islands were fenced with cause CLOCK, latest first (R508), with island numbers. -/
  clockFences : List (Nat × Nat) := []
  /-- Unit gates with a deferred close (R512). -/
  closing : List Nat := []
  /-- Firmware: versions of banks A and B, the fuse floor, a restart running, firmware recovery. -/
  fwVersionA : Nat := 0x03000000
  fwVersionB : Nat := 0
  /-- SHA-384 of the image in each bank (R259, R514). -/
  fwDigestA : Bytes := Config.factoryDigest
  fwDigestB : Bytes := []
  fwFloor : Nat := 0
  fwRestarting : Bool := false
  fwRecovery : Bool := false
  fwInstalling : Bool := false
  /-- The vault restore of start-up step 8 waits for a Pattern (R520). -/
  restoreDue : Bool := false
deriving DecidableEq, Repr

/-! ## Key store, vault, enrolment record -/

/-- The lifecycle fuses (R450): Blank, Enrolled or Retired. -/
inductive LifeFuse where
  | blank | enrolled | retired
deriving DecidableEq, Repr

/-- The lifecycle (R450): within Enrolled the Quarantined flag selects. -/
inductive Lifecycle where
  | blank | operational | quarantined | retired
deriving DecidableEq, Repr

/-- The enrolment record (R251), kept in MRAM under the enrolment seal key. -/
structure EnrolRecord where
  unit : Nat
  kaHash : Bytes
  keeperKey : Bytes
  keyGen : Nat
  /-- The keeper image: words by BAR0 address, unlisted words at their default of R447. -/
  image : Tbl Word
  zcount : Nat
  zsrc : Nat
  tkFloor : Nat
  quarantined : Bool
  kseq : Nat
  imageGen : Nat
  stops : Nat
deriving DecidableEq, Repr

/-- A parent key (R242): PARENT_ID, key, and whether a VAULT_COMMIT holds it. -/
structure Parent where
  valid : Bool := false
  id : Nat := 0
  key : Bytes := []
  committed : Bool := false
deriving DecidableEq, Repr

/-- A journalled SC (R250): its words, current epoch, and whether it has ever had a current SA. -/
structure JournalSc where
  words : List Nat
  epoch : Nat
  started : Bool
deriving DecidableEq, Repr

/-- A Pattern slot of the vault (R68): empty, a container with its verified flag, or failed integrity. -/
inductive VaultSlot where
  | empty
  | full (container : Bytes) (signed : Bool)
  | broken
deriving DecidableEq, Repr

/-- The vault: what MRAM holds under the vault key (R250). -/
structure Vault where
  gen : Nat := 0
  parents : Tbl Parent := []
  slotA : VaultSlot := .empty
  slotB : VaultSlot := .empty
  floor : Nat := 0
  boot : Nat := 0
  tx : Tbl (Option JournalSc) := []
  rx : Tbl (Option JournalSc) := []
  marks : Tbl Nat := []
  /-- The harness claim journalled: none, ACTIVE, STANDBY, DEMOTED (R472). -/
  claim : Nat := 0
  /-- CHN_HRN_CTRL and CHN_HRN_WAIT as journalled (R481). -/
  hrnCtrl : Nat := 0
  hrnWait : Nat := 30
  /-- The keeper image's copy (R250). -/
  image : Tbl Word := []
  /-- The record counter, and its value at the latest write of each record: its IV (R250). -/
  counter : Nat := 0
  ivs : Tbl Nat := []
deriving DecidableEq, Repr

/-- The key store, the vault and the tamper monitor beside their registers (R223 to R263). -/
structure KeyState where
  fuse : LifeFuse := .blank
  noInvasive : Bool := false
  /-- The enrolment record: the copy in force, the other copy, and the counter of the latest write (R251). -/
  record : Option EnrolRecord := none
  recordOld : Option EnrolRecord := none
  recordCtr : Nat := 0
  /-- The vault key is present in the tamper monitor; its 32 bytes. -/
  vaultOpen : Bool := false
  vaultKey : Bytes := []
  vault : Vault := {}
  parents : Tbl Parent := []
  /-- Transport keys by slot, empty when not valid (R229). -/
  transport : Tbl Bytes := []
  /-- The DRBG's state stands in the number of the draw that instantiated it, plus one; 0 while it has none (R228). -/
  drbgDraw : Nat := 0
  /-- The two 128-bit permutation keys, of the data bank and of the mask bank; empty while there are none (R246). -/
  permD : Bytes := []
  permM : Bytes := []
  /-- The keeper key's working copy in the key store (R245). -/
  keeperCopy : Bytes := []
  /-- Mask words M by logical word address (R246). -/
  masks : Tbl (BitVec 64) := []
  /-- The re-mask engine: next word, ticks at which the pass started (R247). -/
  remaskPos : Nat := 0
  remaskStart : Nat := 0
  /-- PERIOD_US in force for the pass that runs (R248). -/
  remaskPeriod : Nat := 0
  /-- A zeroize between step 1 and step 4 (R256), and its sources so far. -/
  zeroizing : Option Nat := none
  /-- The DRBG awaits instantiation after a zeroize (step 5). -/
  drbgDown : Bool := false
  /-- Sources that must still be recorded at the next start-up, seen in Battery (R256). -/
  batterySources : Nat := 0
  /-- Sources seen in Battery that raise an alarm, still to be recorded at the next start-up (R254, R458). -/
  batteryAlarms : Nat := 0
  /-- TB0 at step 4 of the last zeroize, held by the tamper monitor for KEY_ZTIME (R256, R262). -/
  ztime : Nat := 0
  /-- Enter Invasive debug once ZDONE is set (R454). -/
  invasiveDue : Bool := false
  /-- An accepted RETIRE takes its effect when the zeroize it starts is complete (R450). -/
  retireDue : Bool := false
deriving DecidableEq, Repr

/-! ## Secure channels and associations -/

/-- Slot states of R205 and R207. -/
inductive SlotState where
  | empty | filling | ready | current | draining | old
deriving DecidableEq, Repr

/-- An SA entry (R189): key, salt and SSCI in the key store, epoch, state, PN and MARK. -/
structure SaEntry where
  /-- Owning SC and whether it is a receive SC. -/
  owner : Option (Nat × Bool) := none
  state : SlotState := .empty
  /-- READY: from the end of filling until the slot is emptied. -/
  ready : Bool := false
  epoch : Nat := 0
  derived : Bool := false
  orphan : Bool := false
  parent : Nat := 0
  pn : Nat := 0
  mark : Nat := 0
  /-- A MARK write in progress (R210). -/
  journalling : Option Nat := none
  key : Bytes := []
  salt : Bytes := []
  ssci : Nat := 0
  /-- The suite the key was filled for. -/
  cipher : Nat := 3
  /-- Frames or stitches bound to the slot that have not left or been discarded (R205). -/
  bound : Nat := 0
  /-- The fill that this association came from: what frames bound to it, or in verification under it, name (R208). -/
  gen : Nat := 0
  /-- The association that the slot held before: its fill and its NEXT_PN, for frames still in verification. -/
  former : Nat × Nat := (0, 0)
deriving DecidableEq, Repr

/-- An SC entry in use, with its switch state (R187, R188, R201 to R207, R217). -/
structure ScEntry where
  inUse : Bool := false
  /-- W0 to W7. CIPHER of an entry that nothing has been written to is 3 (R118). -/
  words : List Nat := [3, 0, 0, 0, 0, 0, 0, 0]
  /-- The SC was deleted, and none has been created in its place (R196). -/
  deleted : Bool := false
  pending : Option (List Nat) := none
  /-- Slot of the current SA, if it has one. -/
  cur : Option Nat := none
  /-- Current epoch, and whether the SC has ever had one. -/
  epoch : Nat := 0
  started : Bool := false
  /-- An epoch trigger awaits a binding or a READY slot; whether it came from a cinch (R201, R202). -/
  trigger : Bool := false
  cinch : Bool := false
  /-- Frames or stitches bound to the current SA (COUNT). -/
  count : Nat := 0
  /-- Key gap (R217). -/
  gap : Bool := false
  /-- The next stitch sealed is the first under an SA entered at a cinch (R171). -/
  cinchStitch : Bool := false
deriving DecidableEq, Repr

/-- A slot fill requested of the key sequencer (R199): a delivered key, or a derivation. -/
structure FillReq where
  sa : Nat
  sc : Nat
  rx : Bool
  epoch : Nat
  /-- Delivered key, salt and SSCI; none for a derivation. -/
  delivered : Option (Bytes × Bytes × Nat)
  /-- Make it current when READY (a transmit SC with no current SA). -/
  makeCurrent : Bool
  /-- Resumption MARK of R212: MARK + 1 of the journal, or 0. -/
  resume : Nat
deriving DecidableEq, Repr

/-- SC and SA tables, the key sequencer and the staged commit (R186 to R222). -/
structure SecState where
  tx : Tbl ScEntry := []
  rx : Tbl ScEntry := []
  sa : Tbl SaEntry := []
  fills : List FillReq := []
  /-- The fill taken up: key in the key store, MARK journalled. -/
  filling : Option FillReq := none
  /-- SAs the KEYQ operation in progress waits for (R236). -/
  kqWait : List Nat := []
  /-- Code of the SECW check in progress (R193). -/
  scwCode : Nat := 0
  /-- A cinch instant scheduled on CINCH_TB (R202). -/
  cinchAt : List Nat := []
  /-- The module is an isolated active of a harness pair (R214). -/
  isolated : Bool := false
  /-- Number of the next fill. -/
  nextGen : Nat := 1
deriving DecidableEq, Repr

/-! ## Keeper -/

/-- Debug levels (R454). -/
inductive DebugLevel where
  | closed | observe | invasive
deriving DecidableEq, Repr

/-- The keeper port beside its registers (R434 to R452). -/
structure KprState where
  debug : DebugLevel := .closed
  /-- Words of the staged image that were written, by BAR0 address; others equal the active image. -/
  staged : Tbl (Option Word) := []
  /-- The 16,384-byte staging buffer; bytes beyond the list are 0 (R443). -/
  buffer : Bytes := []
  /-- The response to the most recent request other than NOP (R435). -/
  response : Option Bytes := none
  authRun : Nat := 0
  lockout : Bool := false
  /-- The challenge has served its attempt, and the DRBG gave no bits for the next (R228, R444). -/
  challengeDue : Bool := false
deriving DecidableEq, Repr

/-! ## The Pattern -/

/-- Span modes (R22). -/
inductive SpanMode where
  | frame | trunk | bypass | discard
deriving DecidableEq, Repr

/-- A PORTS entry (R42). -/
structure PortCfg where
  type : Nat := 0
  first : Nat := 0
  fec : Nat := 0
  flow : Nat := 0
deriving DecidableEq, Repr

/-- A SPANS entry (R44); no mode for an undefined span. -/
structure SpanCfg where
  mode : Option SpanMode := none
  line : Nat := 0
  clients : Nat := 0
  units : Nat := 0
deriving DecidableEq, Repr

/-- A class entry of CLASSES (R49), or the keeper's class 7 flags (R447). -/
structure ClassCfg where
  integrityOnly : Bool := false
  verifyLate : Bool := false
  evidence : Bool := false
  spill : Bool := false
deriving DecidableEq, Repr

/-- A classification rule (R50). -/
structure ClassRule where
  kind : Nat
  cls : Nat
  spans : Nat
  value : Nat
  mask : Nat
deriving DecidableEq, Repr

/-- A gate entry: duration in ns and open classes (R52). -/
structure GateEntry where
  dur : Nat := 0
  gates : Nat := 0
deriving DecidableEq, Repr

/-- A SCHED port block (R52). -/
structure SchedCfg where
  allot : Nat := 0
  tb : Nat := 0
  gatesEn : Bool := false
  cycle : Nat := 0
  phase : Nat := 0
  weights : List Nat := []
  entries : List GateEntry := []
deriving DecidableEq, Repr

/-- A time-base entry of TIME (R54). -/
structure BaseCfg where
  enabled : Bool := false
  src : Nat := 0
  fref : Bool := false
deriving DecidableEq, Repr

/-- A Pattern as its container lays it out (R36 to R58). -/
structure Pattern where
  container : Bytes
  digest : Bytes
  signed : Bool
  lifecycles : Nat
  serial : Nat
  ports : List PortCfg
  spans : List SpanCfg
  shares : List Nat
  memSize : List Nat
  fenceOrder : List Nat
  layout : Nat
  ageDefault : Nat
  learnMask : Nat
  defaultClass : Nat
  classes : List ClassCfg
  rules : List ClassRule
  sched : List SchedCfg
  bases : List BaseCfg
  ppsTb : Nat
  todTxTb : Nat
  f10mTb : Nat
  todRxTb : Nat
  stampTb : List Nat
  tcMode : List Nat
  ksMode : Nat
  ksPeriod : Nat
  plan : Nat
  trim : Bool
  cflags : Nat
  cinchTb : Nat
  heartbeatMs : Nat
  role : Nat
  mirror : Nat
  peerUnit : Nat
  order : List Nat
deriving DecidableEq, Repr

/-- A cut in progress (R72). -/
structure Cut where
  /-- Every span stops. -/
  full : Bool
  /-- The stopped set, bit n for Sn; 0 for a change that stops no span. -/
  stopped : Nat
  /-- Step 5 is done: the new structure is loaded. -/
  loaded : Bool := false
deriving DecidableEq, Repr

/-- The Pattern block beside its registers (R63 to R77). -/
structure PatState where
  active : Option Pattern := none
  staged : Option Pattern := none
  /-- Where the staged Pattern came from, in ACT_SOURCE encoding. -/
  stagedSource : Nat := 0
  /-- The STAGE operation in progress (R63). -/
  staging : Option Nat := none
  /-- Bytes that a STAGE_WINDOW in progress fetches: PAT_WIN_LEN as it stood when it started. -/
  stagingLen : Nat := 0
  cut : Option Cut := none
  /-- The STORE operation in progress (R68). -/
  storing : Option Nat := none
  /-- Bursts of scratch that read uncorrectable while a Pattern is staging or staged (R384). -/
  scratchBad : List Nat := []
deriving DecidableEq, Repr

/-! ## Cipher fabric -/

/-- A cell descriptor (R82, R83): its frame, or its span's stitch when `trunk`. -/
structure Cell where
  /-- TAG. -/
  frame : Nat
  /-- MODE 1. -/
  trunk : Bool := false
  index : Nat
  span : Nat
  sa : Nat := 0
  /-- DIR 1. -/
  opening : Bool := false
  first : Bool := false
  last : Bool := false
  /-- Valid bytes, 1 to 64. -/
  bytes : Nat := 64
  /-- AUTH_ONLY: bytes from its start that are authenticated and not encrypted (R82, R125). -/
  authOnly : Nat := 0
  /-- Lending order of R91: 0 class 7, 1 PTP event, 2 other. -/
  rank : Nat := 2
  audit : Bool := false
  /-- Its frame has ended by a fence or a mismatch: the work is thrown away (R493). -/
  waste : Bool := false
deriving DecidableEq, Repr

/-- An island's handshake FIFOs: cells dispatched and not completed, audited cells completed and not
compared. -/
structure IslandQ where
  input : List Cell := []
  output : List Cell := []
deriving DecidableEq, Repr

/-- What an island makes of a cell (R86): the right output bytes and GHASH partial, or others. -/
inductive CellResult where
  | right
  | wrong (bytes : Bytes) (partial_ : BitVec 128)
deriving DecidableEq, Repr

/-- An audited cell: its two islands, and each result once it is in (R101, R102). -/
structure Audit where
  cell : Cell
  primary : Nat
  partner : Nat
  first : Option CellResult := none
  second : Option CellResult := none
deriving DecidableEq, Repr

/-- The cipher fabric beside its registers (R78 to R114). -/
structure FabState where
  /-- Owner of each wheel slot as laid at the last cut; 32 is unowned. Empty with no Pattern. -/
  wheel : List Nat := []
  wheelPos : Nat := 0
  /-- The span that borrowed last (R91). -/
  borrower : Nat := 31
  /-- Ready cells in the order they became ready. -/
  ready : List Cell := []
  islands : Tbl IslandQ := []
  audits : List Audit := []
  /-- Spans being shed, whose queues are not yet empty (R110, R111). -/
  shedding : List Nat := []
  /-- Shed spans, the order in which the spans shed or being shed were shed, and the tick of the most recent shed
  plus one. -/
  shed : List Nat := []
  shedOrder : List Nat := []
  lastShed : Nat := 0
  /-- Islands to be parked once empty, and islands running their unpark test (R99). -/
  parking : List Nat := []
  unparking : List Nat := []
  /-- Spans whose rise of N_run the islands being unparked serve, and the active spans at the latest computation of
  N_run (R99). -/
  rising : List Nat := []
  activeSeen : Nat := 0
  /-- Capacity of the running islands above the wheel rate not yet lent, in 1/190 of a cell (R91). -/
  spare : Nat := 0
  /-- Cells dispatched since the last audited one, for the fixed cadence of R228. -/
  cadence : Nat := 0
  /-- The island that was dispatched to last (log entry 11). -/
  lastIsland : Nat := 23
  /-- First cells may miss T_FAB until this tick; tick of the last fence plus one (R94). -/
  lateUntil : Nat := 0
  lastFence : Nat := 0
  /-- Consecutive monitor windows short of cycles, by island (R80). -/
  slow : Tbl Nat := []
deriving DecidableEq, Repr

/-! ## Frames in flight, queues, scheduling -/

/-- The verdict on a frame's checks at its tail (R142 checks 8 and 9). -/
inductive Verdict where
  | pending | good | bad
deriving DecidableEq, Repr

/-- A frame in flight: its tag is its key in the frame table, 0 to 16,383; a Bypass frame has a key above. -/
structure Frame where
  span : Nat := 0
  opening : Bool := false
  bypass : Bool := false
  /-- Input port, in PEN numbering. -/
  inPort : Nat := 0
  cls : Nat := 0
  /-- A PTP event message. -/
  ptp : Bool := false
  /-- The client frame, FCS included: as received (seal), as recovered (open). -/
  client : Bytes := []
  /-- The secured bytes on the line: addresses, SecTAG, secure data; no ICV, no FCS. -/
  line : Bytes := []
  /-- Length of the clear head (addresses and clear tags), SecTAG length, and first encrypted byte of the client
  frame. -/
  headLen : Nat := 0
  tagLen : Nat := 0
  cryptFrom : Nat := 0
  /-- Hash key H of the SA, kept for the commit patch (R373). -/
  hashKey : Bytes := []
  sc : Option Nat := none
  sa : Option Nat := none
  /-- The fill of its SA, of which it stays a frame whatever the entry holds later (R205, R208). -/
  gen : Nat := 0
  slot : Nat := 0
  pn : Nat := 0
  /-- Bytes received, and whether with a correct FCS (R348). -/
  rxLen : Nat := 0
  fcsOk : Bool := true
  /-- Open: a copy has been delivered and the frame counted in OPEN_OK (R150). -/
  counted : Bool := false
  /-- Open: padded under R140; flooded to every client port (R271). -/
  padded : Bool := false
  flood : Bool := false
  /-- Open: whether the GCM tag is right, known only at the verdict. -/
  icvOk : Bool := true
  icv : Bytes := []
  /-- Open: the GCM tag as computed. -/
  computed : Bytes := []
  verdict : Verdict := .good
  /-- Released only whole and checked (R141). -/
  storeForward : Bool := false
  /-- To be stomped at its tail, and the cause of FRM_LAST_FAIL. -/
  stomp : Option Nat := none
  /-- Cells not yet completed. -/
  cellsLeft : Nat := 0
  /-- Output ports that the frame has still to leave. -/
  outs : List Nat := []
  /-- Output ports on which its head has been released. -/
  heads : List Nat := []
  /-- Per output port released: the bytes committed to it, FCS included (R372). -/
  sent : Tbl Bytes := []
  /-- TB0 count of the first bit at the output land (R393). -/
  egress : Nat := 0
  /-- Islands that completed its cells (R494). -/
  ran : List Nat := []
  /-- Admission order in the module. -/
  order : Nat := 0
  /-- Ingress: TB0 count, tick, and step-free count of every base (R368, R371). -/
  stamp : Nat := 0
  tick : Nat := 0
  shadows : List Nat := []
  /-- Counted once as waiting for a gate window (R305). -/
  waited : Bool := false
  /-- Spill was exhausted when its turn came, and it stays on-die (R313). -/
  denied : Bool := false
  /-- The SecTAG as on the line, for the trace (R455). -/
  secTag : Bytes := []
deriving DecidableEq, Repr

/-- An entry of a queue: a frame in flight, or a frame in the spill partition (R311). -/
inductive QEntry where
  | held (id : Nat)
  | spilled (frame : Frame)
deriving DecidableEq, Repr

/-- A gate list in force or pending (R304, R307). -/
structure GateList where
  entries : List GateEntry := []
  cycle : Nat := 0
  phase : Nat := 0
deriving DecidableEq, Repr

/-- Scheduling state of one port (R299 to R317). -/
structure PortSched where
  deficit : List Nat := List.replicate 7 0
  fresh : List Bool := List.replicate 7 true
  ptr : Nat := 0
  /-- Token counts in eighths of a byte, classes 0 to 7 (R309). -/
  tokens : List Int := List.replicate 8 131072
  /-- The frame in transmission. -/
  sending : Option Nat := none
  /-- Gates: enabled, base, allotment, list in force, pending list, current entry, and the count of the
  base at which it ends. -/
  gatesOn : Bool := false
  tb : Nat := 0
  allot : Nat := 0
  list : GateList := {}
  pending : Option GateList := none
  /-- Gate lists that have taken effect since reset: the generation of GATE records (R474). -/
  gen : Nat := 0
  /-- The shadow list of SCHG (R307). -/
  shadow : GateList := {}
  shadowCount : Nat := 0
  entry : Nat := 0
  entryStart : Nat := 0
  cycleStart : Nat := 0
  /-- Classes paused by the client, bit c (R317). -/
  paused : Nat := 0
  /-- Classes toward which PAUSE or PFC is in force; bit 0 stands for PAUSE (R314, R315). -/
  pausing : Nat := 0
deriving DecidableEq, Repr

/-- A sample record of one queue (R318). -/
structure SampleRec where
  taken : Bool := false
  depthMin : Nat := 0
  depthMax : Nat := 0
  depthLast : Nat := 0
  delayMin : Nat := 0
  delayMax : Nat := 0
  delayLast : Nat := 0
  bins : List Nat := List.replicate 16 0
deriving DecidableEq, Repr

/-- A frame that waits at admission until the islands that its span's rise of N_run needs are unparked (R99), with
its ingress stamps. -/
structure HeldArrival where
  line : Bool
  port : Nat
  frame : Bytes
  ending : RxEnd
  stamp : Nat
  tick : Nat
  shadows : List Nat
deriving DecidableEq, Repr

/-- Frames, queues and scheduling beside the registers (R294 to R319). -/
structure SchState where
  frames : Tbl Frame := []
  /-- Frames admitted so far: the next frame's place in the admission order. -/
  admitted : Nat := 0
  /-- Queues by port × 8 + class, oldest first. -/
  queues : Tbl (List QEntry) := []
  ports : Tbl PortSched := []
  samples : Tbl SampleRec := []
  /-- Commit codes pending at a frame boundary: register address and value, per port key (R310, R320). -/
  pending : Tbl (List (Nat × Nat)) := []
  /-- The last frame received on each port that may still be arriving (R338). -/
  arriving : Tbl (Option Nat) := []
  /-- Frames that wait at admission, oldest first. -/
  held : List HeldArrival := []
  /-- The window in which spill bytes are counted, and those written and read in it (R312). -/
  spillWindow : Nat := 0
  spillOut : Nat := 0
  spillIn : Nat := 0
deriving DecidableEq, Repr

/-! ## Trunk spans -/

/-- A marker seen on a lane: the bit of the lane where it began, its fields, and markers before it at the group's
spacing, itself included (R160, R161). -/
structure MarkerSeen where
  pos : Nat
  lane : Nat
  lanes : Nat
  group : Nat
  run : Nat := 0
deriving DecidableEq, Repr

/-- Marker tracking of one lane (R161): the latest marker of the lock, or the markers followed before it. -/
structure LaneMark where
  lock : Option MarkerSeen := none
  seen : List MarkerSeen := []
deriving DecidableEq, Repr

/-- The transmit line coder of a trunk span (R159): GROUP of the group in progress, units of it sent, blocks of the
codeword in progress. -/
structure LineCoder where
  group : Nat := 0
  count : Nat := 0
  part : List Block257 := []
deriving DecidableEq, Repr

/-- A stitch candidate, or the lock: position, slot and SEQ of its last good header, good headers. -/
structure Candidate where
  pos : Nat
  good : Nat := 0
  ks : Nat := 0
  seq : Nat := 0
deriving DecidableEq, Repr

/-- A stitch being sealed: its SA, header and payload blocks so far. -/
structure Stitch where
  sa : Nat
  /-- The fill of its SA (R205). -/
  gen : Nat := 0
  /-- Its tag (R95). -/
  tag : Nat := 0
  key : Bytes := []
  iv : Bytes := []
  header : Bytes := []
  seq : Nat := 0
  blocks : List Block66 := []
  fault : Bool := false
  cellsLeft : Nat := 0
  /-- It lost a cell in the fabric (R105). -/
  failed : Bool := false
  /-- Cells that an island computed wrongly and nobody audited, with what it made of them. -/
  wrong : List (Nat × Bytes × BitVec 128) := []
  /-- TB0 when P0 was taken (R455). -/
  stamp : Nat := 0
  /-- Stitch periods of fill that follow it on the line (R162). -/
  fills : Nat := 0
deriving DecidableEq, Repr

/-- A trunk span beside its registers (R152 to R185). -/
structure TrunkState where
  boundTx : Option Nat := none
  boundRx : Option Nat := none
  peerSpan : Nat := 0
  /-- Seal side: elastic buffer and the stitch in progress. -/
  elastic : List Block66 := []
  coder : LineCoder := {}
  lastTaken : Option Block66 := none
  stitch : Option Stitch := none
  /-- Stitches complete and in the fabric, oldest first. -/
  sealing : List Stitch := []
  /-- Open side. -/
  lanes : Tbl LaneMark := []
  cands : List Candidate := []
  lock : Option Candidate := none
  badRun : Nat := 0
  tagRun : Nat := 0
  /-- The header judged in LOCK, awaiting its tag: bytes, and the outcome so far. -/
  header : Option Bytes := none
  /-- Arrival of that header on the span's STAMP_TB, and on TB0 (R183, R393). -/
  headStamp : Nat := 0
  headStamp0 : Nat := 0
  /-- Client blocks of verified stitches, or replacements, awaiting their release instant (R179). -/
  release : List (Option (List Block66)) := []
  /-- The last blocks released, held for a message that goes on in the next stitch (R157). -/
  tail : List Block66 := []
  /-- The receive slot last delivered under. -/
  lastSlot : Option Nat := none
  /-- Tag of the open-direction stitch in the fabric, and its cells not yet completed (R83, R95). -/
  openTag : Option Nat := none
  openCells : Nat := 0
  /-- That stitch lost a cell (R178). -/
  openFailed : Bool := false
  /-- Its cells that an island computed wrongly and nobody audited, with what it made of them. -/
  openWrong : List (Nat × Bytes × BitVec 128) := []
  /-- Islands that completed its cells (R494). -/
  openRan : List Nat := []
  /-- The four tags set aside at the last cut: two for sealing, two for opening (R174). -/
  setAside : List Nat := []
deriving DecidableEq, Repr

/-! ## Classifier -/

/-- A learn request (R280). -/
structure LearnReq where
  client : Bool
  port : Nat
  vid : Nat
  mac : Bytes
  target : Nat
  rxsc : Nat
  /-- Counted once as waiting for a locked bucket (R290). -/
  waited : Bool := false
deriving DecidableEq, Repr

/-- A prefix entry (R273, R275). -/
structure PrefixEntry where
  key : Bytes := []
  mask : Bytes := []
  action : Nat := 0
  sc : Nat := 0
  length : Nat := 0
deriving DecidableEq, Repr

/-- A CLS command in progress: its code, result and output so far, and the bucket of a sweep (R287). -/
structure ClsCmd where
  code : Nat
  result : Nat := 0
  out : Nat := 0
  /-- What LOOKUP found. -/
  data : Bytes := []
  bucket : Option Nat := none
  /-- The command's work is finished; it waits for its completion. -/
  done : Bool := true
deriving DecidableEq, Repr

/-- Work of the learn engine beside learn requests (R281): the INSERT, UPDATE or DELETE command in progress, an ager visit
to a bucket, a window commit of a bucket, or an entry from the active module of a pair. -/
inductive EngineWork where
  | command
  | visit (bucket : Nat)
  | commit (bucket : Nat)
  | mirrored (op : Nat) (entry : Bytes)
deriving DecidableEq, Repr

/-- Work that waits for the learn engine, and how many learn requests stand before it. -/
structure EngineJob where
  work : EngineWork
  ahead : Nat := 0
deriving DecidableEq, Repr

/-- The classifier beside its registers (R264 to R293). -/
structure ClsState where
  /-- Peer entries of 64 bytes by bucket × 8 + place; an unlisted place is 64 zero bytes. -/
  peers : Tbl Bytes := []
  versions : Tbl Nat := []
  /-- Buckets locked by the host, with the tick. -/
  locks : Tbl (Option Nat) := []
  shadows : Tbl (Option Bytes) := []
  learnQ : List LearnReq := []
  /-- Relocated entries whose original is still to be cleared: its place and that of the copy. -/
  relocated : List (Nat × Nat) := []
  /-- Work that waits for the learn engine, in arrival order (R281). -/
  jobs : List EngineJob := []
  /-- The window in which cache misses are counted, and their number (R272). -/
  missWindow : Nat := 0
  misses : Nat := 0
  cmd : Option ClsCmd := none
  prefixes : Tbl (Option PrefixEntry) := []
deriving DecidableEq, Repr

/-! ## Lanes, ports -/

/-- Harness training of one lane (R332). -/
structure LaneTrain where
  /-- Words matched in a row, lane number carried, complemented, COUNT of the last word. -/
  run : Nat := 0
  lane : Nat := 0
  flipped : Bool := false
  count : Nat := 0
  /-- Words with RX_DONE received in a row. -/
  done : Nat := 0
  /-- Training words sent on the lane: COUNT of the next, and those with RX_DONE in a row (R331, R332). -/
  sent : Nat := 0
  doneSent : Nat := 0
deriving DecidableEq, Repr

/-- Lanes and ports beside their registers (R322 to R352). -/
structure LaneState where
  train : Tbl LaneTrain := []
  /-- The harness training failed and is tried again after its wait (R332). -/
  failed : Bool := false
  /-- FEC counts at the last TB0 marker, by port: codewords, corrected symbols, uncorrected (R344). -/
  fecBase : Tbl (Nat × Nat × Nat) := []
  /-- DINT pending set, by register address (R342). -/
  dint : List (Nat × Nat) := []
  /-- The lanes of the harness are deskewed (R332). -/
  deskewed : Bool := false
deriving DecidableEq, Repr

/-! ## Time -/

/-- A time base beside its registers (R353 to R363). -/
structure BaseState where
  /-- Fifths of 2^-32 ns below FRAC: INC of 6.4 ns is not a multiple of 2^-32 ns (R353; log entry 10). -/
  fifths : Nat := 0
  /-- Step-free count in fifths of 2^-32 ns (R371). -/
  shadow : Nat := 0
  /-- Servo integral in units of 2^-56 (R360). -/
  integral : Int := 0
  /-- Tick of the last sample, plus one; 0 before any. -/
  lastSample : Nat := 0
  /-- Consecutive misses of 1PPS_IN (R362). -/
  misses : Nat := 0
  /-- LO half of TB_SECBASE as written, waiting for HI (R356). -/
  secLo : Option Nat := none
  /-- Tick of the last step, plus one (R359). -/
  stepTick : Nat := 0
  /-- Seconds count, WRAP and NS of the last marker (R366). -/
  markSec : Nat := 0
  markWrap : Nat := 0
  markNs : Nat := 0
  /-- Tick of the last marker, plus one; 0 before any (R367). -/
  markTick : Nat := 0
deriving DecidableEq, Repr

/-- Timing beside the TIM registers. -/
structure TimState where
  base : Tbl BaseState := []
  ppsOut : Bool := false
  /-- The wave on F10M_OUT, while there is one: its base, and where its rising edges lie in the base's step-free count,
  in fifths of 2^-32 ns modulo 100 ns (R365). -/
  f10m : Option (Nat × Nat) := none
  /-- The TOD message due for the last edge: its seconds, WRAP and NS (R366). -/
  todDue : Option (Nat × Nat × Nat) := none
  /-- TB0 markers since the last age tick (R284). -/
  ageMarks : Nat := 0
  /-- Tick of the last 1PPS_IN edge, plus one. -/
  ppsIn : Nat := 0
deriving DecidableEq, Repr

/-! ## Chain and harness -/

/-- The chain port beside its registers (R461 to R471). -/
structure ChnState where
  /-- Messages waiting to leave, with their priority, in order. -/
  sendQ : List (Nat × Bytes) := []
  /-- Counts the head has sent: GEN of the last is this modulo 65,536 (R465). -/
  gen : Nat := 0
  cinchId : Nat := 0
  /-- CINCH_ID of the last CINCH received, recorded with CHN_CINCH_RX (R469). -/
  cinchRxId : Nat := 0
  zseq : Nat := 0
  /-- The ZEROIZE message being repeated and the repeats left (R470). -/
  zrepeat : Option (Bytes × Nat) := none
  /-- ZEROIZE messages acted on: position, unit, ZSEQ, tick (R470). -/
  zseen : List (Nat × Nat × Nat × Nat) := []
  /-- An ALARM message is owed for a newly set alarm bit (R463). -/
  alarmDue : Bool := false
  /-- Ticks of the peer records (R468). -/
  peerTick : Tbl Nat := []
  /-- The TROX_HEAD_N strap is low: as sampled at start-up step 2: the module heads its chain (R465, R540). -/
  headStrap : Bool := false
deriving DecidableEq, Repr

/-- What the active module mirrors over the harness (R474, R476). -/
inductive HrnMsg where
  | sc (index : Nat) (rx : Bool)
  | epoch (index : Nat) (rx : Bool)
  | mark (sa mark : Nat)
  | snapEnd (count : Nat)
  | learn (op : Nat) (entry : Bytes)
  | gate (port : Nat)
  | takeover
  | takeoverAck
  | hello
  | ack
deriving DecidableEq, Repr

/-- Where a takeover stands on the standby (R479). -/
inductive TakeoverPhase where
  | asked | journalling
deriving DecidableEq, Repr

/-- The harness link and pair beside their registers (R472 to R480). -/
structure HrnState where
  up : Bool := false
  paired : Bool := false
  nonce : Bytes := []
  peerNonce : Bytes := []
  /-- The harness key, empty while the harness is down (R473). -/
  key : Bytes := []
  seqTx : Nat := 0
  seqRx : Nat := 0
  /-- Records sent and not acknowledged: SEQ, record, times sent, and the MARK it carries. -/
  unacked : List (Nat × Bytes × Nat × Option (Nat × Nat)) := []
  authRun : Nat := 0
  /-- SEQ named in the last ACK sent (R474). -/
  ackSent : Nat := 0
  toSend : List HrnMsg := []
  /-- MARK + 1 acknowledged by the partner, by SA (R214). -/
  ackedMark : Tbl Nat := []
  takeover : Option (TakeoverPhase × Nat) := none
  /-- A former active that has journalled STANDBY in a takeover. -/
  gaveUp : Bool := false
deriving DecidableEq, Repr

/-! ## Debug trace -/

/-- The trace of R455 beside its registers: span, direction, records of 64 bytes. -/
structure DbgState where
  records : List Bytes := []
  running : Bool := false
deriving DecidableEq, Repr

/-! ## Faults, refusals, the state -/

/-- Why a step can stop the machine: nothing the manual describes does, so no command raises a fault. -/
inductive Fault where
  /-- Raised by nothing: the manual gives every command an effect, or none. Safe. -/
  | noFault
deriving DecidableEq, Repr

/-- Why a step can be refused. -/
inductive Refusal where
  /-- Raised by an arm of `exec` whose command has no meaning yet, by the row's mnemonic. Safe. -/
  | notModelled (mnemonic : String)
deriving DecidableEq, Repr

/-- The state of the module. -/
structure State where
  /-- BAR0 registers by address; an unlisted register reads as its reset value. Of an RWS register this
  is the shadow (R10). -/
  regs : Tbl Word
  /-- Active values of RWS registers, in the same form. -/
  act : Tbl Word
  hif : HostIf
  pmc : PmcState
  evr : EvrState
  pwr : PwrState
  key : KeyState
  sec : SecState
  kpr : KprState
  pat : PatState
  fab : FabState
  sch : SchState
  trk : Tbl TrunkState
  cls : ClsState
  lan : LaneState
  tim : TimState
  chn : ChnState
  hrn : HrnState
  dbg : DbgState
  /-- Ticks of the 156.25 MHz reference since reset: the module's own clock for its timers. -/
  refTick : Nat
  /-- How many free values have been drawn: the model's own field (log entry 3). -/
  rng : Nat
  /-- What the latest command sent outside: the model's own field. -/
  out : List Output
  /-- Commands waiting, first in, first out. -/
  pending : List Instr
deriving DecidableEq, Repr

/-- Every unit at its state after a cold start-up of a Blank module with no Pattern (R76, R77, R519;
log entry 2): registers at their reset values, nothing listed. -/
def State.reset : State where
  regs := []
  act := []
  hif := {}
  pmc := {}
  evr := { dramKey := (List.range 64).map (Config.drbgByte 3) }
  pwr := {}
  key := { drbgDraw := 1, permD := (List.range 16).map (Config.drbgByte 1),
           permM := (List.range 16).map (Config.drbgByte 2) }
  sec := {}
  kpr := {}
  pat := {}
  fab := {}
  sch := {}
  trk := []
  cls := {}
  lan := {}
  tim := {}
  chn := {}
  hrn := {}
  dbg := {}
  refTick := 0
  rng := 4
  out := []
  pending := []

end Sys2Proof.Machine
end

