-- ==== Sys2Proof/Machine/Ops.lean ====
section
/-! DEFINITION. The named operations every chapter shares: reading and writing registers, counters,
outputs, vectors and events, draws of free values, programmable-counter events. -/

namespace Sys2Proof.Machine

/-! ## Registers -/

/-- What an unlisted register reads as: its reset value. -/
def regDflt (a : Nat) : Word := word (regReset a)

/-- The stored value of a register; of an RWS register, its shadow (R10). -/
def State.rd (s : State) (a : Nat) : Nat := (Tbl.get regDflt s.regs a).toNat

/-- Stores a register. -/
def State.wr (s : State) (a v : Nat) : State := { s with regs := Tbl.set regDflt s.regs a (word v) }

/-- A field of a register. -/
def State.rdF (s : State) (a lsb len : Nat) : Nat := field (s.rd a) lsb len

/-- Sets a field of a register. -/
def State.wrF (s : State) (a lsb len v : Nat) : State := s.wr a (putField (s.rd a) lsb len v)

/-- One bit of a register. -/
def State.bit (s : State) (a n : Nat) : Bool := Nat.testBit (s.rd a) n

/-- Sets or clears one bit of a register. -/
def State.setBit (s : State) (a n : Nat) (b : Bool) : State := s.wrF a n 1 (b2n b)

/-- The active value of an RWS register (R10). -/
def State.actv (s : State) (a : Nat) : Nat := (Tbl.get regDflt s.act a).toNat

/-- Sets the active value of an RWS register. -/
def State.wrAct (s : State) (a v : Nat) : State := { s with act := Tbl.set regDflt s.act a (word v) }

/-- Counts into a saturating RC counter. -/
def State.bump (s : State) (a : Nat) (by_ : Nat := 1) : State := s.wr a (satInc (s.rd a) by_)

/-- The 64-bit value of a register pair, low word first. -/
def State.rd64 (s : State) (a : Nat) : Nat := s.rd a + 2 ^ 32 * s.rd (a + 4)

/-- Stores a 64-bit register pair. -/
def State.wr64 (s : State) (a v : Nat) : State := (s.wr a (v % 2 ^ 32)).wr (a + 4) (v / 2 ^ 32)

/-- Counts into a 64-bit page counter, which wraps (R150, R348). -/
def State.bump64 (s : State) (a : Nat) (by_ : Nat := 1) : State := s.wr64 a ((s.rd64 a + by_) % 2 ^ 64)

/-- Writes consecutive words from a byte string, byte 4i of it in bits [7:0] of word i. -/
def State.wrBytes (s : State) (a : Nat) (bs : Bytes) : State :=
  (List.range (bs.length / 4)).foldl (fun t i => t.wr (a + 4 * i) (leAt bs (4 * i) 4)) s

/-- Reads `n` words as a byte string, word i's bits [7:0] first. -/
def State.rdBytes (s : State) (a n : Nat) : Bytes :=
  (List.range n).flatMap (fun i => leBytes 4 (s.rd (a + 4 * i)))

/-! ## Outputs and draws -/

/-- Adds an output. -/
def State.emit (s : State) (o : Output) : State := { s with out := s.out ++ [o] }

/-- The state at the start of a command: outputs are those of the latest command. -/
def State.fresh (s : State) : State := { s with out := [] }

/-- Advances the draw counter: each free value is drawn under a number of its own. -/
def State.drawn (s : State) : State := { s with rng := s.rng + 1 }

/-- `n` bytes of the DRBG's output for the present draw. -/
def State.drbg (s : State) (n : Nat) : Bytes := (List.range n).map (fun j => Config.drbgByte s.rng j)

/-! ## Ticks of the reference clock: 156.25 MHz, 6.4 ns each (R353) -/

/-- Ticks in `n` microseconds, rounded up. -/
def ticksUs (n : Nat) : Nat := (n * 15625 + 99) / 100

/-! ## Programmable counters (R483 to R492) -/

/-- Marks an overflow of counter `n` and posts nothing yet; the event follows in `evqPost`'s users. -/
def pmcLast (s : State) (n cause : Nat) : State :=
  s.wr Reg.PMC_LAST (n + 2 ^ 9 * cause + 2 ^ 31)

/-! ## MSI-X (R419, R420) -/

/-- Sends a vector's message, or sets its Pending Bit while it is masked or MSI-X is disabled. -/
def sendVector (v : Nat) (s : State) : State :=
  if s.hif.msixEnable && !s.bit (Reg.IRQ_MSIX_CTRL v) 0 then s.emit (.msix v)
  else s.setBit (Reg.IRQ_PBA (v / 32)) (v % 32) true

/-- Raises a vector; vectors 1 and 2 are enabled by IRQ_EN and moderated by their holdoff (R420). -/
def raiseVector (v : Nat) (s : State) : State :=
  if v = 1 then
    if !s.bit Reg.HIF_EQ_CTRL 5 then s
    else if s.hif.hold1 then { s with hif := { s.hif with dirty1 := true } }
    else
      let t := sendVector 1 s
      if s.rd Reg.HIF_EQ_HOLDOFF = 0 then t else { t with hif := { t.hif with hold1 := true, dirty1 := false } }
  else if v = 2 then
    if !s.bit Reg.HIF_KQ_CTRL 5 then s
    else if s.hif.hold2 then { s with hif := { s.hif with dirty2 := true } }
    else
      let t := sendVector 2 s
      if s.rd Reg.HIF_KQ_HOLDOFF = 0 then t else { t with hif := { t.hif with hold2 := true, dirty2 := false } }
  else sendVector v s

/-! ## EVQ (R425 to R428) -/

/-- Entries of the EVQ ring: 2^(SIZE + 6). -/
def eqSize (s : State) : Nat := 2 ^ (s.rdF Reg.HIF_EQ_CTRL 1 4 + 6)

/-- Records for which the ring has room. -/
def eqRoom (s : State) : Nat :=
  let used := (s.rd Reg.HIF_EQ_TAIL + 2 ^ 32 - s.hif.eqConsumed) % 2 ^ 32
  eqSize s - used

/-- Sets HIF_EQ_STATUS.FULL: no room for a record. -/
def eqStatus (s : State) : State :=
  s.setBit Reg.HIF_EQ_STATUS 1 (s.bit Reg.HIF_EQ_CTRL 0 && eqRoom s == 0)

/-- The 32 bytes of record `j` (R426), with N entries in the ring. -/
def eqRecord (s : State) (n j src kind p0 p1 p2 p3 : Nat) : Bytes :=
  [BitVec.ofNat 8 src, BitVec.ofNat 8 kind] ++ leBytes 2 (j % 65536) ++
  leBytes 4 (s.rd (Reg.TB_NS 0)) ++ leBytes 2 (s.rd (Reg.TB_WRAP 0)) ++ zeros 2 ++
  leBytes 4 p0 ++ leBytes 4 p1 ++ leBytes 4 p2 ++ leBytes 4 p3 ++ zeros 3 ++
  [BitVec.ofNat 8 (1 - (j / n) % 2)]

/-- The host address of the ring. -/
def eqBase (s : State) : Nat := s.rd Reg.HIF_EQ_BASE_LO + 2 ^ 32 * s.rd Reg.HIF_EQ_BASE_HI

/-- Writes one record, which must have room, and counts it. -/
def eqWrite (src kind p0 p1 p2 p3 : Nat) (s : State) : State :=
  let j := s.rd Reg.HIF_EQ_TAIL
  let n := eqSize s
  let t := s.emit (.dmaWrite (eqBase s + 32 * (j % n)) (eqRecord s n j src kind p0 p1 p2 p3))
  let t := t.wr Reg.HIF_EQ_TAIL ((j + 1) % 2 ^ 32)
  eqStatus { t with hif := { t.hif with eqLostSince := 0 } }

/-- Writes the OVERFLOW record that is due after a loss once there is room for two records (R428). -/
def eqOverflow (s : State) : State :=
  if s.bit Reg.HIF_EQ_CTRL 0 && decide (0 < s.hif.eqLostSince) && decide (2 ≤ eqRoom s) then
    eqWrite 0x0D 0 s.hif.eqLostSince 0 0 0 s
  else s

/-- Loses an event: it is counted, and counted toward the next OVERFLOW record while EVQ is enabled. -/
def eqLose (s : State) : State :=
  let t := s.bump Reg.HIF_EQ_LOST
  if s.bit Reg.HIF_EQ_CTRL 0 then { t with hif := { t.hif with eqLostSince := t.hif.eqLostSince + 1 } } else t

/-- Posts an event record on EVQ, or loses it (R426, R428); vector 1 is raised in both cases. After a
loss nothing is written before the OVERFLOW record is (DEDUCED, log entry 7). -/
def evqPost (src kind p0 p1 p2 p3 : Nat) (s : State) : State :=
  let s := eqOverflow s
  let t :=
    if s.bit Reg.HIF_EQ_CTRL 0 && decide (0 < eqRoom s) && s.hif.eqLostSince == 0 then
      eqWrite src kind p0 p1 p2 p3 s
    else eqLose s
  raiseVector 1 t

/-- Ten milliseconds in ticks: the rate limit of R149. -/
def eventSpacing : Nat := 1562500

/-- Whether an event under `key` may be posted now: none in the last 10 ms (R149). -/
def eventDue (s : State) (key : Nat) : Bool :=
  let last := Tbl.get (fun _ => 0) s.hif.lastEvent key
  last == 0 || decide (last - 1 + eventSpacing ≤ s.refTick)

/-- Posts an event under the rate limit of R149, one per key in any 10 ms. -/
def evqPostLimited (key src kind p0 p1 p2 p3 : Nat) (s : State) : State :=
  if eventDue s key then
    let t := evqPost src kind p0 p1 p2 p3 s
    { t with hif := { t.hif with lastEvent := Tbl.set (fun _ => 0) t.hif.lastEvent key (s.refTick + 1) } }
  else s

/-- Event register, enable register, and the bits posted whatever the enable holds, of a source (R116, R149, R184,
R222, R263, R293, R321, R379, R403, R482, R499, R523). -/
def eventRegs : Nat → Nat × Nat × List Nat
  | 0x02 => (Reg.CPH_EVT, Reg.CPH_EVT_EN, [])
  | 0x03 => (Reg.FRM_EVT, Reg.FRM_EVT_EN, [])
  | 0x04 => (Reg.FRM_TRK_EVT, Reg.FRM_TRK_EVT_EN, [])
  | 0x05 => (Reg.SEC_EVT, Reg.SEC_EVT_EN, [])
  | 0x06 => (Reg.KEY_EVT, Reg.KEY_EVT_EN, [0])
  | 0x07 => (Reg.CLS_EVT, Reg.CLS_EVT_EN, [])
  | 0x08 => (Reg.SCH_EVT, Reg.SCH_EVT_EN, [])
  | 0x0B => (Reg.TIM_EVT, Reg.TIM_EVT_EN, [])
  | 0x0C => (Reg.EVR_EVT, Reg.EVR_EVT_EN, [0, 3])
  | 0x0F => (Reg.CHN_EVT, Reg.CHN_EVT_EN, [7])
  | 0x10 => (Reg.PWR_EVT, Reg.PWR_EVT_EN, [3, 4])
  | _ => (Reg.PMC_EVT, Reg.PMC_EVT_EN, [])

/-- P0, P1 and P2 of a source's events, as the registers stand at posting (R149, R427). -/
def eventWords (s : State) : Nat → Nat × Nat × Nat
  | 0x02 => (s.rd Reg.CPH_HEALTH, s.rd Reg.CPH_SHED, s.rd Reg.CPH_LAST_AUDIT)
  | 0x03 => (s.rd Reg.FRM_LAST_FAIL, s.rd Reg.FRM_LAST_SC, 0)
  | 0x04 => (s.rd Reg.FRM_TRK_LAST, s.rd (Reg.FRM_TRK_STATUS (s.rdF Reg.FRM_TRK_LAST 0 5)), 0)
  | 0x05 => (s.rd Reg.SEC_LAST, 0, 0)
  | 0x06 => (s.rd Reg.KEY_STATUS, s.rd Reg.KEY_ZSRC, s.rd Reg.KEY_ALARM)
  | 0x07 => (s.rd Reg.CLS_LAST, s.rd Reg.CLS_LAST_MAC_LO, s.rd Reg.CLS_LAST_MAC_HI)
  | 0x08 => (s.rd Reg.SCH_LAST, 0, 0)
  | 0x0B => (s.rd Reg.TIM_LAST, s.rd (Reg.TB_STATUS (s.rdF Reg.TIM_LAST 0 4)), 0)
  | 0x0C => (s.rd Reg.EVR_STATUS, s.rd Reg.EVR_CKPT_NO, s.rd (Reg.EVR_TRIG_REC 0))
  | 0x0F => (s.rd Reg.CHN_STATUS, s.rd Reg.CHN_HRN_STATUS, 0)
  | 0x10 => (s.rd Reg.PWR_STATUS, s.rd Reg.CLK_STATUS, s.rd Reg.PWR_FW_STATUS)
  | _ => (s.rd Reg.PMC_LAST, 0, 0)

/-- Drops an owed event, or changes it. -/
def setOwed (key : Nat) (o : Option OwedEvent) (s : State) : State :=
  { s with hif := { s.hif with owed := match o with
    | some x => Tbl.put s.hif.owed key x
    | none => Tbl.erase s.hif.owed key } }

/-- Posts an owed event once its bit is set in both registers and the rate limit allows it; one whose bit has been
cleared is owed no more (R149; log entry 103). -/
def postOwed (key : Nat) (s : State) : State :=
  let src := key / 256
  let b := key % 256
  let r := eventRegs src
  match Tbl.find s.hif.owed key with
  | none => s
  | some o =>
    if !s.bit r.1 b then setOwed key none s
    else if !(r.2.2.contains b || s.bit r.2.1 b) then s
    else
      let s := if o.vector && s.bit r.2.1 b then setOwed key (some { o with vector := false }) (raiseVector 6 s) else s
      if eventDue s key then
        let w := eventWords s src
        evqPostLimited key src b w.1 w.2.1 w.2.2 o.p3 (setOwed key none s)
      else s

/-- Sets bit `b` of a source's event register: its event is owed, and posted when enabled (R149). -/
def raiseEvent (src b p3 : Nat) (s : State) : State :=
  let s := s.setBit (eventRegs src).1 b true
  postOwed (256 * src + b) (setOwed (256 * src + b) (some { p3 := p3, vector := src == 0x0B }) s)

/-- Owed events that may be posted now are posted. -/
def postEvents (s : State) : State := (Tbl.keys s.hif.owed).foldl (fun s k => postOwed k s) s

/-! ## Events of each block -/

/-- A fabric event (R116): FENCE, SHED and RESTORE always and without a rate limit; P3 as FENCE gives it. -/
def cphEvent (b p3 : Nat) (s : State) : State :=
  let t := s.setBit Reg.CPH_EVT b true
  evqPost 0x02 b (t.rd Reg.CPH_HEALTH) (t.rd Reg.CPH_SHED) (t.rd Reg.CPH_LAST_AUDIT) p3 t

/-- A frame-mode event (R149). -/
def frmEvent (b : Nat) (s : State) : State := raiseEvent 0x03 b 0 s

/-- A trunk event of a span (R183, R184). -/
def trkEvent (n b : Nat) (s : State) : State :=
  raiseEvent 0x04 b 0 (s.wr Reg.FRM_TRK_LAST (n + 2 ^ 8 * b + 2 ^ 31))

/-- A key event of an SC (R221, R222). -/
def secEvent (b sc : Nat) (rx : Bool) (s : State) : State :=
  raiseEvent 0x05 b 0 (s.wr Reg.SEC_LAST (sc + 2 ^ 15 * b2n rx + 2 ^ 16 * b + 2 ^ 31))

/-- A key-store event (R263); ZEROIZE is posted whatever the enables hold. -/
def keyEvent (b : Nat) (s : State) : State := raiseEvent 0x06 b (s.rd Reg.KEY_ZCOUNT) s

/-- A classifier event (R293). -/
def clsEvent (b : Nat) (s : State) : State := raiseEvent 0x07 b 0 s

/-- A scheduling event: SCH_LAST records port, side, class and cause (R320, R321). -/
def schEvent (b port : Nat) (client : Bool) (cls : Nat) (s : State) : State :=
  raiseEvent 0x08 b 0 (s.wr Reg.SCH_LAST (port + 2 ^ 5 * b2n client + 2 ^ 6 * cls + 2 ^ 9 * b + 2 ^ 31))

/-- A time event of a base: MSI-X vector 6 for each enabled bit, and an EVQ event (R379). -/
def timEvent (b base : Nat) (s : State) : State :=
  raiseEvent 0x0B b 0 (s.wr Reg.TIM_LAST (base + 2 ^ 4 * b + 2 ^ 31))

/-- An evidence event (R403): FREEZE and CH_FENCE whatever EVR_EVT_EN holds; P3 the channel of CH_FENCE. -/
def evrEvent (b p3 : Nat) (s : State) : State := raiseEvent 0x0C b p3 s

/-- A power event (R523): CLK_FAULT and REF_LOST whatever PWR_EVT_EN holds. -/
def pwrEvent (b : Nat) (s : State) : State := raiseEvent 0x10 b 0 s

/-- A PMC event (R499). -/
def pmcEvt (b n : Nat) (s : State) : State := raiseEvent 0x11 b 0 (pmcLast s n b)

/-- A Pattern event at the end of an operation (R66, R427): KIND is the OP. -/
def patEvent (op : Nat) (s : State) : State :=
  evqPost 0x01 op (s.rd Reg.PAT_STATUS) (s.rd Reg.PAT_REJ_INFO) (s.rd Reg.PAT_CUT_US) 0 s

/-- An HIF event of kind ERROR, LOCK_VIOL or KPR_WRITE, rate-limited per kind (R427). -/
def hifEvent (kind p0 p1 : Nat) (s : State) : State :=
  evqPostLimited (256 * 0x0D + kind) 0x0D kind p0 p1 0 0 s

/-- Newly set keeper alarm bits: latched, vector 4 raised, a KPR event posted, KALARM_N low (R449). -/
def keeperAlarm (bits : Nat) (s : State) : State :=
  let old := s.rd Reg.KPR_ALARM
  let new := bits &&& (0xFFF ^^^ (old &&& 0xFFF))
  if new = 0 then s
  else
    let t := s.wr Reg.KPR_ALARM (old ||| new)
    let t := raiseVector 4 t
    let t := evqPostLimited (256 * 0x0E) 0x0E 0 new (t.rd Reg.KPR_ALARM) 0 0 t
    let t := { t with chn := { t.chn with alarmDue := true } }
    if old = 0 then t.emit (.pin "KALARM_N" false) else t

/-! ## The error log (R429) -/

/-- Logs a host-interface error: first error, OVERFLOW, count, event, and vector 0 except for GATED_RD and
SIZE_RD (R419). `info` is CAUSE, BAR and WRITE. -/
def logError (cause : Nat) (bar2 isWrite : Bool) (addr : Nat) (s : State) : State :=
  let info := cause + 16 * b2n bar2 + 32 * b2n isWrite
  let t :=
    if s.bit Reg.HIF_ERRINFO 31 then s.setBit Reg.HIF_ERRINFO 30 true
    else (s.wr Reg.HIF_ERRADDR addr).wr Reg.HIF_ERRINFO (info + 2 ^ 31)
  let t := t.bump Reg.HIF_ERRCNT
  let t := hifEvent 1 (t.rd Reg.HIF_ERRADDR) (t.rd Reg.HIF_ERRINFO) t
  if cause = 2 ∨ cause = 4 then t else raiseVector 0 t

/-! ## Counting events of R486 -/

/-- One wrap of counter `n` (R484, R491): a chained even counter carries into its partner. -/
def pmcWrap (n : Nat) (s : State) : State :=
  pmcEvt 0 n (s.setBit (Reg.PMC_OVF (n / 32)) (n % 32) true)

/-- Adds to counter `n`, which wraps; the low half of a chained pair carries (R484, R491). -/
def pmcAdd (n w : Nat) (s : State) : State :=
  let v := s.rd (Reg.PMC_CNT n) + w
  let t := s.wr (Reg.PMC_CNT n) (v % 2 ^ 32)
  if v < 2 ^ 32 then t
  else if n % 2 = 0 ∧ s.bit (Reg.PMC_SEL n) 30 then
    let u := t.rd (Reg.PMC_CNT (n + 1)) + v / 2 ^ 32
    let t := t.wr (Reg.PMC_CNT (n + 1)) (u % 2 ^ 32)
    if u < 2 ^ 32 then t else pmcWrap (n + 1) t
  else pmcWrap n t

/-- Whether counter `n` runs on its own selection: enabled, clock on, not the high half of a pair. -/
def pmcRuns (s : State) (n : Nat) : Bool :=
  s.bit (Reg.PMC_SEL n) 31 && s.bit Reg.CLK_ON 0 &&
  !(n % 2 == 1 && s.bit (Reg.PMC_SEL (n - 1)) 30)

/-- The counters whose selection is not at its reset value: the only ones that can count. -/
def pmcSelected (s : State) : List Nat :=
  (s.regs.map Prod.fst).filterMap (fun a =>
    if Reg.PMC_SEL 0 ≤ a ∧ a < Reg.PMC_SEL 0 + 0x800 then some ((a - Reg.PMC_SEL 0) / 4) else none)

/-- Events without instances: QUAL has no meaning for them (R486). -/
def pmcPlain (event : Nat) : Bool := [0x0204, 0x0205, 0x0600, 0x0601, 0x0702, 0x0D00, 0x0D01].contains event

/-- Whether a selection word counts an event of an instance. -/
def pmcHits (sel event inst : Nat) : Bool :=
  field sel 0 16 == event && (pmcPlain event || field sel 16 8 == 0xFF || field sel 16 8 == inst)

/-- An occurrence of a count event (R485 mode 0; modes 1 and 2 see its weight at the next sample). -/
def pmcCount (event inst w : Nat) (s : State) : State :=
  let t := (pmcSelected s).foldl (fun t n =>
    let sel := t.rd (Reg.PMC_SEL n)
    if pmcRuns t n && pmcHits sel event inst then
      if field sel 24 2 = 0 then pmcAdd n w t
      else { t with pmc := { t.pmc with since := Tbl.modify (fun _ => 0) t.pmc.since n (· + w) } }
    else t) s
  t

end Sys2Proof.Machine
end

