-- ==== Sys2Proof/Machine/Modes.lean ====
section
/-! DEFINITION. What the active Pattern, the lifecycle, the power and pair states make of each span and
port: configuration lookups, the mode a span runs in, capacity (R22 to R25, R98, R109, R453, R458). -/

namespace Sys2Proof.Machine

/-! ## Lifecycle -/

/-- The lifecycle (R450): the fuses, and within Enrolled the Quarantined flag. -/
def State.lifecycle (s : State) : Lifecycle :=
  match s.key.fuse with
  | .blank => .blank
  | .retired => .retired
  | .enrolled =>
    match s.key.record with
    | some r => if r.quarantined then .quarantined else .operational
    | none => .quarantined

/-- Encoding of R259. -/
def lifecycleCode : Lifecycle → Nat
  | .blank => 0 | .operational => 1 | .quarantined => 2 | .retired => 3

/-- Encoding of R259. -/
def debugCode : DebugLevel → Nat
  | .closed => 0 | .observe => 1 | .invasive => 2

/-- The module's domain unit number, 0 in Blank. -/
def State.unit (s : State) : Nat :=
  match s.key.record with
  | some r => if s.key.fuse = .blank then 0 else r.unit
  | none => 0

/-! ## The active Pattern -/

/-- PORTS entry of a port in PEN numbering. -/
def portCfg (s : State) (p : Nat) : PortCfg :=
  match s.pat.active with
  | some a => a.ports.getD p {}
  | none => {}

/-- SPANS entry of a span. -/
def spanCfg (s : State) (n : Nat) : SpanCfg :=
  match s.pat.active with
  | some a => a.spans.getD n {}
  | none => {}

/-- The mode the Pattern gives a span; an undefined span carries nothing. -/
def patMode (s : State) (n : Nat) : SpanMode := (spanCfg s n).mode.getD .discard

/-- Whether the active Pattern defines the span. -/
def spanDefined (s : State) (n : Nat) : Bool := (spanCfg s n).mode.isSome

/-- Line port of a span in PEN numbering. -/
def spanLine (s : State) (n : Nat) : Nat := 32 + (spanCfg s n).line

/-- Client ports of a span, ascending. -/
def spanClients (s : State) (n : Nat) : List Nat := bitsOf 32 (spanCfg s n).clients

/-- Ports of a span in PEN numbering. -/
def spanPorts (s : State) (n : Nat) : List Nat :=
  if spanDefined s n then spanLine s n :: spanClients s n else []

/-- The span of a Pattern that holds a port. -/
def patSpanOf (spans : List SpanCfg) (p : Nat) : Option Nat :=
  (List.range 32).find? (fun n =>
    let c := spans.getD n {}
    c.mode.isSome && (if p < 32 then Nat.testBit c.clients p else c.line == p - 32))

/-- The span that holds a port (R21). -/
def portSpan (s : State) (p : Nat) : Option Nat :=
  match s.pat.active with
  | some a => patSpanOf a.spans p
  | none => none

/-- Rate of a port type in Mb/s (R42). -/
def typeRate : Nat → Nat
  | 1 => 1000 | 2 => 10000 | 3 => 25000 | 4 => 50000 | 5 => 100000 | 6 => 200000 | 7 => 400000 | _ => 0

/-- Lanes of a port type. -/
def typeLanes : Nat → Nat
  | 0 => 0 | 6 => 2 | 7 => 4 | _ => 1

/-- Whether 25GBASE-R runs without FEC (R42). -/
def noFec25 (c : PortCfg) : Bool := c.type == 3 && c.fec == 1

/-- D_RX of a port in ns (R369). -/
def portDrx (c : PortCfg) : Nat :=
  match c.type with
  | 7 => 124 | 6 => 154 | 5 => 214 | 4 => 304 | 3 => if c.fec = 1 then 370 else 430 | 2 => 862 | 1 => 4850 | _ => 0

/-- D_TX of a port in ns (R369). -/
def portDtx (c : PortCfg) : Nat :=
  match c.type with
  | 7 => 90 | 6 => 120 | 5 => 180 | 4 => 270 | 3 => if c.fec = 1 then 344 else 404 | 2 => 832 | 1 => 4744 | _ => 0

/-- Lane pages of a port in PEN numbering (R43, R322). -/
def portLanes (c : PortCfg) (p : Nat) : List Nat :=
  (List.range (typeLanes c.type)).map (fun k => (if p < 32 then 0 else 32) + c.first + k)

/-- PAM4 port types. -/
def typePam4 (t : Nat) : Bool := decide (4 ≤ t)

/-! ## Conditions that make a span run as Discard -/

/-- Start-up has not reached step 9 (R519). -/
def startingUp (s : State) : Bool := decide (s.rdF Reg.PWR_STATUS 8 4 < 9)

/-- Admission is closed on every span: start-up, an orderly stop, a warm reset, no rails (R457, R517, R519). -/
def admissionClosed (s : State) : Bool :=
  s.pwr.warm.isSome || startingUp s ||
  (match s.pwr.mode with
   | .on => false
   | .hold => false
   | _ => true)

/-- No new journal or vault write starts: a warm reset or an orderly stop is in progress (R457, R517). -/
def vaultQuiet (s : State) : Bool :=
  s.pwr.warm.isSome ||
  (match s.pwr.mode with
   | .on => false
   | .hold => false
   | _ => true)

/-- No healthy DRAM channel (R389). -/
def noDram (s : State) : Bool := (List.range 8).all (fun c => s.bit (Reg.EVR_CH_STATUS c) 0)

/-- Pair state of R472. -/
def pairState (s : State) : Nat := s.rdF Reg.CHN_HRN_STATUS 0 3

/-- Frame and Trunk spans discard in WAIT and STANDBY (R472), and on an active that gave way (R479). -/
def pairDiscards (s : State) : Bool := pairState s == 1 || pairState s == 3 || s.hrn.gaveUp

/-- Assignments wait for the partner's acknowledgement: ACTIVE or ISOLATED (R214). -/
def needsAck (s : State) : Bool := pairState s == 2 || pairState s == 5

/-- First cells may miss T_FAB now (R94). -/
def lateNow (s : State) : Bool := !s.fab.shedding.isEmpty || decide (s.refTick < s.fab.lateUntil)

/-- A span stopped by the cut in progress. -/
def cutStops (s : State) (n : Nat) : Bool :=
  match s.pat.cut with
  | some c => Nat.testBit c.stopped n
  | none => false

/-- Whether a span is shed or being shed (R111). -/
def isShed (s : State) (n : Nat) : Bool := s.fab.shed.contains n || s.fab.shedding.contains n

/-- Every span runs as Discard, whatever its mode: lifecycle (R25, R453), zeroize (R114), extended loss of
the reference (R510), no DRAM (R389). -/
def allDiscard (s : State) : Bool :=
  s.lifecycle != .operational || s.key.zeroizing.isSome || s.bit Reg.CLK_STATUS 5 || noDram s

/-- Whether keeper policy and lifecycle permit bypass on a span (R23). -/
def bypassPermitted (s : State) (n : Nat) : Bool := s.bit Reg.KPR_BYPASS n && s.lifecycle == .operational

/-- The mode in which a span runs (R22 to R25, R72, R111, R472). -/
def runMode (s : State) (n : Nat) : SpanMode :=
  if allDiscard s || cutStops s n || isShed s n || admissionClosed s then .discard
  else
    match patMode s n with
    | .bypass => if bypassPermitted s n then .bypass else .discard
    | .frame => if pairDiscards s then .discard else .frame
    | .trunk => if pairDiscards s then .discard else .trunk
    | .discard => .discard

/-- Raises BYPASS_DENIED while a Bypass span runs as Discard under R23. -/
def bypassDenied (s : State) : Bool :=
  (List.range 32).any (fun n => patMode s n == .bypass && !bypassPermitted s n)

/-- Checks R23 after anything that bears on it. -/
def checkBypass (s : State) : State :=
  if bypassDenied s then keeperAlarm (2 ^ 6) s else s

/-! ## Trunk spans -/

/-- A trunk span's state. -/
def State.trkAt (s : State) (n : Nat) : TrunkState := Tbl.get (fun _ => {}) s.trk n

/-- Sets a trunk span's state. -/
def State.setTrk (s : State) (n : Nat) (t : TrunkState) : State :=
  { s with trk := Tbl.set (fun _ => {}) s.trk n t }

/-! ## Classes -/

/-- Class definitions: 0–6 from the Pattern (R49), 7 from the keeper (R447). -/
def classCfg (s : State) (c : Nat) : ClassCfg :=
  if c = 7 then
    { integrityOnly := s.bit Reg.KPR_C7_FLAGS 0, verifyLate := s.bit Reg.KPR_C7_FLAGS 1,
      evidence := s.bit Reg.KPR_C7_FLAGS 2 }
  else
    match s.pat.active with
    | some a => a.classes.getD c {}
    | none => {}

/-! ## Mirrors of state that registers show -/

/-- POWER of R456: Trim when an island is parked. -/
def powerCode (s : State) : Nat :=
  match s.pwr.mode with
  | .hold => 2
  | .stopping => 2
  | _ => if (List.range 24).any (fun i => s.rdF (Reg.CPH_ISL_STATUS i) 0 2 == 1) then 1 else 0

/-- Whether the staged keeper image differs from the active one. -/
def imageStaged (s : State) : Bool :=
  s.kpr.staged.any (fun e => match e.2 with
    | some w => w != word (s.rd e.1)
    | none => false)

/-- KPR_STATUS, PWR_STATUS.POWER, KEY_STATUS and DBG_STATUS follow the state they show. -/
def syncStatus (s : State) : State :=
  let p := powerCode s
  let s := s.wr Reg.KPR_STATUS (lifecycleCode s.lifecycle + 4 * debugCode s.kpr.debug + 16 * p +
    128 * b2n (imageStaged s) + 256 * b2n s.key.noInvasive + 512 * b2n s.kpr.lockout)
  let s := s.wrF Reg.PWR_STATUS 0 3 p
  let s := s.setBit Reg.KEY_STATUS 3 s.key.vaultOpen
  let s := s.setBit Reg.KEY_STATUS 4 (s.key.record.isSome && s.key.fuse != .blank)
  let s := s.wrF Reg.DBG_STATUS 0 2 (debugCode s.kpr.debug)
  let s := s.setBit Reg.DBG_STATUS 3 s.dbg.running
  s.wr Reg.GLB_UNIT s.unit

/-! ## Capacity (R98, R109) -/

/-- State of an island: 0 RUNNING, 1 PARKED, 2 FENCED, 3 TESTING. -/
def islandState (s : State) (i : Nat) : Nat := s.rdF (Reg.CPH_ISL_STATUS i) 0 2

/-- Islands in a state. -/
def islandsIn (s : State) (st : Nat) : List Nat := (List.range 24).filter (fun i => islandState s i == st)

/-- Healthy islands; parked ones count, and those being unparked. -/
def healthyCount (s : State) : Nat :=
  (islandsIn s 0).length + (islandsIn s 1).length + ((islandsIn s 3).filter (fun i => s.fab.unparking.contains i)).length

/-- The aligned clock plan is in force (R507). -/
def alignedPlan (s : State) : Bool := s.bit Reg.CLK_STATUS 0

/-- LIMIT (R109), with the rated rate in units of 10^8 cells/s. -/
def limitOf (healthy rate : Nat) : Nat := min 4096 (4096 * healthy * rate / 190)

/-- LIMIT now. -/
def capLimit (s : State) : Nat := limitOf (healthyCount s) (if alignedPlan s then 8 else 10)

/-- CPH_HEALTH, CPH_CAP and CLK_STATUS.ROOT_LOCK follow the islands and the clock plan. -/
def syncHealth (s : State) : State :=
  let s := s.setBit Reg.CLK_STATUS 4 (alignedPlan s)
  let s := s.wr Reg.CPH_HEALTH (healthyCount s + 2 ^ 8 * (islandsIn s 0).length +
    2 ^ 16 * (islandsIn s 1).length + 2 ^ 24 * (islandsIn s 2).length)
  let s := s.wr Reg.CPH_CAP (capLimit s + 2 ^ 16 * (if alignedPlan s then 800 else 1000))
  syncStatus s

/-- Share of a span. -/
def spanShare (s : State) (n : Nat) : Nat :=
  match s.pat.active with
  | some a => a.shares.getD n 0
  | none => 0

/-- Sum of the shares of spans that are not shed. -/
def retainedShares (s : State) : Nat :=
  ((List.range 32).map (fun n => if isShed s n then 0 else spanShare s n)).sum

/-- A span is active (R98). -/
def spanActive (s : State) (n : Nat) : Bool :=
  (patMode s n == .frame || patMode s n == .trunk) && !isShed s n && !cutStops s n &&
  (spanPorts s n).any (fun p => s.bit (Reg.PEN_EN p) 0 && s.bit (Reg.PEN_PSTAT p) 0)

/-- CPH_ACTIVE, CPH_SHED and CPH_SHARE follow the spans. -/
def syncSpans (s : State) : State :=
  let act := maskOf ((List.range 32).filter (spanActive s))
  let s := s.wr Reg.CPH_ACTIVE act
  let s := s.wr Reg.CPH_SHED (maskOf s.fab.shed)
  (List.range 32).foldl (fun s n => s.wr (Reg.CPH_SHARE n)
    (spanShare s n + 2 ^ 16 * b2n (Nat.testBit act n) + 2 ^ 17 * b2n (s.fab.shed.contains n))) s

/-- N_run of R98: ceil((S_act × 19 × 10^9 / 4096) / r) + 1, at least 2, at most the healthy islands. -/
def runTarget (s : State) : Nat :=
  let trim := match s.pat.active with
    | some a => a.trim
    | none => false
  let sAct := ((List.range 32).map (fun n => if spanActive s n then spanShare s n else 0)).sum
  let r := 4096 * (if alignedPlan s then 8 else 10)
  if trim && !s.bit Reg.CPH_CTRL 0 then min (healthyCount s) (max 2 ((sAct * 190 + r - 1) / r + 1))
  else healthyCount s

/-- Recomputes N_run: parked islands are unparked in ascending number, those that run or are being unparked are
chosen for parking in descending number, one that is being unparked and holds no cell parking at once. Spans that
became active and so raised N_run wait for the islands (R98, R99). -/
def trimRecompute (s : State) : State :=
  let s := syncSpans (syncHealth s)
  let act := s.rd Reg.CPH_ACTIVE
  let rose := (bitsOf 32 act).filter (fun n => !Nat.testBit s.fab.activeSeen n)
  let s := { s with fab := { s.fab with activeSeen := act } }
  let n := runTarget s
  let running := (islandsIn s 0).filter (fun i => !s.fab.parking.contains i)
  let coming := s.fab.unparking.filter (fun i => islandState s i == 3)
  let have_ := running.length + coming.length
  if have_ < n then
    -- first keep the lowest islands that were only chosen, then unpark
    let keep := ((islandsIn s 0).filter (fun i => s.fab.parking.contains i)).take (n - have_)
    let parked := (islandsIn s 1).take (n - have_ - keep.length)
    let s := parked.foldl (fun s i => s.wrF (Reg.CPH_ISL_STATUS i) 0 2 3) s
    syncHealth { s with fab := { s.fab with
      parking := s.fab.parking.filter (fun i => !keep.contains i), unparking := coming ++ parked,
      rising := if parked.isEmpty then s.fab.rising else s.fab.rising ++ rose } }
  else
    let both := (List.range 24).reverse.filter (fun i => running.contains i || coming.contains i)
    let extra := both.take (have_ - n)
    let dark := coming.filter (fun i => extra.contains i)
    let s := dark.foldl (fun s i =>
      ((s.wrF (Reg.CPH_ISL_STATUS i) 0 2 1).wrF (Reg.CPH_ISL_STATUS i) 16 12 0).wr (Reg.CPH_ISL_MV i) 0) s
    syncHealth { s with fab := { s.fab with
      parking := s.fab.parking ++ extra.filter (fun i => !dark.contains i),
      unparking := coming.filter (fun i => !dark.contains i) } }

/-! ## Messages to the standby -/

/-- Queues a message of the active module for its standby (R474, R476). -/
def State.mirror (s : State) (m : HrnMsg) : State :=
  { s with hrn := { s.hrn with toSend := s.hrn.toSend ++ [m] } }

/-! ## Masked words of the key store (R246) -/

/-- Draws a fresh mask for each of `n` words from address `a`. -/
def freshMasks (a n : Nat) (s : State) : State :=
  let bs := s.drbg (8 * n)
  let m := (List.range n).foldl (fun t k =>
    Tbl.set (fun _ => (0 : BitVec 64)) t (a + k) (BitVec.ofNat 64 (leAt bs (8 * k) 8))) s.key.masks
  { s with key := { s.key with masks := m } }.drawn

/-! ## The DRBG and the keys it gives at start-up (R228, R246, R383) -/

/-- The DRBG gives no bits: in error, or awaiting instantiation after a zeroize (R228, R256). -/
def drbgOff (s : State) : Bool := s.bit Reg.KEY_STATUS 2 || s.key.drbgDown

/-- Draws K1 and K2 of the DRAM encryption key, and draws both again while they are equal (R382). The fuel bounds the
draws of the model. -/
def drawDram : Nat → State → State
  | 0, s => s
  | n + 1, s =>
    let k := s.drbg 64
    let s := { s with evr := { s.evr with dramKey := k } }.drawn
    if k.take 32 == k.drop 32 then drawDram n s else s

/-- The DRBG is instantiated, and the permutation keys and the DRAM encryption key are drawn from it. -/
def startDrbg (s : State) : State :=
  let s := { s with key := { s.key with drbgDown := false, drbgDraw := s.rng + 1 } }.drawn
  let s := { s with key := { s.key with permD := s.drbg 16 } }.drawn
  let s := { s with key := { s.key with permM := s.drbg 16 } }.drawn
  drawDram 256 s

/-! ## Vault records (R250) and the enrolment record (R251) -/

/-- Numbers of the vault's records: the parent set, the Pattern slots, PAT_FLOOR with PAT_BOOT, the keeper image, the
harness claim, the harness registers, each SC entry with its epoch, and each MARK. -/
inductive VaultRecord where
  | parents | slot (i : Nat) | floor | image | claim | harness | sc (rx : Bool) (i : Nat) | mark (sa : Nat)
deriving DecidableEq, Repr

/-- The number that a record's IV is kept under. -/
def VaultRecord.code : VaultRecord → Nat
  | .parents => 0
  | .slot i => 1 + i
  | .floor => 3
  | .image => 4
  | .claim => 5
  | .harness => 6
  | .sc rx i => 65536 + 2 * i + b2n rx
  | .mark sa => 262144 + sa

/-- Writes a vault record: it is sealed under the next value of the record counter. -/
def State.putVault (s : State) (r : VaultRecord) (f : Vault → Vault) : State :=
  let v := f s.key.vault
  { s with key := { s.key with vault := { v with
    counter := v.counter + 1, ivs := Tbl.set (fun _ => 0) v.ivs r.code (v.counter + 1) } } }

/-- Writes the enrolment record: the copy that was not in force takes the next counter and comes into force. -/
def writeRecord (r : EnrolRecord) (s : State) : State :=
  { s with key := { s.key with record := some r, recordOld := s.key.record, recordCtr := s.key.recordCtr + 1 } }

/-- Changes the enrolment record. -/
def setRecord (f : EnrolRecord → EnrolRecord) (s : State) : State :=
  match s.key.record with
  | some r => writeRecord (f r) s
  | none => s

end Sys2Proof.Machine
end

