-- ==== Sys2Proof/Machine/Identity.lean ====
section
/-! DEFINITION. The derivation engine, the identity keys and the signatures made under them (R226, R227,
R259, R260, R397). -/

namespace Sys2Proof.Machine

/-- An identity object of the derivation engine (R226): the KDF of SP 800-108 over the fuse root. -/
def identityBytes (purpose bytes : Nat) : Bytes :=
  kdf108 Config.fuseRoot ([0x4D#8, 0x59#8, 0x49#8, 0x44#8, 0#8, BitVec.ofNat 8 purpose] ++
    beBytes 4 (8 * bytes)) bytes

/-- A P-384 private scalar from 64 bytes: (c mod (n − 1)) + 1. -/
def scalarOf (c : Bytes) : Bytes := beBytes 48 (beNat c % (ecN - 1) + 1)

/-- The attestation ECDSA key. -/
def attestEc : Bytes := scalarOf (identityBytes 1 64)
/-- The attestation ML-DSA-87 seed. -/
def attestMldsa : Bytes := identityBytes 2 32
/-- The exchange ECDH key. -/
def exchangeEc : Bytes := scalarOf (identityBytes 3 64)
/-- The exchange ML-KEM-1024 seed pair. -/
def exchangeKem : Bytes := identityBytes 4 64
/-- The enrolment seal key. -/
def enrolSealKey : Bytes := identityBytes 5 32

/-- Exactly `n` bytes. -/
def exactly (n : Nat) (bs : Bytes) : Bytes := (padTo n bs).take n

/-- The 4,353-byte output of KEY_QUERY function 0: ECDSA key x ‖ y, ML-DSA-87 key, ECDH point, ML-KEM-1024 key (R239, R261). -/
def identityPublic : Bytes :=
  exactly 96 ((ecPublic attestEc).drop 1) ++ exactly 2592 (mldsaPublic attestMldsa) ++
  exactly 97 (ecPublic exchangeEc) ++ exactly 1568 (mlkemPublic exchangeKem)

/-- The per-message secrets k that the DRBG offers for an ECDSA signature: 64 bytes each, read as a scalar of FIPS 186-5
Appendix A.3.1; the first that gives no zero is used. -/
def ecdsaSecrets (s : State) : List Nat :=
  (List.range 4).map (fun j => beNat (slice (s.drbg 256) (64 * j) 64) % (ecN - 1) + 1)

/-- Both signatures over a body: ECDSA over it, ML-DSA-87 over its SHA-384 under a context, padded to the
size of the statement (R259, R397). The k and the rnd are the DRBG's. -/
def dualSign (s : State) (body ctx : Bytes) (size : Nat) : Bytes :=
  padTo size (body ++ exactly 96 (ecdsaSign attestEc body (ecdsaSecrets s)) ++
    exactly 4627 (mldsaSign attestMldsa (sha384 body) ctx (s.drawn.drbg 32)))

/-- CHAIN_POS of R259: the position, with 0x40 added in Orphan Chain; 0xFF with none. -/
def chainPos (s : State) : Nat :=
  if s.bit Reg.CHN_STATUS 6 then s.rdF Reg.CHN_STATUS 0 6 + 0x40 * b2n (s.bit Reg.CHN_STATUS 7) else 0xFF

/-- SECONDS count of base b. -/
def tbSec (s : State) (b : Nat) : Nat := s.rd (Reg.TB_SECBASE_LO b) + 2 ^ 32 * s.rdF (Reg.TB_SECBASE_HI b) 0 16

end Sys2Proof.Machine
end

