-- ==== Sys2Proof/Machine/Evidence.lean ====
section
/-! DEFINITION. The evidence ring: records, the hash chain, checkpoints, triggers, freeze and readout
(R390 to R403). -/

namespace Sys2Proof.Machine

/-- EVR_STATUS.STATE: 0 OFF, 1 RUN, 2 ARMED, 3 FROZEN. -/
def evrState (s : State) : Nat := s.rdF Reg.EVR_STATUS 0 2

/-- C of R394 for an evidence partition of `e` GiB. -/
def ringCap (e : Nat) : Nat := if e = 0 then 0 else (e * 1024 - 64) * 32768

/-- Checkpoint slots (R394). -/
def ckptSlots : Nat := 13107

/-- ATTR of a record (R391). -/
def evrAttr (span : Nat) (opening : Bool) (cls : Nat) (fail trunk : Bool) (reason type : Nat) : Nat :=
  span + 2 ^ 5 * b2n opening + 2 ^ 6 * cls + 2 ^ 9 * b2n fail + 2 ^ 10 * b2n trunk + 2 ^ 11 * reason +
  2 ^ 14 * type

/-- A 32-byte record (R391). -/
def evrRecord (ns attr len pn : Nat) (tail : Bytes) : Bytes :=
  leBytes 4 ns ++ leBytes 2 attr ++ leBytes 2 len ++ leBytes 8 pn ++ padTo 16 tail

/-- TYPE of a record. -/
def recordType (bs : Bytes) : Nat := byteAt bs 5 / 64

/-- A record is not written: counted, and its frame joins the next GAP record (R392, R395, R398). -/
def loseRecord (rec : Bytes) (s : State) : State :=
  let s := { s with evr := { s.evr with
    gapDue := true, lostFrames := s.evr.lostFrames + (if recordType rec = 0 then 1 else 0) } }
  evrEvent 2 0 (s.bump Reg.EVR_LOST)

/-- Records accepted in the present window of 1 ms. -/
def recordsAccepted (s : State) : Nat := if s.evr.writeWindow = s.refTick / 156250 then s.evr.accepted else 0

/-- Queues a record for the ring writer. It accepts 50,000 in 1 ms, and loses more (R390, R395; log entry 121). -/
def evrQueue (rec : Bytes) (s : State) : State :=
  let n := recordsAccepted s
  if 50000 ≤ n then (if s.evr.rebuilding || evrState s == 0 then s else loseRecord rec s)
  else
    { s with evr := { s.evr with
      queue := s.evr.queue ++ [⟨rec⟩], writeWindow := s.refTick / 156250, accepted := n + 1 } }

/-- The WRAP record of R391, as TB0 stands after the wrap. -/
def wrapRecord (s : State) : Bytes :=
  evrRecord 0 (evrAttr 0 false 0 false false 0 1) (s.rd (Reg.TB_WRAP 0)) (tbSec s 0)
    (leBytes 4 ((s.rd (Reg.TB_SECMARK 0) + 2 ^ 32 - 1000000000) % 2 ^ 32))

/-- Whether class `c` is recorded (R390). -/
def recorded (s : State) (c : Nat) : Bool := (classCfg s c).evidence

/-- The 112-byte body of a checkpoint (R397). -/
def ckptBody (frozen : Bool) (s : State) : Bytes :=
  [0x4D#8, 0x59#8, 0x45#8, 0x43#8] ++ leBytes 2 1 ++ leBytes 2 112 ++ leBytes 4 s.unit ++
  leBytes 1 (chainPos s) ++ zeros 3 ++ s.rdBytes (Reg.EVR_RING_ID 0) 4 ++
  leBytes 8 (s.rd64 (Reg.EVR_NEXT 0) - 1) ++ s.evr.hash ++ leBytes 4 (s.rd (Reg.TB_NS 0)) ++
  leBytes 2 (s.rd (Reg.TB_WRAP 0)) ++ leBytes 2 (b2n frozen) ++ leBytes 8 (tbSec s 0) ++
  leBytes 4 s.evr.ckptCount ++ zeros 4

/-- "MYEV". -/
def mcEv : Bytes := [0x4D#8, 0x59#8, 0x45#8, 0x56#8]

/-- Writes the next checkpoint (R397). -/
def writeCkpt (frozen : Bool) (s : State) : State :=
  let k := s.evr.ckptCount
  let c := dualSign s (ckptBody frozen s) mcEv 5120
  let s := { s with evr := { s.evr with ckpts := Tbl.set (fun _ => []) s.evr.ckpts (k % ckptSlots) c,
                                        ckptCount := k + 1 } }
  (s.wr Reg.EVR_CKPT_NO k).drawn.drawn

/-- Stores a record in its slot and extends the chain; a checkpoint follows record 0 and every 2^20th. -/
def ringPut (rec : Bytes) (s : State) : State :=
  let r := s.rd64 (Reg.EVR_NEXT 0)
  let c := s.rd64 (Reg.EVR_CAP 0)
  let s := { s with evr := { s.evr with
    records := Tbl.set (fun _ => []) s.evr.records (r % c) rec,
    badSlots := s.evr.badSlots.filter (fun b => b != r % c / 2),
    hash := sha384 (s.evr.hash ++ rec),
    postLeft := if evrState s = 2 then s.evr.postLeft - 1 else s.evr.postLeft } }
  let s := s.wr64 (Reg.EVR_NEXT 0) (r + 1)
  let s := s.wr64 (Reg.EVR_OLDEST 0) (r + 1 - c)
  if r = 0 ∨ (r + 1) % 2 ^ 20 = 0 then writeCkpt false s else s

/-- The first record of a ring: RING_ID from the DRBG, h(−1), the START record and its checkpoint. It stays due while the
DRBG gives no bits (R228). -/
def writeStart (reason : Nat) (s : State) : State :=
  if drbgOff s then s
  else
    let id := s.drbg 16
    let s := s.drawn.wrBytes (Reg.EVR_RING_ID 0) id
    let s := { s with evr := { s.evr with hash := sha384 (mcEv ++ id), startDue := none } }
    ringPut (evrRecord (s.rd (Reg.TB_NS 0)) (evrAttr 0 false 0 false false reason 2) (s.rd (Reg.TB_WRAP 0))
      (tbSec s 0) id) s

/-- Empties the ring over the partition size in force and starts it again: OFF with no partition, else
RUN, with its START record as soon as recording is on (R386, R387, R392, R394). -/
def openRing (reason : Nat) (s : State) : State :=
  let c := ringCap (s.rd (Reg.EVR_PART 3))
  let s := { s with evr := { s.evr with
    queue := [], records := [], ckpts := [], ckptCount := 0, hash := [],
    startDue := if c = 0 then none else some reason, lostFrames := 0, gapDue := false, postLeft := 0,
    badSlots := [] } }
  let s := (s.wr64 (Reg.EVR_CAP 0) c).wr Reg.EVR_STATUS (if c = 0 then 0 else 1)
  let s := (s.wr64 (Reg.EVR_NEXT 0) 0).wr64 (Reg.EVR_OLDEST 0) 0
  let s := (s.wr64 (Reg.EVR_TRIG_REC 0) 0).wr Reg.EVR_CKPT_NO 0
  let s := if reason = 0 then s else evrEvent 1 0 s
  if c ≠ 0 ∧ s.bit Reg.EVR_CTRL 0 = true then writeStart reason s else s

/-- The GAP record due before the first record after a loss (R392). -/
def writeGap (s : State) : State :=
  let g := evrRecord (s.rd (Reg.TB_NS 0)) (evrAttr 0 false 0 false false 0 3) 0 s.evr.lostFrames []
  ringPut g { s with evr := { s.evr with lostFrames := 0, gapDue := false } }

/-- Takes the oldest queued record off the queue. -/
def evrPop (s : State) : State := { s with evr := { s.evr with queue := s.evr.queue.tail } }

/-- Whether ARMED has no record left to write before its freeze. -/
def postDone (s : State) : Bool := evrState s == 2 && s.evr.postLeft == 0

/-- The next record, or the GAP record before it, calls for a START record or a checkpoint whose signatures the DRBG
gives no bits for (R228): the ring writer waits. -/
def bitsAwaited (s : State) : Bool :=
  drbgOff s &&
  (s.evr.startDue.isSome || decide ((s.rd64 (Reg.EVR_NEXT 0) + 1) % 2 ^ 20 = 0) ||
    (s.evr.gapDue && decide ((s.rd64 (Reg.EVR_NEXT 0) + 2) % 2 ^ 20 = 0)))

/-- The ring writer takes the oldest queued record (R392, R395, R398): a due START or GAP record first. While
a fence rebuilds the map, or with no partition, nothing is written or counted; with EN 0 or FROZEN the record
is lost; ARMED with no record left, it waits for the freeze. -/
def ringWrite (s : State) : State :=
  let s := if s.evr.startDue.isSome && s.bit Reg.EVR_CTRL 0 && !s.evr.rebuilding then
      writeStart (s.evr.startDue.getD 0) s else s
  match s.evr.queue with
  | [] => s
  | q :: _ =>
    if s.evr.rebuilding || evrState s == 0 then evrPop s
    else if !s.bit Reg.EVR_CTRL 0 || evrState s == 3 then loseRecord q.bytes (evrPop s)
    else if postDone s || bitsAwaited s then s
    else
      let s := if s.evr.gapDue then writeGap s else s
      if postDone s then s else ringPut q.bytes (evrPop s)

/-- Whether a trigger source acts (R398). -/
def triggerEnabled (s : State) (src : Nat) : Bool := s.bit Reg.EVR_TRIG_EN src || s.bit Reg.KPR_TRIG_ROUTE src

/-- A trigger of source `src` (R398). -/
def evidenceTrigger (src : Nat) (s : State) : State :=
  if !triggerEnabled s src || evrState s == 0 then s
  else if evrState s = 1 then
    let s := s.wr64 (Reg.EVR_TRIG_REC 0) (s.rd64 (Reg.EVR_NEXT 0))
    let s := { s with evr := { s.evr with postLeft := s.rd Reg.EVR_POST } }
    s.wr Reg.EVR_STATUS (2 + 4 * src)
  else s.bump Reg.EVR_TRIG_IGN

/-- The freeze, once EVR_POST records have been written since the trigger (R398). -/
def freezeRing (s : State) : State :=
  if !postDone s || s.evr.rebuilding || drbgOff s then s
  else
    let s := (writeCkpt true s).wrF Reg.EVR_STATUS 0 2 3
    evrEvent 0 0 (raiseVector 7 s)

/-- EVR_CTRL.RELEASE (R399). -/
def releaseRing (s : State) : State :=
  if evrState s = 3 then
    { s.wrF Reg.EVR_STATUS 0 2 1 with evr := { s.evr with gapDue := true } }
  else s

/-! ## Readout (R400) -/

/-- The DMA address of the readout buffer. -/
def rdAddr (s : State) : Nat := s.rd64 (Reg.EVR_RD_ADDR 0)

/-- Items a readout may name. -/
def rdMax (kind : Nat) : Nat := if kind = 0 then 2 ^ 22 else 64

/-- Number of the first item held, and of the one after the last. -/
def rdRange (s : State) (kind : Nat) : Nat × Nat :=
  if kind = 0 then (s.rd64 (Reg.EVR_OLDEST 0), s.rd64 (Reg.EVR_NEXT 0))
  else (s.evr.ckptCount - ckptSlots, s.evr.ckptCount)

/-- One item of a readout, 0xFF where its burst read uncorrectable (R384). -/
def rdItem (s : State) (kind k : Nat) : Bytes :=
  if kind = 0 then
    let slot := k % s.rd64 (Reg.EVR_CAP 0)
    if s.evr.badSlots.contains (slot / 2) then List.replicate 32 0xFF#8
    else Tbl.get (fun _ => []) s.evr.records slot
  else
    let j := k % ckptSlots
    let first := s.rd64 (Reg.EVR_CAP 0) / 2 + 80 * j
    (s.evr.badSlots.filter (fun b => first ≤ b ∧ b < first + 80)).foldl
      (fun c b => splice c (64 * (b - first)) (List.replicate 64 0xFF#8)) (Tbl.get (fun _ => []) s.evr.ckpts j)

/-- What a readout of `n` items copies: bytes that the manual leaves open while there is no DRAM key (R255). -/
def rdBytesOf (s : State) (kind first n : Nat) : Bytes :=
  if s.evr.dramKey.isEmpty then leBytes ((if kind = 0 then 32 else 5120) * n) (Config.freeNat s.rng)
  else (List.range n).flatMap (fun i => rdItem s kind (first + i))

/-- Whether a readout of records meets a burst with an uncorrectable error. -/
def rdBad (s : State) (kind first n : Nat) : Bool :=
  (List.range n).any (fun i =>
    if kind = 0 then s.evr.badSlots.contains ((first + i) % s.rd64 (Reg.EVR_CAP 0) / 2)
    else
      let lo := s.rd64 (Reg.EVR_CAP 0) / 2 + 80 * ((first + i) % ckptSlots)
      s.evr.badSlots.any (fun b => decide (lo ≤ b) && decide (b < lo + 80)))

/-- Ends a readout with a code and a count of valid items; vector 7 is raised (R400). -/
def rdEnd (code done : Nat) (s : State) : State :=
  let s := { s with evr := { s.evr with readout := none, copied := [] } }
  raiseVector 7 ((s.wr Reg.EVR_RD_STATUS (2 ^ 8 * code)).wr Reg.EVR_RD_DONE done)

/-- A write of EVR_RD_CMD: with GO it starts a readout, or ends it at once with BAD_ARG or GONE. -/
def rdStart (v : Nat) (s : State) : State :=
  let s := s.wr Reg.EVR_RD_CMD (v % 2)
  if !Nat.testBit v 31 || s.evr.readout.isSome then s
  else
    let kind := v % 2
    let first := s.rd64 (Reg.EVR_RD_FIRST 0)
    let n := s.rd Reg.EVR_RD_COUNT
    let r := rdRange s kind
    if n = 0 ∨ n > rdMax kind ∨ rdAddr s % 64 ≠ 0 then rdEnd 5 0 s
    else if first < r.1 ∨ first + n > r.2 then rdEnd 1 0 s
    else
      let bytes := rdBytesOf s kind first n
      let s := { s with evr := { s.evr with readout := some (kind, first, n), copied := bytes } }.drawn
      (s.wr Reg.EVR_RD_STATUS 1).wr Reg.EVR_RD_DONE 0

/-- The copy ends: DMA_ERR if a host write failed; OVERTAKEN if recording overwrote part of the range
meanwhile, when the count of leading valid items is open; UE; else OK. -/
def rdComplete (dmaOk : Bool) (s : State) : State :=
  match s.evr.readout with
  | none => s
  | some (kind, first, n) =>
    let size := if kind = 0 then 32 else 5120
    if !dmaOk then rdEnd 4 0 s
    else if first < (rdRange s kind).1 ∨ (rdRange s kind).2 < first + n then
      let k := Config.freeNat s.rng % n
      rdEnd 2 k ((s.emit (.dmaWrite (rdAddr s) (s.evr.copied.take (size * k)))).drawn)
    else
      rdEnd (if rdBad s kind first n then 3 else 0) n
        (s.emit (.dmaWrite (rdAddr s) (rdBytesOf s kind first n))).drawn

end Sys2Proof.Machine
end

