-- ==== Sys2Proof/Machine/Parse.lean ====
section
/-! DEFINITION. The frame parser (R264, R265), class rules (R50, R51) and time-transfer fields of a client
frame (R374 to R377). -/

namespace Sys2Proof.Machine

/-- What the parser finds in the first 128 bytes of a frame (R264); absent fields are 0. -/
structure Parsed where
  dmac : Bytes := []
  smac : Bytes := []
  /-- Outer tags found, at most two. -/
  tags : Nat := 0
  pcp : Nat := 0
  vid : Nat := 0
  etype : Nat := 0
  /-- Offset of the first byte after the Ethertype. -/
  body : Nat := 14
  /-- 0 non-IP, 1 IPv4, 2 IPv6. -/
  ip : Nat := 0
  dscp : Nat := 0
  proto : Nat := 0
  dst : Bytes := []
  /-- Offset of the UDP or TCP header, if ports are parsed. -/
  l4 : Option Nat := none
  dport : Nat := 0
  ptpEvent : Bool := false
  ptpGeneral : Bool := false
  /-- Offset of the PTP message. -/
  ptp : Nat := 0
  /-- A PRP trailer ends the frame. -/
  prp : Bool := false
deriving DecidableEq, Repr

/-- A big-endian field of the parser's window; 0 when any of it lies beyond (R264). -/
def win (w : Bytes) (o n : Nat) : Nat := if o + n ≤ w.length then beAt w o n else 0

/-- Whether a value is a VLAN TPID. -/
def isTpid (v : Nat) : Bool := v == 0x8100 || v == 0x88A8

/-- Whether an IPv6 next header is skipped. -/
def isExt (v : Nat) : Bool := v == 0 || v == 43 || v == 44 || v == 60

/-- Skips up to `k` IPv6 extension headers: final next header, its offset, and whether a fragment header
with a nonzero offset was skipped. -/
def skipExt (w : Bytes) : Nat → Nat → Nat → Bool → Nat × Nat × Bool
  | 0, nh, o, f => (nh, o, f)
  | k + 1, nh, o, f =>
    if isExt nh then
      let len := if nh = 44 then 8 else 8 * (win w (o + 1) 1 + 1)
      skipExt w k (win w o 1) (o + len) (f || (nh == 44 && win w (o + 2) 2 / 8 != 0))
    else (nh, o, f)

/-- Adds the layer 4 and PTP fields to an IP parse. -/
def parsePorts (w : Bytes) (o : Nat) (p : Parsed) : Parsed :=
  let dport := win w (o + 2) 2
  let udp := p.proto == 17
  { p with
    l4 := some o, dport := dport, ptpEvent := udp && dport == 319, ptpGeneral := udp && dport == 320, ptp := o + 8 }

/-- Parses the layers after the Ethertype. -/
def parseBody (w : Bytes) (p : Parsed) : Parsed :=
  let o := p.body
  if p.etype = 0x0800 ∧ win w o 1 / 16 = 4 ∧ 5 ≤ win w o 1 % 16 then
    let q := { p with ip := 1, dscp := win w (o + 1) 1 / 4, proto := win w (o + 9) 1,
                      dst := zeros 12 ++ beBytes 4 (win w (o + 16) 4) }
    let ports := win w (o + 6) 2 % 8192 == 0 && (q.proto == 17 || q.proto == 6)
    if ports then parsePorts w (o + 4 * (win w o 1 % 16)) q else q
  else if p.etype = 0x86DD ∧ win w o 1 / 16 = 6 then
    let e := skipExt w 2 (win w (o + 6) 1) (o + 40) false
    let q := { p with ip := 2, dscp := win w o 2 / 64 % 64, proto := e.1, dst := beBytes 16 (win w (o + 24) 16) }
    if !e.2.2 && (e.1 == 17 || e.1 == 6) then parsePorts w e.2.1 q else q
  else if p.etype = 0x88F7 then
    let m := win w o 1 % 16
    { p with ptpEvent := decide (m ≤ 3), ptpGeneral := decide (8 ≤ m) && decide (m ≤ 13), ptp := o }
  else p

/-- Whether a PRP trailer ends a frame given without its FCS: suffix 0x88FB, and an LSDU size that counts the
bytes from `body`, the trailer among them (R264; what LSDU counts is PRESUMED, log entry 95). -/
def prpTrailer (f w : Bytes) (body : Nat) : Bool :=
  let n := f.length
  decide (body + 6 ≤ n) && win w (n - 2) 2 == 0x88FB && win w (n - 4) 2 % 4096 == n - body

/-- Parses a frame given without its FCS (R264, R265). -/
def parseFrame (f : Bytes) : Parsed :=
  let w := f.take 128
  let t := if isTpid (win w 12 2) then (if isTpid (win w 16 2) then 2 else 1) else 0
  let tci := if t = 0 then 0 else win w 14 2
  parseBody w
    { dmac := beBytes 6 (win w 0 6), smac := beBytes 6 (win w 6 6), tags := t, pcp := tci / 8192,
      vid := tci % 4096, etype := win w (12 + 4 * t) 2, body := 14 + 4 * t, prp := prpTrailer f w (14 + 4 * t) }

/-- A group address: bit 0 of its first byte. -/
def isGroup (mac : Bytes) : Bool := byteAt mac 0 % 2 == 1

/-! ## Classes -/

/-- Whether a rule matches a frame of a span (R50): an untagged frame has no PCP to match, and its VLAN
identifier reads as zero (R264). -/
def ruleHits (r : ClassRule) (span : Nat) (p : Parsed) : Bool :=
  let cmp := fun (f : Nat) => f &&& r.mask == r.value
  Nat.testBit r.spans span &&
  (match r.kind with
   | 1 => decide (0 < p.tags) && cmp p.pcp
   | 2 => p.ip != 0 && cmp p.dscp
   | 3 => cmp p.etype
   | 4 => cmp p.vid
   | 5 => p.ptpEvent
   | 6 => p.ptpGeneral
   | 7 => p.etype == 0x88B8
   | 8 => p.etype == 0x88BA
   | _ => false)

/-- The rule in 16 bytes of the layout of R50. -/
def ruleOf (bs : Bytes) : ClassRule :=
  { kind := byteAt bs 0, cls := byteAt bs 1, spans := leAt bs 4 4, value := leAt bs 8 4, mask := leAt bs 12 4 }

/-- Width of the field that a rule kind compares (R50); 0 for kinds that compare none. -/
def ruleWidth : Nat → Nat
  | 1 => 3 | 2 => 6 | 3 => 16 | 4 => 12 | _ => 0

/-- A rule's VALUE and MASK suit its kind: MASK within the field, VALUE within MASK (R41, R50). -/
def ruleFits (r : ClassRule) : Bool := decide (r.mask < 2 ^ ruleWidth r.kind) && r.value &&& r.mask == r.value

/-- A rule of R50 with a defined kind, the class asked for and reserved bytes zero. -/
def ruleLegal (bs : Bytes) (cls : Nat) : Bool :=
  let r := ruleOf bs
  decide (1 ≤ r.kind) && decide (r.kind ≤ 8) && r.cls == cls && leAt bs 2 2 == 0 && ruleFits r

/-- The keeper's class 7 rules (R447). -/
def keeperRules (s : State) : List ClassRule :=
  (List.range (s.rdF Reg.KPR_C7_FLAGS 8 4)).map (fun r => ruleOf (s.rdBytes (Reg.KPR_C7_RULE r 0) 4))

/-- The class of a frame of a span: the keeper's class 7 first, then the rules in order (R51). -/
def classOf (s : State) (span : Nat) (p : Parsed) : Nat :=
  if (keeperRules s).any (fun r => ruleHits r span p) then 7
  else
    match s.pat.active with
    | some a =>
      match a.rules.find? (fun r => ruleHits r span p) with
      | some r => r.cls
      | none => a.defaultClass
    | none => 0

/-! ## Correction fields -/

/-- TC_MODE of a span. -/
def tcMode (s : State) (n : Nat) : Nat :=
  match s.pat.active with
  | some a => a.tcMode.getD n 0
  | none => 0

/-- STAMP_TB of a span. -/
def stampTb (s : State) (n : Nat) : Nat :=
  match s.pat.active with
  | some a => a.stampTb.getD n 0
  | none => 0

/-- Whether a mode corrects a message type (R375). -/
def corrects (mode type : Nat) : Bool :=
  match mode with
  | 1 => type == 0 || type == 1
  | 2 => type == 0 || type == 2 || type == 3
  | _ => false

/-- The greatest correction field (R376). -/
def tcMax : Int := 0x7FFFFFFFFFFFFFFF

/-- The one's-complement sum of 16-bit words, folded. -/
def ocSum (l : List Nat) : Nat :=
  let t := l.sum
  let t := t % 65536 + t / 65536
  t % 65536 + t / 65536

/-- 16-bit words of a byte string. -/
def words16 : Bytes → List Nat
  | a :: b :: t => (256 * a.toNat + b.toNat) :: words16 t
  | _ => []

/-- A UDP checksum after its data changed from `old` to `new`, incrementally: ~(~C + ~m + m') (R376). -/
def updChecksum (c : Nat) (old new : Bytes) : Nat :=
  let v := 0xFFFF - ocSum ((0xFFFF - c) :: (words16 old).map (fun x => 0xFFFF - x) ++ words16 new)
  if v = 0 then 0xFFFF else v

/-- What correction does to a client frame. -/
inductive Correction where
  /-- Nothing to correct. -/
  | none
  /-- Forwarded unchanged and counted in TIM_TC_SKIP (R377). -/
  | skip
  /-- Too old: discarded and counted in TIM_TC_STALE. -/
  | stale
  /-- Corrected: the new frame without FCS; whether the field saturated. -/
  | done (frame : Bytes) (saturated : Bool)
deriving DecidableEq, Repr

/-- Adds ρ, in units of 2^-16 ns, to the correction field of a client frame given without FCS
(R375 to R377): the checks of the first item come before staleness. -/
def correct (mode : Nat) (f : Bytes) (rho : Nat) : Correction :=
  let p := parseFrame f
  if !p.ptpEvent || !corrects mode (win (f.take 128) p.ptp 1 % 16) then .none
  else
    let w := f.take 128
    let o := p.ptp + 8
    let ck := p.l4.map (· + 6)
    if win w (p.ptp + 1) 1 % 16 ≠ 2 ∨ w.length < o + 8 ∨ w.length < ck.getD 0 + 2 then .skip
    else if 1000000000 * 65536 < rho then .stale
    else
      let old := slice f o 8
      let v := signedOf 64 (beNat old)
      let sat := v == tcMax || decide (tcMax < v + rho)
      let new := beBytes 8 (unsignedOf 64 (if sat then tcMax else v + rho))
      let g := splice f o new
      match ck with
      | .none => .done g sat
      | some c =>
        let old16 := beAt f c 2
        if p.ip = 1 ∧ old16 = 0 then .done g sat
        else .done (splice g c (beBytes 2 (updChecksum old16 old new))) sat

end Sys2Proof.Machine
end

