-- ==== Sys2Proof/Machine/SecChan.lean ====
section
/-! DEFINITION. Secure channels, associations and hitless key change (R186 to R222): the tables, the
SECW commit, slot fills, epoch triggers, switches, packet numbers, key gap and orphans. -/

namespace Sys2Proof.Machine

/-! ## Entries -/

/-- SC entry `i` of a direction. -/
def State.scAt (s : State) (rx : Bool) (i : Nat) : ScEntry :=
  Tbl.get (fun _ => {}) (if rx then s.sec.rx else s.sec.tx) i

/-- Sets SC entry `i` of a direction. -/
def State.setSc (s : State) (rx : Bool) (i : Nat) (e : ScEntry) : State :=
  if rx then { s with sec := { s.sec with rx := Tbl.set (fun _ => {}) s.sec.rx i e } }
  else { s with sec := { s.sec with tx := Tbl.set (fun _ => {}) s.sec.tx i e } }

/-- SA entry `i`. -/
def State.saAt (s : State) (i : Nat) : SaEntry := Tbl.get (fun _ => {}) s.sec.sa i

/-- Sets SA entry `i`. -/
def State.setSa (s : State) (i : Nat) (e : SaEntry) : State :=
  { s with sec := { s.sec with sa := Tbl.set (fun _ => {}) s.sec.sa i e } }

/-- Word i of an SC entry (R187). -/
def scWord (e : ScEntry) (i : Nat) : Nat := e.words.getD i 0
/-- CIPHER (R118). -/
def scCipher (e : ScEntry) : Nat := field (scWord e 0) 0 2
/-- SPAN. -/
def scSpan (e : ScEntry) : Nat := field (scWord e 0) 16 5
/-- KEY_MODE: 1 is derived. -/
def scDerived (e : ScEntry) : Bool := Nat.testBit (scWord e 0) 7
/-- SCI, 64 bits. -/
def scSci (e : ScEntry) : Nat := scWord e 1 + 2 ^ 32 * scWord e 2
/-- SA entry of a slot. -/
def scSa (e : ScEntry) (slot : Nat) : Nat := field (scWord e 5) (16 * (slot % 2)) 16
/-- Slot of an SA of the SC. -/
def slotOf (e : ScEntry) (sa : Nat) : Nat := if scSa e 0 = sa then 0 else 1
/-- Key length of a suite in bytes (R118). -/
def keyLen (cipher : Nat) : Nat := if cipher % 2 = 0 then 16 else 32
/-- The CIPHER that a slot filled now will have in force when it becomes current (R195, R197). -/
def nextCipher (e : ScEntry) : Nat :=
  match e.pending with
  | some w => field (w.getD 0 0) 0 2
  | none => scCipher e

/-- Whether a trunk span's binding names the SC (R167, R182, R187). -/
def trunkNames (s : State) (rx : Bool) (i : Nat) : Bool :=
  (List.range 32).any (fun n => patMode s n == .trunk &&
    (if rx then (s.trkAt n).boundRx == some i else (s.trkAt n).boundTx == some i))

/-- Whether a trunk span whose binding is valid names the SC (R194 SC_BOUND). -/
def trunkBound (s : State) (rx : Bool) (i : Nat) : Bool :=
  (List.range 32).any (fun n => patMode s n == .trunk && !(s.bit (Reg.FRM_TRK_STATUS n) 7) &&
    (if rx then (s.trkAt n).boundRx == some i else (s.trkAt n).boundTx == some i))

/-- Whether the SC carries class 7 traffic: K7, or a trunk span's SC (R187). -/
def isK7 (s : State) (rx : Bool) (i : Nat) : Bool :=
  Nat.testBit (scWord (s.scAt rx i) 0) 9 || trunkNames s rx i

/-- The parent index of an SC. -/
def scParent (e : ScEntry) : Nat := field (scWord e 3) 0 12

/-- Parent entry `i` of the key store. -/
def State.parentAt (s : State) (i : Nat) : Parent := Tbl.get (fun _ => {}) s.key.parents i

/-- The next slot's SA of a transmit SC is READY: the other slot of the current one, or the slot of the
next epoch's parity (R190). -/
def nextSlot (e : ScEntry) : Nat :=
  match e.cur with
  | some c => 1 - c
  | none => (e.epoch + 1) % 2

/-- Whether the next slot is READY. -/
def nextReady (s : State) (e : ScEntry) : Bool := (s.saAt (scSa e (nextSlot e))).state == .ready

/-- The SC has a current SA. On a standby an EPOCH record may name a slot whose SA is not there (R197, R476). -/
def hasCurrent (s : State) (e : ScEntry) : Bool :=
  match e.cur with
  | some c => (s.saAt (scSa e c)).state == .current
  | none => false

/-! ## Journal (R210, R212) -/

/-- Journals an SC's words and epoch in the vault, while the vault is open. -/
def journalSc (rx : Bool) (i : Nat) (s : State) : State :=
  if !s.key.vaultOpen || vaultQuiet s then s
  else
    let e := s.scAt rx i
    let j : Option JournalSc := if e.inUse then some ⟨e.words, e.epoch, e.started⟩ else none
    s.putVault (.sc rx i) (fun v =>
      if rx then { v with rx := Tbl.set (fun _ => none) v.rx i j }
      else { v with tx := Tbl.set (fun _ => none) v.tx i j })

/-- Journals a MARK in the vault, while the vault is open. -/
def journalMark (sa m : Nat) (s : State) : State :=
  if s.key.vaultOpen then s.putVault (.mark sa) (fun v => { v with marks := Tbl.set (fun _ => 0) v.marks sa m }) else s

/-- The journalled MARK of an SA. -/
def journalledMark (s : State) (sa : Nat) : Nat := Tbl.get (fun _ => 0) s.key.vault.marks sa

/-- Starts the journal write of MARK := b (R210). -/
def startMark (sa b : Nat) (s : State) : State :=
  let e := s.saAt sa
  if e.journalling.isSome || decide (b ≤ e.mark) || vaultQuiet s then s
  else s.setSa sa { e with journalling := some b }

/-! ## Emptying and filling slots -/

/-- Counts an orphaned SA as it is emptied (R220). -/
def countOrphan (sa : Nat) (s : State) : State :=
  let e := s.saAt sa
  if e.orphan then
    match e.owner with
    | some (i, rx) => secEvent 8 i rx (s.bump Reg.SEC_ORPHAN_CLEARS)
    | none => s.bump Reg.SEC_ORPHAN_CLEARS
  else s

/-- Empties a slot: key cleared, READY 0 (R205, R207). EPOCH, SC and PN items keep their last values. What is still bound
to the association finishes under it, and no longer holds the slot. -/
def emptySlot (sa : Nat) (s : State) : State :=
  let s := countOrphan sa s
  let e := s.saAt sa
  let s := s.setSa sa { e with
    state := .empty, ready := false, key := [], salt := [], ssci := 0,
    orphan := false, journalling := none, bound := 0 }
  { s with sec := { s.sec with
    fills := s.sec.fills.filter (fun f => f.sa != sa),
    filling := if s.sec.filling.any (fun f => f.sa == sa) then none else s.sec.filling } }

/-- Requests a fill: the slot enters FILLING (R199). -/
def requestFill (f : FillReq) (s : State) : State :=
  let e := s.saAt f.sa
  let sc := s.scAt f.rx f.sc
  let s := s.setSa f.sa { e with
    state := .filling, ready := false, epoch := f.epoch,
    derived := f.delivered.isNone, orphan := false, parent := scParent sc,
    cipher := nextCipher sc, bound := 0, gen := s.sec.nextGen, former := (e.gen, e.pn) }
  { s with sec := { s.sec with fills := s.sec.fills ++ [f], nextGen := s.sec.nextGen + 1 } }

/-- The slot that takes the epoch after the current one: the other slot of the current SA, or, of a transmit SC whose
epoch has ended and whose SA is gone, the slot of that epoch's parity (R190, R200, R219). An SC that no epoch has ended
and that has no current SA waits for SA_DERIVE. -/
def refillSlot (e : ScEntry) : Option Nat :=
  match e.cur with
  | some c => some (1 - c)
  | none => if e.trigger then some (nextSlot e) else none

/-- R200: a derived SC fills that slot whenever it is EMPTY and its parent is valid, with epoch current + 1 (none after
epoch 0xFFFFFFFF, R190). -/
def refill (rx : Bool) (i : Nat) (s : State) : State :=
  let e := s.scAt rx i
  match refillSlot e with
  | none => s
  | some k =>
    let sa := scSa e k
    if e.inUse && scDerived e && (s.parentAt (scParent e)).valid && (s.saAt sa).state == .empty &&
        decide (e.epoch < 0xFFFFFFFF) && s.key.zeroizing.isNone then
      requestFill ⟨sa, i, rx, e.epoch + 1, none, false, 0⟩ s
    else s

/-- Empties a slot of an SC and refills it under R200. -/
def emptyAndRefill (rx : Bool) (i sa : Nat) (s : State) : State := refill rx i (emptySlot sa s)

/-- R200 for every derived SC that names a parent: a parent made valid starts the fills it allows. -/
def refillParent (p : Nat) (s : State) : State :=
  let f := fun rx (s : State) (i : Nat) => if scParent (s.scAt rx i) = p then refill rx i s else s
  let s := (Tbl.keys s.sec.tx).foldl (f false) s
  (Tbl.keys s.sec.rx).foldl (f true) s

/-! ## Key gap (R217 to R219) -/

/-- Sets an SC's bit in SEC_TXGAP. -/
def setGapBit (i : Nat) (b : Bool) (s : State) : State := s.setBit (Reg.SEC_TXGAP (i / 32)) (i % 32) b

/-- Key gap without Hold, or with the hold limit passed: the current slot is emptied (R205, R218; log entry
29). -/
def gapEmpty (i : Nat) (s : State) : State :=
  let e := s.scAt false i
  match e.cur with
  | some c =>
    let sa := scSa e c
    let s := if (s.saAt sa).state == .current then emptySlot sa s else s
    s.setSc false i { s.scAt false i with cur := none }
  | none => s

/-- Enters key gap: counted, shown, reported (R217). -/
def enterGap (i : Nat) (s : State) : State :=
  let e := s.scAt false i
  if e.gap then s
  else
    let s := s.setSc false i { e with gap := true }
    let s := setGapBit i true (s.bump Reg.SEC_GAP_ENTRIES)
    let s := secEvent 3 i false s
    let s := if isK7 s false i then keeperAlarm (2 ^ 10) s else s
    if s.bit Reg.KPR_GAP 0 then s else gapEmpty i s

/-- Leaves key gap: SEC_EVT.GAP_EXIT (R219). -/
def exitGap (i : Nat) (s : State) : State :=
  let e := s.scAt false i
  if !e.gap then s
  else
    let s := s.setSc false i { e with gap := false }
    secEvent 4 i false (setGapBit i false s)

/-! ## Triggers and switches (R201 to R208) -/

/-- Ends the epoch of a transmit SC: the trigger waits for a binding, or the SC enters key gap when its
next slot is not READY (R201, R217). Triggers after the first are absorbed. -/
def fireTrigger (i : Nat) (cinch : Bool) (s : State) : State :=
  let e := s.scAt false i
  if e.trigger then s
  else
    let s := s.setSc false i { e with trigger := true, cinch := cinch }
    if nextReady s e && !s.sec.isolated then s else enterGap i s

/-- An SC whose epoch has ended is in key gap when its READY next slot has gone, or when the module is isolated
(R214, R217). -/
def gapCheck (i : Nat) (s : State) : State :=
  let e := s.scAt false i
  if e.inUse && e.trigger && (!nextReady s e || s.sec.isolated) then enterGap i s else s

/-- The module becomes an isolated active: an epoch that has ended gets no successor (R214, R217). -/
def isolateScs (s : State) : State := (Tbl.keys s.sec.tx).foldl (fun s i => gapCheck i s) s

/-- The harness is back: a READY next slot may take the place of an SA that is gone, so the key gap ends
(R214, R217, R219). -/
def reuniteScs (s : State) : State :=
  (Tbl.keys s.sec.tx).foldl (fun s i =>
    let e := s.scAt false i
    if e.inUse && e.gap && e.trigger && nextReady s e then exitGap i s else s) s

/-- Applies a pending MODIFY (R195). -/
def applyPending (rx : Bool) (i : Nat) (s : State) : State :=
  let e := s.scAt rx i
  match e.pending with
  | some w => journalSc rx i (s.setSc rx i { e with words := w, pending := none })
  | none => s

/-- Makes a slot the current one of a transmit SC, with epoch timer and count restarted (R205, R206). -/
def makeCurrent (i slot : Nat) (s : State) : State :=
  let e := s.scAt false i
  let sa := scSa e slot
  let a := s.saAt sa
  let s := s.setSa sa { a with state := .current }
  let s := s.setSc false i { e with
    cur := some slot, epoch := a.epoch, started := true, trigger := false,
    cinch := false, cinchStitch := e.cinch, count := 0 }
  (journalSc false i (applyPending false i (exitGap i s))).mirror (HrnMsg.epoch i false)

/-- The transmit switch of R206: the next slot becomes CURRENT, the old one DRAINING, or EMPTY when
nothing bound to it is left in the module. -/
def txSwitch (i : Nat) (s : State) : State :=
  let e := s.scAt false i
  let old := e.cur.map (scSa e)
  let s := makeCurrent i (nextSlot e) s
  let s := s.bump Reg.SEC_TX_SWITCHES
  let s := secEvent 0 i false s
  match old with
  | some sa =>
    let a := s.saAt sa
    if a.state == .current then
      if a.bound = 0 then emptyAndRefill false i sa s else s.setSa sa { a with state := .draining }
    else refill false i s
  | none => refill false i s

/-- A frame or stitch bound to fill `gen` of an SA has left or been discarded: a DRAINING slot that holds none more is
emptied (R205). One bound to an association that the slot no longer holds changes nothing. -/
def unbind (sa gen : Nat) (s : State) : State :=
  let a := s.saAt sa
  let n := a.bound - 1
  if a.gen ≠ gen then s
  else
  let s := s.setSa sa { a with bound := n }
  if a.state == .draining && n == 0 then
    match a.owner with
    | some (i, rx) => emptyAndRefill rx i sa s
    | none => emptySlot sa s
  else s

/-! ## Packet numbers (R210 to R215) -/

/-- The soft and the hard limit of an SA's PN or SEQ (R211). -/
def pnLimits (cipher : Nat) (trunk : Bool) : Nat × Nat :=
  if trunk then (0xC00000000000, 0xFFFFFFFFFFFF)
  else if cipher < 2 then (0xC0000000, 0xFFFFFFFF)
  else (0xC000000000000000, 0xFFFFFFFFFFFFFFFF)

/-- Whether an SC runs on a trunk span. -/
def scTrunk (s : State) (e : ScEntry) : Bool := patMode s (scSpan e) == .trunk

/-- Whether values of block `b` may be assigned: its MARK is journalled, and acknowledged by the partner
when the module is the active of a pair or isolated (R210, R214). -/
def blockReserved (s : State) (sa b : Nat) : Bool :=
  let a := s.saAt sa
  decide (b ≤ a.mark) && (!(needsAck s) || decide (b < Tbl.get (fun _ => 0) s.hrn.ackedMark sa))

/-- An SA that can assign nothing more is treated as past PN_HARD: its slot is emptied and the epoch ends
(R205, R211, R215). -/
def saSpent (i sa : Nat) (s : State) : State :=
  let e := s.scAt false i
  let s := emptySlot sa s
  let s := if e.cur == some (slotOf e sa) then s.setSc false i { e with cur := none } else s
  let s := fireTrigger i false s
  if nextReady s (s.scAt false i) && !s.sec.isolated then s else enterGap i s

/-- The end of a block is reached without the next one reserved (R215). -/
def reservationFail (i sa : Nat) (s : State) : State :=
  saSpent i sa (secEvent 6 i false (s.bump Reg.SEC_RES_FAIL))

/-- After a value is assigned: the half-block write starts, and the end of an unreserved block ends the
SA (R210, R215). -/
def afterAssign (i sa : Nat) (s : State) : State :=
  let a := s.saAt sa
  let p := a.pn
  let s :=
    if p % 2 ^ 24 = 2 ^ 23 ∧ a.mark = p / 2 ^ 24 then startMark sa (a.mark + 1) (s.bump Reg.SEC_RES_BLOCKS)
    else s
  if p % 2 ^ 24 = 0 ∧ !blockReserved s sa (p / 2 ^ 24) then reservationFail i sa s else s

/-- What a frame or stitch was bound to: SA, PN and whether it was bound under Hold. -/
structure Binding where
  sa : Nat
  gen : Nat
  pn : Nat
  slot : Nat
  epoch : Nat
deriving DecidableEq, Repr

/-- Assigns the next value of the current SA (R129, R210): none when the SA has no value to give. -/
def assignPn (i slot : Nat) (s : State) : State × Option Binding :=
  let e := s.scAt false i
  let sa := scSa e slot
  let a := s.saAt sa
  let lim := pnLimits a.cipher (scTrunk s e)
  if a.state == .current && a.ready && decide (a.pn ≤ lim.2) && blockReserved s sa (a.pn / 2 ^ 24) then
    let t := s.setSa sa { a with pn := a.pn + 1, bound := a.bound + 1 }
    let t := t.setSc false i { e with count := e.count + 1 }
    let t := pmcCount 0x0300 (scSpan e) 1 t
    (afterAssign i sa t, some ⟨sa, a.gen, a.pn, slot, a.epoch⟩)
  else (s, none)

/-- Binds a frame's first cell or a stitch's P0 to the SC (R206, R218): a waiting trigger with a READY
next slot switches first; in key gap only class 7 is bound, and only under Hold. -/
def bindTx (i : Nat) (class7 : Bool) (s : State) : State × Option Binding :=
  let e := s.scAt false i
  if !e.inUse then (s, none)
  else
    let s := if e.trigger && nextReady s e && !s.sec.isolated then txSwitch i s else s
    let e := s.scAt false i
    match e.cur with
    | none => (s, none)
    | some slot =>
      if e.gap then
        if class7 && s.bit Reg.KPR_GAP 0 then
          let r := assignPn i slot s
          if r.2.isSome then (r.1.bump Reg.SEC_HOLD_FRAMES, r.2) else r
        else (s, none)
      else assignPn i slot s

/-! ## Receive side (R207, R213) -/

/-- Empties an OLD receive slot: counted, reported, refilled (R207). -/
def retireRx (i sa : Nat) (s : State) : State :=
  let s := s.bump Reg.SEC_RETIRES
  let s := secEvent 2 i true s
  emptyAndRefill true i sa s

/-- The receive switch of R207 to a READY slot. -/
def rxSwitch (i slot : Nat) (s : State) : State :=
  let e := s.scAt true i
  let sa := scSa e slot
  let other := scSa e (1 - slot)
  let a := s.saAt sa
  let s := s.setSa sa { a with state := .current }
  let s := s.setSc true i { e with cur := some slot, epoch := a.epoch, started := true }
  let s := applyPending true i s
  let s := journalSc true i s
  let s := s.bump Reg.SEC_RX_SWITCHES
  let s := (secEvent 1 i true s).mirror (HrnMsg.epoch i true)
  let o := s.saAt other
  let s :=
    if o.state == .current then
      if field (scWord (s.scAt true i) 0) 21 6 = 0 then retireRx i other s
      else s.setSa other { o with state := .old }
    else s
  refill true i s

/-- NEXT_PN of fill `gen` of an SA entry, which may since have been filled anew (R208). -/
def nextPnOf (a : SaEntry) (gen : Nat) : Nat := if a.gen = gen then a.pn else if a.former.1 = gen then a.former.2 else 0

/-- A frame or stitch has passed every check under fill `gen` of an SA: the receive switch if its slot was READY, and
NEXT_PN moves on (R134, R207, R213). Where the slot has been emptied since, the frame finishes under its SA and the slot
stays as it is (R196, R208). -/
def rxVerified (i sa gen pn : Nat) (s : State) : State :=
  let a := s.saAt sa
  if a.gen ≠ gen then
    if a.former.1 = gen then s.setSa sa { a with former := (gen, max a.former.2 (pn + 1)) } else s
  else if !a.ready then s.setSa sa { a with pn := max a.pn (pn + 1) }
  else
    let s := if a.state == .ready then rxSwitch i (slotOf (s.scAt true i) sa) s else s
    let a := s.saAt sa
    if a.pn ≤ pn then
      let t := s.setSa sa { a with pn := pn + 1 }
      if (pn + 1) / 2 ^ 24 = a.pn / 2 ^ 24 then t else startMark sa ((pn + 1) / 2 ^ 24) t
    else s

/-! ## The SECW commit (R193 to R196) -/

/-- The staged words: the shadows of SEC_SCW_W (R193). -/
def stagedWords (s : State) : List Nat := (List.range 8).map (fun i => s.rd (Reg.SEC_SCW_W i))

/-- No reserved encoding and no reserved bit in an entry (R119, R120, R187, R188). -/
def scEncodingOk (rx : Bool) (w : List Nat) : Bool :=
  let w0 := w.getD 0 0
  let m0 := if rx then 0x07FF02FF else 0x001F03FF
  let m6 := if rx then 0x0001FFFF else 0x00FFFFFF
  let m7 := if rx then 0 else 0x000FFFFF
  decide (w0 &&& m0 = w0) && decide (w.getD 3 0 &&& 0x0FFF0FFF = w.getD 3 0) &&
  decide (w.getD 6 0 &&& m6 = w.getD 6 0) && decide (w.getD 7 0 &&& m7 = w.getD 7 0) &&
  decide (field w0 3 2 ≠ 3) && decide (field w0 5 2 ≠ 3)

/-- ORPHAN_GRACE, OVERLAP_S and REPLAY_WIN in range (R187, R188). -/
def scRangeOk (rx : Bool) (w : List Nat) : Bool :=
  decide (field (w.getD 3 0) 16 12 ≤ 3600) &&
  (!rx || (decide (field (w.getD 0 0) 21 6 ≤ 60) && decide (field (w.getD 6 0) 0 17 ≤ 65536)))

/-- The result code of a SECW commit (R194): the checks in the order of the codes. -/
def secwCode (s : State) : Nat :=
  let i := s.rdF Reg.SEC_SCW_SEL 0 16
  let rx := s.bit Reg.SEC_SCW_SEL 16
  let op := s.rdF Reg.SEC_SCW_OP 0 2
  let w := stagedWords s
  let n : ScEntry := { words := w }
  let e := s.scAt rx i
  let tbl := if rx then s.sec.rx else s.sec.tx
  let others := (tbl.filter (fun p => p.2.inUse && p.1 != i)).map Prod.snd
  let own := fun sa => match (s.saAt sa).owner with
    | some o => o != (i, rx)
    | none => false
  let write := op == 1 || op == 2
  if op = 0 then 0x13
  else if i ≥ (if rx then 32768 else 16384) then 0x10
  else if op = 1 ∧ e.inUse then 0x11
  else if op ≠ 1 ∧ !e.inUse then 0x12
  else if write && !scEncodingOk rx w then 0x13
  else if write && rx && Nat.testBit (w.getD 0 0) 2 &&
      others.any (fun o => Nat.testBit (scWord o 0) 2 && scSpan o == scSpan n) then 0x14
  else if write && trunkNames s rx i && decide (scCipher n < 2) then 0x15
  else if write && (scSa n 0 == scSa n 1 || own (scSa n 0) || own (scSa n 1)) then 0x16
  else if write && !(patMode s (scSpan n) == .frame || patMode s (scSpan n) == .trunk) then 0x17
  else if write && scDerived n && !(s.parentAt (scParent n)).valid then 0x18
  else if op = 2 ∧ (scSpan n ≠ scSpan e ∨ scSci n ≠ scSci e ∨ scDerived n ≠ scDerived e ∨
      (rx = true ∧ Nat.testBit (w.getD 0 0) 2 ≠ Nat.testBit (scWord e 0) 2) ∨ scWord n 5 ≠ scWord e 5) then 0x19
  else if write && others.any (fun o => scSci o == scSci n && (!rx || scSpan o == scSpan n)) then 0x1A
  else if op = 3 ∧ trunkBound s rx i then 0x1B
  else if write && !scRangeOk rx w then 0x1C
  else if op = 2 then 0x01
  else 0x00

/-- The SA entry of a slot of a new SC: EMPTY, with what frames of its former association still need (R195, R208). -/
def freshSa (a : SaEntry) (owner : Option (Nat × Bool)) : SaEntry :=
  { owner := owner, former := if a.gen = 0 then a.former else (a.gen, a.pn) }

/-- CREATE: the entry in use, both slots EMPTY (R195). Its CIPHER is the staged one (DESIGN CHOICE, log entry 125). -/
def scInstall (rx : Bool) (i : Nat) (w : List Nat) (s : State) : State :=
  let e : ScEntry := { inUse := true, words := w }
  let s := s.setSc rx i e
  let s := s.setSa (scSa e 0) (freshSa (s.saAt (scSa e 0)) (some (i, rx)))
  let s := s.setSa (scSa e 1) (freshSa (s.saAt (scSa e 1)) (some (i, rx)))
  journalSc rx i (journalMark (scSa e 0) 0 (journalMark (scSa e 1) 0 s))

/-- An SA of a slot that is not current yet, under another suite of its key length. A derived key that was filled without
a salt gets one that the spec does not give: a free value (log entry 107). -/
def recipher (c : Nat) (s : State) (a : SaEntry) : SaEntry :=
  { a with cipher := c,
           salt := if 2 ≤ c ∧ a.key ≠ [] ∧ a.salt = [] then beBytes 12 (Config.freeNat s.rng) else a.salt }

/-- MODIFY: held pending. A FILLING or READY next slot becomes current together with it: a change of key length clears the
slot, which a derived SC refills; else the slot goes on under the new suite (R195). -/
def scStage (rx : Bool) (i : Nat) (w : List Nat) (s : State) : State :=
  let e := s.scAt rx i
  let s := s.setSc rx i { e with pending := some w }
  let c := field (w.getD 0 0) 0 2
  let next := fun (s : State) (slot : Nat) =>
    let st := (s.saAt (scSa e slot)).state
    e.cur != some slot && (st == .filling || st == .ready)
  if keyLen c = keyLen (nextCipher e) then
    let put := fun (s : State) (slot : Nat) =>
      if next s slot then s.setSa (scSa e slot) (recipher c s (s.saAt (scSa e slot))) else s
    if c = nextCipher e then s else (put (put s 0) 1).drawn
  else
    let clear := fun (s : State) (slot : Nat) => if next s slot then emptySlot (scSa e slot) s else s
    let s := refill rx i (clear (clear s 0) 1)
    if rx then s else gapCheck i s

/-- DELETE: both slots emptied, the SC gone (R196). -/
def scRemove (rx : Bool) (i : Nat) (s : State) : State :=
  let e := s.scAt rx i
  let free := fun (s : State) (sa : Nat) =>
    let s := emptySlot sa s
    s.setSa sa (freshSa (s.saAt sa) none)
  let s := free (free s (scSa e 0)) (scSa e 1)
  let s := s.setSc rx i { deleted := true }
  let s := if rx then s else setGapBit i false s
  journalSc rx i (journalMark (scSa e 0) 0 (journalMark (scSa e 1) 0 s))

/-- A SECW commit: ignored while BUSY, else checked and acted on at GO (R193 to R196). -/
def secwCommit (s : State) : State :=
  if s.bit Reg.SEC_SCW_STATUS 0 then s.setBit Reg.SEC_SCW_STATUS 1 true
  else
    let code := secwCode s
    let i := s.rdF Reg.SEC_SCW_SEL 0 16
    let rx := s.bit Reg.SEC_SCW_SEL 16
    let w := stagedWords s
    let t :=
      if code = 0x01 then scStage rx i w s
      else if code = 0x00 then
        if s.rdF Reg.SEC_SCW_OP 0 2 = 1 then scInstall rx i w s else scRemove rx i s
      else s
    let t := if code < 2 then t.mirror (HrnMsg.sc i rx) else t
    { t with sec := { t.sec with scwCode := code } }.setBit Reg.SEC_SCW_STATUS 0 true

/-- A commit whose OP register holds `op`. -/
def secwCommitOp (op : Nat) (s : State) : State :=
  if s.rdF Reg.SEC_SCW_OP 0 2 = op then secwCommit s else s

/-- The check ends: BUSY clears with CODE set (R193). -/
def scwResult (s : State) : State :=
  if s.bit Reg.SEC_SCW_STATUS 0 then
    (s.wrF Reg.SEC_SCW_STATUS 8 8 s.sec.scwCode).setBit Reg.SEC_SCW_STATUS 0 false
  else s

/-! ## Readback (R221) -/

/-- SEC_SCR_STATE of an SC. -/
def scState (s : State) (rx : Bool) (i : Nat) : Nat :=
  let e := s.scAt rx i
  b2n e.inUse + 2 * e.cur.getD 0 + 4 * b2n (hasCurrent s e) + 8 * b2n (nextReady s e) + 16 * b2n e.gap +
  32 * b2n (e.gap && s.bit Reg.KPR_GAP 0 && e.cur.isSome) + 64 * b2n e.pending.isSome +
  128 * b2n e.trigger

/-- A write of SEC_SCR_SEL loads that SC's words, state and epoch. An index outside its table reads as an
SC not in use (DEDUCED, log entry 8). -/
def scReadback (v : Nat) (s : State) : State :=
  let s := s.wr Reg.SEC_SCR_SEL (v % 2 ^ 17)
  let rx := Nat.testBit v 16
  let i := v % 65536
  let e := s.scAt rx i
  let s := (List.range 8).foldl (fun s k => s.wr (Reg.SEC_SCR_W k) (scWord e k)) s
  (s.wr Reg.SEC_SCR_STATE (if e.inUse then scState s rx i else 0)).wr Reg.SEC_SCR_EPOCH e.epoch

/-- The number of a slot state (SEC_SAR_STATE). -/
def slotCode : SlotState → Nat
  | .empty => 0 | .filling => 1 | .ready => 2 | .current => 3 | .draining => 4 | .old => 5

/-- SEC_SAR_STATE of an SA. -/
def saState (a : SaEntry) : Nat :=
  slotCode a.state + 8 * b2n a.ready + 16 * (a.epoch % 4) + 64 * b2n a.derived + 128 * b2n a.orphan +
  256 * b2n (a.state != .empty && keyLen a.cipher == 32) +
  (match a.owner with
   | some (i, rx) => 2 ^ 16 * i + 2 ^ 31 * b2n rx
   | none => 0)

/-- A write of SEC_SAR_SEL loads that SA's state, epoch, PN, MARK and SSCI. -/
def saReadback (v : Nat) (s : State) : State :=
  let s := s.wr Reg.SEC_SAR_SEL (v % 65536)
  let a := s.saAt (v % 65536)
  let s := (s.wr Reg.SEC_SAR_STATE (saState a)).wr Reg.SEC_SAR_EPOCH a.epoch
  let s := s.wr64 (Reg.SEC_SAR_PN 0) a.pn
  let s := (s.wr Reg.SEC_SAR_MARK_LO (a.mark % 2 ^ 32)).wr Reg.SEC_SAR_MARK_HI (a.mark / 2 ^ 32 % 256)
  s.wr Reg.SEC_SAR_SSCI a.ssci

/-! ## Rows of the epoch (R201 to R203, R211, R218, R220) -/

/-- COUNT: EP_COUNT × 65,536 frames or stitches bound to the current SA. -/
def countExpire (i : Nat) (s : State) : State :=
  let e := s.scAt false i
  let n := field (scWord e 6) 0 24
  if e.inUse && e.cur.isSome && decide (n ≠ 0) && decide (n * 65536 ≤ e.count) then fireTrigger i false s else s

/-- TIME: EP_TIME seconds since the first binding to the current SA. -/
def timeExpire (i : Nat) (s : State) : State :=
  let e := s.scAt false i
  if e.inUse && e.cur.isSome && decide (field (scWord e 7) 0 20 ≠ 0) then fireTrigger i false s else s

/-- The current SA of a transmit SC. -/
def curSa (s : State) (i : Nat) : Option Nat := (s.scAt false i).cur.map (scSa (s.scAt false i))

/-- PN_SOFT: the next PN has reached the soft limit. A READY next slot ends the epoch; otherwise the event
is posted and the epoch continues (R201). -/
def pnSoft (i : Nat) (s : State) : State :=
  let e := s.scAt false i
  match curSa s i with
  | none => s
  | some sa =>
    let a := s.saAt sa
    if e.inUse && decide ((pnLimits a.cipher (scTrunk s e)).1 ≤ a.pn) then
      if nextReady s e then fireTrigger i false s
      else secEvent 5 i false s
    else s

/-- PN_HARD: the SA has assigned its last value (R211). -/
def pnHard (i : Nat) (s : State) : State :=
  let e := s.scAt false i
  match curSa s i with
  | none => s
  | some sa =>
    let a := s.saAt sa
    if e.inUse && decide ((pnLimits a.cipher (scTrunk s e)).2 < a.pn) then saSpent i sa s else s

/-- Expiry of an orphaned SA's grace: CURRENT or OLD is emptied (R220). -/
def orphanExpire (sa : Nat) (s : State) : State :=
  let a := s.saAt sa
  match a.owner with
  | none => s
  | some (i, rx) =>
    if a.orphan && (a.state == .current || a.state == .old) then
      if rx then
        let e := s.scAt true i
        let s := emptySlot sa s
        let s := if e.cur == some (slotOf e sa) then s.setSc true i { e with cur := none } else s
        refill true i s
      else saSpent i sa s
    else s

/-- Every transmit SC with CINCH_EN takes an epoch trigger (R202). -/
def cinchAll (s : State) : State :=
  (Tbl.keys s.sec.tx).foldl (fun s i =>
    let e := s.scAt false i
    if e.inUse && Nat.testBit (scWord e 0) 8 && e.cur.isSome then fireTrigger i true s else s) s

/-- The scheduled cinch instant is reached on CINCH_TB. -/
def cinchInstant (s : State) : State :=
  match s.sec.cinchAt with
  | [] => s
  | _ :: rest => cinchAll { s with sec := { s.sec with cinchAt := rest } }

/-- Host trigger of a transmit SC: OK, NOT_READY or NO_SC (R203). -/
def hostTrigger (v : Nat) (s : State) : State :=
  if !Nat.testBit v 31 then s
  else
    let i := v % 16384
    let e := s.scAt false i
    if !e.inUse then s.wr Reg.SEC_EPOCH_STATUS 2
    else if nextReady s e && !s.sec.isolated then fireTrigger i false (s.wr Reg.SEC_EPOCH_STATUS 0)
    else s.wr Reg.SEC_EPOCH_STATUS 1

/-- The overlap timer of an OLD receive slot expires (R207). -/
def overlapExpire (i : Nat) (s : State) : State :=
  let e := s.scAt true i
  let try_ := fun (s : State) (slot : Nat) =>
    if (s.saAt (scSa e slot)).state == .old then retireRx i (scSa e slot) s else s
  if e.inUse then try_ (try_ s 0) 1 else s

/-- The hold limit has passed since gap entry (R218). -/
def holdLimit (i : Nat) (s : State) : State :=
  if (s.scAt false i).gap then gapEmpty i s else s

/-! ## The key sequencer (R198, R199) -/

/-- The derived key and salt of an SC at an epoch (R198). -/
def deriveSa (parentKey : Bytes) (sci epoch cipher : Nat) : Bytes × Bytes :=
  let l := match cipher with
    | 0 => 128 | 1 => 256 | 2 => 224 | _ => 352
  let fixed := [0x53#8, 0x41#8, 0x4B#8, 0#8] ++ beBytes 8 sci ++ beBytes 4 epoch ++ beBytes 4 l
  let out := kdf108 parentKey fixed 48
  let k := keyLen cipher
  (out.take k, if cipher < 2 then [] else slice out k 12)

/-- The sequencer takes up the oldest fill and puts its key into the key store. It waits while the DRBG is
in error or a zeroize runs, since each key word needs a fresh mask (DEDUCED, log entry 9), and works on one fill at a
time (DESIGN CHOICE, log entry 106). -/
def fillStart (s : State) : State :=
  match s.sec.filling, s.sec.fills with
  | none, f :: rest =>
    if drbgOff s || s.key.zeroizing.isSome || vaultQuiet s then s
    else
      let e := s.scAt f.rx f.sc
      let a := s.saAt f.sa
      let k : Bytes × Bytes × Nat :=
        match f.delivered with
        | some d => d
        | none =>
          let d := deriveSa (s.parentAt a.parent).key (scSci e) f.epoch a.cipher
          (d.1, d.2, scWord e 4)
      let s := if f.delivered.isNone then s.bump Reg.SEC_DERIVES else s
      let m := if pairState s = 3 then max a.mark f.resume else f.resume
      let s := s.setSa f.sa { a with key := k.1, salt := k.2.1, ssci := k.2.2, mark := m }
      let s := pmcCount 0x0601 0xFF 1 (freshMasks (6 * f.sa) 6 s)
      let s := { s with hrn := { s.hrn with ackedMark := Tbl.set (fun _ => 0) s.hrn.ackedMark f.sa 0 } }
      let s := s.mirror (HrnMsg.mark f.sa m)
      journalMark f.sa m { s with sec := { s.sec with fills := rest, filling := some f } }
  | _, _ => s

/-- The slot becomes READY in one step once its MARK is journalled and any partner has acknowledged it
(R199, R207, R212). A standby keeps the MARK that its partner has sent (R214, R476). -/
def fillReady (f : FillReq) (s : State) : State :=
  let a := s.saAt f.sa
  let pn := if f.rx then max 1 (f.resume * 2 ^ 24) else if f.resume = 0 then 1 else f.resume * 2 ^ 24
  -- on a standby the slot may already be the current one by an EPOCH record (R476)
  let now := if (s.scAt f.rx f.sc).cur == some (slotOf (s.scAt f.rx f.sc) f.sa) then .current else .ready
  let s := s.setSa f.sa { a with state := now, ready := true, pn := pn }
  let s := { s with sec := { s.sec with filling := none } }
  if f.rx then s
  else
    let e := s.scAt false f.sc
    if f.makeCurrent && e.cur.isNone then
      refill false f.sc (makeCurrent f.sc (slotOf e f.sa) s)
    else
      let s := exitGap f.sc s
      let e := s.scAt false f.sc
      match curSa s f.sc with
      | some c =>
        let ca := s.saAt c
        if decide ((pnLimits ca.cipher (scTrunk s e)).1 ≤ ca.pn) then fireTrigger f.sc false s else s
      | none => s

/-- A MARK journal write completes; the partner is told. A receive SA whose NEXT_PN has entered a further block meanwhile
journals that one (R210, R213, R214). -/
def markDone (sa : Nat) (s : State) : State :=
  let a := s.saAt sa
  match a.journalling with
  | none => s
  | some b =>
    let s := s.setSa sa { a with mark := b, journalling := none }
    let s := journalMark sa b (s.mirror (HrnMsg.mark sa b))
    match a.owner with
    | some (_, true) => startMark sa (a.pn / 2 ^ 24) s
    | _ => s

end Sys2Proof.Machine
end

