-- ==== Sys2Proof/Machine/Flow.lean ====
section
/-! DEFINITION. Frames in flight: the frame table and tags, buffer shares, queues, discards and stomps,
port counters and consequent actions, evidence and trace records of frames (R95, R96, R144 to R146,
R296, R345, R348, R390, R455). -/

namespace Sys2Proof.Machine

/-! ## Counters of the pages -/

/-- Counts on a port page (R348) at page offset `off`. -/
def penCount (p off n : Nat) (s : State) : State := s.bump64 (Reg.PEN_PAGE p 0 + off) n

/-- Counts on a frame-mode span page (R150). -/
def frmCount (n off by_ : Nat) (s : State) : State := s.bump64 (Reg.FRM_PAGE n 0 + off) by_

/-- Counts on a trunk span page (R185). -/
def trkCount (n off by_ : Nat) (s : State) : State := s.bump64 (Reg.FRM_TRK_PAGE n 0 + off) by_

/-! ## The frame table -/

/-- The frame under a key. -/
def State.frameAt (s : State) (id : Nat) : Frame := Tbl.get (fun _ => {}) s.sch.frames id

/-- Whether a frame is in flight under a key. -/
def State.hasFrame (s : State) (id : Nat) : Bool := (Tbl.find s.sch.frames id).isSome

/-- Puts a frame in the table. -/
def State.setFrame (s : State) (id : Nat) (f : Frame) : State :=
  { s with sch := { s.sch with frames := Tbl.set (fun _ => {}) s.sch.frames id f } }

/-- Takes a frame out of the table. -/
def State.freeFrame (s : State) (id : Nat) : State :=
  { s with sch := { s.sch with frames := Tbl.erase s.sch.frames id } }

/-- The island queue of island `i`. -/
def State.islQ (s : State) (i : Nat) : IslandQ := Tbl.get (fun _ => {}) s.fab.islands i

/-- Sets an island queue. -/
def State.setIslQ (s : State) (i : Nat) (q : IslandQ) : State :=
  { s with fab := { s.fab with islands := Tbl.set (fun _ => {}) s.fab.islands i q } }

/-! ## Tags (R95, R96) -/

/-- Tags set aside for trunk spans, and those of their stitches (R174). -/
def stitchTags (s : State) : List Nat :=
  s.trk.flatMap (fun e => e.2.setAside ++ (e.2.stitch.map Stitch.tag).toList ++ e.2.sealing.map Stitch.tag ++
    e.2.openTag.toList)

/-- Tags that cells still in an island or a FIFO belong to. -/
def cellTags (s : State) : List Nat :=
  s.fab.islands.flatMap (fun e => (e.2.input ++ e.2.output).map Cell.frame)

/-- Frame tags not free: of frames (keys below 16,384), of stitches, and of cells still in the fabric. -/
def usedTags (s : State) : List Nat :=
  ((Tbl.keys s.sch.frames).filter (· < 16384) ++ stitchTags s ++ cellTags s).dedup

/-- CPH_TAG_FREE follows the tags; TAG_LOW below 1,024 (R96). -/
def syncTags (s : State) : State :=
  let free := 16384 - (usedTags s).length
  let t := s.wr Reg.CPH_TAG_FREE free
  if free < 1024 then
    raiseEvent 0x02 4 0 t
  else t

/-- Class 7 frames and PTP event messages may use the 512 reserved tags. -/
def privileged (f : Frame) : Bool := f.cls == 7 || f.ptp

/-- Whether a tag may be taken: of the 512 reserved ones first for a privileged frame, else of the 15,872
shared ones (R96; DESIGN CHOICE, log entry 12). -/
def tagAvailable (s : State) (priv : Bool) : Bool :=
  let used := (usedTags s).length
  let np := (s.sch.frames.filter (fun e => e.1 < 16384 && privileged e.2)).length
  if priv then decide (used < 16384) else decide (used - np + (np - 512) < 15872)

/-- The lowest free tag (DESIGN CHOICE, log entry 12). -/
def freeTag (s : State) : Nat :=
  let u := usedTags s
  ((List.range (u.length + 1)).find? (fun t => !u.contains t)).getD 0

/-- A key for a Bypass frame, which takes no tag (R95). -/
def freeKey (s : State) : Nat :=
  let u := Tbl.keys s.sch.frames
  ((List.range (u.length + 1)).find? (fun t => !u.contains (16384 + t))).getD 0 + 16384

/-! ## Buffer shares (R296) -/

/-- Cells of a frame of `n` client bytes (R82). -/
def cellsOf (n : Nat) : Nat := (n + 63) / 64

/-- Cells held by frames of a span that satisfy `p`. -/
def heldCells (s : State) (n : Nat) (p : Frame → Bool) : Nat :=
  ((s.sch.frames.filter (fun e => e.2.span == n && p e.2)).map (fun e => cellsOf e.2.client.length)).sum

/-- Cells of a span's share. -/
def shareCells (s : State) (n : Nat) : Nat := (spanCfg s n).units * 1024

/-- Cells of B7 of a span's line port. -/
def b7Cells (s : State) (n : Nat) : Nat := s.rdF (Reg.KPR_B7 (spanCfg s n).line) 0 16 * 16

/-- Whether a frame of class `c` and `k` cells fits. -/
def fits (s : State) (n c k : Nat) : Bool :=
  decide (heldCells s n (fun _ => true) + k ≤ shareCells s n) &&
  (c == 7 || decide (heldCells s n (fun f => f.cls != 7) + k + b7Cells s n ≤ shareCells s n))

/-! ## Queues -/

/-- Key of a queue: port in PEN numbering and class. -/
def qKey (p c : Nat) : Nat := p * 8 + c

/-- A queue. -/
def State.queue (s : State) (p c : Nat) : List QEntry := Tbl.get (fun _ => []) s.sch.queues (qKey p c)

/-- Sets a queue. -/
def State.setQueue (s : State) (p c : Nat) (q : List QEntry) : State :=
  { s with sch := { s.sch with queues := Tbl.set (fun _ => []) s.sch.queues (qKey p c) q } }

/-- Scheduling state of a port. -/
def State.portAt (s : State) (p : Nat) : PortSched := Tbl.get (fun _ => {}) s.sch.ports p

/-- Sets scheduling state of a port. -/
def State.setPort (s : State) (p : Nat) (x : PortSched) : State :=
  { s with sch := { s.sch with ports := Tbl.set (fun _ => {}) s.sch.ports p x } }

/-- Takes a held frame out of a queue. -/
def unqueue (id p c : Nat) (s : State) : State :=
  s.setQueue p c ((s.queue p c).filter (fun e => match e with
    | .held i => i != id
    | .spilled _ => true))

/-- Drop counter of an output port and class (R297). -/
def dropCount (p c : Nat) (s : State) : State :=
  let s := if p < 32 then s.bump (Reg.SCH_CDROPS p c) else s.bump (Reg.SCH_LDROPS (p - 32) c)
  schEvent 2 (p % 32) (decide (p < 32)) c s

/-! ## Discarding -/

/-- Drops cells of a frame that have not been dispatched. -/
def dropReady (id : Nat) (s : State) : State :=
  { s with fab := { s.fab with ready := s.fab.ready.filter (fun c => c.trunk || c.frame != id) } }

/-- Ends a frame's stay: out of its queues and the table, its SA unbound (R205), cells and tag free. -/
def removeFrame (id : Nat) (s : State) : State :=
  if !s.hasFrame id then s
  else
    let f := s.frameAt id
    let s := f.outs.foldl (fun s p => unqueue id p f.cls s) s
    let s := (dropReady id s).freeFrame id
    let arriving := s.sch.arriving.filter (fun e => e.2 != some id)
    let s := { s with sch := { s.sch with arriving := arriving } }
    let s := match f.sa with
      | some a => if f.opening then s else unbind a f.gen s
      | none => s
    syncTags s

/-! ## Failures and stomps (R144 to R146) -/

/-- Writes FRM_LAST_FAIL and FRM_LAST_SC. -/
def lastFail (span : Nat) (opening : Bool) (cause : Nat) (stomped : Bool) (sc : Option Nat) (s : State) : State :=
  (s.wr Reg.FRM_LAST_FAIL (span + 2 ^ 5 * b2n opening + 2 ^ 8 * cause + 2 ^ 12 * b2n stomped + 2 ^ 31)).wr
    Reg.FRM_LAST_SC (sc.getD 0xFFFF)

/-- Moves a frame's completed cells from RETIRED to WASTED on the islands that ran them (R494). -/
def settleWasted (ran : List Nat) (s : State) : State :=
  ran.foldl (fun s i =>
    let r := s.rd64 (Reg.PMC_ISL i 0)
    if r = 0 then s else (s.wr64 (Reg.PMC_ISL i 0) (r - 1)).bump64 (Reg.PMC_ISL i 2)) s

/-- Ends a frame whose head has left: marked to be stomped on the ports that have started it, gone from the
others, counted at once (R145, R338). -/
def stompFrame (id cause : Nat) (s : State) : State :=
  let f := s.frameAt id
  if !s.hasFrame id || f.stomp.isSome then s
  else
    let others := f.outs.filter (fun p => !f.heads.contains p)
    let s := others.foldl (fun s p => unqueue id p f.cls s) s
    let s := s.setFrame id { f with
      stomp := some cause, verdict := .bad, outs := f.outs.filter (fun p => f.heads.contains p) }
    if f.bypass then s
    else
      let s := lastFail f.span f.opening cause true f.sc s
      let s := if f.counted then s else frmCount f.span (if f.opening then 0x88 else 0x18) 1 s
      let s := s.bump Reg.FRM_STOMPS
      let s := settleWasted f.ran (pmcCount 0x0302 f.span 1 s)
      frmEvent 0 s

/-- Ends a frame early (R146): stomped if its head has left, else discarded; `counted` adds the counter of
the rule that ends it. -/
def endFrame (id cause : Nat) (counted : State → State) (s : State) : State :=
  if !s.hasFrame id then s
  else if (s.frameAt id).heads.isEmpty then counted (removeFrame id s)
  else stompFrame id cause s

/-- A frame that loses a cell in the fabric (R105). -/
def failFrame (id : Nat) (s : State) : State :=
  let f := s.frameAt id
  endFrame id 0xB (fun s => (lastFail f.span f.opening 0xB false f.sc s).bump Reg.CPH_FENCE_DROPS) s

/-! ## Consequent actions (R345, R346) -/

/-- A declared defect bit of a port. -/
def declared (s : State) (p : Nat) (bits : List Nat) : Bool := bits.any (fun b => s.bit (Reg.PEN_DEF p) b)

/-- A port in transmit test: a pattern generator runs on a lane of it (R337). -/
def portTest (s : State) (p : Nat) : Bool :=
  s.bit Reg.CLK_ON 2 && (portLanes (portCfg s p) p).any (fun l => s.bit (Reg.LANE_PRBS l) 4)

/-- What a port sends in place of frames: 0 none, 1 local fault, 2 remote fault. A disabled port sends no signal (R325);
the client of a trunk span that runs as Discard sends local fault, since the receiver is not in LOCK (R155). -/
def portFault (s : State) (p : Nat) : Nat :=
  let signal := [0, 1, 2, 3, 4, 5]
  match portSpan s p with
  | none => 0
  | some n =>
    let line := spanLine s n
    if portTest s p || !s.bit (Reg.PEN_EN p) 0 then 0
    else
      match runMode s n with
      | .discard => if patMode s n == .trunk && decide (p < 32) then 1 else 0
      | .trunk =>
        if p ≥ 32 then 0
        else if s.rdF (Reg.FRM_TRK_STATUS n) 0 2 ≠ 3 then 1
        else if declared s line [11] || declared s p signal then 2 else 0
      | _ =>
        if p ≥ 32 then (if declared s p signal then 2 else 0)
        else if declared s line signal then 1
        else if declared s line [6] || declared s p signal then 2 else 0

/-- A port sends nothing but faults or a test pattern, or no signal at all: departing frames are discarded (R325, R337,
R346; log entry 115). -/
def portBlocked (s : State) (p : Nat) : Bool := portFault s p != 0 || portTest s p || !s.bit (Reg.PEN_EN p) 0

/-- A port is enabled in PEN with link up (R271, R339). -/
def portUp (s : State) (p : Nat) : Bool := s.bit (Reg.PEN_EN p) 0 && s.bit (Reg.PEN_PSTAT p) 0

/-- A lane of the port failed its loopback: raw LOS is present until the next start-up (R350). -/
def portFailed (s : State) (p : Nat) : Bool :=
  (portLanes (portCfg s p) p).any (fun l => s.bit (Reg.LANE_STATUS l) 9)

/-- A port can receive: enabled, and no lane of it failed (R325, R338, R350). -/
def portReceives (s : State) (p : Nat) : Bool := s.bit (Reg.PEN_EN p) 0 && !portFailed s p

/-- Raw LOS, LOL and LOBL as a frame's arrival shows them: a frame that begins while one is present is not received, and
one that is received began with none (R338). A trunk line port has raw conditions of its own. -/
def arrivalRaw (n p : Nat) (ending : RxEnd) (s : State) : State :=
  if patMode s n == .trunk && decide (32 ≤ p) then s
  else
    s.wrF (Reg.PEN_DEF_RAW p) 0 3 (match ending with
      | .notReceived raw => raw.toNat
      | _ => 0)

/-- Whether an arriving frame is received (R338). -/
def isReceived : RxEnd → Bool
  | .notReceived _ => false
  | _ => true

/-- Link up of a port of a span (R339). -/
def linkUp (s : State) (p : Nat) : Bool :=
  s.bit (Reg.PEN_EN p) 0 && (portSpan s p).isSome && !declared s p [0, 1, 2, 3, 4] &&
  ((portCfg s p).type != 1 || s.bit (Reg.PEN_PSTAT p) 4)

/-- PEN_PSTAT of a port follows its link, the faults it sends and its test. -/
def syncPort (p : Nat) (s : State) : State :=
  let f := portFault s p
  let a := s.rd (Reg.PEN_PSTAT p) / 16 * 16
  s.wr (Reg.PEN_PSTAT p) (a + b2n (linkUp s p) + 2 * b2n (f == 1) + 4 * b2n (f == 2) + 8 * b2n (portTest s p))

/-- The trunk line port of a span signals RDI (R172, R345): a line defect of LOS to LOAM, or LOST. -/
def syncRdi (n : Nat) (s : State) : State :=
  if runMode s n == .trunk then s.setBit (Reg.FRM_TRK_STATUS n) 8 (declared s (spanLine s n) [0, 1, 2, 3, 8])
  else s.setBit (Reg.FRM_TRK_STATUS n) 8 false

/-- Ports, trunk RDI, span activity and Trim follow a change of defects, enables or modes (R99, R345). -/
def syncPorts (s : State) : State :=
  let s := (List.range 64).foldl (fun s p => syncPort p s) s
  trimRecompute ((List.range 32).foldl (fun s n => syncRdi n s) s)

/-! ## Arrivals the module does not carry -/

/-- A frame for a span that runs as Discard: counted at the cut, or on the port (R72, R348). -/
def countDiscard (n p : Nat) (s : State) : State :=
  if cutStops s n then s.bump Reg.PAT_CUT_DROPS else penCount p 0x80 1 s

/-- The receive counters of a port (R348). -/
def countReceived (p : Nat) (frame : Bytes) (ending : RxEnd) (s : State) : State :=
  let n := frame.length
  let s := if n < 64 then penCount p 0x18 1 s else s
  let s := if n > (if p < 32 then 10240 else 10272) then penCount p 0x20 1 s else s
  match ending with
  | .notReceived _ => s
  | .errorMarker => penCount p 0x30 1 s
  | .terminate =>
    if ethFcs (frame.take (n - 4)) = frame.drop (n - 4) ∧ 4 ≤ n then
      pmcCount 0x0900 p 1 (penCount p 0x08 n (penCount p 0x00 1 s))
    else penCount p 0x10 1 s

/-! ## Records of frames -/

/-- Queues a frame's evidence record when its class is recorded (R390, R391). -/
def recordFrame (f : Frame) (stamp pn : Nat) (fail : Bool) (icv : Bytes) (s : State) : State :=
  if recorded s f.cls then
    evrQueue (evrRecord stamp (evrAttr f.span f.opening f.cls fail false 0 0) f.client.length pn icv) s
  else s

/-- Whether the trace captures frames of a span and direction (R455). -/
def traced (s : State) (span : Nat) (opening : Bool) : Bool :=
  s.dbg.running && s.bit Reg.CLK_ON 1 && s.rdF Reg.DBG_TRACE_CTRL 0 5 == span && s.bit Reg.DBG_TRACE_CTRL 5 == opening

/-- Adds a trace record; the capture ends at 1,024 (R455). -/
def traceAdd (stamp attr len tag sa outcome : Nat) (head secTag : Bytes) (s : State) : State :=
  let rec_ := leBytes 4 stamp ++ leBytes 2 attr ++ leBytes 2 len ++ leBytes 2 (tag % 16384) ++ leBytes 2 sa ++
    leBytes 4 outcome ++ (padTo 24 head).take 24 ++ (padTo 16 secTag).take 16 ++ zeros 8
  let k := s.dbg.records.length
  let s := { s with dbg := { s.dbg with records := s.dbg.records ++ [rec_], running := decide (k + 1 < 1024) } }
  let s := s.wr Reg.DBG_TRACE_COUNT (k + 1)
  s.setBit Reg.DBG_STATUS 3 s.dbg.running

/-- The trace record of a frame: addresses, up to two tags and the Ethertype of the client frame. -/
def traceFrame (f : Frame) (tag outcome : Nat) (s : State) : State :=
  if traced s f.span f.opening then
    let p := parseFrame (f.client.take (f.client.length - 4))
    traceAdd f.stamp (evrAttr f.span f.opening f.cls (outcome != 0) false 0 0) f.client.length tag
      (f.sa.getD 0) outcome (f.client.take (14 + 4 * p.tags)) f.secTag s
  else s

/-! ## Bytes that leave -/

/-- The error block: type 0x1E and eight /E/ characters, code 0x1E in seven bits (R144, R153). -/
def errorBlock : Block66 :=
  ⟨0b10#2, BitVec.ofNat 64 (0x1E + ((List.range 8).map (fun k => 0x1E * 2 ^ (8 + 7 * k))).sum)⟩

/-- The bytes of a stomped frame as sent: the frame up to the FCS position, then the ones' complement of the correct
FCS over them; the bytes that would share the terminate block are not sent, all are on 1000BASE-X (R144). -/
def stompBytes (type : Nat) (frame : Bytes) : Bytes :=
  let n := frame.length
  let d := frame.take (n - 4)
  let b := d ++ (ethFcs d).map (fun x => 0xFF#8 ^^^ x)
  if type = 1 then b else b.take (n - n % 8)

/-- How a frame ends on a port of a type (R144). -/
def frameEnd (type : Nat) (stomped : Bool) : FrameEnd :=
  if !stomped then .terminate else if type = 1 then .codeV else .errorBlock errorBlock

/-- A frame made whole with its FCS. -/
def withFcs (f : Bytes) : Bytes := f ++ ethFcs f

/-- Sends a frame whose bytes are complete: output and port counters (R348). -/
def sendFrame (p : Nat) (frame : Bytes) (stomped : Bool) (s : State) : State :=
  let type := (portCfg s p).type
  let b := if stomped then stompBytes type frame else frame
  let s := penCount p 0x40 b.length (penCount p 0x38 1 (s.emit (.frameOut p b (frameEnd type stomped))))
  if stomped then penCount p 0x48 1 s else s

end Sys2Proof.Machine
end

