-- ==== Sys2Proof/Machine/Classify.lean ====
section
/-! DEFINITION. Classification, the prefix and peer tables, learning, aging, host commands and the compact
bucket window (R264 to R293). -/

namespace Sys2Proof.Machine

/-! ## Layout and entries (R277 to R279) -/

/-- LAYOUT of the active Pattern: 0 compact, 1 full. -/
def clsLayout (s : State) : Nat :=
  match s.pat.active with
  | some a => a.layout
  | none => 0

/-- Buckets of the layout. -/
def clsBuckets (s : State) : Nat := if clsLayout s = 0 then 262144 else 4194304

/-- Entry limit of the layout. -/
def clsLimit (s : State) : Nat := if clsLayout s = 0 then 1048576 else 16777216

/-- The 9-byte key of an entry. -/
def peerKey (lp vid : Nat) (mac : Bytes) : Bytes := leBytes 1 lp ++ beBytes 2 vid ++ mac

/-- The two buckets of a key (R278). -/
def peerBuckets (s : State) (key : Bytes) : Nat × Nat :=
  let nb := clsBuckets s
  let b0 := crc32c key % nb
  let b1 := crc32c (0xC5#8 :: key) % nb
  (b0, if b1 = b0 then b0 ^^^ 1 else b1)

/-- Entry at place `i` (bucket × 8 + place): 64 bytes. -/
def State.peerAt (s : State) (i : Nat) : Bytes := Tbl.get (fun _ => zeros 64) s.cls.peers i

/-- FLAGS bit of an entry: 0 VALID, 1 CLIENT, 2 STATIC, 3 CONTESTED. -/
def eFlag (e : Bytes) (b : Nat) : Bool := Nat.testBit (byteAt e 0) b
/-- LP. -/
def eLp (e : Bytes) : Nat := byteAt e 1
/-- VID. -/
def eVid (e : Bytes) : Nat := leAt e 2 2
/-- MAC. -/
def eMac (e : Bytes) : Bytes := slice e 4 6
/-- STAMP. -/
def eStamp (e : Bytes) : Nat := leAt e 10 2
/-- TARGET. -/
def eTarget (e : Bytes) : Nat := leAt e 12 2
/-- Key of an entry. -/
def eKey (e : Bytes) : Bytes := peerKey (eLp e) (eVid e) (eMac e)

/-- An entry from its fields. -/
def mkEntry (flags lp vid : Nat) (mac : Bytes) (stamp target rxsc learnNs moves : Nat) (user : Bytes) : Bytes :=
  leBytes 1 flags ++ leBytes 1 lp ++ leBytes 2 vid ++ mac ++ leBytes 2 stamp ++ leBytes 2 target ++
  leBytes 2 rxsc ++ leBytes 4 learnNs ++ leBytes 4 moves ++ user

/-- Valid entries, a relocated entry counted once (R283). -/
def validCount (s : State) : Nat :=
  (s.cls.peers.filter (fun e => eFlag e.2 0)).length - s.cls.relocated.length

/-- CLS_ENTRIES and CLS_LEARNQ follow the table and the queue. -/
def syncCls (s : State) : State :=
  ((s.wr Reg.CLS_ENTRIES (validCount s)).wr Reg.CLS_LEARNQ s.cls.learnQ.length).wr Reg.CLS_PREFIXES
    s.cls.prefixes.length

/-- Writes an entry place; the bucket's VERSION moves on where that changes it (R289). -/
def State.setPeer (s : State) (i : Nat) (e : Bytes) : State :=
  if e = s.peerAt i then s
  else syncCls { s with cls := { s.cls with
    peers := Tbl.set (fun _ => zeros 64) s.cls.peers i e,
    versions := Tbl.modify (fun _ => 0) s.cls.versions (i / 8) (fun v => (v + 1) % 65536) } }

/-- Place of the valid entry with a key, if any. -/
def findPeer (s : State) (key : Bytes) : Option Nat :=
  let b := peerBuckets s key
  ((List.range 8).map (fun k => 8 * b.1 + k) ++ (List.range 8).map (fun k => 8 * b.2 + k)).find?
    (fun i => eFlag (s.peerAt i) 0 && eKey (s.peerAt i) == key)

/-- A data-plane lookup: a miss while a DRAM fence rebuilds the map (R387). -/
def lookupPeer (s : State) (key : Bytes) : Option Bytes :=
  if s.evr.rebuilding then none else (findPeer s key).map s.peerAt

/-! ## The classifier cache (R272, R388) -/

/-- Ticks of the window over which the module-wide miss rate is taken (log entry 113). -/
def missWindowTicks : Nat := 156250

/-- Misses in a window that the DRAM serves within T_CLS: 150 × 10^6 per second with 8 healthy channels. -/
def missLimit (s : State) : Nat := 150000 * ((List.range 8).filter (fun c => !s.bit (Reg.EVR_CH_STATUS c) 0)).length / 8

/-- A lookup of a frame of span `n`: whether it misses the cache is a free value; above the miss rate, whether it is
late is one too, and a late lookup delays its frame and is counted. -/
def chargeLookup (n : Nat) (s : State) : State :=
  let s := pmcCount 0x0700 n 1 s
  if !Nat.testBit (Config.freeNat s.rng) 0 then s.drawn
  else
    let s := pmcCount 0x0701 n 1 s.drawn
    let w := s.refTick / missWindowTicks
    let k := if w = s.cls.missWindow then s.cls.misses + 1 else 1
    let s := { s with cls := { s.cls with missWindow := w, misses := k } }
    if k ≤ missLimit s then s
    else if Nat.testBit (Config.freeNat s.rng) 0 then clsEvent 3 (s.drawn.bump Reg.CLS_LATE) else s.drawn

/-- Removes the entries that satisfy `p`; how many. -/
def removePeers (p : Bytes → Bool) (s : State) : State :=
  (s.cls.peers.filter (fun e => eFlag e.2 0 && p e.2)).foldl (fun s e => s.setPeer e.1 (zeros 64)) s

/-! ## Prefix table (R273 to R276) -/

/-- The 40-byte lookup key of a frame (R273). -/
def prefixKey (span : Nat) (p : Parsed) : Bytes :=
  leBytes 1 (64 * p.ip + span) ++
  beBytes 2 (32768 * b2n (decide (0 < p.tags)) + 4096 * p.pcp + p.vid) ++ beBytes 2 p.etype ++ p.dmac ++
  leBytes 1 (4 * p.dscp) ++ leBytes 1 p.proto ++ beBytes 2 p.dport ++ zeros 1 ++ padTo 16 p.dst ++ p.smac ++
  zeros 2

/-- Bytewise and. -/
def andBytes (a b : Bytes) : Bytes := List.zipWith (· &&& ·) a b

/-- The matching entry of lowest index (R274). -/
def prefixLookup (s : State) (key : Bytes) : Option PrefixEntry :=
  (s.cls.prefixes.filterMap Prod.snd).find? (fun e => andBytes key e.mask == e.key)

/-- The number of 1 bits in a byte string. -/
def popcount (bs : Bytes) : Nat := (bs.map (fun b => (bitsOf 8 b.toNat).length)).sum

/-- The RESULT word of an entry (R275). -/
def prefixResult (e : PrefixEntry) : Nat := 1 + 2 * e.action + 2 ^ 16 * e.sc + 2 ^ 32 * e.length

/-- The 128 bytes of a prefix place as read at BAR0 0x40_0000 + 128 i (R292). -/
def prefixBytes (s : State) (i : Nat) : Bytes :=
  match Tbl.get (fun _ => none) s.cls.prefixes i with
  | some e => e.key ++ e.mask ++ leBytes 8 (prefixResult e) ++ zeros 40
  | none => zeros 128

/-- Puts entries back at their indices. -/
def setPrefix (i : Nat) (e : Option PrefixEntry) (s : State) : State :=
  syncCls { s with cls := { s.cls with prefixes := Tbl.set (fun _ => none) s.cls.prefixes i e } }

/-- Places an entry at index `i`, moving the run of entries from `i` on up by one. -/
def prefixShift : Nat → Nat → PrefixEntry → State → State
  | 0, _, _, s => s
  | n + 1, i, e, s =>
    match Tbl.get (fun _ => none) s.cls.prefixes i with
    | none => setPrefix i (some e) s
    | some old => prefixShift n (i + 1) old (setPrefix i (some e) s)

/-- Places an entry at index `i`, moving the run of entries from `i` on down by one. -/
def prefixShiftDown : Nat → Nat → PrefixEntry → State → State
  | 0, _, _, s => s
  | n + 1, i, e, s =>
    match Tbl.get (fun _ => none) s.cls.prefixes i with
    | none => setPrefix i (some e) s
    | some old => prefixShiftDown n (i - 1) old (setPrefix i (some e) s)

/-- Inserts an entry after the last one of the same or greater LENGTH, moving entries toward the nearest
free index above, or below when none is free above; answers its index (R274, R276; log entry 13). -/
def prefixInsertAt (e : PrefixEntry) (s : State) : State × Nat :=
  let before := s.cls.prefixes.filter (fun x => match x.2 with
    | some y => decide (e.length ≤ y.length)
    | none => false)
  let i := match before.getLast? with
    | some x => x.1 + 1
    | none => 0
  let room := (List.range (32768 - i)).any (fun k => (Tbl.find s.cls.prefixes (i + k)).isNone)
  if room then (prefixShift 32768 i e s, i) else (prefixShiftDown 32768 (i - 1) e s, i - 1)

/-! ## The seal decision (R268, R269) -/

/-- The transmit SC of a decision, when usable. A frame classified to an SC that has been deleted meets the checks of R143,
where it finds no key (R196; log entry 108). -/
def usableSc (n i : Nat) (s : State) : State × Option Nat :=
  let e := s.scAt false i
  if (e.inUse && scSpan e == n) || (!e.inUse && e.deleted) then (s, some i) else (s.bump Reg.CLS_BADSC_DROPS, none)

/-- The group SC of a span. -/
def groupSc (n : Nat) (s : State) : State × Option Nat :=
  if s.bit (Reg.CLS_GROUP n) 31 then usableSc n (s.rdF (Reg.CLS_GROUP n) 0 14) s
  else (s.bump Reg.CLS_NOGROUP_DROPS, none)

/-- The effect of an action with its SC (R268). -/
def sealAction (n action sc : Nat) (p : Parsed) (s : State) : State × Option Nat :=
  match action with
  | 0 =>
    let s := chargeLookup n s
    match lookupPeer s (peerKey (spanCfg s n).line p.vid p.dmac) with
    | some e =>
      if eFlag e 1 then (s.bump Reg.CLS_LOCAL_DROPS, none)
      else if eFlag e 3 then groupSc n (s.bump Reg.CLS_SEAL_FLOODS)
      else usableSc n (eTarget e % 16384) s
    | none => groupSc n (s.bump Reg.CLS_SEAL_FLOODS)
  | 1 => usableSc n sc s
  | 2 => groupSc n s
  | _ => (s.bump Reg.CLS_POLICY_DROPS, none)

/-- The seal-direction decision for a frame from client port `m` of span `n`: its transmit SC, or a
counted discard (R268, R269). -/
def sealDecision (m n : Nat) (p : Parsed) (s : State) : State × Option Nat :=
  let c := s.actv (Reg.CLS_PORT m)
  let tagged := decide (0 < p.tags)
  if (Nat.testBit c 3 && !tagged) || (Nat.testBit c 4 && tagged) then (s.bump Reg.CLS_POLICY_DROPS, none)
  else if isGroup p.dmac then groupSc n s
  else
    let hit := if Nat.testBit c 2 then prefixLookup s (prefixKey n p) else none
    match hit with
    | some e => sealAction n e.action e.sc p s
    | none => sealAction n (field c 0 2) (field c 16 14) p s

/-! ## Open delivery (R271) -/

/-- Client ports an open frame is delivered to, and whether it is flooded (counted once it is verified). -/
def openPorts (n : Nat) (p : Parsed) (s : State) : List Nat × Bool :=
  let all := spanClients s n
  let r : List Nat × Bool :=
    if all.length < 2 ∨ isGroup p.dmac = true then (all, false)
    else
      match lookupPeer s (peerKey (spanCfg s n).line p.vid p.dmac) with
      | some e => if eFlag e 1 && !eFlag e 3 then ([eTarget e % 32], false) else (all, true)
      | none => (all, true)
  (r.1.filter (portUp s), r.2)

/-! ## Learning (R280 to R283) -/

/-- LEARN_MASK bit of a span. -/
def learns (s : State) (n : Nat) : Bool :=
  (match s.pat.active with
   | some a => Nat.testBit a.learnMask n
   | none => false) && !s.bit Reg.CLS_CTRL 0

/-- A station address that may be learned. -/
def learnable (mac : Bytes) : Bool := !isGroup mac && mac != zeros 6

/-- Queues a learn request unless the entry found needs none (R280, R281, R387). -/
def learnQueue (n : Nat) (r : LearnReq) (s : State) : State :=
  let s := chargeLookup n s
  let needed := match lookupPeer s (peerKey r.port r.vid r.mac) with
    | none => true
    | some e =>
      if eFlag e 1 != r.client || eTarget e != r.target then true
      else !eFlag e 2 && eStamp e != s.rd Reg.CLS_AGE_NOW
  if !needed then s
  else if s.evr.rebuilding || decide (8192 ≤ s.cls.learnQ.length) then
    clsEvent 2 (s.bump Reg.CLS_LEARN_OVF)
  else syncCls { s with cls := { s.cls with learnQ := s.cls.learnQ ++ [r] } }

/-- The learn request of a verified open frame of receive SC `r` (R280). -/
def learnOpen (n rxsc : Nat) (p : Parsed) (s : State) : State :=
  if learns s n && learnable p.smac then
    let m := s.rd (Reg.CLS_PEERMAP rxsc)
    if Nat.testBit m 31 then
      learnQueue n { client := false, port := (spanCfg s n).line, vid := p.vid, mac := p.smac,
                     target := field m 0 14, rxsc := rxsc } s
    else s.bump Reg.CLS_LEARN_NOMAP
  else s

/-- The learn request of a seal frame with a good FCS on a span with two or more client ports (R280). -/
def learnSeal (n m : Nat) (p : Parsed) (s : State) : State :=
  if learns s n && learnable p.smac && decide (2 ≤ (spanClients s n).length) then
    learnQueue n { client := true, port := (spanCfg s n).line, vid := p.vid, mac := p.smac, target := m,
                   rxsc := 0xFFFF } s
  else s

/-- CLS_LAST and CLS_LAST_MAC of a conflict or failure, and its event (R292). -/
def clsLast (b lp type vid : Nat) (mac : Bytes) (s : State) : State :=
  let s := s.wr Reg.CLS_LAST (lp + 2 ^ 5 * type + 2 ^ 8 * vid + 2 ^ 31)
  let s := (s.wr Reg.CLS_LAST_MAC_LO (beAt mac 2 4)).wr Reg.CLS_LAST_MAC_HI (beAt mac 0 2)
  clsEvent b s

/-- The lowest free place of a bucket. -/
def freePlace (s : State) (b : Nat) : Option Nat :=
  ((List.range 8).map (fun k => 8 * b + k)).find? (fun i => !eFlag (s.peerAt i) 0)

/-- The other bucket of a resident entry. -/
def otherBucket (s : State) (i : Nat) : Nat :=
  let b := peerBuckets s (eKey (s.peerAt i))
  if b.1 = i / 8 then b.2 else b.1

/-- The last move of a path of at most `k` moves that starts in bucket `b`: source and free destination. -/
def movePath (s : State) : Nat → Nat → Option (Nat × Nat)
  | 0, _ => none
  | k + 1, b =>
    let places := (List.range 8).map (fun p => 8 * b + p)
    match places.findSome? (fun i => (freePlace s (otherBucket s i)).map (fun d => (i, d))) with
    | some m => some m
    | none => places.findSome? (fun i => movePath s k (otherBucket s i))

/-- How an insert stands. -/
inductive Placed where
  | done (place : Nat)
  | moving
  | failed
deriving DecidableEq, Repr

/-- Inserts an entry (R283): into a free place of b0, else of b1, else one move of a relocation path is made
and its original awaits clearing. -/
def peerInsert (e : Bytes) (s : State) : State × Placed :=
  let b := peerBuckets s (eKey e)
  if clsLimit s ≤ validCount s then (s, .failed)
  else
    match (freePlace s b.1).orElse (fun _ => freePlace s b.2) with
    | some i => (s.setPeer i e, .done i)
    | none =>
      match (movePath s 4 b.1).orElse (fun _ => movePath s 4 b.2) with
      | none => (s, .failed)
      | some (src, dst) =>
        let s := { s with cls := { s.cls with relocated := s.cls.relocated ++ [(src, dst)] } }
        (s.setPeer dst (s.peerAt src), .moving)

/-- Whether the host holds a bucket's lock. -/
def hostLocked (s : State) (b : Nat) : Bool := (Tbl.get (fun _ => none) s.cls.locks b).isSome

/-- Whether a bucket that a change of the entry with this key touches is locked by the host: its two buckets, and for an
insert that finds both full those of the move it makes (R283, R290). -/
def keyLocked (s : State) (key : Bytes) : Bool :=
  let b := peerBuckets s key
  hostLocked s b.1 || hostLocked s b.2 ||
  ((findPeer s key).isNone && (freePlace s b.1).isNone && (freePlace s b.2).isNone &&
    (match (movePath s 4 b.1).orElse (fun _ => movePath s 4 b.2) with
     | some (src, dst) => hostLocked s (src / 8) || hostLocked s (dst / 8)
     | none => false))

/-- Whether a learn request waits for a locked bucket. -/
def reqLocked (s : State) (r : LearnReq) : Bool := keyLocked s (peerKey r.port r.vid r.mac)

/-- Takes the oldest request off the queue; the work that waits behind it has one fewer before it. -/
def dropReq (s : State) : State :=
  syncCls { s with cls := { s.cls with
    learnQ := s.cls.learnQ.tail, jobs := s.cls.jobs.map (fun j => { j with ahead := j.ahead - 1 }) } }

/-- The learn engine is free: no relocation runs. -/
def engineFree (s : State) : Bool := s.cls.relocated.isEmpty

/-- The learn engine holds a bucket while an entry moves from or to it. -/
def engineHolds (s : State) (b : Nat) : Bool := s.cls.relocated.any (fun m => m.1 / 8 == b || m.2 / 8 == b)

/-- Hold-down of an entry is active (R282). -/
def holdDown (s : State) (e : Bytes) : Bool :=
  decide ((s.rd (Reg.TB_NS 0) + 2 ^ 32 - leAt e 16 4) % 2 ^ 32 < 1000000000)

/-- Commits the oldest learn request (R282); a change of the table goes to the standby (R474). -/
def commitReq (r : LearnReq) (s : State) : State :=
  let key := peerKey r.port r.vid r.mac
  let now := s.rd Reg.CLS_AGE_NOW
  let ns := s.rd (Reg.TB_NS 0)
  match findPeer s key with
  | none =>
    let e := mkEntry (1 + 2 * b2n r.client) r.port r.vid r.mac now r.target r.rxsc ns 0 (zeros 40)
    let x := peerInsert e s
    match x.2 with
    | .done _ => (dropReq (x.1.bump Reg.CLS_LEARNS)).mirror (HrnMsg.learn 0 e)
    | .moving => x.1
    | .failed => dropReq (clsLast 1 r.port (b2n r.client) r.vid r.mac (x.1.bump Reg.CLS_INSERT_FAILS))
  | some i =>
    let e := s.peerAt i
    let same := eFlag e 1 == r.client && eTarget e == r.target
    if eFlag e 2 then dropReq (if same then s else s.bump Reg.CLS_STATIC_HITS)
    else if same then
      let e := splice e 10 (leBytes 2 now)
      (dropReq (s.setPeer i e)).mirror (HrnMsg.learn 1 e)
    else if holdDown s e then
      let e' := splice e 0 (leBytes 1 (byteAt e 0 ||| 8))
      let s := clsLast 0 r.port (b2n r.client) r.vid r.mac (s.bump Reg.CLS_CONFLICTS)
      (dropReq (s.setPeer i e')).mirror (HrnMsg.learn 1 e')
    else
      let e := mkEntry (1 + 2 * b2n r.client) r.port r.vid r.mac now r.target r.rxsc ns (satInc (leAt e 20 4) 1)
        (slice e 24 40)
      ((dropReq (s.setPeer i e)).bump Reg.CLS_MOVES).mirror (HrnMsg.learn 1 e)

/-- The engine takes the oldest learn request: one for a locked bucket waits and is counted once (R281, R290). -/
def learnHead (s : State) : State :=
  match s.cls.learnQ with
  | [] => s
  | r :: rest =>
    if !reqLocked s r then commitReq r s
    else if r.waited then s
    else { (s.bump Reg.CLS_LEARN_LOCKED) with cls := { s.cls with learnQ := { r with waited := true } :: rest } }

/-! ## Aging (R284, R285) -/

/-- Age time A. -/
def ageTime (s : State) : Nat := s.rdF Reg.CLS_AGE 0 20

/-- A dynamic entry older than `a` seconds. -/
def expired (s : State) (a : Nat) (e : Bytes) : Bool :=
  !eFlag e 2 && decide (a ≤ ((s.rd Reg.CLS_AGE_NOW + 65536 - eStamp e) % 65536) * 16)

/-- Valid entries of a bucket, as places. -/
def bucketPlaces (s : State) (b : Nat) (p : Bytes → Bool) : List Nat :=
  ((List.range 8).map (fun k => 8 * b + k)).filter (fun i => eFlag (s.peerAt i) 0 && p (s.peerAt i))

/-- Removes the entries at places; the standby is told. -/
def clearPlaces (l : List Nat) (s : State) : State :=
  l.foldl (fun s i => (s.setPeer i (zeros 64)).mirror (HrnMsg.learn 2 (s.peerAt i))) s

/-- The ager's visit to a bucket. -/
def agerWork (b : Nat) (s : State) : State :=
  let l := bucketPlaces s b (expired s (ageTime s))
  if l.isEmpty then s else (clearPlaces l s).bump Reg.CLS_AGED l.length

/-- A write of CLS_AGE (R284). -/
def ageWrite (v : Nat) (s : State) : State :=
  let a := v % 2 ^ 20
  if 16 ≤ a ∧ a ≤ 1000000 then s.wr Reg.CLS_AGE a else s.setBit Reg.CLS_STATUS 1 true

/-- The age tick at every 16th second marker of TB0 (R284). -/
def ageTick (s : State) : State := s.wr Reg.CLS_AGE_NOW ((s.rd Reg.CLS_AGE_NOW + 1) % 65536)

/-! ## Host commands (R287, R288) -/

/-- CLS_CMD_STATUS.BUSY. -/
def clsBusy (s : State) : Bool := s.bit Reg.CLS_CMD_STATUS 0

/-- Records the running command and sets BUSY. -/
def clsRun (c : ClsCmd) (s : State) : State :=
  { s with cls := { s.cls with cmd := some c } }.setBit Reg.CLS_CMD_STATUS 0 true

/-- A finished command: its result and CLS_CMD_OUT at completion. -/
def clsDone (code result out : Nat) (s : State) : State := clsRun { code := code, result := result, out := out } s

/-- CLS_CMD_DATA as the 64 bytes of an entry. -/
def cmdData (s : State) : Bytes := s.rdBytes (Reg.CLS_CMD_DATA 0) 16

/-- The span, if any, whose line port is `lp` and which is a Frame span. -/
def frameSpanOf (s : State) (lp : Nat) : Option Nat :=
  (List.range 32).find? (fun n => patMode s n == .frame && (spanCfg s n).line == lp)

/-- A key or entry is well-formed: LP the line port of a frame span, no reserved bit, VALID where asked. -/
def badKey (s : State) (e : Bytes) (entry : Bool) : Bool :=
  (frameSpanOf s (eLp e)).isNone || decide (4096 ≤ eVid e) ||
  (entry && (decide (16 ≤ byteAt e 0) || !eFlag e 0))

/-- TARGET does not fit the entry's span and TYPE. -/
def badTarget (s : State) (e : Bytes) : Bool :=
  match frameSpanOf s (eLp e) with
  | none => true
  | some n =>
    if eFlag e 1 then !((spanClients s n).contains (eTarget e))
    else
      let c := s.scAt false (eTarget e)
      !(c.inUse && scSpan c == n) || decide (16384 ≤ eTarget e)

/-- CLS_CMD_OUT of a place: bucket and place. -/
def placeOut (i : Nat) : Nat := i / 8 + 2 ^ 24 * (i % 8)

/-- LOOKUP: the entry is copied into DATA at completion. -/
def cmdLookup (s : State) : State :=
  let d := cmdData s
  if badKey s d false then clsDone 1 4 0 s
  else
    match findPeer s (eKey d) with
    | some i => clsRun { code := 1, out := placeOut i, data := s.peerAt i } s
    | none => clsDone 1 1 0 s

/-- INSERT proceeds: placed, or one relocation move made. A key already present is EXISTS. -/
def insertWork (s : State) : State :=
  let d := cmdData s
  let e := mkEntry (byteAt d 0) (eLp d) (eVid d) (eMac d) (eStamp d) (eTarget d) 0xFFFF (s.rd (Reg.TB_NS 0)) 0
    (slice d 24 40)
  if (findPeer s (eKey d)).isSome then clsDone 2 2 0 s
  else
    let x := peerInsert e s
    match x.2 with
    | .done i => (clsDone 2 0 (placeOut i) x.1).mirror (HrnMsg.learn 0 e)
    | .moving => x.1
    | .failed => clsDone 2 3 0 x.1

/-- UPDATE: FLAGS, TARGET, STAMP and USER replaced. -/
def updateWork (s : State) : State :=
  let d := cmdData s
  match findPeer s (eKey d) with
  | none => clsDone 3 1 0 s
  | some i =>
    let o := s.peerAt i
    let e := mkEntry (byteAt d 0) (eLp d) (eVid d) (eMac d) (eStamp d) (eTarget d) (leAt o 14 2) (leAt o 16 4)
      (leAt o 20 4) (slice d 24 40)
    (clsDone 3 0 (placeOut i) (s.setPeer i e)).mirror (HrnMsg.learn 1 e)

/-- DELETE. -/
def deleteWork (s : State) : State :=
  match findPeer s (eKey (cmdData s)) with
  | none => clsDone 4 1 0 s
  | some i => clsDone 4 0 0 (clearPlaces [i] s)

/-- The command in progress. -/
def commandWork (s : State) : State :=
  match s.cls.cmd with
  | none => s
  | some c => if c.code = 2 then insertWork s else if c.code = 3 then updateWork s else deleteWork s

/-! ## The learn engine (R281, R290) -/

/-- The 512 bytes of a bucket. -/
def bucketBytes (s : State) (b : Nat) : Bytes := (List.range 8).flatMap (fun k => s.peerAt (8 * b + k))

/-- Counts a window violation. -/
def winViol (s : State) : State := clsEvent 4 (s.bump Reg.CLS_WIN_VIOL)

/-- The host's lock and shadow of a bucket go. -/
def unlock (b : Nat) (s : State) : State :=
  { s with cls := { s.cls with locks := Tbl.set (fun _ => none) s.cls.locks b none,
                               shadows := Tbl.set (fun _ => none) s.cls.shadows b none } }

/-- The entries of a shadow. -/
def shadowEntries (sh : Bytes) : List Bytes := (List.range 8).map (fun k => slice sh (64 * k) 64)

/-- A shadow that may not be committed (R290). -/
def shadowBad (s : State) (b : Nat) (sh : Bytes) : Bool :=
  let valid := (shadowEntries sh).filter (fun e => eFlag e 0)
  let keys := valid.map eKey
  let old := (bucketPlaces s b (fun _ => true)).length
  let elsewhere := fun k => match findPeer s k with
    | some i => i / 8 != b
    | none => false
  valid.any (fun e => let x := peerBuckets s (eKey e); x.1 != b && x.2 != b) ||
  keys.dedup.length != keys.length || keys.any elsewhere ||
  decide (clsLimit s < validCount s + valid.length - old)

/-- The shadow of a bucket is committed in one update, or rejected, and the lock released. -/
def commitWork (b : Nat) (s : State) : State :=
  match Tbl.get (fun _ => none) s.cls.shadows b with
  | none => s
  | some sh =>
    let s := unlock b s
    if shadowBad s b sh then winViol s
    else if sh = bucketBytes s b then s
    else
      let v := Tbl.get (fun _ => 0) s.cls.versions b
      let s := (List.range 8).foldl (fun s k => s.setPeer (8 * b + k) (slice sh (64 * k) 64)) s
      { s with cls := { s.cls with versions := Tbl.set (fun _ => 0) s.cls.versions b ((v + 1) % 65536) } }

/-- An entry of the active module: 0 insert, 1 move, 2 remove (R474, R476). -/
def mirroredWork (op : Nat) (e : Bytes) (s : State) : State :=
  match findPeer s (eKey e), op with
  | some i, 2 => s.setPeer i (zeros 64)
  | some i, _ => s.setPeer i e
  | none, 2 => s
  | none, _ => (peerInsert e s).1

/-- Whether the engine can do a piece of work now: it is free, the learn requests before it are done, and no bucket it
changes is locked by the host, its own for a commit apart. -/
def jobReady (s : State) (j : EngineJob) : Bool :=
  engineFree s && j.ahead == 0 &&
  (match j.work with
   | .command => !keyLocked s (eKey (cmdData s))
   | .visit b => !hostLocked s b
   | .commit _ => true
   | .mirrored _ e => !keyLocked s (eKey e))

/-- Does a piece of work. An entry that is mirrored and first calls for a relocation stays. -/
def runJob (j : EngineJob) (s : State) : State :=
  match j.work with
  | .command => commandWork s
  | .visit b => agerWork b s
  | .commit b => commitWork b s
  | .mirrored op e =>
    let t := mirroredWork op e s
    if engineFree t then t else { t with cls := { t.cls with jobs := j :: t.cls.jobs } }

/-- The engine does the work that waits and can be done, the oldest first. -/
def engineRun : Nat → State → State
  | 0, s => s
  | n + 1, s =>
    match s.cls.jobs.find? (jobReady s) with
    | none => s
    | some j => engineRun n (runJob j { s with cls := { s.cls with jobs := s.cls.jobs.erase j } })

/-- The engine goes on with what waits. -/
def engineGo (s : State) : State := engineRun (s.cls.jobs.length + 1) s

/-- Work for the engine, behind `ahead` learn requests. -/
def engineDo (work : EngineWork) (ahead : Nat) (s : State) : State :=
  engineGo { s with cls := { s.cls with jobs := s.cls.jobs ++ [⟨work, ahead⟩] } }

/-- The learn engine commits the oldest request, then does the work that waited for it. While a relocation runs, nothing
else is committed. -/
def learnCommit (s : State) : State := if engineFree s then engineGo (learnHead s) else s

/-- The ager visits a bucket. -/
def agerVisit (b : Nat) (s : State) : State :=
  if s.evr.rebuilding then s else engineDo (.visit b) s.cls.learnQ.length s

/-- A relocated entry's original is cleared, and the insert that waits for it goes on (R283). -/
def relocateClear (s : State) : State :=
  match s.cls.relocated with
  | [] => s
  | m :: rest =>
    let s := { s with cls := { s.cls with relocated := rest } }.setPeer m.1 (zeros 64)
    let inserting : Bool := match s.cls.cmd with
      | some c => c.code == 2 && !c.done && !s.cls.jobs.any (fun j => j.work == .command)
      | none => false
    let mirroring : Bool := match s.cls.jobs with
      | ⟨.mirrored _ _, 0⟩ :: _ => true
      | _ => false
    if inserting then engineGo { s with cls := { s.cls with jobs := ⟨.command, 0⟩ :: s.cls.jobs } }
    else if mirroring then engineGo s
    else engineGo (learnHead s)

/-- INSERT. -/
def cmdInsert (s : State) : State :=
  let d := cmdData s
  if badKey s d true then clsDone 2 4 0 s
  else if badTarget s d then clsDone 2 5 0 s
  else engineDo .command s.cls.learnQ.length (clsRun { code := 2, done := false } s)

/-- UPDATE. -/
def cmdUpdate (s : State) : State :=
  let d := cmdData s
  if badKey s d true then clsDone 3 4 0 s
  else if badTarget s d then clsDone 3 5 0 s
  else engineDo .command s.cls.learnQ.length (clsRun { code := 3, done := false } s)

/-- DELETE. -/
def cmdDelete (s : State) : State :=
  if badKey s (cmdData s) false then clsDone 4 4 0 s
  else engineDo .command s.cls.learnQ.length (clsRun { code := 4, done := false } s)

/-- ARG0 names only Frame spans of the active Pattern, at least one. -/
def spanArgOk (s : State) : Bool :=
  let a := s.rd (Reg.CLS_CMD_ARG 0)
  a != 0 && (bitsOf 32 a).all (fun n => patMode s n == .frame)

/-- AGE_SWEEP: starts a walk over the buckets. -/
def cmdAgeSweep (s : State) : State :=
  let a := s.rd (Reg.CLS_CMD_ARG 1)
  if spanArgOk s && (a == 0 || (decide (16 ≤ a) && decide (a ≤ 1000000))) then
    clsRun { code := 5, bucket := some 0, done := false } s
  else clsDone 5 9 0 s

/-- FLUSH_SPAN: starts a walk over the buckets. -/
def cmdFlush (s : State) : State :=
  if spanArgOk s && decide (s.rd (Reg.CLS_CMD_ARG 1) < 2) then
    clsRun { code := 6, bucket := some 0, done := false } s
  else clsDone 6 9 0 s

/-- A walk visits its next bucket and removes what it names there (R287). -/
def sweepBucket (s : State) : State :=
  match s.cls.cmd with
  | none => s
  | some c =>
    match c.bucket with
    | none => s
    | some b =>
      if !engineFree s || hostLocked s b then s else
      let arg1 := s.rd (Reg.CLS_CMD_ARG 1)
      let lps := (bitsOf 32 (s.rd (Reg.CLS_CMD_ARG 0))).map (fun n => (spanCfg s n).line)
      let gone := fun e => lps.contains (eLp e) &&
        (if c.code = 5 then expired s (if arg1 = 0 then ageTime s else arg1) e
         else Nat.testBit arg1 0 || !eFlag e 2)
      let l := bucketPlaces s b gone
      let s := clearPlaces l s
      let last := b + 1 == clsBuckets s
      clsRun { c with out := c.out + l.length, bucket := if last then none else some (b + 1), done := last } s

/-- PKEY or PMASK as 40 bytes: word i holds bytes 4i on, byte 4i in bits [31:24]. -/
def prefixArg (a : Nat) (s : State) : Bytes := (List.range 10).flatMap (fun i => beBytes 4 (s.rd (a + 4 * i)))

/-- Reserved bits of a prefix KEY or MASK (R273). -/
def prefixReserved (k : Bytes) : Bool :=
  Nat.testBit (byteAt k 0) 5 || byteAt k 11 % 4 != 0 || byteAt k 15 != 0 || byteAt k 38 != 0 || byteAt k 39 != 0

/-- Index of the entry with a KEY and MASK. -/
def findPrefix (s : State) (k m : Bytes) : Option Nat :=
  (s.cls.prefixes.find? (fun x => match x.2 with
    | some e => e.key == k && e.mask == m
    | none => false)).map Prod.fst

/-- The entry that the PKEY, PMASK and PRES registers describe. -/
def prefixArgs (s : State) : PrefixEntry :=
  let m := prefixArg (Reg.CLS_CMD_PMASK 0) s
  let r := s.rd64 (Reg.CLS_CMD_PRES 0)
  { key := prefixArg (Reg.CLS_CMD_PKEY 0) s, mask := m, action := field r 1 2,
    sc := if field r 1 2 = 1 then field r 16 14 else 0, length := popcount m }

/-- That entry may not be inserted: a key bit outside the mask, a reserved bit, or an SC that is not of its span
(R273, R275, R276). -/
def prefixBad (s : State) : Bool :=
  let e := prefixArgs s
  let r := s.rd64 (Reg.CLS_CMD_PRES 0)
  let c := s.scAt false e.sc
  let spanFull := byteAt e.mask 0 % 32 == 31
  andBytes e.key e.mask != e.key || prefixReserved e.key || prefixReserved e.mask ||
    field r 3 13 != 0 || field r 30 2 != 0 || field r 41 23 != 0 ||
    (e.action == 1 && spanFull && !(c.inUse && scSpan c == byteAt e.key 0 % 32))

/-- PREFIX_INSERT (R276). -/
def cmdPrefixInsert (s : State) : State :=
  let e := prefixArgs s
  if prefixBad s then clsDone 7 7 0 s
  else
    match findPrefix s e.key e.mask with
    | some i => clsDone 7 0 i (setPrefix i (some e) s)
    | none =>
      if 32768 ≤ s.cls.prefixes.length then clsDone 7 6 0 s
      else
        let x := prefixInsertAt e s
        clsDone 7 0 x.2 x.1

/-- PREFIX_DELETE. -/
def cmdPrefixDelete (s : State) : State :=
  match findPrefix s (prefixArg (Reg.CLS_CMD_PKEY 0) s) (prefixArg (Reg.CLS_CMD_PMASK 0) s) with
  | some i => clsDone 8 0 i (setPrefix i none s)
  | none => clsDone 8 1 0 s

/-- A command of a code, ignored while BUSY (R288). -/
def clsCommand (code : Nat) (s : State) : State :=
  if clsBusy s then s.setBit Reg.CLS_CMD_STATUS 1 true
  else
    match code with
    | 1 => cmdLookup s
    | 2 => cmdInsert s
    | 3 => cmdUpdate s
    | 4 => cmdDelete s
    | 5 => cmdAgeSweep s
    | 6 => cmdFlush s
    | 7 => cmdPrefixInsert s
    | 8 => cmdPrefixDelete s
    | _ => clsDone code 8 0 s

/-- A write of CLS_CMD (R287). -/
def clsCmdWrite (v : Nat) (s : State) : State :=
  if clsBusy s then s.setBit Reg.CLS_CMD_STATUS 1 true
  else if Nat.testBit v 31 then clsCommand (v % 16) s else s

/-- The completion of a finished command: RESULT, CLS_CMD_OUT, BUSY 0, vector 3; after LOOKUP, DATA (R288). -/
def clsComplete (s : State) : State :=
  match s.cls.cmd with
  | none => s
  | some c =>
    if !c.done then s
    else
      let s := { s with cls := { s.cls with cmd := none } }
      let s := if c.code = 1 ∧ c.result = 0 then s.wrBytes (Reg.CLS_CMD_DATA 0) c.data else s
      let s := (s.wrF Reg.CLS_CMD_STATUS 8 8 c.result).wr Reg.CLS_CMD_OUT c.out
      raiseVector 3 (s.setBit Reg.CLS_CMD_STATUS 0 false)

/-! ## The compact bucket window (R289, R290) -/

/-- The lock word of a bucket: LOCKED and HOST of the host's lock, LOCKED of the engine's. -/
def lockWord (s : State) (b : Nat) : Nat :=
  (if hostLocked s b then 3 else b2n (engineHolds s b)) + 2 ^ 16 * Tbl.get (fun _ => 0) s.cls.versions b

/-- The word that BAR2 shows at an offset of the bucket window: of the committed bucket; all ones with the full layout
(R289, R290). -/
def windowRead (s : State) (a : Nat) : Nat :=
  let o := a - 0x2000000 + s.rdF Reg.CLS_WIN_PAGE 0 2 * 2 ^ 25
  if clsLayout s ≠ 0 then 0xFFFFFFFF else leAt (bucketBytes s (o / 512)) (o % 512) 4

/-- A read of a lock word: the lock is taken when it was free; with the full layout all ones. -/
def lockRead (b : Nat) (s : State) : State :=
  if clsLayout s ≠ 0 ∨ clsBuckets s ≤ b then s.emit (.readData [0xFFFFFFFF#32])
  else
    let s' := s.emit (.readData [word (lockWord s b)])
    if hostLocked s b || engineHolds s b then s'
    else { s' with cls := { s'.cls with
      locks := Tbl.set (fun _ => none) s'.cls.locks b (some s'.refTick),
      shadows := Tbl.set (fun _ => none) s'.cls.shadows b (some (bucketBytes s b)) } }

/-- One word written to the window at BAR2 offset `a` (0x200_0000 on). -/
def windowWord (a : Nat) (w : Word) (s : State) : State :=
  let o := a - 0x2000000 + s.rdF Reg.CLS_WIN_PAGE 0 2 * 2 ^ 25
  let b := o / 512
  if clsLayout s ≠ 0 then s.bump Reg.CLS_WIN_VIOL
  else
    match Tbl.get (fun _ => none) s.cls.shadows b with
    | some sh =>
      let sh := splice sh (o % 512) (leBytes 4 w.toNat)
      { s with cls := { s.cls with shadows := Tbl.set (fun _ => none) s.cls.shadows b (some sh) } }
    | none => winViol s

/-- Words written to the window from an offset on. -/
def windowWrite : Nat → List Word → State → State
  | _, [], s => s
  | a, w :: t, s => windowWrite (a + 4) t (windowWord a w s)

/-- A write of 0 to a lock word the host holds: the shadow is committed and the lock released. The commit waits for a
relocation that runs, not for learn requests, some of which may wait for the lock. -/
def bucketCommit (b : Nat) (s : State) : State :=
  if clsLayout s ≠ 0 then s.bump Reg.CLS_WIN_VIOL
  else if hostLocked s b then engineGo (engineDo (.commit b) 0 s)
  else s

/-- A write with ABORT: the shadow is discarded and the lock released. -/
def bucketAbort (b : Nat) (s : State) : State :=
  if clsLayout s ≠ 0 then s.bump Reg.CLS_WIN_VIOL else engineGo (unlock b s)

/-- A write of a lock word: 0 commits, ABORT releases, any other value changes nothing. -/
def lockWrite (b v : Nat) (s : State) : State :=
  if v = 0 then bucketCommit b s
  else if v % 8 = 4 then bucketAbort b s
  else if clsLayout s ≠ 0 then s.bump Reg.CLS_WIN_VIOL else s

/-- The lock held longest passes 100 µs: released as ABORT and counted. -/
def lockTimeout (s : State) : State :=
  let held := (s.cls.locks.filter (fun e => !s.cls.jobs.any (fun j => j.work == .commit e.1))).filterMap
    (fun e => e.2.map (fun t => (t, e.1)))
  match held with
  | [] => s
  | h :: t =>
    let m := t.foldl (fun m x => if x.1 < m.1 then x else m) h
    engineGo (winViol (unlock m.2 s))

/-- Every host-held lock is released as ABORT (PERST#, firmware restart). -/
def releaseLocks (s : State) : State :=
  engineGo { s with cls := { s.cls with
    locks := [], shadows := [], jobs := s.cls.jobs.filter (fun j => match j.work with
      | .commit _ => false
      | _ => true) } }

/-- CLSP: every CLS_PORT shadow applies; between commands every client port is at a frame boundary (R292). -/
def clspCommit (s : State) : State :=
  (List.range 32).foldl (fun s m => s.wrAct (Reg.CLS_PORT m) (s.rd (Reg.CLS_PORT m))) s

/-- The peer table and the learn queue are emptied (R291, R387). A command that waits for the engine then acts on the
empty table. -/
def emptyPeers (s : State) : State :=
  let waiting : Bool := match s.cls.cmd with
    | some c => !c.done && c.bucket.isNone
    | none => false
  engineGo (syncCls { s with cls := { s.cls with
    peers := [], versions := [], learnQ := [], relocated := [], shadows := [], locks := [],
    jobs := if waiting then [⟨.command, 0⟩] else [] } })

end Sys2Proof.Machine
end

