-- ==== Sys2Proof/Machine/Clock.lean ====
section
/-! DEFINITION. Reading the time bases: increment, step-free count, residence time (R353, R370, R371). -/

namespace Sys2Proof.Machine

/-- State of base b. -/
def State.baseAt (s : State) (b : Nat) : BaseState := Tbl.get (fun _ => {}) s.tim.base b

/-- Sets state of base b. -/
def State.setBase (s : State) (b : Nat) (x : BaseState) : State :=
  { s with tim := { s.tim with base := Tbl.set (fun _ => {}) s.tim.base b x } }

/-- TB_EN of the active Pattern. -/
def baseOn (s : State) (b : Nat) : Bool := s.bit (Reg.TB_STATUS b) 0

/-- Advance of a base per tick in fifths of 2^-32 ns: 32 × (2^32 + FADJ) (R353). -/
def baseInc (s : State) (b : Nat) : Nat := (32 * ((2 ^ 32 : Int) + signedOf 32 (s.rd (Reg.TB_FADJ b)))).toNat

/-- Step-free counts of the four bases, taken at ingress (R368, R371). -/
def shadowsNow (s : State) : List Nat := (List.range 4).map (fun b => (s.baseAt b).shadow)

/-- The residence time of a frame at its release on base b, in units of 2^-16 ns, rounded to nearest:
(release + D_TX) − ingress on the step-free shadow, `dtx` in ns (R370, R371, R376). -/
def residence (s : State) (b dtx : Nat) (shadows : List Nat) : Nat :=
  let d := (s.baseAt b).shadow + dtx * baseInc s b * 5 / 32 - shadows.getD b 0
  (d + 5 * 2 ^ 15) / (5 * 2 ^ 16)

/-- TB0 at the output land for a release now (R368, R393). -/
def egressNs (s : State) (dtx : Nat) : Nat := (s.rd (Reg.TB_NS 0) + dtx) % 2 ^ 32

end Sys2Proof.Machine
end

