-- ==== Sys2Proof/Machine/Sched.lean ====
section
/-! DEFINITION. Admission, scheduling, gates, shapers, spill, flow control and queue sampling (R294 to R321),
with the correction and commit patch at release (R372, R373) and departure (R95, R205, R390). -/

namespace Sys2Proof.Machine

/-! ## Lengths and readiness -/

/-- Length of a frame at its output port, DA to FCS. -/
def outLen (f : Frame) : Nat := if f.bypass || f.opening then f.client.length else f.line.length + 20

/-- Wire length W (R295). -/
def wireLen (f : Frame) : Nat := outLen f + 20

/-- Rate of a port in Mb/s. -/
def portRate (s : State) (p : Nat) : Nat := typeRate (portCfg s p).type

/-- The fabric has delivered every frame of the same span and direction that was admitted before (R81). -/
def delivered (s : State) (f : Frame) : Bool :=
  !s.sch.frames.any (fun e => e.2.span == f.span && e.2.opening == f.opening && !e.2.bypass && e.2.stomp.isNone &&
    decide (e.2.order < f.order) && e.2.cellsLeft != 0)

/-- Held on-die with every cell completed and delivered in order; a store-and-forward frame also checked (R81, R141,
R299). -/
def frameReady (s : State) (f : Frame) : Bool :=
  f.cellsLeft == 0 && (f.bypass || delivered s f) && (!f.storeForward || f.verdict == .good)

/-- The head of a queue, when held. -/
def headId (s : State) (p c : Nat) : Option Nat :=
  match s.queue p c with
  | .held id :: _ => some id
  | _ => none

/-- A queue's head frame, when it is ready. -/
def readyHead (s : State) (p c : Nat) : Option (Nat × Frame) :=
  (headId s p c).bind (fun id => if frameReady s (s.frameAt id) then some (id, s.frameAt id) else none)

/-! ## Gate position (R304, R308) -/

/-- Ns since the latest M + P of a base at time `t`, M any second marker (R304). -/
def sinceMarker (t mark phase : Nat) : Nat := (5000000000 - (mark + phase + 2 ^ 32 - t) % 2 ^ 32) % 1000000000

/-- Ns since the latest start instant of a schedule. -/
def intoCycle (t mark : Nat) (l : GateList) : Nat := sinceMarker t mark l.phase % max 1 l.cycle

/-- Length of the cycle that starts at `t`: cut short at the next M + P, or, for a first cycle under a new
list, at the next start instant (R304, R307). -/
def cycleLen (t mark : Nat) (l : GateList) : Nat :=
  let e := sinceMarker t mark l.phase
  min (l.cycle - e % max 1 l.cycle) (1000000000 - e)

/-- The entry in force `x` ns into a list, with the ns since it began. -/
def entryAt : List GateEntry → Nat → Nat → Nat × Nat
  | [], _, x => (0, x)
  | [_], i, x => (i, x)
  | e :: t, i, x => if x < e.dur then (i, x) else entryAt t (i + 1) (x - e.dur)

/-- Now on the gate time base of a port. -/
def gateNow (s : State) (ps : PortSched) : Nat := s.rd (Reg.TB_NS ps.tb)

/-- The next second marker of the gate time base. -/
def gateMark (s : State) (ps : PortSched) : Nat := s.rd (Reg.TB_SECMARK ps.tb)

/-- Takes the list position from the time (R304, R308). -/
def gatePosition (s : State) (ps : PortSched) : PortSched :=
  let now := gateNow s ps
  let x := intoCycle now (gateMark s ps) ps.list
  let e := entryAt ps.list.entries 0 x
  { ps with entry := e.1, entryStart := (now + 2 ^ 32 - e.2) % 2 ^ 32, cycleStart := (now + 2 ^ 32 - x) % 2 ^ 32 }

/-- SCH_GSTAT of a line port follows its gates; without gates every class is open (R304). -/
def syncGstat (p : Nat) (s : State) : State :=
  let ps := s.portAt (32 + p)
  let gates := if ps.gatesOn then (ps.list.entries.getD ps.entry {}).gates else 0xFF
  s.wr (Reg.SCH_GSTAT p) ((if ps.gatesOn then ps.entry else 0) + 2 ^ 16 * gates + 2 ^ 24 * b2n ps.gatesOn +
    2 ^ 25 * b2n ps.pending.isSome)

/-- Elapsed ns from `a` to `t`, 0 when `a` is ahead. -/
def elapsed (a t : Nat) : Nat := let d := (t + 2 ^ 32 - a) % 2 ^ 32; if d < 2 ^ 31 then d else 0

/-- Whether an entry opens class `c`. -/
def opens (e : GateEntry) (c : Nat) : Bool := Nat.testBit e.gates c

/-- Whether a class is open in every entry of a list. -/
def alwaysOpen (l : List GateEntry) (c : Nat) : Bool := l.all (fun e => opens e c)

/-- Ns from the start of a list for which a class stays open. -/
def openRun : List GateEntry → Nat → Nat
  | [], _ => 0
  | e :: t, c => if opens e c then e.dur + openRun t c else 0

/-- Ns left in the open window of a class, none for a window with no end: to the first entry that closes it, to the end of
a shortened cycle, or across the cycle boundary into the next cycle of the list then in force (R305). -/
def windowLeft (s : State) (ps : PortSched) (c : Nat) : Option Nat :=
  let now := gateNow s ps
  let cur := ps.list.entries.getD ps.entry {}
  let next := ps.pending.getD ps.list
  let len := cycleLen ps.cycleStart (gateMark s ps) ps.list
  let left := len - elapsed ps.cycleStart now
  let run := cur.dur - elapsed ps.entryStart now + openRun (ps.list.entries.drop (ps.entry + 1)) c
  let always := alwaysOpen ps.list.entries c
  if !opens cur c then some 0
  else if !always && decide (run < left) then some run
  else if !always && decide (len < ps.list.cycle) then some left
  else if alwaysOpen next.entries c then none
  else some (left + min (openRun next.entries c)
    (cycleLen ((ps.cycleStart + len) % 2 ^ 32) (gateMark s ps) next))

/-- The longest window of a class in one cycle, none for one with no end (R306). -/
def longestWindow (l : List GateEntry) (c : Nat) : Option Nat :=
  if alwaysOpen l c then none
  else some ((List.range l.length).foldl (fun m i => max m (openRun ((l.drop i ++ l).take l.length) c)) 0)

/-- Whether a wire length at a rate fits a window. -/
def fitsWindow (w rate : Nat) : Option Nat → Bool
  | none => true
  | some ns => decide (w * 8000 ≤ ns * rate)

/-! ## Tokens (R302, R309) -/

/-- Rate, depth and enable of a bucket of a line port; class 7's from the keeper. -/
def bucketOf (s : State) (p c : Nat) : Nat × Nat × Bool :=
  if c = 7 then
    let r := s.rdF (Reg.KPR_RES7_RATE p) 0 20
    (r, s.rdF (Reg.KPR_RES7_DEPTH p) 0 25, r != 0)
  else
    let r := s.actv (Reg.SCH_SHP_RATE p c)
    (field r 0 20, field (s.actv (Reg.SCH_SHP_DEPTH p c)) 0 25, Nat.testBit r 31)

/-- SCH_SHP_RATE and SCH_SHP_DEPTH of class 7 show the keeper bucket; EN is 1 while it meters (R302, R320). -/
def syncRes7 (s : State) : State :=
  (List.range 32).foldl (fun s p =>
    let b := bucketOf s p 7
    (s.wr (Reg.SCH_SHP_RATE7 p) (b.1 + 2 ^ 31 * b2n b.2.2)).wr (Reg.SCH_SHP_DEPTH7 p) b.2.1) s

/-- Sets the tokens of a class, in eighths of a byte, and SCH_TOK. -/
def setTokens (p c : Nat) (v : Int) (s : State) : State :=
  let ps := s.portAt (32 + p)
  (s.setPort (32 + p) { ps with tokens := setAt ps.tokens c v }).wr (Reg.SCH_TOK p c) (unsignedOf 32 (v / 8))

/-- The greatest debt: one maximum frame (R309). -/
def maxDebt : Int := -(10292 * 8)

/-- One microsecond of a bucket (R309). -/
def tokenAccrue (p c : Nat) (s : State) : State :=
  let b := bucketOf s p c
  let t := (s.portAt (32 + p)).tokens.getD c 0
  if b.2.2 then setTokens p c (min (8 * b.2.1 : Int) (t + b.1)) s else s

/-! ## Eligibility (R299) -/

/-- Whether a class's gate and shaper let a ready head go. -/
def lineEligible (s : State) (p c : Nat) (f : Frame) : Bool :=
  let ps := s.portAt p
  f.bypass ||
  ((!ps.gatesOn || fitsWindow (wireLen f) (portRate s p) (windowLeft s ps c)) &&
   (!(bucketOf s (p - 32) c).2.2 || decide (0 ≤ ps.tokens.getD c 0)))

/-- Whether received PAUSE or PFC holds a class of a client port (R317). -/
def pausedHead (s : State) (p c : Nat) (f : Frame) : Bool :=
  Nat.testBit (s.portAt p).paused c && c != 7 && !f.ptp

/-- Whether a class is eligible on a port (R299). -/
def eligible (s : State) (p c : Nat) : Bool :=
  match readyHead s p c with
  | none => false
  | some (_, f) => if p < 32 then !pausedHead s p c f else lineEligible s p c f

/-- DWRR weight of a class. -/
def weightOf (s : State) (p c : Nat) : Nat :=
  field (s.actv (if p < 32 then Reg.SCH_CQW p c else Reg.SCH_WEIGHT (p - 32) c)) 0 11

/-! ## Deficit weighted round robin (R300) -/

/-- A pass over classes 0–6: deficits, fresh marks, whether any class was eligible, the class chosen. -/
structure DwrrPass where
  deficit : List Nat
  fresh : List Bool
  seen : Bool := false
  chosen : Option Nat := none
deriving DecidableEq, Repr

/-- What a port offers the round: per class empty, eligible, wire length of the head, weight. -/
structure Offer where
  empty : Bool
  eligible : Bool
  wire : Nat
  weight : Nat
deriving DecidableEq, Repr

/-- The visit of class `c`. -/
def dwrrVisit (o : Offer) (c : Nat) (x : DwrrPass) : DwrrPass :=
  if x.chosen.isSome then x
  else if o.empty then { x with deficit := setAt x.deficit c 0, fresh := setAt x.fresh c true }
  else if !o.eligible then x
  else
    let d := x.deficit.getD c 0 + (if x.fresh.getD c true then 64 * o.weight else 0)
    if o.wire ≤ d then
      { deficit := setAt x.deficit c (d - o.wire), fresh := setAt x.fresh c false, seen := true, chosen := some c }
    else { x with deficit := setAt x.deficit c d, fresh := setAt x.fresh c true, seen := true }

/-- One pass from `ptr`. -/
def dwrrOnce (offers : List Offer) (ptr : Nat) (x : DwrrPass) : DwrrPass :=
  (List.range 7).foldl (fun x k =>
    let c := (ptr + k) % 7
    dwrrVisit (offers.getD c ⟨true, false, 0, 0⟩) c x) { x with seen := false }

/-- Passes until a class is chosen or none was eligible; each pass adds a quantum, so `fuel` suffices. -/
def dwrr (offers : List Offer) (ptr : Nat) : Nat → DwrrPass → DwrrPass
  | 0, x => x
  | n + 1, x =>
    let y := dwrrOnce offers ptr x
    if y.chosen.isSome || !y.seen then y else dwrr offers ptr n y

/-- What class `c` of a port offers. -/
def offerOf (s : State) (p c : Nat) : Offer :=
  let w := match readyHead s p c with
    | some (_, f) => wireLen f
    | none => 0
  ⟨(s.queue p c).isEmpty, eligible s p c, w, weightOf s p c⟩

/-- The class chosen at a decision, with the round's new state (R300). -/
def chooseClass (p : Nat) (s : State) : State × Option Nat :=
  if eligible s p 7 then (s, some 7)
  else
    let ps := s.portAt p
    let x := dwrr ((List.range 7).map (offerOf s p)) ps.ptr 256 { deficit := ps.deficit, fresh := ps.fresh }
    (s.setPort p { ps with deficit := x.deficit, fresh := x.fresh, ptr := x.chosen.getD ps.ptr }, x.chosen)

/-! ## Heads that wait for a window, or can never fit (R305, R306) -/

/-- A head that its class's longest window cannot hold is dropped (R306). -/
def dropOversize (p c : Nat) (s : State) : State :=
  let ps := s.portAt p
  match readyHead s p c with
  | none => s
  | some (id, f) =>
    if ps.gatesOn && !f.bypass && !fitsWindow (wireLen f) (portRate s p) (longestWindow ps.list.entries c) then
      schEvent 3 (p - 32) false c (dropCount p c ((removeFrame id s).bump Reg.SCH_GATE_OVERSIZE))
    else s

/-- A head whose gate is open but whose wire time passes the window's end counts once as waiting. -/
def countWait (p c : Nat) (s : State) : State :=
  let ps := s.portAt p
  match readyHead s p c with
  | none => s
  | some (id, f) =>
    let open_ := opens (ps.list.entries.getD ps.entry {}) c
    if ps.gatesOn && open_ && !f.bypass && !f.waited &&
        !fitsWindow (wireLen f) (portRate s p) (windowLeft s ps c) then
      (s.setFrame id { f with waited := true }).bump Reg.SCH_GATE_WAITS
    else s

/-- Every class's head of a line port is judged against the gates. -/
def judgeHeads (p : Nat) (s : State) : State :=
  if p < 32 then s
  else (List.range 8).foldl (fun s c => countWait p c (dropOversize p c s)) s

/-! ## Commit stage (R372 to R376) -/

/-- The protected frame and ICV of a sealed frame whose client bytes change by Δ: XOR into the line bytes, and
the sum of Δ_j × H^(m−j+1) into the ICV (R373). -/
def commitPatch (f : Frame) (delta : Bytes) : Bytes × Bytes :=
  let d := delta.take f.headLen ++ zeros f.tagLen ++ delta.drop f.headLen
  let a := f.cryptFrom + f.tagLen
  let y := ghash (blockVal f.hashKey) (blocksOf (d.take a) ++ blocksOf (d.drop a) ++ [zeros 16])
  (xorBytes f.line d, xorBytes f.icv (beBytes 16 y.toNat))

/-- The whole frame that leaves when a client frame without FCS takes the value `g` at release. -/
def leavingBytes (f : Frame) (g : Bytes) : Bytes :=
  if f.bypass then f.client
  else if f.opening then withFcs g
  else
    let x := commitPatch f (xorBytes (f.client.take (f.client.length - 4)) g)
    withFcs (x.1 ++ x.2)

/-- The bytes committed to a port at release, or none for a message too old (R372, R375 to R377). -/
def commitFrame (p : Nat) (f : Frame) (s : State) : State × Option Bytes :=
  let body := f.client.take (f.client.length - 4)
  if f.bypass then (s, some f.client)
  else
    let b := stampTb s f.span
    match correct (tcMode s f.span) body (residence s b (portDtx (portCfg s p)) f.shadows) with
    | .none => (s, some (leavingBytes f body))
    | .skip => (s.bump Reg.TIM_TC_SKIP, some (leavingBytes f body))
    | .stale => (s.bump Reg.TIM_TC_STALE, none)
    | .done g sat =>
      let s := if sat then timEvent 7 b (s.bump Reg.TIM_TC_SAT) else s
      (s.bump Reg.TIM_TC_CORR, some (leavingBytes f g))

/-! ## Pending groups at a frame boundary (R310, R320) -/

/-- The rate of R310's codes for one bucket: 1 RATE, 2 DEPTH, 0 none. -/
def bucketCode (s : State) (p c : Nat) : Nat :=
  let r := s.rd (Reg.SCH_SHP_RATE p c)
  let d := field (s.rd (Reg.SCH_SHP_DEPTH p c)) 0 25
  if !Nat.testBit r 31 then 0
  else if field r 0 20 = 0 ∨ field r 0 20 > portRate s (32 + p) then 1
  else if d < 64 ∨ d > 16777216 then 2
  else 0

/-- A weight out of range. -/
def weightBad (v : Nat) : Bool := field v 0 11 == 0 || decide (1024 < field v 0 11)

/-- CODE of an SCHP commit. -/
def schpCode (s : State) (p : Nat) : Nat :=
  let codes := (List.range 7).map (bucketCode s p)
  if codes.contains 1 then 1 else if codes.contains 2 then 2
  else if (List.range 7).any (fun c => weightBad (s.rd (Reg.SCH_WEIGHT p c))) then 3 else 0

/-- A bucket's tokens when its service mode resets it (R310). -/
def serviceTokens (s : State) (p c : Nat) : Int :=
  if s.bit (Reg.SCH_SVC p) 2 then 8 * (bucketOf s p c).2.1 else 0

/-- A bucket after its active RATE or DEPTH changed from `old`. -/
def retune (p c : Nat) (old : Nat × Nat × Bool) (s : State) : State :=
  let new := bucketOf s p c
  let t := (s.portAt (32 + p)).tokens.getD c 0
  if new.2.2 && !old.2.2 then setTokens p c (8 * new.2.1) s
  else if new.1 = old.1 ∧ new.2.1 = old.2.1 then s
  else if s.rdF (Reg.SCH_SVC p) 0 2 = 0 then setTokens p c (min (8 * new.2.1 : Int) t) s
  else setTokens p c (serviceTokens s p c) s

/-- Applies the words of a pending group of a port at its frame boundary (R310). -/
def applyGroup (p : Nat) (s : State) : State :=
  let words := Tbl.get (fun _ => []) s.sch.pending p
  if words.isEmpty then s
  else
    let s := { s with sch := { s.sch with pending := Tbl.set (fun _ => []) s.sch.pending p [] } }
    let old := (List.range 7).map (fun c => bucketOf s (p - 32) c)
    let s := words.foldl (fun s w => s.wrAct w.1 w.2) s
    if p < 32 then s.setBit (Reg.SCH_CSTATUS p) 0 false
    else
      let s := (List.range 7).foldl (fun s c => retune (p - 32) c (old.getD c (0, 0, false)) s) s
      s.setBit (Reg.SCH_PSTATUS (p - 32)) 0 false

/-- Holds a group's words until the port's frame boundary, which is now when nothing is being sent. -/
def commitGroup (p : Nat) (words : List (Nat × Nat)) (s : State) : State :=
  let s := { s with sch := { s.sch with pending := Tbl.set (fun _ => []) s.sch.pending p words } }
  if (s.portAt p).sending.isNone then applyGroup p s else s

/-- Commits SCHP of a line port. -/
def schpCommit (p : Nat) (s : State) : State :=
  let code := schpCode s p
  let s := s.wr (Reg.SCH_PSTATUS p) (2 ^ 8 * code + (if code = 0 then 1 else s.rdF (Reg.SCH_PSTATUS p) 0 1))
  if code ≠ 0 then s
  else
    let addrs := (List.range 7).flatMap (fun c =>
      [Reg.SCH_WEIGHT p c, Reg.SCH_SHP_RATE p c, Reg.SCH_SHP_DEPTH p c])
    commitGroup (32 + p) (addrs.map (fun a => (a, s.rd a))) s

/-- Commits SCHC of a client port. -/
def schcCommit (m : Nat) (s : State) : State :=
  let code := if (List.range 7).any (fun c => weightBad (s.rd (Reg.SCH_CQW m c))) then 3 else 0
  let s := s.wr (Reg.SCH_CSTATUS m) (2 ^ 8 * code + (if code = 0 then 1 else s.rdF (Reg.SCH_CSTATUS m) 0 1))
  if code ≠ 0 then s
  else commitGroup m ((List.range 7).map (fun c => (Reg.SCH_CQW m c, s.rd (Reg.SCH_CQW m c)))) s

/-- A write of SCH_SVC: modes 1 to 3 reset every class 0–6 bucket (R310). -/
def serviceWrite (p v : Nat) (s : State) : State :=
  let s := s.wr (Reg.SCH_SVC p) (v % 8)
  if v % 4 = 0 then s else (List.range 7).foldl (fun s c => setTokens p c (serviceTokens s p c) s) s

/-! ## Flow control toward clients (R314 to R317) -/

/-- A MAC control frame of a client port, padded, with its FCS. -/
def macControl (m opcode : Nat) (body : Bytes) : Bytes :=
  withFcs (padTo 60 ([0x01#8, 0x80#8, 0xC2#8, 0x00#8, 0x00#8, 0x01#8] ++ exactly 6 (Config.portMac m) ++
    [0x88#8, 0x08#8] ++ beBytes 2 opcode ++ body))

/-- Sends PAUSE for class bit 0 under FLOW 1, or PFC for one class under FLOW 2; a port
in test or disabled sends no frame (R325, R337). -/
def sendPause (m c quanta : Nat) (s : State) : State :=
  if portTest s m || !s.bit (Reg.PEN_EN m) 0 then s
  else
    let f := if (portCfg s m).flow = 1 then macControl m 1 (beBytes 2 quanta)
      else macControl m 0x0101 (beBytes 2 (2 ^ c) ++ (List.range 8).flatMap (fun k =>
        beBytes 2 (if k = c then quanta else 0)))
    (sendFrame m f false s).bump (Reg.SCH_PAUSE_TX m)

/-- O of R314, or of one class under R315, in bytes. -/
def heldFrom (s : State) (m : Nat) (p : Frame → Bool) : Nat :=
  64 * ((s.sch.frames.filter (fun e => e.2.inPort == m && e.2.cls != 7 && p e.2)).map
    (fun e => cellsOf e.2.client.length)).sum

/-- One threshold comparison: class bit `c`, occupancy `o`. With XON above XOFF a pause starts only at XON (DESIGN
CHOICE, log entry 105). -/
def pauseStep (m c o : Nat) (s : State) : State :=
  let ps := s.portAt m
  let on := Nat.testBit ps.pausing c
  if !on && decide (max (s.rd (Reg.SCH_FC_XOFF m)) (s.rd (Reg.SCH_FC_XON m)) * 1024 ≤ o) then
    sendPause m c (s.rd (Reg.SCH_FC_QUANTA m)) (s.setPort m { ps with pausing := putBit ps.pausing c true })
  else if on && decide (o < s.rd (Reg.SCH_FC_XON m) * 1024) then
    sendPause m c 0 (s.setPort m { ps with pausing := putBit ps.pausing c false })
  else s

/-- Compares a client port's occupancy with XOFF and XON (R314, R315). -/
def pauseCheck (m : Nat) (s : State) : State :=
  if 32 ≤ m then s
  else
    match (portCfg s m).flow with
    | 1 => pauseStep m 0 (heldFrom s m (fun _ => true)) s
    | 2 => (List.range 7).foldl (fun s c => pauseStep m c (heldFrom s m (fun f => f.cls == c)) s) s
    | _ => s

/-- Compares the occupancy of every client port: whatever changed it (R314, R315). -/
def pauseChecks (s : State) : State := (List.range 32).foldl (fun s m => pauseCheck m s) s

/-- Half the quanta time has passed: PAUSE in force is sent again (R314). -/
def pauseRepeat (m : Nat) (s : State) : State :=
  (bitsOf 7 (s.portAt m).pausing).foldl (fun s c => sendPause m c (s.rd (Reg.SCH_FC_QUANTA m)) s) s

/-- A MAC control frame received on a client port: counted; under FLOW 1 or 2 a whole one pauses or releases the
classes it names (R316, R317; log entry 104). -/
def pauseReceive (m : Nat) (frame : Bytes) (whole : Bool) (s : State) : State :=
  let s := s.bump (Reg.SCH_PAUSE_RX m)
  if (portCfg s m).flow = 0 || !whole then s
  else
    let ps := s.portAt m
    if beAt frame 14 2 = 1 then s.setPort m { ps with paused := if beAt frame 16 2 = 0 then 0 else 0x7F }
    else if beAt frame 14 2 = 0x0101 then
      let v := beAt frame 16 2
      s.setPort m { ps with paused := (List.range 7).foldl (fun x c =>
        if Nat.testBit v c then putBit x c (beAt frame (18 + 2 * c) 2 != 0) else x) ps.paused }
    else s

/-- Received pause expires. -/
def pauseEnd (m : Nat) (s : State) : State := s.setPort m { s.portAt m with paused := 0 }

/-! ## Release and departure -/

/-- One copy of a frame leaves the module's hands on a port without being sent. -/
def dropCopy (id p : Nat) (s : State) : State :=
  let f := s.frameAt id
  let s := unqueue id p f.cls s
  if f.outs.length ≤ 1 then removeFrame id s
  else s.setFrame id { f with outs := f.outs.filter (fun q => q != p) }

/-- Takes W from a class's bucket at a frame's start (R309). -/
def takeTokens (p c : Nat) (f : Frame) (s : State) : State :=
  if p < 32 || f.bypass || !(bucketOf s (p - 32) c).2.2 then s
  else setTokens (p - 32) c (max maxDebt ((s.portAt p).tokens.getD c 0 - 8 * wireLen f)) s

/-- Releases the head of a class: discarded at a port that sends faults or a test (R337, R346), too old
(R377), or committed and in transmission. -/
def releaseHead (p c id : Nat) (s : State) : State :=
  let f := s.frameAt id
  if portBlocked s p then penCount p 0x70 1 (dropCopy id p s)
  else
    match commitFrame p f s with
    | (s, none) => dropCopy id p s
    | (s, some bytes) =>
      let s := takeTokens p c f (unqueue id p c s)
      let s := s.setPort p { s.portAt p with sending := some id }
      let s := s.setFrame id { f with heads := f.heads ++ [p], sent := Tbl.set (fun _ => []) f.sent p bytes,
                                      egress := egressNs s (portDtx (portCfg s p)) }
      if p < 32 then s else pmcCount 0x0801 (p - 32) 1 s

/-- A decision instant of a port (R299, R300). -/
def decide_ (p : Nat) (s : State) : State :=
  if (s.portAt p).sending.isSome then s
  else
    let x := chooseClass p (judgeHeads p s)
    match x.2 with
    | none => x.1
    | some c =>
      match readyHead x.1 p c with
      | some (id, _) => releaseHead p c id x.1
      | none => x.1

/-- The protected frame's ICV as sent. -/
def sentIcv (b : Bytes) : Bytes := slice b (b.length - 20) 16

/-- Counts a good seal frame sent (R143). -/
def countSealed (f : Frame) (s : State) : State :=
  let s := frmCount f.span (if byteAt f.secTag 2 / 8 % 2 = 1 then 0x00 else 0x08) 1 s
  pmcCount 0x0301 f.span f.client.length (frmCount f.span 0x10 f.client.length s)

/-- Counts an opened frame, once a copy of it has been delivered (R142, R150). -/
def countOpened (id : Nat) (s : State) : State :=
  let f := s.frameAt id
  if !f.opening || f.bypass || f.counted || f.stomp.isSome then s
  else
    let s := s.setFrame id { f with counted := true }
    let s := frmCount f.span 0x48 f.client.length (frmCount f.span 0x40 1 s)
    if f.padded then frmCount f.span 0x98 1 s else s

/-- The last copy of a frame has left: seal frames are counted and recorded, tag, cells and SA freed. -/
def frameGone (id : Nat) (bytes : Bytes) (s : State) : State :=
  let f := s.frameAt id
  let stomped := f.stomp.isSome
  let s := if f.bypass || f.opening then s
    else
      let s := if stomped then s else countSealed f s
      let s := recordFrame f f.egress f.pn stomped (sentIcv bytes) s
      traceFrame f id (f.stomp.getD 0) s
  removeFrame id s

/-- The tail of the frame in transmission has left the port (R95). -/
def departure (p : Nat) (s : State) : State :=
  match (s.portAt p).sending with
  | none => s
  | some id =>
    let f := s.frameAt id
    if f.stomp.isNone && f.verdict == .pending then s
    else
      let bytes := Tbl.get (fun _ => []) f.sent p
      let s := sendFrame p bytes f.stomp.isSome s
      let s := s.setPort p { s.portAt p with sending := none }
      let outs := f.outs.filter (fun q => q != p)
      let s := countOpened id (s.setFrame id { f with outs := outs })
      let s := if outs.isEmpty then frameGone id bytes s else s
      applyGroup p s

/-! ## Admission (R96, R296, R297) -/

/-- Frames that admission of class `c` may push out: of the span, out of the fabric, held in queues and not
started, of a lower class; lowest class first, then the most recent. -/
def pushable (s : State) (n c : Nat) : Option Nat :=
  let l := s.sch.frames.filter (fun e => e.2.span == n && e.2.cellsLeft == 0 && e.2.heads.isEmpty &&
    e.2.verdict != .pending && decide (e.2.cls < c))
  match l with
  | [] => none
  | h :: t => some (t.foldl (fun m e => if e.2.cls < m.2.cls ∨ (e.2.cls = m.2.cls ∧ m.2.order < e.2.order)
      then e else m) h).1

/-- Pushes out lower-class frames until the frame fits or none is left. -/
def pushOut : Nat → Nat → Nat → Nat → State → State
  | 0, _, _, _, s => s
  | fuel + 1, n, c, k, s =>
    if fits s n c k then s
    else
      match pushable s n c with
      | none => s
      | some id =>
        let f := s.frameAt id
        let s := removeFrame id s
        let s := f.outs.foldl (fun s p => dropCount p f.cls s) s
        pushOut fuel n c k (s.bump Reg.SCH_PUSHOUTS)

/-- Admits a frame: its tag first, then buffer space; a drop is counted on its output ports. The answer says
whether it was admitted. -/
def tryAdmit (f : Frame) (s : State) : State × Bool :=
  if !f.bypass && !tagAvailable s (privileged f) then (s.bump Reg.CPH_TAG_DROPS, false)
  else
    let k := cellsOf f.client.length
    let s := pushOut s.sch.frames.length f.span f.cls k s
    if fits s f.span f.cls k then (s, true)
    else (f.outs.foldl (fun s p => dropCount p f.cls s) s, false)

/-- On-die bytes of a queue. -/
def onDie (s : State) (p c : Nat) : Nat :=
  ((s.queue p c).map (fun e => match e with
    | .held id => outLen (s.frameAt id)
    | .spilled _ => 0)).sum

/-- Whether a queue holds spilled frames. -/
def hasSpilled (q : List QEntry) : Bool := q.any (fun e => match e with
  | .spilled _ => true
  | .held _ => false)

/-- A frame of a class that may spill on a line port (R311). -/
def maySpill (s : State) (p : Nat) (f : Frame) : Bool :=
  decide (32 ≤ p) && decide (f.cls < 4) && (classCfg s f.cls).spill && !f.ptp && !f.bypass &&
  s.rdF (Reg.SCH_SPILL_TH (p - 32)) 0 16 != 0

/-- SCH_SPILL_TH of a line port in bytes. -/
def spillTh (s : State) (p : Nat) : Nat := s.rdF (Reg.SCH_SPILL_TH (p - 32)) 0 16 * 1024

/-- Bytes in the spill partition. -/
def spillBytes (s : State) : Nat :=
  (s.sch.queues.flatMap (fun e => e.2.map (fun x => match x with
    | .held _ => 0
    | .spilled f => outLen f))).sum

/-- The window over which the spill rates are taken, 4 µs (log entry 114). -/
def spillWindowNow (s : State) : Nat := s.refTick / 625

/-- Bytes that spill writes, and spill reads, may move in a window: 800 Gb/s with 8 healthy channels (R312, R388). -/
def spillLimit (s : State) : Nat := 400000 * ((List.range 8).filter (fun c => !s.bit (Reg.EVR_CH_STATUS c) 0)).length / 8

/-- Bytes written and read in the present window. -/
def spillMoved (s : State) : Nat × Nat :=
  if s.sch.spillWindow = spillWindowNow s then (s.sch.spillOut, s.sch.spillIn) else (0, 0)

/-- Counts bytes written and read. -/
def spillCharge (out in_ : Nat) (s : State) : State :=
  let m := spillMoved s
  { s with sch := { s.sch with
    spillWindow := spillWindowNow s, spillOut := m.1 + out, spillIn := m.2 + in_ } }

/-- Whether `n` bytes more can be spilled now: the partition has room, the write rate is below its limit, and no fence
rebuilds the map (R313, R387). -/
def spillRoom (s : State) (n : Nat) : Bool :=
  !s.evr.rebuilding && decide (spillBytes s + n ≤ s.rd (Reg.EVR_PART 2) * 2 ^ 30) &&
  decide ((spillMoved s).1 + n ≤ spillLimit s)

/-- A frame cannot spill and stays on-die: it is counted once (R313). -/
def spillDenied (id p : Nat) (s : State) : State :=
  let f := s.frameAt id
  if f.denied then s
  else schEvent 1 (p % 32) false f.cls ((s.setFrame id { f with denied := true }).bump Reg.SCH_SPILL_DENIED)

/-- SCH_SPILL_USED in MiB, rounded up. -/
def syncSpill (s : State) : State := s.wr Reg.SCH_SPILL_USED ((spillBytes s + 2 ^ 20 - 1) / 2 ^ 20)

/-- A frame joins the queues of its output ports; one that should spill and cannot is counted (R311, R313). -/
def enqueue (id : Nat) (s : State) : State :=
  let f := s.frameAt id
  f.outs.foldl (fun s p =>
    let q := s.queue p f.cls
    let want := maySpill s p f && (hasSpilled q || decide (spillTh s p < onDie s p f.cls + outLen f))
    let s := if want && !spillRoom s (outLen f) then spillDenied id p s else s
    s.setQueue p f.cls (q ++ [.held id])) s

/-! ## Spill (R311 to R313) -/

/-- The first held frame of a queue that is due for spill: it follows a spilled one, or the held bytes up to
it pass the threshold. -/
def spillDue (s : State) (p : Nat) : List QEntry → Nat → Bool → Option Nat
  | [], _, _ => none
  | .spilled _ :: t, n, _ => spillDue s p t n true
  | .held id :: t, n, after =>
    let f := s.frameAt id
    let n' := n + outLen f
    if maySpill s p f && !f.denied && frameReady s f && f.heads.isEmpty && (after || decide (spillTh s p < n')) then some id
    else spillDue s p t n' after

/-- A spill write completes: the frame's cells and tag are free (R97, R311). -/
def spillWrite (p c : Nat) (s : State) : State :=
  match spillDue s (32 + p) (s.queue (32 + p) c) 0 false with
  | none => s
  | some id =>
    let f := s.frameAt id
    if !spillRoom s (outLen f) then spillDenied id (32 + p) s
    else
      let s := spillCharge (outLen f) 0 s
      let q := (s.queue (32 + p) c).map (fun e => if e = .held id then QEntry.spilled f else e)
      let s := (s.setQueue (32 + p) c q).freeFrame id
      syncTags (syncSpill (s.bump Reg.SCH_SPILL_FRAMES))

/-- The first spilled frame of a queue is read back under a new tag (R312). -/
def spillRead (p c : Nat) (s : State) : State :=
  let q := s.queue (32 + p) c
  match q.findSome? (fun e => match e with
    | .spilled f => some f
    | .held _ => none) with
  | none => s
  | some f =>
    if !tagAvailable s false || decide (spillTh s (32 + p) ≤ 2 * onDie s (32 + p) c) ||
        decide (spillLimit s < (spillMoved s).2 + outLen f) then s
    else
      let s := spillCharge 0 (outLen f) s
      let id := freeTag s
      let k := (q.takeWhile (fun e => match e with
        | .held _ => true
        | .spilled _ => false)).length
      let s := (s.setFrame id f).setQueue (32 + p) c (q.set k (.held id))
      syncTags (syncSpill s)

/-- A spilled frame is lost: counted, its SA unbound (R313). -/
def loseSpilled (p c : Nat) (f : Frame) (s : State) : State :=
  let s := schEvent 5 (p % 32) false c (s.bump Reg.SCH_SPILL_LOST)
  let s := dropCount p c s
  match f.sa with
  | some a => unbind a f.gen s
  | none => s

/-- The spilled frames of a queue. -/
def spilledOf (q : List QEntry) : List Frame := q.filterMap (fun e => match e with
  | .spilled f => some f
  | .held _ => none)

/-- Every spilled frame of the ports that satisfy `on` is lost (R313). -/
def loseSpill (on : Nat → Bool) (s : State) : State :=
  let keys := (Tbl.keys s.sch.queues).filter (fun k => on (k / 8))
  syncSpill (keys.foldl (fun s k =>
    let q := s.queue (k / 8) (k % 8)
    let s := s.setQueue (k / 8) (k % 8) (q.filter (fun e => match e with
      | .held _ => true
      | .spilled _ => false))
    (spilledOf q).foldl (fun s f => loseSpilled (k / 8) (k % 8) f s) s) s)

/-! ## Gates: cycles, entries, lists (R304 to R308) -/

/-- The port selected in SCH_GCL_SEL. -/
def gclPort (s : State) : Nat := s.rdF Reg.SCH_GCL_SEL 0 5

/-- SCH_GCL_DUR and SCH_GCL_GATES show entry IDX of the selected bank of PORT; SCH_GCL_COUNT, CYCLE and PHASE its
shadow, whatever BANK is (R10, R320). -/
def syncGcl (s : State) : State :=
  let ps := s.portAt (32 + gclPort s)
  let l := if s.bit Reg.SCH_GCL_SEL 31 then ps.list else ps.shadow
  let e := l.entries.getD (s.rdF Reg.SCH_GCL_SEL 16 10) {}
  let s := ((s.wr Reg.SCH_GCL_DUR e.dur).wr Reg.SCH_GCL_GATES e.gates).wr Reg.SCH_GCL_COUNT ps.shadowCount
  ((s.wr Reg.SCH_GCL_CYCLE ps.shadow.cycle).wr Reg.SCH_GCL_PHASE ps.shadow.phase).setBit Reg.SCH_GCL_STATUS 0
    ps.pending.isSome

/-- Loads a pending list, if any, at a cycle start: GCL_APPLIED, and heads are judged against it (R306). -/
def applyList (p : Nat) (s : State) : State :=
  let ps := s.portAt (32 + p)
  match ps.pending with
  | none => s
  | some l =>
    let s := s.setPort (32 + p) { ps with list := l, pending := none, gen := ps.gen + 1 }
    let s := (schEvent 0 p false 0 s).mirror (HrnMsg.gate p)
    syncGcl ((List.range 8).foldl (fun s c => dropOversize (32 + p) c s) s)

/-- A gate cycle starts (R304): the running cycle ends, short or not; a pending list takes effect. -/
def gateCycle (p : Nat) (s : State) : State :=
  let ps := s.portAt (32 + p)
  if !ps.gatesOn then s
  else
    let len := cycleLen ps.cycleStart (gateMark s ps) ps.list
    let s := if len < ps.list.cycle then s.bump Reg.SCH_GATE_TRUNC else s
    let t := (ps.cycleStart + len) % 2 ^ 32
    let s := s.setPort (32 + p) { ps with entry := 0, entryStart := t, cycleStart := t }
    syncGstat p (applyList p s)

/-- The next entry of the cycle opens. -/
def gateEntry (p : Nat) (s : State) : State :=
  let ps := s.portAt (32 + p)
  if ps.gatesOn && decide (ps.entry + 1 < ps.list.entries.length) then
    let t := (ps.entryStart + (ps.list.entries.getD ps.entry {}).dur) % 2 ^ 32
    syncGstat p (s.setPort (32 + p) { ps with entry := ps.entry + 1, entryStart := t })
  else s

/-- The gate time base b stepped: each line port on it takes its position from the new time (R308). -/
def gateResync (b : Nat) (s : State) : State :=
  (List.range 32).foldl (fun s p =>
    let ps := s.portAt (32 + p)
    if ps.gatesOn && ps.tb == b then
      schEvent 4 p false 0 (syncGstat p ((s.setPort (32 + p) (gatePosition s ps)).bump Reg.SCH_GATE_RESYNC))
    else s) s

/-- Writes into the shadow list of the selected port; ignored while a list is pending (R307). -/
def gclWrite (f : PortSched → PortSched) (s : State) : State :=
  let p := 32 + gclPort s
  let ps := s.portAt p
  if ps.pending.isSome then s.setBit Reg.SCH_GCL_STATUS 1 true
  else syncGcl (s.setPort p (f ps))

/-- Writes into entry IDX of the selected bank: the active list is read only (R320). -/
def gclEntryWrite (f : PortSched → PortSched) (s : State) : State :=
  if s.bit Reg.SCH_GCL_SEL 31 then s else gclWrite f s

/-- Changes entry `i` of the shadow list, which grows to hold it. -/
def setEntry (i : Nat) (f : GateEntry → GateEntry) (ps : PortSched) : PortSched :=
  let l := ps.shadow.entries ++ List.replicate (i + 1 - ps.shadow.entries.length) ({} : GateEntry)
  { ps with shadow := { ps.shadow with entries := modifyAt l i f } }

/-- Advances IDX after an access of SCH_GCL_GATES. -/
def gclAdvance (s : State) : State := syncGcl (s.wrF Reg.SCH_GCL_SEL 16 10 (s.rdF Reg.SCH_GCL_SEL 16 10 + 1))

/-- A write (`some`) or a read (`none`) of SCH_GCL_GATES. -/
def gclAccess (v : Option Nat) (s : State) : State :=
  match v with
  | some v => gclAdvance (gclEntryWrite (setEntry (s.rdF Reg.SCH_GCL_SEL 16 10) (fun e => { e with gates := v % 256 })) s)
  | none => gclAdvance (s.emit (.readData [word (s.rd Reg.SCH_GCL_GATES)]))

/-- CODE of a commit of the selected port's shadow list (R307). -/
def gclCode (s : State) : Nat :=
  let p := gclPort s
  let ps := s.portAt (32 + p)
  let n := ps.shadowCount
  let es := ps.shadow.entries.take n ++ List.replicate (n - ps.shadow.entries.length) ({} : GateEntry)
  if !(List.range 32).any (fun n => patMode s n == .frame && (spanCfg s n).line == p) then 6
  else if !ps.gatesOn then 4
  else if n = 0 ∨ n > ps.allot then 1
  else if ps.shadow.cycle < 1000 ∨ ps.shadow.cycle > 1000000000 ∨ ps.shadow.phase ≥ ps.shadow.cycle then 5
  else if es.any (fun e => decide (e.dur < 64)) then 3
  else if (es.map GateEntry.dur).sum ≠ ps.shadow.cycle then 2
  else 0

/-- A write of SCH_GCL_COMMIT.GO (R307). -/
def gclCommit (s : State) : State :=
  let p := 32 + gclPort s
  let ps := s.portAt p
  if ps.pending.isSome then s.setBit Reg.SCH_GCL_STATUS 1 true
  else
    let code := gclCode s
    let s := s.wrF Reg.SCH_GCL_STATUS 8 8 code
    if code ≠ 0 then s
    else
      let l := { ps.shadow with entries := ps.shadow.entries.take ps.shadowCount }
      let s := s.setPort p { ps with pending := some l }
      syncGstat (gclPort s) (syncGcl s)

/-! ## Sampling (R318) -/

/-- Depth in 64-byte units and head delay in ns of a queue. -/
def sampleOf (s : State) (p c : Nat) : Nat × Nat :=
  let len := fun e => match e with
    | QEntry.held id => outLen (s.frameAt id)
    | .spilled f => outLen f
  let q := s.queue p c
  let delay := match q with
    | [] => 0
    | .held id :: _ => (s.refTick - (s.frameAt id).tick) * 32 / 5
    | .spilled f :: _ => (s.refTick - f.tick) * 32 / 5
  (((q.map len).sum + 63) / 64, min delay 0xFFFFFFFF)

/-- Bin of a delay with U = 2^SHIFT ns: bin k holds [U 2^(k−1), U 2^k) (R318). -/
def delayBin (shift d : Nat) : Nat :=
  ((List.range 15).find? (fun k => decide (d < 2 ^ (shift + k)))).getD 15

/-- A record after one more sample. -/
def addSample (shift : Nat) (x : Nat × Nat) (r : SampleRec) : SampleRec :=
  let b := delayBin shift x.2
  { taken := true, depthMin := if r.taken then min r.depthMin x.1 else x.1, depthMax := max r.depthMax x.1,
    depthLast := x.1, delayMin := if r.taken then min r.delayMin x.2 else x.2, delayMax := max r.delayMax x.2,
    delayLast := x.2, bins := modifyAt r.bins b (fun n => satInc n 1) }

/-- One sample instant of all 512 queues. -/
def queueSample (s : State) : State :=
  if !s.bit Reg.SCH_LS_CTRL 31 || !s.bit Reg.CLK_ON 3 then s
  else
    let sh := s.rdF Reg.SCH_LS_BIN 0 4
    (List.range 512).foldl (fun t k =>
      let r := addSample sh (sampleOf s (k / 8) (k % 8)) (Tbl.get (fun _ => {}) t.sch.samples k)
      { t with sch := { t.sch with samples := Tbl.set (fun _ => {}) t.sch.samples k r } }) s

/-- The key of the record that SCH_LS_SEL names: SIDE 1 is client. -/
def lsKey (v : Nat) : Nat := qKey ((if Nat.testBit v 8 then 0 else 32) + field v 0 5) (field v 5 3)

/-- A write of SCH_LS_SEL loads that queue's record. -/
def lsSelect (v : Nat) (s : State) : State :=
  let s := s.wr Reg.SCH_LS_SEL (v % 512)
  let r := Tbl.get (fun _ => {}) s.sch.samples (lsKey v)
  let vals := [r.depthMin, r.depthMax, r.depthLast, r.delayMin, r.delayMax, r.delayLast]
  let s := (List.range 6).foldl (fun s i => s.wr (Reg.SCH_LS_REC i) (vals.getD i 0)) s
  (List.range 16).foldl (fun s i => s.wr (Reg.SCH_LS_HIST i) (r.bins.getD i 0)) s

/-- SCH_LS_CLR clears the selected record. -/
def lsClear (s : State) : State :=
  { s with sch := { s.sch with samples := Tbl.set (fun _ => {}) s.sch.samples (lsKey (s.rd Reg.SCH_LS_SEL)) {} } }

/-! ## Cuts (R72, R319) -/

/-- Discards a span's frames that have not started to leave; how many (R72). -/
def dropSpan (n : Nat) (s : State) : State × Nat :=
  let ids := (s.sch.frames.filter (fun e => e.2.span == n && e.2.heads.isEmpty)).map Prod.fst
  let s' := ids.foldl (fun s id => removeFrame id s) s
  let parts := (s'.sch.frames.filter (fun e => e.2.span == n)).map Prod.fst
  let s' := parts.foldl (fun s id =>
    let f := s.frameAt id
    let s := (f.outs.filter (fun p => !f.heads.contains p)).foldl (fun s p => unqueue id p f.cls s) s
    s.setFrame id { f with outs := f.outs.filter (fun p => f.heads.contains p) }) s'
  let spilled := (spanPorts s n).flatMap (fun p => (List.range 8).flatMap (fun c => spilledOf (s.queue p c)))
  let s' := if spilled.isEmpty then s' else loseSpill (fun p => (spanPorts s n).contains p) s'
  (s', ids.length + spilled.length)

/-- A line port takes WEIGHT and gate list from the Pattern, and its class 0–6 buckets are refilled (R319). -/
def loadSched (p : Nat) (x : SchedCfg) (s : State) : State :=
  let s := (List.range 7).foldl (fun s c =>
    (s.wr (Reg.SCH_WEIGHT p c) (x.weights.getD c 0)).wrAct (Reg.SCH_WEIGHT p c) (x.weights.getD c 0)) s
  let l : GateList := { entries := x.entries, cycle := x.cycle, phase := x.phase }
  let ps := { s.portAt (32 + p) with
    gen := (s.portAt (32 + p)).gen + 1, gatesOn := x.gatesEn, tb := x.tb, allot := x.allot, list := l, pending := none, shadow := l,
    shadowCount := x.entries.length }
  let s := s.setPort (32 + p) (gatePosition s ps)
  let s := (List.range 7).foldl (fun s c => setTokens p c (serviceTokens s p c) s) s
  syncGcl (syncGstat p s)

/-- A client port's weights come from the SCHED block of its span's line port. -/
def loadClientWeights (m : Nat) (x : SchedCfg) (s : State) : State :=
  (List.range 7).foldl (fun s c =>
    (s.wr (Reg.SCH_CQW m c) (x.weights.getD c 0)).wrAct (Reg.SCH_CQW m c) (x.weights.getD c 0)) s

end Sys2Proof.Machine
end

