-- ==== Sys2Proof/Machine/Frame.lean ====
section
/-! DEFINITION. Frame mode: a frame's arrival, sealing or opening, the ICV verdict, early ends, and what
becomes of it (R117 to R151, R23, R24, R338). -/

namespace Sys2Proof.Machine

/-! ## Shared -/

/-- The frame without its last four bytes, the FCS. -/
def sansFcs (f : Bytes) : Bytes := f.take (f.length - 4)

/-- Whether a received frame is whole with a correct FCS. -/
def goodEnd (f : Bytes) (ending : RxEnd) : Bool := ending == .terminate && ethFcs (sansFcs f) == f.drop (f.length - 4)

/-- Whether an output port is faster than an input port (R141). -/
def faster (s : State) (outp inp : Nat) : Bool := decide (portRate s inp < portRate s outp)

/-- Cell `k` of a frame: client bytes 64k on, the FCS among them, those before the first encrypted byte marked
through AUTH_ONLY (R82, R91, R125). -/
def cellOf (id : Nat) (f : Frame) (k : Nat) : Cell :=
  let n := f.client.length
  let bytes := min 64 (n - 64 * k)
  { frame := id, index := k, span := f.span, sa := f.sa.getD 0, opening := f.opening, first := k == 0,
    last := k + 1 == cellsOf n, bytes := bytes, authOnly := min bytes (f.cryptFrom - 64 * k),
    rank := if f.cls = 7 then 0 else if f.ptp then 1 else 2 }

/-- Adds the cells of a frame to the cell buffer. -/
def addCells (id : Nat) (f : Frame) (s : State) : State :=
  { s with fab := { s.fab with ready := s.fab.ready ++ (List.range f.cellsLeft).map (cellOf id f) } }

/-! ## What islands make of a frame's cells (R82, R86) -/

/-- The client bytes as secured on the line, without the SecTAG, which is in no cell. -/
def secured (f : Frame) : Bytes := f.line.take f.headLen ++ f.line.drop (f.headLen + f.tagLen)

/-- 16-byte blocks of a length. -/
def blockCount (n : Nat) : Nat := (n + 15) / 16

/-- Length of the authenticated data of a frame: client bytes before the first encrypted one, and the SecTAG. -/
def authLen (f : Frame) : Nat := f.cryptFrom + f.tagLen

/-- Where byte `x` of the client frame stands in the string that GHASH takes. -/
def hashPlace (f : Frame) (x : Nat) : Nat :=
  if x < f.headLen then x
  else if x < f.cryptFrom then x + f.tagLen
  else 16 * blockCount (authLen f) + (x - f.cryptFrom)

/-- The partial of cell `k`. -/
def cellPartial (f : Frame) (k : Nat) : BitVec 128 :=
  ghashPartial (blockVal f.hashKey)
    ((slice (secured f) (64 * k) 64).zipIdx.map (fun e => (hashPlace f (64 * k + e.2), e.1)))

/-- What a partial of cell `k` other than the right one changes in the joined tag. -/
def partialShift (f : Frame) (k : Nat) (p : BitVec 128) : Bytes :=
  let m := blockCount (authLen f) + blockCount (f.line.length - authLen f) + 1
  beBytes 16 (ghashJoin (blockVal f.hashKey) m (cellPartial f k ^^^ p)).toNat

/-- The frame with what an island made of cell `k`: its output bytes, and the tag joined from its partial. The FCS is
computed anew where the frame leaves. -/
def miscomputed (k : Nat) (bytes : Bytes) (p : BitVec 128) (f : Frame) : Frame :=
  if f.opening then
    let formed := xorBytes f.computed (partialShift f k p)
    { f with client := withFcs (sansFcs (splice f.client (64 * k) bytes)), computed := formed, icvOk := formed == f.icv }
  else
    let w := (splice (secured f) (64 * k) bytes).take (secured f).length
    { f with line := w.take f.headLen ++ slice f.line f.headLen f.tagLen ++ w.drop f.headLen,
             icv := xorBytes f.icv (partialShift f k p) }

/-- The frame's stamps at the ingress land plane (R368). -/
def stamped (f : Frame) (s : State) : Frame :=
  { f with stamp := s.rd (Reg.TB_NS 0), tick := s.refTick, shadows := shadowsNow s, order := s.sch.admitted }

/-- Enters an admitted frame in the table, its queues and the cell buffer, and its port's last arrival. -/
def enterFrame (id : Nat) (f : Frame) (s : State) : State :=
  let f := stamped f s
  let s := { s with sch := { s.sch with admitted := s.sch.admitted + 1,
                                        arriving := Tbl.set (fun _ => none) s.sch.arriving f.inPort (some id) } }
  syncTags (enqueue id (addCells id f (s.setFrame id f)))

/-- Whether a frame's head is released before its tail has passed the same path: cut-through, its output port
idle with empty queues, and eligible (R141, R143; log entry 28). -/
def headLeaves (f : Frame) (s : State) : Bool :=
  match f.outs with
  | [p] =>
    !f.storeForward && (s.portAt p).sending.isNone && (List.range 8).all (fun k => (s.queue p k).isEmpty) &&
    !portBlocked s p && (if p < 32 then !pausedHead s p f.cls f else lineEligible s p f.cls f)
  | _ => false

/-- Whether the head of a frame that the input PCS ends early has left by then (R338). -/
def headGone (f : Frame) (s : State) : Bool :=
  let c := portCfg s f.inPort
  headLeaves f s && decide ((portDrx c + 206) * typeRate c.type < f.client.length * 8000)

/-- A frame ended early whose head has not left: discarded, and recorded as the last failure (R146). -/
def abortRecord (f : Frame) (s : State) : State :=
  if f.bypass then s else lastFail f.span f.opening 0xC false f.sc s

/-- A frame that fails a check of its span page before release: counted, recorded in FRM_LAST_FAIL, traced,
and its event raised. -/
def refuseFrame (f : Frame) (off cause : Nat) (event : Option Nat) (s : State) : State :=
  let s := lastFail f.span f.opening cause false f.sc (frmCount f.span off 1 s)
  let s := traceFrame (stamped f s) 0 cause s
  match event with
  | some b => frmEvent b s
  | none => s

/-- Counts a stomp of a frame that is put in the table already failed (R145). -/
def countStomp (f : Frame) (cause : Nat) (s : State) : State :=
  let s := lastFail f.span f.opening cause true f.sc s
  frmEvent 0 (pmcCount 0x0302 f.span 1 ((frmCount f.span (if f.opening then 0x88 else 0x18) 1 s).bump Reg.FRM_STOMPS))

/-! ## Bypass (R23, R24) -/

/-- Forwards a frame of a span running in Bypass: no protection applies. It counts in BYPASS_FRAMES when it is passed
on, whole or stomped: one that the input PCS ends before its head has left is not passed (DEDUCED, log entry 102). -/
def bypassFrame (n inp : Nat) (outs : List Nat) (frame : Bytes) (ending : RxEnd) (s : State) : State :=
  let f : Frame := { span := n, bypass := true, inPort := inp, client := frame, rxLen := frame.length, outs := outs, opening := decide (32 ≤ inp),
                     fcsOk := goodEnd frame ending,
                     storeForward := s.bit Reg.FRM_CTRL 0 || outs.any (fun p => faster s p inp) }
  if outs.isEmpty || (ending == .errorMarker && !headGone f s) then s
  else
    let x := tryAdmit f s
    if !x.2 then x.1
    else
      let f := if ending = .terminate then f else { f with client := withFcs frame, stomp := some 0xC }
      penCount inp 0x78 1 (enterFrame (freeKey x.1) f x.1)

/-! ## Sealing (R121 to R125, R128, R143) -/

/-- Confidentiality offset of an encoding (R119). -/
def confOffset (v : Nat) : Nat := match v with
  | 1 => 30
  | 2 => 50
  | _ => 0

/-- The GCM IV of a frame (R128). -/
def frameIv (cipher sci : Nat) (a : SaEntry) (pn : Nat) : Bytes :=
  if cipher < 2 then beBytes 8 sci ++ beBytes 4 pn
  else xorBytes (beBytes 4 a.ssci ++ beBytes 8 pn) a.salt

/-- The SecTAG of a sealed frame (R122). -/
def secTagOf (explicit enc : Bool) (an n pn sci : Nat) : Bytes :=
  [0x88#8, 0xE5#8] ++ leBytes 1 (0x20 * b2n explicit + 0x0C * b2n enc + an) ++ leBytes 1 (if n < 48 then n else 0) ++
  beBytes 4 pn ++ (if explicit then beBytes 8 sci else [])

/-- A frame sealed under a binding: line bytes, ICV and the marks that the commit stage uses. -/
def sealBytes (e : ScEntry) (a : SaEntry) (b : Binding) (enc : Bool) (tags : Nat) (f : Frame) : Frame :=
  let w0 := scWord e 0
  let body := sansFcs f.client
  let head := 12 + 4 * min (field w0 5 2) tags
  let n := body.length - head
  let crypt := if enc then head + min (confOffset (field w0 3 2)) n else body.length
  let tag := secTagOf (!Nat.testBit w0 2) enc (b.epoch % 4) n b.pn (scSci e)
  let aad := body.take head ++ tag ++ slice body head (crypt - head)
  let x := gcmSeal a.key (frameIv a.cipher (scSci e) a b.pn) aad (body.drop crypt)
  { f with
    line := aad ++ x.1, icv := x.2, headLen := head, tagLen := tag.length, cryptFrom := crypt,
    hashKey := aesEncrypt a.key (zeros 16), sa := some b.sa, gen := b.gen, slot := b.slot, pn := b.pn, secTag := tag }

/-- Check 2 on: admission, binding, sealing, and the tail's FCS (R129, R143). -/
def sealBind (i : Nat) (p : Parsed) (f : Frame) (ending : RxEnd) (s : State) : State :=
  let dry := bindTx i (f.cls == 7) s
  match dry.2 with
  | none => refuseFrame f 0x30 9 none dry.1
  | some b =>
    let a := s.saAt b.sa
    let good := goodEnd f.client ending
    let x := tryAdmit f s
    if !x.2 then x.1
    else
      let r := bindTx i (f.cls == 7) x.1
      let s := r.1
      let enc := !(classCfg s f.cls).integrityOnly
      let f := sealBytes (s.scAt false i) a b enc p.tags f
      if good then
        learnSeal f.span f.inPort p (enterFrame (freeTag s) { f with cellsLeft := cellsOf f.client.length } s)
      else if (if ending = .terminate then headLeaves f s else headGone f s) then
        let cause := if ending = .terminate then 0xA else 0xC
        countStomp f cause (enterFrame (freeTag s)
          { f with cellsLeft := cellsOf f.client.length, stomp := some cause } s)
      else
        match ending with
        | .terminate => unbind b.sa b.gen (refuseFrame f 0x20 0xA none s)
        | _ => unbind b.sa b.gen (abortRecord f s)

/-- A frame of a frame span's client port: classification, then the checks of R143. -/
def sealFrame (n m : Nat) (frame : Bytes) (ending : RxEnd) (s : State) : State :=
  let p := parseFrame (sansFcs frame)
  match sealDecision m n p s with
  | (s, none) => s
  | (s, some i) =>
    let line := spanLine s n
    let f : Frame :=
      { span := n, inPort := m, cls := classOf s n p, ptp := p.ptpEvent, client := frame, rxLen := frame.length,
        fcsOk := goodEnd frame ending, sc := some i, outs := [line], storeForward := s.bit Reg.FRM_CTRL 0 || faster s line m }
    if frame.length > 10240 then refuseFrame f 0x28 1 none s else sealBind i p f ending s

/-- A MAC control frame: it is never forwarded (R316). -/
def isMacControl (frame : Bytes) : Bool := beAt frame 12 2 == 0x8808

/-- What becomes of a frame received on a client port, by the mode its span runs in. -/
def sealMode (n m : Nat) (frame : Bytes) (ending : RxEnd) (s : State) : State :=
  match runMode s n with
  | .bypass => if frame.length > 10240 then s else bypassFrame n m [spanLine s n] frame ending s
  | .frame => sealFrame n m frame ending s
  | _ => countDiscard n m s

/-! ## Waiting for the islands of a rise (R99) -/

/-- The first frames of a span whose rise of N_run waits for islands are not admitted yet. -/
def awaitsRise (s : State) (n : Nat) : Bool :=
  s.fab.rising.contains n && !s.fab.unparking.isEmpty && runMode s n == .frame

/-- A frame waits at admission, with its ingress stamps (R368). -/
def holdArrival (line : Bool) (p : Nat) (frame : Bytes) (ending : RxEnd) (s : State) : State :=
  let h : HeldArrival :=
    { line := line, port := p, frame := frame, ending := ending, stamp := s.rd (Reg.TB_NS 0), tick := s.refTick,
      shadows := shadowsNow s }
  { s with sch := { s.sch with held := s.sch.held ++ [h] } }

/-- No longer arriving: its tail is in. -/
def tailIn (p : Nat) (s : State) : State :=
  { s with sch := { s.sch with arriving := Tbl.set (fun _ => none) s.sch.arriving p none } }

/-- A frame arrives on a client port. -/
def sealArrival (m : Nat) (frame : Bytes) (ending : RxEnd) (s : State) : State :=
  match portSpan s m with
  | none => s
  | some n =>
    if !portReceives s m || runMode s n == .trunk then s
    else if !isReceived ending then arrivalRaw n m ending s
    else
      let s := countReceived m frame ending (tailIn m (arrivalRaw n m ending s))
      if isMacControl frame then pauseReceive m frame (goodEnd frame ending) s
      else if frame.length < 64 then s
      else if awaitsRise s n then holdArrival false m frame ending s
      else sealMode n m frame ending s

/-! ## Opening (R126, R127, R133 to R140, R142) -/

/-- The SecTAG as found: offset, clear tags, and its fields. -/
structure SecTag where
  at_ : Nat
  tags : Nat
  v : Bool
  es : Bool
  sc : Bool
  scb : Bool
  e : Bool
  c : Bool
  an : Nat
  sl : Nat
  pn : Nat
  sci : Nat
deriving DecidableEq, Repr

/-- Finds 0x88E5 after zero, one or two VLAN tags (check 2). -/
def findSecTag (f : Bytes) : Option SecTag :=
  let t := if isTpid (beAt f 12 2) then (if isTpid (beAt f 16 2) then 2 else 1) else 0
  let o := 12 + 4 * t
  if beAt f o 2 = 0x88E5 ∧ o + 2 ≤ f.length then
    let x := byteAt f (o + 2)
    some { at_ := o, tags := t, v := Nat.testBit x 7, es := Nat.testBit x 6, sc := Nat.testBit x 5,
           scb := Nat.testBit x 4, e := Nat.testBit x 3, c := Nat.testBit x 2, an := x % 4,
           sl := byteAt f (o + 3) % 64, pn := beAt f (o + 4) 4, sci := beAt f (o + 8) 8 }
  else none

/-- SecTAG length. -/
def SecTag.len (g : SecTag) : Nat := if g.sc then 16 else 8

/-- n of R139 for a frame of `l` bytes. -/
def secureLen (g : SecTag) (l : Nat) : Nat := if g.sl ≠ 0 then g.sl else l - g.at_ - g.len - 20

/-- The parts of check 3 that need no receive SC. -/
def tagValid (g : SecTag) (l : Nat) : Bool :=
  !g.v && !(g.es && g.sc) && !(g.sc && g.scb) && !(g.c && !g.e) && decide (g.sl < 48) &&
  decide (g.at_ + g.len + secureLen g l + 20 ≤ l) && (g.sl != 0 || decide (48 ≤ secureLen g l))

/-- The SCI a lookup uses, if the frame carries one (R126). -/
def lookupSci (g : SecTag) (f : Bytes) : Option Nat :=
  if g.sc then some g.sci else if g.es then some (beAt f 6 6 * 65536 + 1) else none

/-- The receive SC of a span for an SCI, or its implicit one (R126). -/
def findRxSc (s : State) (n : Nat) (sci : Option Nat) : Option Nat :=
  (s.sec.rx.find? (fun x => x.2.inUse && scSpan x.2 == n && (match sci with
    | some v => scSci x.2 == v
    | none => Nat.testBit (scWord x.2 0) 2))).map Prod.fst

/-- The ready live slot that an AN names (R127). -/
def slotOfAn (s : State) (e : ScEntry) (an : Nat) : Option Nat :=
  [0, 1].find? (fun k => let a := s.saAt (scSa e k); a.ready && a.state != .empty && a.epoch % 4 == an)

/-- Lowest acceptable PN under a NEXT_PN (R134). -/
def lowestPn (e : ScEntry) (next : Nat) : Nat := max 1 (next - field (scWord e 6) 0 17)

/-- PN recovery (R133). -/
def recoverPn (cipher lo lowest : Nat) : Nat :=
  if cipher < 2 then lo
  else (if lowest % 2 ^ 32 ≤ lo then lowest / 2 ^ 32 else lowest / 2 ^ 32 + 1) * 2 ^ 32 + lo

/-- The client frame recovered: padded to 60 bytes where short, with its FCS (R139, R140). -/
def openClient (body : Bytes) : Bytes := withFcs (padTo 60 body)

/-- Checks 6 and 7 on, for a frame whose slot is known. -/
def openBound (i slot : Nat) (g : SecTag) (l : Nat) (frame : Bytes) (ending : RxEnd) (f : Frame) (s : State) :
    State :=
  let e := s.scAt true i
  let a := s.saAt (scSa e slot)
  let low := lowestPn e a.pn
  let pn := recoverPn a.cipher g.pn low
  if pn < low then refuseFrame f 0x70 6 (some 5) s
  else
    let o := g.at_ + g.len
    let n := secureLen g l
    let auth := if g.e then min (confOffset (field (scWord e 0) 3 2)) n else n
    let aad := frame.take (o + auth)
    let x := gcmOpen a.key (frameIv a.cipher (scSci e) a pn) aad (slice frame (o + auth) (n - auth))
      (slice frame (o + n) 16)
    let body := frame.take g.at_ ++ slice frame o auth ++ x.1
    let p := parseFrame body
    let cls := classOf s f.span p
    let k := classCfg s cls
    if !g.e && !k.integrityOnly then refuseFrame { f with cls := cls } 0x78 7 (some 3) s
    else
      let d := openPorts f.span p s
      let multi := decide (2 ≤ (spanClients s f.span).length) && !isGroup p.dmac
      let s := if multi then chargeLookup f.span s else s
      let client := openClient body
      let f := { f with
        cls := cls, ptp := p.ptpEvent, client := client, sa := some (scSa e slot), gen := a.gen, slot := slot, pn := pn,
        line := frame.take (o + n), headLen := g.at_, tagLen := g.len, cryptFrom := g.at_ + auth,
        hashKey := aesEncrypt a.key (zeros 16),
        computed := gcmTag a.key (frameIv a.cipher (scSci e) a pn) aad (slice frame (o + auth) (n - auth)),
        icvOk := x.2, icv := slice frame (o + n) 16, verdict := .pending, outs := d.1, flood := d.2,
        padded := decide (body.length < 60), secTag := slice frame g.at_ g.len,
        storeForward := s.bit Reg.FRM_CTRL 0 || !k.verifyLate || d.1.any (fun q => faster s q f.inPort),
        cellsLeft := cellsOf client.length }
      let cut := ending == .errorMarker
      if cut && !headGone f s then abortRecord f s
      else
        let y := tryAdmit f s
        if !y.2 then y.1
        else
          let s := pmcCount 0x0300 f.span 1 y.1
          if cut then countStomp f 0xC (enterFrame (freeTag s) { f with verdict := .good, stomp := some 0xC } s)
          else enterFrame (freeTag s) f s

/-- Checks 3 to 5. -/
def openTagged (g : SecTag) (frame : Bytes) (ending : RxEnd) (f : Frame) (s : State) : State :=
  let l := frame.length
  if !tagValid g l then refuseFrame f 0x58 3 (some 4) s
  else
    let sci := lookupSci g frame
    match findRxSc s f.span sci with
    | none =>
      let v := sci.getD 0
      refuseFrame f 0x60 4 (some 2) ((s.wr (Reg.FRM_LAST_SCI 0) (v % 2 ^ 32)).wr (Reg.FRM_LAST_SCI 1) (v / 2 ^ 32))
    | some i =>
      let e := s.scAt true i
      let f := { f with sc := some i }
      if field (scWord e 0) 5 2 < g.tags ∨ (scCipher e < 2 ∧ g.pn = 0) then refuseFrame f 0x58 3 (some 4) s
      else
        match slotOfAn s e g.an with
        | none => refuseFrame f 0x68 5 none s
        | some slot => openBound i slot g l frame ending f s

/-- A frame on a frame span's line port (R142). -/
def openFrame (n lp : Nat) (frame : Bytes) (ending : RxEnd) (s : State) : State :=
  let f : Frame :=
    { span := n, opening := true, inPort := lp, client := frame, rxLen := frame.length, fcsOk := goodEnd frame ending }
  if frame.length > 10272 then refuseFrame f 0x90 1 none s
  else
    match findSecTag frame with
    | none => if ending = .errorMarker then abortRecord f s else refuseFrame f 0x50 2 none s
    | some g => openTagged g frame ending f s

/-- What becomes of a frame received on a line port, by the mode its span runs in. -/
def openMode (n lp : Nat) (frame : Bytes) (ending : RxEnd) (s : State) : State :=
  match runMode s n with
  | .bypass =>
    if frame.length > 10272 then s
    else bypassFrame n lp ((spanClients s n).filter (fun q => (spanClients s n).length < 2 || portUp s q))
      frame ending s
  | .frame => openFrame n lp frame ending s
  | _ => countDiscard n lp s

/-- A frame arrives on a line port. -/
def openArrival (p : Nat) (frame : Bytes) (ending : RxEnd) (s : State) : State :=
  let lp := 32 + p
  match portSpan s lp with
  | none => s
  | some n =>
    if !portReceives s lp || patMode s n == .trunk then s
    else if !isReceived ending then arrivalRaw n lp ending s
    else
      let s := countReceived lp frame ending (tailIn lp (arrivalRaw n lp ending s))
      if frame.length < 64 then s
      else if awaitsRise s n then holdArrival true lp frame ending s
      else openMode n lp frame ending s

/-- A frame that waited is admitted, with the stamps of its arrival. -/
def admitHeld (h : HeldArrival) (s : State) : State :=
  match portSpan s h.port with
  | none => s
  | some n =>
    let k := s.sch.admitted
    let t := if h.line then openMode n h.port h.frame h.ending s else sealMode n h.port h.frame h.ending s
    let back := fun (f : Frame) =>
      if f.order = k then { f with stamp := h.stamp, tick := h.tick, shadows := h.shadows } else f
    if t.sch.admitted = k then t
    else { t with sch := { t.sch with frames := t.sch.frames.map (fun e => (e.1, back e.2)) } }

/-- The rise is over once no island is being unparked: the frames that waited are admitted in their order (R99). -/
def endRise (s : State) : State :=
  if (s.fab.rising.isEmpty && s.sch.held.isEmpty) || !s.fab.unparking.isEmpty then s
  else
    s.sch.held.foldl (fun s h => admitHeld h s)
      { s with fab := { s.fab with rising := [] }, sch := { s.sch with held := [] } }

/-! ## The verdict (R135, R142 checks 8 and 9) -/

/-- Whether a frame is the oldest of its span in verification: verdicts come in arrival order (R135). -/
def oldestPending (s : State) (f : Frame) : Bool :=
  !s.sch.frames.any (fun e => e.2.span == f.span && e.2.opening && e.2.verdict == .pending &&
    decide (e.2.order < f.order))

/-- A frame fails check 8 or 9: discarded and counted, or stomped where a copy has started. -/
def failVerdict (id off cause event : Nat) (s : State) : State :=
  let f := s.frameAt id
  frmEvent event
    (if f.heads.isEmpty then
      let s := if cause = 6 then settleWasted f.ran s else s
      lastFail f.span true cause false f.sc (frmCount f.span off 1 (removeFrame id s))
    else stompFrame id cause s)

/-- A frame passes every check: NEXT_PN and the slot move on, it is learned from and delivered; it counts as good where
it leaves (R150). -/
def passVerdict (id : Nat) (s : State) : State :=
  let f := s.frameAt id
  let s := s.setFrame id { f with verdict := .good }
  let s := rxVerified (f.sc.getD 0) (f.sa.getD 0) f.gen f.pn s
  let s := if f.flood then s.bump Reg.CLS_OPEN_FLOODS else s
  let s := learnOpen f.span (f.sc.getD 0) (parseFrame (sansFcs f.client)) s
  if f.outs.isEmpty then removeFrame id s else s

/-- The ICV of a frame has been checked, once every cell is done. A frame of an SC that was deleted meanwhile has no replay
window to fail (R196; log entry 109). -/
def icvVerdict (id : Nat) (s : State) : State :=
  let f := s.frameAt id
  if !s.hasFrame id || !f.opening || f.bypass || f.verdict != .pending || f.stomp.isSome || f.cellsLeft != 0 ||
      !oldestPending s f then s
  else
    let s := tailIn f.inPort s
    let e := s.scAt true (f.sc.getD 0)
    let late := e.inUse && decide (f.pn < lowestPn e (nextPnOf (s.saAt (f.sa.getD 0)) f.gen))
    let s := recordFrame f f.stamp f.pn (!f.icvOk || late) f.icv s
    let s := traceFrame f id (if !f.icvOk then 8 else if late then 6 else 0) s
    if !f.icvOk then failVerdict id 0x80 8 1 (s.bump Reg.FRM_ICVFAILS)
    else if late then failVerdict id 0x70 6 5 s
    else passVerdict id s

/-! ## Early ends (R146, R338) -/

/-- Takes one off a counter of a port's page. -/
def penUncount (p off n : Nat) (s : State) : State :=
  let a := Reg.PEN_PAGE p 0 + off
  s.wr64 a ((s.rd64 a + 2 ^ 64 - n) % 2 ^ 64)

/-- Takes a frame that ends early back out of the receive counters: RX_ABORTS counts it in place of RX_FRAMES and
RX_OCTETS, or of RX_FCS_ERR (R338). -/
def uncountReceived (p len : Nat) (fcsOk : Bool) (s : State) : State :=
  if fcsOk then penUncount p 0x08 len (penUncount p 0x00 1 s) else penUncount p 0x10 1 s

/-- Takes the latest frame held at admission from a port out of the list, if there is one. -/
def dropHeld (p : Nat) (s : State) : Option (HeldArrival × State) :=
  match s.sch.held.reverse.find? (fun h => h.port == p) with
  | none => none
  | some h =>
    let l := s.sch.held.reverse
    some (h, { s with sch := { s.sch with
      held := (l.takeWhile (fun h => h.port != p) ++ (l.dropWhile (fun h => h.port != p)).tail).reverse } })

/-- The input PCS ends the frame arriving on a port early: RX_ABORTS, and the frame is stomped or discarded. -/
def frameAbort (p : Nat) (s : State) : State :=
  let s := penCount p 0x30 1 s
  match Tbl.get (fun _ => none) s.sch.arriving p with
  | none =>
    match dropHeld p s with
    | none => s
    | some (h, s) => uncountReceived p h.frame.length (goodEnd h.frame h.ending) s
  | some id =>
    let f := s.frameAt id
    let s := tailIn p (uncountReceived p f.rxLen f.fcsOk s)
    let s := if f.bypass && f.heads.isEmpty then penUncount p 0x78 1 s else s
    endFrame id 0xC (abortRecord f) s

/-- Every frame whose head has left is stomped, every other one of a span that satisfies `on` is discarded
(R114, R146). How many were discarded. -/
def endAllFrames (on : Nat → Bool) (s : State) : State :=
  let ids := (s.sch.frames.filter (fun e => on e.2.span)).map Prod.fst
  ids.foldl (fun s id => endFrame id 0xC (abortRecord (s.frameAt id)) s) s

end Sys2Proof.Machine
end

