-- ==== Sys2Proof/Machine/Line.lean ====
section
/-! DEFINITION. The trunk line coder (R158 to R162): blocks of the stream, RS(542,514), groups with their markers, and
what a receiver needs of a lane's rate and skew. The field, the symbol mapping and the placement of the parity are those
of IEEE 802.3 Clause 91, which R159 names (log entry 14). -/

namespace Sys2Proof.Machine

/-! ## Blocks (R159) -/

/-- Bits of a number, bit 0 first. -/
def bitList (n v : Nat) : List Bool := (List.range n).map (Nat.testBit v)

/-- Bytes of a bit string, the first bit the most significant of byte 0 (R168). -/
def packBits : Nat → List Bool → Bytes
  | 0, _ => []
  | n + 1, l => BitVec.ofNat 8 ((l.take 8).foldl (fun a b => 2 * a + b2n b) 0) :: packBits n (l.drop 8)

/-- The bit string of a byte string. -/
def unpackBits (bs : Bytes) : List Bool :=
  bs.flatMap (fun b => (List.range 8).map (fun j => Nat.testBit b.toNat (7 - j)))

/-- The number whose bit 0 is the first of a list. -/
def bitsVal (l : List Bool) : Nat := l.foldr (fun b a => b2n b + 2 * a) 0

/-- A header, tag, marker or fill block: bit 0, then bytes 0 to 31, most significant bits first. -/
def byteBlock (bit0 : Bool) (bs : Bytes) : Block257 := BitVec.ofNat 257 (b2n bit0 + 2 * bitsVal (unpackBits (exactly 32 bs)))

/-- Bytes 0 to 31 of such a block. -/
def blockOctets (b : Block257) : Bytes := packBits 32 (bitList 256 (b.toNat / 2))

/-- The fill block (R162). -/
def fillBlock : Block257 := byteBlock false (List.replicate 32 0xA5#8)

/-- Groups of 257 bits. -/
def groups257 : Nat → List Bool → List (List Bool)
  | 0, _ => []
  | n + 1, l => l.take 257 :: groups257 n (l.drop 257)

/-- The 1,027 blocks of a stitch: header as sent, payload, tag block (R163, R168). -/
def stitchBlocks (header body tag : Bytes) (inverted : Bool) : List Block257 :=
  [byteBlock false (header.take 32), byteBlock false (header.drop 32)] ++
  (groups257 1024 (unpackBits body)).map (fun g => BitVec.ofNat 257 (bitsVal g)) ++ [byteBlock inverted tag]

/-- The stitch word and the marker word. -/
def stitchWord : Bytes := beBytes 8 0x6D0B3E92C5A7184F
/-- MARKER_WORD. -/
def markerWord : Bytes := beBytes 8 0xB23C71E40A9D56F8

/-- The marker block of a lane (R160). -/
def markerOf (lane lanes group : Nat) : Block257 :=
  byteBlock false (markerWord ++ leBytes 1 lane ++ leBytes 1 lanes ++ beBytes 2 group ++ List.replicate 20 0xA5#8)

/-! ## RS(542,514) -/

/-- Multiplication by α in the field of 1,024 elements, with x^10 + x^3 + 1. -/
def gfShift (a : Nat) : Nat := if a < 512 then 2 * a else (2 * a) ^^^ 0x409

/-- Product of the low `k` bits of `b` with `a`. -/
def gfMulBits : Nat → Nat → Nat → Nat
  | 0, _, _ => 0
  | k + 1, a, b => (if b % 2 = 1 then a else 0) ^^^ gfMulBits k (gfShift a) (b / 2)

/-- Multiplication in the field. -/
def gfMul (a b : Nat) : Nat := gfMulBits 10 a b

/-- α^n. -/
def alphaPow : Nat → Nat
  | 0 => 1
  | n + 1 => gfShift (alphaPow n)

/-- Sum of two polynomials. -/
def polyAdd (f g : List Nat) : List Nat := f.zipWith (fun a b => a ^^^ b) g

/-- The generator with the roots α^0 to α^27: its coefficients below the leading 1, highest first. -/
def rsGenerator : List Nat :=
  ((List.range 28).foldl (fun g j => polyAdd (0 :: g) (g.map (gfMul (alphaPow j)) ++ [0])) [1]).dropLast.reverse

/-- The 28 parity symbols of a message, highest first: the remainder by the generator. -/
def rsParity (msg : List Nat) : List Nat :=
  let g := rsGenerator
  msg.foldl (fun r m => polyAdd (r.drop 1 ++ [0]) (g.map (gfMul (m ^^^ r.headD 0)))) (List.replicate 28 0)

/-- The codeword of 20 blocks: their 5,140 bits, then the parity, each symbol least significant bit first. -/
def codeword (bs : List Block257) : BitVec 5420 :=
  let v := (bs.zipIdx.map (fun e => e.1.toNat * 2 ^ (257 * e.2))).sum
  let p := rsParity ((List.range 514).map (fun k => field v (10 * k) 10))
  BitVec.ofNat 5420 (v + 2 ^ 5140 * (p.zipIdx.map (fun e => e.1 * 2 ^ (10 * e.2))).sum)

/-! ## Groups and lanes -/

/-- Port types whose trunk line signal has FEC. -/
def trunkFec (type : Nat) : Bool := decide (4 ≤ type)

/-- Bits of a group on a lane: one marker, and 66 codewords or 1,320 blocks. -/
def groupBits (type : Nat) : Nat := if trunkFec type then 257 + 66 * 5420 else 1321 * 257

/-- Nominal rate of a trunk lane in bits per second, as a fraction (R158). -/
def trunkLaneRate (type : Nat) : Nat × Nat :=
  (typeRate type * 1000000 * 1027 * groupBits type, 262144 * 1320 * typeLanes type)

/-- Codewords, or blocks without FEC, of a group over all lanes. -/
def groupUnits (type : Nat) : Nat := if trunkFec type then 66 * typeLanes type else 1320

/-- One unit of the stream, a codeword or a block, on its lane; a new group starts with a marker on every lane. -/
def sendUnit (type : Nat) (u : LineUnit) (c : LineCoder) : LineCoder × List (Nat × LineUnit) :=
  let lanes := typeLanes type
  let marks := if c.count = 0 then (List.range lanes).map (fun l => (l, LineUnit.marker (markerOf l lanes c.group))) else []
  let k := c.count + 1
  let c := if k = groupUnits type then { c with count := 0, group := (c.group + 1) % 65536 } else { c with count := k }
  (c, marks ++ [((k - 1) % lanes, u)])

/-- One block of the stream: with FEC it waits until its codeword is whole. -/
def codeBlock (type : Nat) (b : Block257) (c : LineCoder) : LineCoder × List (Nat × LineUnit) :=
  if !trunkFec type then sendUnit type (.block b) c
  else
    let part := c.part ++ [b]
    if part.length < 20 then ({ c with part := part }, []) else sendUnit type (.codeword (codeword part)) { c with part := [] }

/-- Blocks of the stream in order. -/
def codeBlocks (type : Nat) (bs : List Block257) (c : LineCoder) : LineCoder × List (Nat × LineUnit) :=
  bs.foldl (fun x b => let y := codeBlock type b x.1; (y.1, x.2 ++ y.2)) (c, [])

/-- Sends blocks of a trunk span's stream. A port in test sends its pattern in their place, and a disabled one nothing
(R325, R335, R337). -/
def lineSend (n : Nat) (bs : List Block257) (s : State) : State :=
  let p := spanLine s n
  let t := s.trkAt n
  let r := codeBlocks (portCfg s p).type bs t.coder
  let s := s.setTrk n { t with coder := r.1 }
  if portTest s p || !s.bit (Reg.PEN_EN p) 0 then s
  else { s with out := s.out ++ r.2.map (fun e => Output.trunkLine n e.1 e.2) }

/-! ## Markers received (R161) -/

/-- Whether two lanes lie within 180 ns of one another: where their groups count from, in bits of the lane, differ by no
more, GROUP wrapping at 65,536. -/
def within180 (type a b : Nat) : Bool :=
  let m := 65536 * groupBits type
  let d := (a + m - b) % m
  let r := trunkLaneRate type
  decide (min d (m - d) * r.2 * 1000000000 ≤ 180 * r.1)

/-- Where GROUP 0 of a locked lane would have begun. -/
def groupZero (type : Nat) (k : MarkerSeen) : Nat :=
  let m := 65536 * groupBits type
  (k.pos + m - k.group * groupBits type % m) % m

/-- Whether locked lanes can be deskewed by GROUP. -/
def deskewed (type : Nat) (ms : List MarkerSeen) : Bool :=
  let zs := ms.map (groupZero type)
  zs.all (fun a => zs.all (fun b => within180 type a b))

/-- A marker word seen on a lane at bit `pos`. Before lock every marker word is followed, and three at one group length's
spacing with the same LANE and LANES lock the lane; in lock only the expected positions are looked at. -/
def laneMarker (type pos : Nat) (m : Bytes) (k : LaneMark) : LaneMark :=
  let g := groupBits type
  let here : MarkerSeen := { pos := pos, lane := byteAt m 8, lanes := byteAt m 9, group := beAt m 10 2 }
  match k.lock with
  | some l =>
    if l.pos < pos ∧ (pos - l.pos) % g = 0 ∧ pos - l.pos ≤ 4 * g then { k with lock := some here } else k
  | none =>
    match k.seen.find? (fun x => x.pos + g == pos && x.lane == here.lane && x.lanes == here.lanes) with
    | some x =>
      if 2 ≤ x.run then { lock := some { here with run := x.run + 1 }, seen := [] }
      else { k with seen := k.seen.filter (fun y => y != x && decide (pos ≤ y.pos + g)) ++ [{ here with run := x.run + 1 }] }
    | none => { k with seen := k.seen.filter (fun y => decide (pos ≤ y.pos + g)) ++ [{ here with run := 1 }] }

end Sys2Proof.Machine
end

