-- ==== Sys2Proof/Machine/Trunk.lean ====
section
/-! DEFINITION. Trunk mode: the client block stream, stitches, alignment, opening, binding
(R152 to R185). Block types, terminate blocks and the 256b/257b transcoding are those of IEEE 802.3
Clauses 49, 82 and 91, which R153 names (log entry 14). -/

namespace Sys2Proof.Machine

/-! ## 66-bit blocks -/

/-- Sync header of a control block. -/
def ctlSync : BitVec 2 := 0b10#2

/-- Sync header of a data block. -/
def dataSync : BitVec 2 := 0b01#2

/-- The eight bytes of a block, first-sent first. -/
def blockBytes (b : Block66) : Bytes := leBytes 8 b.content.toNat

/-- A block with new bytes. -/
def withBytes (b : Block66) (bs : Bytes) : Block66 := { b with content := BitVec.ofNat 64 (leNat bs) }

/-- Block type of a control block. -/
def blockType (b : Block66) : Nat := b.content.toNat % 256

/-- The all-idle block. -/
def idleBlock : Block66 := ⟨ctlSync, 0x1E#64⟩

/-- The local fault ordered set: type 0x4B, data 00 00 01, idles (R156). -/
def faultBlock : Block66 := ⟨ctlSync, BitVec.ofNat 64 (0x4B + 2 ^ 24)⟩

/-- Whether a block has a valid sync header. -/
def syncOk (b : Block66) : Bool := b.sync == ctlSync || b.sync == dataSync

/-- Whether a block is an ordered-set block. -/
def isOrdered (b : Block66) : Bool := b.sync == ctlSync && [0x4B, 0x55, 0x2D].contains (blockType b)

/-- Whether a block ends in an idle character: its last character is a control code 0 (R154). -/
def endsIdle (b : Block66) : Bool :=
  b.sync == ctlSync && [0x1E, 0x4B, 0x87, 0x99, 0xAA, 0xB4, 0xCC, 0xD2, 0xE1].contains (blockType b) &&
  decide (b.content.toNat / 2 ^ 57 = 0)

/-- Data bytes of a terminate block by its type. -/
def termBytes : Nat → Option Nat
  | 0x87 => some 0 | 0x99 => some 1 | 0xAA => some 2 | 0xB4 => some 3
  | 0xCC => some 4 | 0xD2 => some 5 | 0xE1 => some 6 | 0xFF => some 7
  | _ => none

/-- First data byte of a block, and how many. -/
def dataSpan (b : Block66) : Nat × Nat :=
  if b.sync == dataSync then (0, 8)
  else
    match blockType b with
    | 0x78 => (1, 7)
    | 0x33 => (5, 3)
    | 0x66 => (5, 3)
    | t => (1, (termBytes t).getD 0)

/-- Whether a block starts a frame. -/
def isStart (b : Block66) : Bool := b.sync == ctlSync && [0x78, 0x33, 0x66].contains (blockType b)

/-- Whether a block ends a frame. -/
def isTerm (b : Block66) : Bool := b.sync == ctlSync && (termBytes (blockType b)).isSome

/-- The blocks of the frame that ends with the last block of a list, and how many stand before them. -/
def lastFrameAt (bs : List Block66) : Option Nat :=
  match bs.getLast? with
  | some t =>
    if !isTerm t then none
    else
      let body := (bs.dropLast.reverse.takeWhile (fun b => b.sync == dataSync)).length
      match bs.dropLast.reverse.drop body with
      | st :: _ => if isStart st then some (bs.length - body - 2) else none
      | [] => none
  | none => none

/-- Data bytes of consecutive blocks. -/
def streamBytes (bs : List Block66) : Bytes :=
  bs.flatMap (fun b => slice (blockBytes b) (dataSpan b).1 (dataSpan b).2)

/-- Puts data bytes back into consecutive blocks. -/
def putStream : List Block66 → Bytes → List Block66
  | [], _ => []
  | b :: t, d =>
    withBytes b (splice (blockBytes b) (dataSpan b).1 (d.take (dataSpan b).2)) :: putStream t (d.drop (dataSpan b).2)

/-- Rewrites the PTP event message that ends with the last block of a list, with residence time ρ in
2^-16 ns: the new blocks, and whether it was rewritten, saturated, skipped (R157, R372, R375 to R377). -/
def correctStream (mode rho : Nat) (bs : List Block66) : List Block66 × Correction :=
  match lastFrameAt bs with
  | none => (bs, .none)
  | some k =>
    let d := streamBytes (bs.drop k)
    let frame := d.drop 7
    if frame.length < 64 ∨ ethFcs (frame.take (frame.length - 4)) ≠ frame.drop (frame.length - 4) then (bs, .none)
    else
      match correct mode (frame.take (frame.length - 4)) rho with
      | .done g sat => (bs.take k ++ putStream (bs.drop k) (d.take 7 ++ withFcs g), .done g sat)
      | c => (bs, c)

/-- Counts a correction of a trunk span. -/
def countCorrection (n : Nat) (c : Correction) (s : State) : State :=
  match c with
  | .none => s
  | .stale => s.bump Reg.TIM_TC_STALE
  | .skip => s.bump Reg.TIM_TC_SKIP
  | .done _ sat =>
    let s := trkCount n 0x98 1 s
    if sat then timEvent 7 (stampTb s n) (s.bump Reg.TIM_TC_SAT) else s

/-! ## 256b/257b transcoding (R153, Clause 91) -/

/-- Block types by their first four bits sent. -/
def blockTypes : List Nat :=
  [0x1E, 0x2D, 0x33, 0x4B, 0x55, 0x66, 0x78, 0x87, 0x99, 0xAA, 0xB4, 0xCC, 0xD2, 0xE1, 0xFF]

/-- Scrambles the first five bits with bits 12 to 8. -/
def scramble5 (x : Nat) : Nat := x ^^^ field x 8 5

/-- The 257-bit block of four 66-bit blocks, bit 0 sent first. A group whose blocks are not all valid is
sent as an invalid group. -/
def transcode (g : List Block66) : Nat :=
  let pay := (g.zipIdx.map (fun e => e.1.content.toNat * 2 ^ (64 * e.2))).sum
  match g.findIdx? (fun b => b.sync != dataSync) with
  | none => scramble5 (1 + 2 * pay)
  | some c =>
    let flags := (g.zipIdx.map (fun e => b2n (e.1.sync == dataSync) * 2 ^ (1 + e.2))).sum
    let low := field pay 0 (64 * c + 4)
    let high := pay / 2 ^ (64 * c + 8)
    scramble5 (flags + low * 2 ^ 5 + high * 2 ^ (64 * c + 9))

/-- The four 66-bit blocks of a 257-bit block; an unknown block type gives error blocks. -/
def untranscode (x0 : Nat) : List Block66 :=
  let x := scramble5 x0
  let cut := fun (pay k : Nat) => BitVec.ofNat 64 (field pay (64 * k) 64)
  if x % 2 = 1 then (List.range 4).map (fun k => ⟨dataSync, cut (x / 2) k⟩)
  else
    match (List.range 4).find? (fun k => !Nat.testBit x (1 + k)) with
    | none => List.replicate 4 errorBlock
    | some c =>
      let low := field x 5 (64 * c + 4)
      let nib := field low (64 * c) 4
      match blockTypes.find? (fun t => t % 16 == nib) with
      | none => List.replicate 4 errorBlock
      | some t =>
        let pay := low + (t / 16) * 2 ^ (64 * c + 4) + (x / 2 ^ (64 * c + 9)) * 2 ^ (64 * c + 8)
        (List.range 4).map (fun k => ⟨if Nat.testBit x (1 + k) then dataSync else ctlSync, cut pay k⟩)

/-- Consecutive groups of four. -/
def fours : Nat → List Block66 → List (List Block66)
  | 0, _ => []
  | n + 1, l => l.take 4 :: fours n (l.drop 4)

/-- The 32,896 payload bytes of 4,096 client blocks (R163, R168). -/
def payloadOf (bs : List Block66) : Bytes :=
  packBits 32896 ((fours 1024 bs).flatMap (fun g => bitList 257 (transcode g)))

/-- The 4,096 client blocks of a payload. -/
def blocksOfPayload (p : Bytes) : List Block66 :=
  (groups257 1024 (unpackBits p)).flatMap (fun g => untranscode (bitsVal g))

/-! ## Header (R164, R165, R168) -/

/-- The 64 header bytes as R164 gives them, before the XOR. -/
def stitchHeader (span ks : Nat) (rdi cinch : Bool) (seq : Nat) : Bytes :=
  let h := stitchWord ++ beBytes 2 span ++ leBytes 1 (128 * ks + 64 * b2n rdi + 32 * b2n cinch) ++ zeros 1 ++
    beBytes 6 seq ++ zeros 42
  h ++ beBytes 4 (crc32c h)

/-- Bytes 8 to 63 XOR 0xA5: as sent, and back. -/
def maskHeader (h : Bytes) : Bytes := h.take 8 ++ (h.drop 8).map (fun b => b ^^^ 0xA5#8)

/-- IV of a stitch. -/
def stitchIv (salt : Bytes) (span seq : Nat) : Bytes :=
  xorBytes salt (beBytes 2 span ++ beBytes 6 seq ++ zeros 4)

/-- The 64 header bytes of blocks H1 and H2 as received: none where bit 0 of H1 is 1 or one of them lies in an
uncorrectable codeword (R159, R161). -/
def headerOf (h1 h2 : Block257) (errored : Bool) : Bytes :=
  if errored || h1.getLsbD 0 then [] else blockOctets h1 ++ blockOctets h2

/-- Whether a header as sent is good but for its SPAN: 64 bytes clear of errored codewords, the word, the
CRC (R164, R165). -/
def headerGood (raw : Bytes) : Bool :=
  let h := maskHeader raw
  raw.length == 64 && h.take 8 == stitchWord && crc32c (h.take 60) == beAt h 60 4

/-! ## Tables of R179 -/

/-- T_SEAL and T_OPEN of a port type in ns. -/
def trunkDelay : Nat → Nat × Nat
  | 7 => (410, 1120) | 6 => (470, 1820) | 5 => (590, 3210) | 4 => (770, 6010) | 3 => (1030, 11620)
  | 2 => (1890, 28950) | _ => (0, 0)

/-- Port type of a span's line port. -/
def lineType (s : State) (n : Nat) : Nat := (portCfg s (spanLine s n)).type

/-- The delay that a stitch has beyond its fixed latency while the fabric may be late: up to 3 µs, a free value, in
2^-16 ns (R94, R180; log entry 55). -/
def lateRho (s : State) : Nat := if lateNow s then Config.freeNat s.rng % (3000 * 65536 + 1) else 0

/-- ρ of the seal side in 2^-16 ns: T_SEAL, and 64 bits at the client rate for each block by which the
elastic buffer's fill differs from its nominal 8 (R372). -/
def sealRho (s : State) (n fill : Nat) : Nat :=
  let t := lineType s n
  let block := 64000 * 65536 / max 1 (typeRate t)
  (trunkDelay t).1 * 65536 + fill * block - 8 * block + lateRho s

/-! ## Status -/

/-- RX_STATE of R175. -/
def rxState (s : State) (n : Nat) : Nat := s.rdF (Reg.FRM_TRK_STATUS n) 0 2

/-- Raw defect bit of a port. Nothing is raised on a port that is disabled or in no span (R325). -/
def rawDefect (p b : Nat) (v : Bool) (s : State) : State :=
  s.setBit (Reg.PEN_DEF_RAW p) b (v && s.bit (Reg.PEN_EN p) 0 && (portSpan s p).isSome)

/-- Lanes of a span's line port. -/
def lineLanes (s : State) (n : Nat) : Nat := typeLanes (lineType s n)

/-- Marker tracking of the lanes of a span's line port. -/
def laneMarks (s : State) (n : Nat) : List LaneMark :=
  (List.range (lineLanes s n)).map (fun l => Tbl.get (fun _ => ({} : LaneMark)) (s.trkAt n).lanes l)

/-- The lanes in marker lock cannot be deskewed, or LANE or LANES disagree with the port (R161). -/
def lanesDisagree (s : State) (n : Nat) : Bool :=
  let locks := (laneMarks s n).zipIdx.filterMap (fun e => e.1.lock.map (fun k => (k, e.2)))
  locks.any (fun e => e.1.lane != e.2 || e.1.lanes != lineLanes s n) || !deskewed (lineType s n) (locks.map Prod.fst)

/-- Every lane is in marker lock, and the lanes are deskewed (R161, R175). -/
def markersHeld (s : State) (n : Nat) : Bool := (laneMarks s n).all (fun m => m.lock.isSome) && !lanesDisagree s n

/-- Raw LOBL, LOAM and LOST of a trunk line port follow its lanes and its receiver (R161, R181). -/
def syncMarkers (n : Nat) (s : State) : State :=
  let p := spanLine s n
  let s := rawDefect p 2 ((laneMarks s n).any (fun m => m.lock.isNone)) s
  let s := rawDefect p 3 (lanesDisagree s n) s
  rawDefect p 8 (markersHeld s n && rxState s n != 3) s

/-- Sets RX_STATE and CANDS, then what depends on them (R175, R181, R345). -/
def setRxState (n v : Nat) (s : State) : State :=
  let s := s.wrF (Reg.FRM_TRK_STATUS n) 0 2 v
  let s := s.wrF (Reg.FRM_TRK_STATUS n) 2 3 (s.trkAt n).cands.length
  syncPorts (if patMode s n == .trunk then syncMarkers n s else s)

/-- A span's binding is in force: it runs as a trunk span without configuration error. -/
def trunkRuns (s : State) (n : Nat) : Bool := runMode s n == .trunk && !s.bit (Reg.FRM_TRK_STATUS n) 7

/-! ## Fabric cells of stitches (R83) -/

/-- The 515 cells of a stitch in a direction: 514 of payload, and the header as authenticated data. -/
def stitchCells (n tag sa : Nat) (opening : Bool) : List Cell :=
  (List.range 515).map (fun k =>
    { frame := tag, trunk := true, index := k, span := n, sa := sa, opening := opening, first := k == 0,
      last := k == 514, authOnly := if k = 514 then 64 else 0 })

/-- What an island's partial of cell `k` of a stitch, other than the right one, changes in the joined tag: the header
is blocks 1 to 4, payload cell k the four from 4k + 5, and the lengths block 2,061 (R83, R86). -/
def stitchShift (key header body : Bytes) (k : Nat) (p : BitVec 128) : Bytes :=
  let h := blockVal (aesEncrypt key (zeros 16))
  let bytes := if k = 514 then header else slice body (64 * k) 64
  let o := if k = 514 then 0 else 64 + 64 * k
  let right := ghashPartial h (bytes.zipIdx.map (fun e => (o + e.2, e.1)))
  beBytes 16 (ghashJoin h 2061 (right ^^^ p)).toNat

/-- A text with what islands made of its cells. -/
def miscells (wrong : List (Nat × Bytes × BitVec 128)) (text : Bytes) : Bytes :=
  wrong.foldl (fun t e => if e.1 = 514 then t else splice t (64 * e.1) e.2.1) text

/-- A tag with what islands made of the cells: `body` is the ciphertext with every cell right. -/
def mistag (key header body : Bytes) (wrong : List (Nat × Bytes × BitVec 128)) (tag : Bytes) : Bytes :=
  wrong.foldl (fun t e => xorBytes t (stitchShift key header body e.1 e.2.2)) tag

/-- Drops cells of a span's stitches that have not been dispatched. -/
def dropStitchCells (n : Nat) (s : State) : State :=
  { s with fab := { s.fab with ready := s.fab.ready.filter (fun c => !c.trunk || c.span != n) } }

/-- The stitches of a span end: nothing sealed, opened or awaiting release is left (R114, R162, R175). A receiver that was
in LOCK leaves it: the event, but, as in that row of R175, no count (log entry 111). -/
def trunkStop (n : Nat) (s : State) : State :=
  let t := s.trkAt n
  let sas := (match t.stitch with
    | some x => [(x.sa, x.gen)]
    | none => []) ++ t.sealing.map (fun x => (x.sa, x.gen))
  let s := s.setTrk n { t with
    elastic := [], lastTaken := none, stitch := none, sealing := [], cands := [], lock := none, badRun := 0,
    tagRun := 0, header := none, release := [], tail := [], openTag := none, openCells := 0, openFailed := false,
    openWrong := [], openRan := [] }
  let was := rxState s n == 3
  let s := if was then trkEvent n 1 s else s
  let s := dropStitchCells n (sas.foldl (fun s a => unbind a.1 a.2 s) s)
  let s := (s.setBit (Reg.FRM_TRK_STATUS n) 11 (patMode s n == .trunk)).setBit (Reg.FRM_TRK_STATUS n) 10 false
  setRxState n 0 s

/-! ## Binding (R182) -/

/-- Takes a trunk span's binding from its registers, or sets its configuration error. A span that does not run starts once
it does (log entry 112 for LASTSW). -/
def trunkBind (n : Nat) (s : State) : State :=
  let tx := s.rd (Reg.FRM_TRK_TXSC n)
  let rx := s.rd (Reg.FRM_TRK_RXSC n)
  let te := s.scAt false (field tx 0 14)
  let re := s.scAt true (field rx 0 15)
  let ok := Nat.testBit tx 31 && Nat.testBit rx 31 && te.inUse && re.inUse &&
    decide (2 ≤ scCipher te) && decide (2 ≤ scCipher re)
  let s := s.setTrk n { s.trkAt n with
    boundTx := if Nat.testBit tx 31 then some (field tx 0 14) else none,
    boundRx := if Nat.testBit rx 31 then some (field rx 0 15) else none,
    peerSpan := s.rdF (Reg.FRM_TRK_PEER n) 0 5, lastSlot := none }
  if ok then setRxState n (if runMode s n == .trunk then 1 else 0) (s.setBit (Reg.FRM_TRK_STATUS n) 7 false)
  else trkEvent n 5 ((trunkStop n s).setBit (Reg.FRM_TRK_STATUS n) 7 true)

/-- A write to one of the binding registers: stored, and applied at once while CFG_ERR is 1. -/
def trunkBindingWrite (a v : Nat) (s : State) : State :=
  let n := (a - Reg.FRM_TRK_TXSC 0) / 0x20
  if a < Reg.FRM_TRK_TXSC 0 ∨ n ≥ 32 then s
  else
    let m := match (a - Reg.FRM_TRK_TXSC 0) % 0x20 with
      | 0 => 0x80003FFF
      | 4 => 0x80007FFF
      | 8 => 0x1F
      | _ => 0
    if m = 0 then s
    else
      let s := s.wr a (v &&& m)
      if patMode s n == .trunk && s.bit (Reg.FRM_TRK_STATUS n) 7 then trunkBind n s else s

/-- Four free tags are set aside for a trunk span, none for any other (R174). A span that is no trunk span shows
no receiver, no fill, no fault and no error; what it last sealed and delivered stays (R73, R175, R182, R183). -/
def reserveTags (n : Nat) (s : State) : State :=
  if patMode s n == .trunk then
    let u := usedTags s
    let free := ((List.range (u.length + 4)).filter (fun t => !u.contains t)).take 4
    s.setTrk n { s.trkAt n with setAside := free }
  else (s.setTrk n {}).wr (Reg.FRM_TRK_STATUS n) (s.rd (Reg.FRM_TRK_STATUS n) &&& 0x260)

/-! ## The seal side (R152 to R157, R162, R170 to R173) -/

/-- The seal side sends the fault-marked stream (R156, R345). -/
def sealFaulted (s : State) (n : Nat) : Bool :=
  match spanClients s n with
  | c :: _ => declared s c [0, 1, 2, 3, 4, 5]
  | [] => false

/-- Adds a block to the stitch in progress; with none in progress it is not carried. -/
def addBlock (n : Nat) (b : Block66) (fault : Bool) (s : State) : State :=
  let t := s.trkAt n
  match t.stitch with
  | none => s.setTrk n { t with lastTaken := some b }
  | some x => s.setTrk n { t with lastTaken := some b,
                                  stitch := some { x with blocks := x.blocks ++ [b], fault := x.fault || fault } }

/-- The stitch in progress still takes blocks, or none is in progress. -/
def takesBlocks (t : TrunkState) : Bool :=
  match t.stitch with
  | none => true
  | some x => decide (x.blocks.length < 4096)

/-- Rewrites a PTP event message whose last block has just been taken, as far back as the stitches that
have not yet left reach. -/
def sealCorrect (n : Nat) (s : State) : State :=
  let t := s.trkAt n
  let mode := tcMode s n
  match t.stitch with
  | none => s
  | some x =>
    if mode = 0 ∨ !(x.blocks.getLast?.any isTerm) then s
    else
      let prev := t.sealing.getLast?
      let before := (prev.map Stitch.blocks).getD []
      let r := correctStream mode (sealRho s n t.elastic.length) (before ++ x.blocks)
      let s := s.drawn
      let t := { t with
        stitch := some { x with blocks := r.1.drop before.length },
        sealing := match prev with
          | none => t.sealing
          | some p => t.sealing.dropLast ++ [{ p with blocks := r.1.take before.length }] }
      countCorrection n r.2 (s.setTrk n t)

/-- `n` free bytes of the present draw. -/
def freeBytes (s : State) (n : Nat) : Bytes := (List.range n).map (fun j => BitVec.ofNat 8 (Config.freeNat s.rng / 256 ^ j))

/-- The blocks at the end of a list that belong to a frame still open there, which may be a PTP event message that the
span corrects: no more than 128 bytes of it have come, or those say so. None where the frame has ended (R157). -/
def openMessage (mode : Nat) (bs : List Block66) : List Block66 :=
  let data := (bs.reverse.takeWhile (fun b => b.sync == dataSync)).length
  match bs.reverse.drop data with
  | st :: _ =>
    let l := bs.drop (bs.length - data - 1)
    let d := (streamBytes l).drop 7
    if mode ≠ 0 ∧ isStart st = true ∧ (d.length < 128 ∨ (parseFrame d).ptpEvent = true) then l else []
  | [] => []

/-- A sealed stitch can leave: its cells are done, and a message that goes on in the stitch in progress has been
corrected or needs none. -/
def stitchReady (n : Nat) (x : Stitch) (last : Bool) (s : State) : Bool :=
  x.cellsLeft == 0 && (!last || (openMessage (tcMode s n) x.blocks).isEmpty || x.fills != 0 ||
    (s.trkAt n).stitch.any (fun y => (openMessage (tcMode s n) (x.blocks ++ y.blocks)).length ≤ y.blocks.length))

/-- Fill of `k` stitch periods enters the line coder (R162). -/
def lineFill : Nat → Nat → State → State
  | 0, _, s => s
  | k + 1, n, s => lineFill k n (lineSend n (List.replicate 1027 fillBlock) (s.emit (.fillOut n)))

/-- Sends the oldest sealed stitch once it can leave, and the fill that follows it (R164 to R168, R178, R390). -/
def sendStitch (n : Nat) (s : State) : State :=
  let t := s.trkAt n
  match t.sealing with
  | [] => s
  | x :: rest =>
    if !stitchReady n x rest.isEmpty s then s
    else
      let g := gcmSeal x.key x.iv x.header (payloadOf x.blocks)
      let body := miscells x.wrong g.1
      let tag := (padTo 16 (mistag x.key x.header g.1 x.wrong g.2)).take 16
      let full := tag ++ List.replicate 16 0xA5#8
      let tblk := if x.failed then full.map (fun b => b ^^^ 0xFF#8) else full
      let s := s.setTrk n { t with sealing := rest }
      let raw := maskHeader x.header
      let s := lineSend n (stitchBlocks raw body tblk x.failed) (s.emit (.stitchOut n raw body tblk))
      let s := trkCount n 0x00 1 s
      let s := if x.fault then trkCount n 0x28 1 s else s
      let s := if x.failed then trkCount n 0x30 1 s else s
      let s :=
        if recorded s 7 then
          evrQueue (evrRecord (egressNs s (portDtx (portCfg s (spanLine s n))))
            (evrAttr n false 7 x.failed true 0 0) 32896 x.seq (tblk.take 16)) s
        else s
      let s :=
        if traced s n false then
          traceAdd x.stamp (evrAttr n false 7 x.failed true 0 0) 32896 x.tag x.sa
            (if x.failed then 0xB else 0) [] raw s
        else s
      lineFill x.fills n (unbind x.sa x.gen s)

/-- Sends the sealed stitches that can leave; at most two are in the fabric (R174). -/
def sendStitches (n : Nat) (s : State) : State := sendStitch n (sendStitch n s)

/-- Takes one block from the elastic buffer for the line: the fault-marked stream, an inserted idle at a
fill of 4 or fewer, or the oldest block. With nothing to take it leaves the state as it is (R154, R156). -/
def takeBlock (n : Nat) (s : State) : State :=
  let t := s.trkAt n
  if !takesBlocks t then s
  else if sealFaulted s n then
    addBlock n faultBlock true (s.setTrk n { t with elastic := t.elastic.drop 1 })
  else if t.elastic.length ≤ 4 ∧ (t.lastTaken.map endsIdle).getD true then
    addBlock n idleBlock false (trkCount n 0x10 1 s)
  else
    match t.elastic with
    | [] => s
    | b :: rest =>
      let s := addBlock n b false (s.setTrk n { t with elastic := rest })
      sendStitches n (sealCorrect n (if t.stitch.isSome then trkCount n 0x08 1 s else s))

/-- A client block enters the elastic buffer (R152 to R154). The line side takes blocks above the nominal
fill of 8. Only the arriving block is looked at for deletion (DEDUCED, log entry 126). -/
def clientBlock (n : Nat) (b : Block66) (s : State) : State :=
  if patMode s n != .trunk then s
  else
    let t := s.trkAt n
    let ok := syncOk b
    let b := if ok then b else errorBlock
    let s := if ok then s else trkCount n 0x20 1 s
    let idle := b == idleBlock
    let again := isOrdered b && ((t.elastic.getLast?.orElse (fun _ => t.lastTaken)) == some b)
    if 12 ≤ t.elastic.length ∧ (idle || again) then trkCount n 0x18 1 s
    else
      let s := s.setTrk n { t with elastic := t.elastic ++ [b] }
      if 8 < (s.trkAt n).elastic.length then takeBlock n s else s

/-- Takes blocks until the stitch in progress is whole. -/
def fillStitch : Nat → Nat → State → State
  | 0, _, s => s
  | k + 1, n, s => if takesBlocks (s.trkAt n) then fillStitch k n (takeBlock n s) else s

/-- The stitch in progress is whole: its cells are ready (R83, R163). -/
def closeStitch (n : Nat) (x : Stitch) (s : State) : State :=
  let t := s.trkAt n
  let s := s.setTrk n { t with stitch := none, sealing := t.sealing ++ [{ x with cellsLeft := 515 }] }
  { s with fab := { s.fab with ready := s.fab.ready ++ stitchCells n x.tag x.sa false } }

/-- A tag for the next stitch: of the two set aside for its direction one that no stitch holds and no cell in the
fabric names, else a shared one (R95, R174; log entry 97). -/
def stitchTag (two held : List Nat) (s : State) : Nat :=
  (two.find? (fun k => !held.contains k && !(cellTags s).contains k)).getD (freeTag s)

/-- The tag of the next stitch to be sealed. -/
def sealTag (t : TrunkState) (s : State) : Nat := stitchTag (t.setAside.take 2) (t.sealing.map Stitch.tag) s

/-- Fill for one stitch period, after the stitches that have not left yet (R162). -/
def sendFill (n : Nat) (s : State) : State :=
  let s := (s.setBit (Reg.FRM_TRK_STATUS n) 11 true).setBit (Reg.FRM_TRK_STATUS n) 10 false
  let t := s.trkAt n
  match t.sealing.getLast? with
  | none => lineFill 1 n (s.setTrk n { t with stitch := none })
  | some x =>
    sendStitches n (s.setTrk n { t with stitch := none, sealing := t.sealing.dropLast ++ [{ x with fills := x.fills + 1 }] })

/-- Binds the next stitch to an SA, forms its header and takes its P0, or sends fill (R162, R170). -/
def bindStitch (n : Nat) (s : State) : State :=
  let t := s.trkAt n
  if !trunkRuns s n then sendFill n s
  else
    let i := t.boundTx.getD 0
    match bindTx i true s with
    | (s, none) => sendFill n (trkCount n 0x38 1 s)
    | (s, some b) =>
      let a := s.saAt b.sa
      let e := s.scAt false i
      let cinch := e.cinchStitch
      let s := s.setSc false i { e with cinchStitch := false }
      let x : Stitch :=
        { sa := b.sa, gen := b.gen, tag := sealTag t s, key := a.key, iv := stitchIv a.salt n b.pn,
          header := stitchHeader n b.slot (s.bit (Reg.FRM_TRK_STATUS n) 8) cinch b.pn, seq := b.pn,
          stamp := s.rd (Reg.TB_NS 0) }
      let s := s.setTrk n { s.trkAt n with stitch := some x }
      let s := (s.setBit (Reg.FRM_TRK_STATUS n) 11 false).setBit (Reg.FRM_TRK_STATUS n) 5 (b.slot == 1)
      let s := s.setBit (Reg.FRM_TRK_STATUS n) 10 (sealFaulted s n)
      takeBlock n s

/-- A stitch period without a stitch received in LOCK: the raw SQE and ICVF of the last one end (R181). -/
def idleDefects (n : Nat) (s : State) : State :=
  if rxState s n = 3 then s
  else rawDefect (spanLine s n) 9 false (rawDefect (spanLine s n) 10 false s)

/-- The instant at which the next stitch's P0 is due: the stitch in progress is completed and goes to the
fabric, and the next one is bound. Without the blocks to complete it nothing happens. -/
def stitchBind (n : Nat) (s : State) : State :=
  if patMode s n != .trunk then s
  else
    let s := idleDefects n s
    let u := fillStitch 4097 n s
    match (s.trkAt n).stitch, (u.trkAt n).stitch with
    | none, _ => bindStitch n s
    | some _, some x => if x.blocks.length < 4096 then s else bindStitch n (closeStitch n x u)
    | some _, none => s

/-! ## The open side (R161, R174 to R180) -/

/-- The stitch being opened is given up: its cells that wait are dropped, and those in islands are of no use. -/
def dropOpenCells (n : Nat) (s : State) : State :=
  let s := { s with fab := { s.fab with ready := s.fab.ready.filter (fun c => !(c.trunk && c.span == n && c.opening)) } }
  let s := settleWasted (s.trkAt n).openRan s
  s.setTrk n { s.trkAt n with openTag := none, openCells := 0, openFailed := false, openWrong := [], openRan := [] }

/-- The receiver loses what it had aligned to (R175). -/
def dropLock (n rx : Nat) (s : State) : State :=
  let was := rxState s n == 3
  let t := s.trkAt n
  let s := dropOpenCells n (s.setTrk n { t with cands := [], lock := none, badRun := 0, tagRun := 0, header := none })
  let s := setRxState n rx s
  if was then trkEvent n 1 (trkCount n 0x80 1 s) else s

/-- A marker block is received on a lane of a trunk line port, at bit `pos` of the lane. -/
def markerBlock (n l pos : Nat) (m : Bytes) (s : State) : State :=
  if patMode s n != .trunk || decide (lineLanes s n ≤ l) || m.take 8 != markerWord then s
  else
    let t := s.trkAt n
    let k := laneMarker (lineType s n) pos m (Tbl.get (fun _ => ({} : LaneMark)) t.lanes l)
    let s := syncMarkers n (s.setTrk n { t with lanes := Tbl.set (fun _ => {}) t.lanes l k })
    if !trunkRuns s n then s
    else if markersHeld s n then (if rxState s n ≤ 1 then setRxState n 2 s else s)
    else if 2 ≤ rxState s n then dropLock n 1 s
    else setRxState n 1 s

/-- Four expected markers are missing on a lane. -/
def markerLoss (n l : Nat) (s : State) : State :=
  if patMode s n != .trunk || decide (lineLanes s n ≤ l) then s
  else
    let t := s.trkAt n
    let s := syncMarkers n (s.setTrk n { t with lanes := Tbl.set (fun _ => {}) t.lanes l {} })
    if 2 ≤ rxState s n then dropLock n 1 s else s

/-- A stitch word is seen in HUNT (R175). -/
def wordMatch (n pos : Nat) (s : State) : State :=
  if rxState s n ≠ 2 then s
  else
    let t := s.trkAt n
    if 4 ≤ t.cands.length then trkCount n 0x90 1 s
    else setRxState n 2 (s.setTrk n { t with cands := t.cands ++ [{ pos := pos }] })

/-- Whether a header goes on from the last good one of a candidate. -/
def continuous (c : Candidate) (ks seq : Nat) : Bool :=
  c.good == 0 || (ks == c.ks && seq == c.seq + 1) || (ks != c.ks && decide (1 ≤ seq))

/-- The 515 cells of a stitch to be opened become ready. -/
def openCellsReady (n sa : Nat) (s : State) : State :=
  let t := s.trkAt n
  let tag := stitchTag (t.setAside.drop 2) t.openTag.toList s
  let s := s.setTrk n { t with openTag := some tag, openCells := 515, openFailed := false, openWrong := [],
                                openRan := [] }
  { s with fab := { s.fab with ready := s.fab.ready ++ stitchCells n tag sa true } }

/-- SA that a header names, if its slot is live and ready. -/
def stitchSa (s : State) (n ks : Nat) : Option Nat :=
  match (s.trkAt n).boundRx with
  | none => none
  | some i =>
    let sa := scSa (s.scAt true i) ks
    let a := s.saAt sa
    if a.ready && a.state != .empty then some sa else none

/-- A header in LOCK is kept for its tag check; when it is good its stitch goes to the fabric. -/
def keepHeader (n : Nat) (raw : Bytes) (s : State) : State :=
  let h := maskHeader raw
  let s := s.setTrk n { s.trkAt n with
    header := some raw, headStamp := s.rd (Reg.TB_NS (stampTb s n)), headStamp0 := s.rd (Reg.TB_NS 0) }
  if headerGood raw && beAt h 8 2 == (s.trkAt n).peerSpan then
    match stitchSa s n (byteAt h 10 / 128) with
    | some sa => openCellsReady n sa s
    | none => s
  else s

/-- A header at the position of a candidate, in HUNT. -/
def huntHeader (n pos : Nat) (raw : Bytes) (s : State) : State :=
  let t := s.trkAt n
  let at_ := fun (c : Candidate) => c.pos + (if c.good = 0 then 0 else 1027)
  match t.cands.find? (fun c => at_ c == pos) with
  | none => s
  | some c =>
    let h := maskHeader raw
    let ks := byteAt h 10 / 128
    let seq := beAt h 12 6
    let others := t.cands.filter (fun d => d != c)
    if headerGood raw && beAt h 8 2 == t.peerSpan && continuous c ks seq then
      let c' : Candidate := { pos := pos, good := c.good + 1, ks := ks, seq := seq }
      if 2 ≤ c.good then
        let s := s.setTrk n { t with cands := [], lock := some c', badRun := 0, tagRun := 0 }
        let s := setRxState n 3 (trkCount n 0x78 1 s)
        keepHeader n raw (trkEvent n 0 s)
      else setRxState n 2 (s.setTrk n { t with cands := t.cands.map (fun d => if d == c then c' else d) })
    else setRxState n 2 (trkCount n 0x88 1 (s.setTrk n { t with cands := others }))

/-- RDI of the last stitch that passed checks 1 and 2: raw condition and RDI_RX (R181). -/
def setRdi (n : Nat) (b : Bool) (s : State) : State :=
  rawDefect (spanLine s n) 11 b (s.setBit (Reg.FRM_TRK_STATUS n) 9 b)

/-- A stitch is replaced (R178). -/
def replaceStitch (n off : Nat) (s : State) : State :=
  let s := trkCount n off 1 s
  s.setTrk n { s.trkAt n with release := (s.trkAt n).release ++ [none], header := none, openTag := none }

/-- A stitch fails check 1 or 2 of R177. -/
def badHeader (n : Nat) (raw : Bytes) (s : State) : State :=
  if !headerGood raw then replaceStitch n 0x48 s else trkEvent n 4 (replaceStitch n 0x50 s)

/-- The header at the expected position, in LOCK: checks 1 and 2 of R177 judge it for loss of lock. The stitch of the
fourth bad one in a row is replaced like the others (R178). -/
def lockHeader (n pos : Nat) (raw : Bytes) (s : State) : State :=
  let t := s.trkAt n
  match t.lock with
  | none => s
  | some c =>
    if pos ≠ c.pos + 1027 then s
    else
      let h := maskHeader raw
      let good := headerGood raw && beAt h 8 2 == t.peerSpan
      let run := if good then 0 else t.badRun + 1
      let s := s.setTrk n { t with lock := some { c with pos := pos }, badRun := run }
      if 4 ≤ run then dropLock n 2 (badHeader n raw s) else keepHeader n raw s

/-- A header is judged. -/
def headerCheck (n pos : Nat) (raw : Bytes) (s : State) : State :=
  match rxState s n with
  | 2 => huntHeader n pos raw s
  | 3 => lockHeader n pos raw s
  | _ => s

/-- A stitch fails its tag: the fourth in a row loses the lock (R175). -/
def tagFails (n : Nat) (s : State) : State :=
  let s := trkEvent n 2 (replaceStitch n 0x70 s)
  let k := (s.trkAt n).tagRun + 1
  let s := s.setTrk n { s.trkAt n with tagRun := k }
  rawDefect (spanLine s n) 10 true (if 4 ≤ k then dropLock n 2 s else s)

/-- Blocks of a delivered payload, with a PTP event message that ends in it corrected as far back as the
stitches not yet released, and what was held of the last one, reach (R157). -/
def openBlocks (n : Nat) (p : Bytes) (s : State) : State :=
  let mode := tcMode s n
  let rho := (trunkDelay (lineType s n)).2 * 65536 + lateRho s
  let s := s.drawn
  let t := s.trkAt n
  let before := match t.release.getLast? with
    | some (some bs) => bs
    | some none => []
    | none => t.tail
  let step := fun (acc : List Block66 × State) (b : Block66) =>
    let l := acc.1 ++ [b]
    if mode ≠ 0 ∧ isTerm b then
      let r := correctStream mode rho l
      (r.1, countCorrection n r.2 acc.2)
    else (l, acc.2)
  let r := (blocksOfPayload p).foldl step (before, s)
  let old := r.1.take before.length
  let new := some (r.1.drop before.length)
  match t.release.getLast? with
  | some (some _) => r.2.setTrk n { t with release := t.release.dropLast ++ [some old, new] }
  | some none => r.2.setTrk n { t with release := t.release ++ [new] }
  | none => r.2.setTrk n { t with tail := old, release := [new] }

/-- A stitch passes every check of R177. -/
def deliverStitch (n ks seq : Nat) (cinch : Bool) (payload : Bytes) (s : State) : State :=
  let i := (s.trkAt n).boundRx.getD 0
  let e := s.scAt true i
  let next := (s.saAt (scSa e ks)).pn
  let jump := decide (next < seq)
  let s := rxVerified i (scSa e ks) (s.saAt (scSa e ks)).gen seq s
  let s := trkCount n 0x40 1 s
  let s := if jump then trkEvent n 3 (trkCount n 0x68 1 s) else s
  let s := rawDefect (spanLine s n) 9 jump s
  let s := openBlocks n payload s
  let t := s.trkAt n
  let s :=
    if t.lastSlot = some ks then s
    else (s.wr (Reg.FRM_TRK_LASTSW n) (ks + 2 * b2n cinch + 2 ^ 31)).wr (Reg.FRM_TRK_LASTSW_T n) t.headStamp
  let s := s.setTrk n { s.trkAt n with lastSlot := some ks, tagRun := 0, header := none, openTag := none }
  let s := (s.wr (Reg.FRM_TRK_SEQ_LO n) (seq % 2 ^ 32)).wr (Reg.FRM_TRK_SEQ_HI n) (seq / 2 ^ 32)
  s.setBit (Reg.FRM_TRK_STATUS n) 6 (ks == 1)

/-- Record and trace of an opened stitch (R390, R455). -/
def openRecord (n seq : Nat) (fail : Bool) (tag raw : Bytes) (sa : Nat) (s : State) : State :=
  let t := s.trkAt n
  let s :=
    if recorded s 7 then
      evrQueue (evrRecord t.headStamp0 (evrAttr n true 7 fail true 0 0) 32896 seq tag) s
    else s
  if traced s n true then
    traceAdd t.headStamp0 (evrAttr n true 7 fail true 0 0) 32896 (t.openTag.getD 0) sa (if fail then 8 else 0)
      [] raw s
  else s

/-- The tag of a stitch has been checked in LOCK (R177): `body` is its payload and tag as received. -/
def stitchTagCheck (n : Nat) (body : Bytes) (s : State) : State :=
  let t := s.trkAt n
  let line := spanLine s n
  match t.header with
  | none => s
  | some raw =>
    if rxState s n ≠ 3 ∨ t.openCells ≠ 0 then s
    else
      let h := maskHeader raw
      let ks := byteAt h 10 / 128
      let seq := beAt h 12 6
      let s := rawDefect line 9 false (rawDefect line 10 false s)
      let s :=
        if !headerGood raw || beAt h 8 2 != t.peerSpan then badHeader n raw s
        else
          let s := setRdi n (Nat.testBit (byteAt h 10) 6) s
          match stitchSa s n ks with
          | none => replaceStitch n 0x58 s
          | some sa =>
            let a := s.saAt sa
            if seq < a.pn then
              trkEvent n 3 (rawDefect line 9 true (replaceStitch n 0x60 (settleWasted t.openRan s)))
            else
              let tag := slice body 32896 16
              let x := gcmOpen a.key (stitchIv a.salt t.peerSpan seq) h (body.take 32896) tag
              let body := body.take 32896
              let iv := stitchIv a.salt t.peerSpan seq
              let formed := mistag a.key h body t.openWrong (gcmTag a.key iv h body)
              let ok := !t.openFailed && t.openTag.isSome && (if t.openWrong.isEmpty then x.2 else formed == tag)
              let pay := miscells t.openWrong x.1
              let s := openRecord n seq (!ok) tag raw sa s
              if ok then deliverStitch n ks seq (Nat.testBit (byteAt h 10) 5) pay s else tagFails n s
      syncPorts s

/-- Blocks of a stitch leave the client port, unless it sends faults or a pattern in their place (R155, R335, R345). -/
def sendClient (n : Nat) (p : Option (List Block66)) (s : State) : State :=
  if (spanClients s n).any (portBlocked s) then s else s.emit (.clientOut n p)

/-- The oldest payload held reaches its release instant (R179). Its last blocks stay while they belong to a message that
may have to be corrected in the next stitch. -/
def stitchRelease (n : Nat) (s : State) : State :=
  let t := s.trkAt n
  match t.release with
  | [] => s
  | none :: rest =>
    let s := s.setTrk n { t with release := rest, tail := [] }
    sendClient n none (if t.tail.isEmpty then s else sendClient n (some t.tail) s)
  | some bs :: rest =>
    let all := t.tail ++ bs
    let keep := if rest.isEmpty then openMessage (tcMode s n) all else []
    sendClient n (some (all.take (all.length - keep.length))) (s.setTrk n { t with release := rest, tail := keep })

/-! ## Cells (R105, R178) -/

/-- One cell of a stitch is done, well, wrongly, or lost in the fabric. -/
def stitchCell (n tag index : Nat) (ran : List Nat) (r : CellResult) (lost : Bool) (s : State) : State :=
  let t := s.trkAt n
  let wrong := match r with
    | .right => []
    | .wrong b p => [(index, b, p)]
  if t.openTag = some tag then
    s.setTrk n { t with openCells := t.openCells - 1, openFailed := t.openFailed || lost,
                        openRan := t.openRan ++ ran, openWrong := t.openWrong ++ wrong }
  else
    match t.sealing.findIdx? (fun x => x.tag == tag && decide (0 < x.cellsLeft)) with
    | none => settleWasted ran s
    | some k =>
      let upd := fun (x : Stitch) =>
        { x with cellsLeft := x.cellsLeft - 1, failed := x.failed || lost,
                 wrong := x.wrong ++ wrong }
      sendStitches n (s.setTrk n { t with sealing := modifyAt t.sealing k upd })

end Sys2Proof.Machine
end

