-- ==== Sys2Proof/Machine/Fabric.lean ====
section
/-! DEFINITION. The cipher fabric: the wheel, dispatch and lending, islands, spot audit, fences, shed and
restore, Trim (R78 to R116). -/

namespace Sys2Proof.Machine

/-! ## The wheel (R90) -/

/-- The position of the largest credit, the lowest on a tie. -/
def largest : List Int → Nat → Nat → Int → Nat
  | [], _, best, _ => best
  | c :: t, i, best, v => if v < c then largest t (i + 1) i c else largest t (i + 1) best v

/-- Lays `k` slots: `credits` and `shares` hold the 32 spans and the unowned pseudo-span, 32. -/
def layWheel : Nat → List Int → List Int → List Nat
  | 0, _, _ => []
  | k + 1, credits, shares =>
    let c := List.zipWith (· + ·) credits shares
    let w := largest (c.drop 1) 1 0 (c.headD 0)
    w :: layWheel k (modifyAt c w (· - 4096)) shares

/-- The 4,096 slots of a share list. -/
def wheelOf (shares : List Nat) : List Nat :=
  let l := (List.range 32).map (fun n => (shares.getD n 0 : Int))
  layWheel 4096 (List.replicate 33 0) (l ++ [4096 - l.sum])

/-! ## Late intervals (R94) -/

/-- A first cell is available in a late interval: whether it missed T_FAB is open. -/
def lateCell (s : State) : State :=
  if lateNow s then
    let t := s.drawn
    if Config.freeNat s.rng % 2 = 1 then
      raiseEvent 0x02 3 0 (t.bump Reg.CPH_LATE)
    else t
  else s

/-! ## Cells that are done or lost -/

/-- Marks the cells of an ended frame that are still in the fabric (R493). -/
def doomCells (id : Nat) (s : State) : State :=
  let mark := fun (c : Cell) => if !c.trunk && c.frame == id then { c with waste := true } else c
  let isl := s.fab.islands.map (fun e =>
    (e.1, { e.2 with input := e.2.input.map mark, output := e.2.output.map mark }))
  { s with fab := { s.fab with islands := isl } }

/-- A frame or stitch loses a cell (R105). -/
def loseCell (c : Cell) (s : State) : State :=
  if c.waste then s
  else if c.trunk then stitchCell c.span c.frame c.index [] .right true s
  else if !s.hasFrame c.frame then s
  else
    let f := s.frameAt c.frame
    let s := if f.heads.isEmpty then settleWasted f.ran s else s
    failFrame c.frame (doomCells c.frame s)

/-- A cell's result is released: its frame or stitch has one cell less to wait for. -/
def cellDone (c : Cell) (i : Nat) (r : CellResult) (s : State) : State :=
  let s := if c.index = 0 ∧ !c.waste then lateCell s else s
  if c.waste then settleWasted [i] s
  else if c.trunk then stitchCell c.span c.frame c.index [i] r false s
  else if !s.hasFrame c.frame then settleWasted [i] s
  else
    let f := s.frameAt c.frame
    let f := { f with cellsLeft := f.cellsLeft - 1, ran := f.ran ++ [i] }
    let f := match r with
      | .right => f
      | .wrong b p => miscomputed c.index b p f
    (if f.stomp.isSome then settleWasted [i] s else s).setFrame c.frame f

/-! ## Shedding (R109 to R113) -/

/-- FENCE ORDER of the active Pattern. -/
def fenceOrder (s : State) : List Nat :=
  match s.pat.active with
  | some a => a.order.filter (fun n => n < 32)
  | none => []

/-- Sheds from a list until the retained shares fit: the spans shed. -/
def shedPlan (limit : Nat) : List Nat → Nat → State → List Nat
  | [], _, _ => []
  | n :: t, sum, s =>
    if sum ≤ limit then []
    else if isShed s n then shedPlan limit t sum s
    else n :: shedPlan limit t (sum - spanShare s n) s

/-- A span begins to be shed: its admission closes and its queued frames are discarded (R111). -/
def beginShed (n : Nat) (s : State) : State :=
  let s := { s with fab := { s.fab with shedding := s.fab.shedding ++ [n], shedOrder := s.fab.shedOrder ++ [n] } }
  let r := dropSpan n s
  r.1.bump Reg.CPH_FENCE_DROPS r.2

/-- Sheds what LIMIT asks for (R110). The second of R112 runs from here, the decision (DESIGN CHOICE, log entry 98). -/
def shedCheck (s : State) : State :=
  let plan := shedPlan (capLimit s) (fenceOrder s) (retainedShares s) s
  if plan.isEmpty then s
  else
    let s := { s with fab := { s.fab with lastShed := s.refTick + 1 } }
    syncPorts (plan.foldl (fun s n => beginShed n s) s)

/-- No frame or stitch of a span is left. -/
def spanEmpty (s : State) (n : Nat) : Bool :=
  !s.sch.frames.any (fun e => e.2.span == n) && (s.trkAt n).sealing.isEmpty

/-- Spans being shed whose queues are empty run as Discard (R111). -/
def shedComplete (s : State) : State :=
  let done := s.fab.shedding.filter (spanEmpty s)
  if done.isEmpty then s
  else
    let s := { s with fab := { s.fab with
      shedding := s.fab.shedding.filter (fun n => !done.contains n), shed := s.fab.shed ++ done } }
    let s := (done.filter (fun n => patMode s n == .trunk)).foldl (fun s n => trunkStop n s) s
    trimRecompute (cphEvent 1 0 (syncSpans (syncPorts s)))

/-- Ticks in a second. -/
def tickSecond : Nat := 156250000

/-- A span that resumes: a trunk span without configuration error starts over (R72, R182). -/
def trunkStart (n : Nat) (s : State) : State :=
  if trunkRuns s n && rxState s n == 0 then setRxState n 1 s else s

/-- Trunk spans that now run are started and those that no longer run are stopped, after a change of what
spans run as (R175). -/
def followTrunks (s : State) : State :=
  (List.range 32).foldl (fun s n =>
    if patMode s n != .trunk then s
    else if trunkRuns s n then trunkStart n s
    else if rxState s n == 0 then s else trunkStop n s) s

/-- Spans restored from the end of the shed order while they fit. -/
def restorePlan (limit : Nat) : List Nat → Nat → State → List Nat
  | [], _, _ => []
  | n :: t, sum, s => if sum + spanShare s n ≤ limit then n :: restorePlan limit t (sum + spanShare s n) s else []

/-- Shed spans, the latest shed first (R112). -/
def restoreOrder (s : State) : List Nat := s.fab.shedOrder.reverse.filter (fun n => s.fab.shed.contains n)

/-- Spans that are shed no more. -/
def unshed (back : Nat → Bool) (s : State) : State :=
  { s with fab := { s.fab with
    shed := s.fab.shed.filter (fun n => !back n), shedding := s.fab.shedding.filter (fun n => !back n),
    shedOrder := s.fab.shedOrder.filter (fun n => !back n) } }

/-- Restores shed spans, no sooner than 1 s after the latest shed (R112). -/
def spanRestore (s : State) : State :=
  if s.refTick + 1 < s.fab.lastShed + tickSecond then s
  else
    let back := restorePlan (capLimit s) (restoreOrder s) (retainedShares s) s
    if back.isEmpty then s
    else
      let s := syncPorts (unshed (fun n => s.fab.shed.contains n && back.contains n) s)
      cphEvent 2 0 (back.foldl (fun s n => trunkStart n s) s)

/-- The shed set at step 5 of a cut: every span afresh at a full cut, only those of the stopped set at a
re-cut (R113). -/
def shedAtCut (full : Bool) (stopped : Nat) (s : State) : State :=
  let old := s.fab.shed ++ s.fab.shedding
  let may := fun n => full || Nat.testBit stopped n
  let s := unshed may s
  let plan := shedPlan (capLimit s) ((fenceOrder s).filter may) (retainedShares s) s
  let s := { s with fab := { s.fab with shed := s.fab.shed ++ plan, shedOrder := s.fab.shedOrder ++ plan } }
  let fresh := plan.filter (fun n => !old.contains n)
  let back := old.filter (fun n => !isShed s n)
  let s := if fresh.isEmpty then s else { s with fab := { s.fab with lastShed := s.refTick + 1 } }
  let s := syncSpans s
  let s := if fresh.isEmpty then s else cphEvent 1 0 s
  if back.isEmpty then s else cphEvent 2 0 s

/-! ## Islands -/

/-- Sets the state of an island. -/
def setIsland (i st : Nat) (s : State) : State := s.wrF (Reg.CPH_ISL_STATUS i) 0 2 st

/-- Sets an island's clock and supply to the operating point of R79, the adaptive supply open. -/
def operate (i : Nat) (s : State) : State :=
  let al := alignedPlan s
  let s := s.wrF (Reg.CPH_ISL_STATUS i) 16 12 (if al then 800 else 1000)
  (s.wr (Reg.CPH_ISL_MV i) (if al then 720 else 550 + 5 * (Config.freeNat s.rng % 51))).drawn

/-- An island runs. -/
def islandRuns (i : Nat) (s : State) : State := operate i (setIsland i 0 s)

/-- The count of consecutive short monitor windows of an island (R80). -/
def setSlow (i k : Nat) (s : State) : State :=
  { s with fab := { s.fab with slow := Tbl.set (fun _ => 0) s.fab.slow i k } }

/-- An island draws nothing: clock stopped, supply gated, its run of short windows ended. -/
def islandDark (i st : Nat) (s : State) : State :=
  setSlow i 0 (((setIsland i st s).wrF (Reg.CPH_ISL_STATUS i) 16 12 0).wr (Reg.CPH_ISL_MV i) 0)

/-- Fence causes, by their place in CAUSE: 0 BIST, 1 AUDIT, 2 KAT, 3 CLOCK, 4 SUPPLY, 5 HOST. -/
def causesOf (s : State) (i : Nat) : Nat := s.rdF (Reg.CPH_ISL_STATUS i) 2 6

/-- Two descriptors of one cell: the cell and its audit copy. -/
def sameCell (c d : Cell) : Bool := c.frame == d.frame && c.index == d.index && c.trunk == d.trunk && c.span == d.span

/-- Audits that use an island are gone: the other copy, on another island, is work thrown away (R493). -/
def dropAudits (i : Nat) (s : State) : State :=
  let hit := fun (a : Audit) => a.primary == i || a.partner == i
  let gone := s.fab.audits.filter hit
  let lost := fun (c : Cell) => gone.any (fun a => sameCell a.cell c)
  let done := s.fab.islands.flatMap (fun e =>
    if e.1 = i then [] else List.replicate (e.2.output.filter lost).length e.1)
  let isl := s.fab.islands.map (fun e =>
    (e.1, { input := e.2.input.map (fun c => if lost c then { c with waste := true } else c),
            output := e.2.output.filter (fun c => !lost c) }))
  settleWasted done
    { s with fab := { s.fab with audits := s.fab.audits.filter (fun a => !hit a), islands := isl } }

/-- Fences an island for a cause: dispatch stops, its cells are discarded, what loses a cell is handled by
R105, LIMIT and Trim follow (R106, R107, R110). A fenced island only gains the cause. -/
def fenceIsland (i cause : Nat) (s : State) : State :=
  let was := islandState s i
  let s := s.wrF (Reg.CPH_ISL_STATUS i) 2 6 (causesOf s i ||| 2 ^ cause)
  if was = 2 then s
  else
    let parked := !(islandsIn s 1).isEmpty
    let soon := decide (0 < s.fab.lastFence) && decide (s.refTick + 1 ≤ s.fab.lastFence + 3125)
    let s := (islandDark i 2 s).setBit (Reg.CPH_ISL_STATUS i) 8 false
    let q := s.islQ i
    let lost := (q.input ++ q.output).filter (fun c => !c.audit) ++
      (s.fab.audits.filter (fun a => a.partner == i)).map Audit.cell
    let done := q.output.length
    let s := { s with fab := { s.fab with
      parking := s.fab.parking.filter (· != i), unparking := s.fab.unparking.filter (· != i),
      lastFence := s.refTick + 1,
      lateUntil := if soon && parked then max s.fab.lateUntil (s.refTick + 3125) else s.fab.lateUntil } }
    let s := (dropAudits i s).setIslQ i {}
    let s := settleWasted (List.replicate done i) s
    let s := lost.foldl (fun s c => loseCell c s) s
    let s := syncHealth s
    let s := cphEvent 0 (i + 256 * causesOf s i) s
    let s :=
      if cause = 3 then { s with pwr := { s.pwr with clockFences := (s.refTick, i) :: s.pwr.clockFences } } else s
    syncTags (trimRecompute (shedCheck s))

/-! ## Dispatch (R87, R91, R101) -/

/-- Islands in dispatch order, starting after island `k`. -/
def islandsAfter (k : Nat) : List Nat := (List.range 24).map (fun d => (k + 1 + d) % 24)

/-- An island takes dispatch and audit copies: it runs and is not chosen for parking (R99, R101; DESIGN CHOICE, log
entry 99). -/
def takes (s : State) (i : Nat) : Bool := islandState s i == 0 && !s.fab.parking.contains i

/-- The cell that lent capacity goes to: class 7, PTP event messages, then round robin over spans (R91). -/
def lentCell (s : State) : Option Cell :=
  let first := fun r => s.fab.ready.find? (fun c => c.rank == r)
  let order := (List.range 32).map (fun d => (s.fab.borrower + 1 + d) % 32)
  ((first 0).orElse (fun _ => first 1)).orElse
    (fun _ => order.findSome? (fun n => s.fab.ready.find? (fun c => c.span == n)))

/-- The cell that a wheel slot dispatches: of its owner, or lent (R91). -/
def slotCell (s : State) (owner : Nat) : Option (Cell × Bool) :=
  match s.fab.ready.find? (fun c => c.span == owner) with
  | some c => some (c, false)
  | none => (lentCell s).map (fun c => (c, true))

/-- The span of a cell dispatched on lent capacity is the one that borrowed last, where the round robin chose it
(DESIGN CHOICE, log entry 100: a class 7 or PTP cell does not move it). -/
def borrowed (c : Cell) (s : State) : State :=
  if c.rank = 2 then { s with fab := { s.fab with borrower := c.span } } else s

/-- Puts a cell in an island's input FIFO and counts it. -/
def toIsland (i : Nat) (c : Cell) (s : State) : State :=
  let q := s.islQ i
  let s := s.setIslQ i { q with input := q.input ++ [c] }
  pmcCount 0x0600 0xFF 1 (pmcCount 0x0200 i 1 s)

/-- Whether the cell is chosen for audit: by the DRBG, or one in 256 by a fixed cadence while the DRBG is in
error (R101, R228). The state counts the choice. -/
def auditChoice (s : State) : Bool × State :=
  if s.bit Reg.KEY_STATUS 2 then
    let k := s.fab.cadence + 1
    (k == 256, { s with fab := { s.fab with cadence := k % 256 } })
  else (Config.spotAudit s.rng, s.drawn)

/-- Sends a cell to its primary island, and a copy to the partner when it is audited (R101, R103). -/
def sendCell (i : Nat) (c : Cell) (s : State) : State :=
  let (audit, s) := auditChoice s
  if !audit then toIsland i c s
  else
    let s := pmcCount 0x0201 i 1 s
    let partner := (islandsAfter i).find? (fun j =>
      j != i && takes s j && !s.bit (Reg.CPH_ISL_STATUS j) 8 && decide ((s.islQ j).input.length < 16))
    match partner with
    | none => toIsland i c (s.bump Reg.CPH_AUDIT_SKIPS)
    | some j =>
      let s := { s with fab := { s.fab with audits := s.fab.audits ++ [{ cell := c, primary := i, partner := j }] } }
      toIsland j { c with audit := true } (toIsland i c s)

/-- Takes the first cell equal to `c` out of a list. -/
def takeCell (c : Cell) : List Cell → List Cell
  | [] => []
  | d :: t => if d = c then t else d :: takeCell c t

/-- The next free island in dispatch order (R87; log entry 11). -/
def freeIsland (s : State) : Option Nat :=
  (islandsAfter s.fab.lastIsland).find? (fun i => takes s i && decide ((s.islQ i).input.length < 16))

/-- A ready cell goes to an island. -/
def dispatchCell (i : Nat) (c : Cell) (s : State) : State :=
  sendCell i c { s with fab := { s.fab with ready := takeCell c s.fab.ready, lastIsland := i } }

/-- One wheel slot: its owner's cell, or a lent one. -/
def wheelSlot (s : State) : State :=
  let owner := s.fab.wheel.getD s.fab.wheelPos 32
  let s := { s with fab := { s.fab with wheelPos := (s.fab.wheelPos + 1) % 4096 } }
  let unused := fun (s : State) => if owner < 32 then pmcCount 0x0203 owner 1 s else s
  match slotCell s owner, freeIsland s with
  | some (c, lent), some i =>
    dispatchCell i c (if lent then pmcCount 0x0202 c.span 1 (unused (borrowed c s)) else s)
  | _, _ => unused s

/-- Capacity of the running islands above the wheel rate of 19.0 × 10^9 cells/s, in 1/190 of a cell for each slot. -/
def spareRate (s : State) : Nat := (islandsIn s 0).length * (if alignedPlan s then 8 else 10) - 190

/-- That capacity is lent as the slots are: one cell for each whole one it has come to (R91; log entry 101). -/
def spareCapacity (s : State) : State :=
  let k := s.fab.spare + spareRate s
  let s := { s with fab := { s.fab with spare := k % 190 } }
  if k < 190 then s
  else
    match lentCell s, freeIsland s with
    | some c, some i => dispatchCell i c (borrowed c s)
    | _, _ => s

/-- The time of one wheel slot. -/
def cellDispatch (s : State) : State := if s.fab.wheel.isEmpty then s else spareCapacity (wheelSlot s)

/-! ## Completion and audit (R78, R101 to R104, R493) -/

/-- The audit that a cell on an island belongs to. -/
def auditOf (s : State) (i : Nat) (c : Cell) : Option Nat :=
  s.fab.audits.findIdx? (fun a => sameCell a.cell c && (if c.audit then a.partner == i else a.primary == i))

/-- What an island makes of a cell: the right result, or free output bytes and a free partial. -/
def cellResult (c : Cell) (wrong : Bool) (s : State) : CellResult :=
  if wrong then .wrong (freeBytes s c.bytes) (BitVec.ofNat 128 (Config.freeNat s.rng / 256 ^ 64)) else .right

/-- One slot of a running island: it completes its oldest cell, or is starved. -/
def cellComplete (i : Nat) (wrong : Bool) (s : State) : State :=
  if islandState s i ≠ 0 then s
  else
    let q := s.islQ i
    if 32 ≤ q.output.length then s.bump64 (Reg.PMC_ISL i 6)
    else
      match q.input with
      | [] => s.bump64 (Reg.PMC_ISL i 4)
      | c :: rest =>
        let r := cellResult c wrong s
        let s := (if wrong then s.drawn else s).bump64 (Reg.PMC_ISL i 0)
        match auditOf s i c with
        | none => syncTags (cellDone c i r (s.setIslQ i { q with input := rest }))
        | some k =>
          let upd := fun (a : Audit) => if c.audit then { a with second := some r } else { a with first := some r }
          let s := s.setIslQ i { input := rest, output := q.output ++ [c] }
          { s with fab := { s.fab with audits := modifyAt s.fab.audits k upd } }

/-- Takes an audited cell's two results out of the output FIFOs. -/
def takeResults (a : Audit) (s : State) : State :=
  let out := fun (i : Nat) (s : State) =>
    let q := s.islQ i
    s.setIslQ i { q with output := q.output.filter (fun c => !sameCell a.cell c) }
  out a.partner (out a.primary s)

/-- Compares the 64 output bytes and the partial of the two results of the oldest audited cell that has both; a match
releases the cell as computed (R102, R104). -/
def auditCompare (s : State) : State :=
  match s.fab.audits.find? (fun a => a.first.isSome && a.second.isSome) with
  | none => s
  | some a =>
    let s := takeResults a { s with fab := { s.fab with audits := s.fab.audits.filter (fun b => b != a) } }
    if a.first = a.second then syncTags (cellDone a.cell a.primary (a.first.getD .right) s)
    else
      let s := settleWasted [a.primary, a.partner] s
      let s := loseCell a.cell s
      let s := s.bump Reg.CPH_AUDIT_FAILS
      let s := s.wr Reg.CPH_LAST_AUDIT (a.primary + 2 ^ 8 * a.partner + 2 ^ 16 * a.cell.frame + 2 ^ 31)
      let s := if islandState s a.partner = 2 then s else s.setBit (Reg.CPH_ISL_STATUS a.partner) 8 true
      fenceIsland a.primary 1 s

/-- The known-answer test of a SUSPECT partner ends (R104). -/
def partnerKat (i : Nat) (pass : Bool) (s : State) : State :=
  if !s.bit (Reg.CPH_ISL_STATUS i) 8 then s
  else
    let s := if islandState s i = 0 then s.bump64 (Reg.PMC_ISL i 2) else s
    let s := s.setBit (Reg.CPH_ISL_STATUS i) 8 false
    if pass then s else fenceIsland i 2 s

/-- A monitor window ends (R80). -/
def clockWindow (i cycles mv : Nat) (s : State) : State :=
  if islandState s i = 1 ∨ islandState s i = 2 then setSlow i 0 s
  else
    let s := (s.wrF (Reg.CPH_ISL_STATUS i) 16 12 cycles).wr (Reg.CPH_ISL_MV i) (mv % 1024)
    let short := !alignedPlan s && decide (cycles < 970) && mv == 800
    let k := if short then Tbl.get (fun _ => 0) s.fab.slow i + 1 else 0
    if 3 ≤ k then fenceIsland i 3 s else setSlow i k s

/-- A supply leaves its range (R80). -/
def supplyFault (i : Nat) (s : State) : State :=
  if islandState s i = 1 then s else fenceIsland i 4 s

/-- HOST_FENCE written 1. -/
def hostFence (i : Nat) (s : State) : State :=
  let s := s.wr (Reg.CPH_ISL_CTRL i) 1
  if Nat.testBit (causesOf s i) 5 then s else fenceIsland i 5 s

/-- HOST_FENCE written 0 (R107). -/
def hostFenceClear (i : Nat) (s : State) : State :=
  let s := s.wr (Reg.CPH_ISL_CTRL i) 0
  let c := causesOf s i
  if !Nat.testBit c 5 then s
  else
    let s := s.wrF (Reg.CPH_ISL_STATUS i) 2 6 (c - 32)
    if c = 32 then syncHealth (setIsland i 3 s) else s

/-- An island's BIST ends. -/
def bistDone (i : Nat) (pass : Bool) (s : State) : State :=
  if islandState s i ≠ 3 ∨ s.fab.unparking.contains i then s
  else if pass then trimRecompute (islandRuns i s)
  else fenceIsland i 0 s

/-- The known-answer test of an unparked island ends (R99). -/
def unparkDone (i : Nat) (pass : Bool) (s : State) : State :=
  if !s.fab.unparking.contains i then s
  else
    let s := { s with fab := { s.fab with unparking := s.fab.unparking.filter (· != i) } }
    if pass then syncHealth (islandRuns i s) else fenceIsland i 2 s

/-- An island chosen for parking is empty and parks (R99). -/
def parkIsland (i : Nat) (s : State) : State :=
  let q := s.islQ i
  if !s.fab.parking.contains i || islandState s i != 0 || !q.input.isEmpty || !q.output.isEmpty then s
  else
    let s := { s with fab := { s.fab with parking := s.fab.parking.filter (· != i) } }
    syncHealth (islandDark i 1 s)

/-- Every cell is discarded (R114). -/
def flushFabric (s : State) : State :=
  syncTags { s with fab := { s.fab with ready := [], islands := [], audits := [] } }

end Sys2Proof.Machine
end

