-- ==== Sys2Proof/Machine/Lanes.lean ====
section
/-! DEFINITION. Serial lanes, harness training, PRBS, defects, the per-second latch (R322 to R352). -/

namespace Sys2Proof.Machine

/-! ## Ports and lanes -/

/-- The port, in PEN numbering, that holds a main lane. -/
def lanePort (s : State) (l : Nat) : Option Nat :=
  (List.range 64).find? (fun p => (portLanes (portCfg s p) p).contains l)

/-- Whether a lane has PAM4 signalling: its port's type has (R323). -/
def lanePam4 (s : State) (l : Nat) : Bool :=
  match lanePort s l with
  | some p => typePam4 (portCfg s p).type
  | none => false

/-- The harness lanes are powered: a role is set and the host has not disabled them (R330). -/
def harnessOn (s : State) : Bool :=
  !s.bit Reg.LANE_HRN_CTRL 1 && (match s.pat.active with
    | some a => a.role != 0
    | none => false)

/-- Whether a lane is powered (R325, R330). -/
def lanePowered (s : State) (l : Nat) : Bool :=
  if l < 64 then
    match lanePort s l with
    | some p => s.bit (Reg.PEN_EN p) 0 && (portSpan s p).isSome && !s.bit (Reg.LANE_STATUS l) 9
    | none => false
  else harnessOn s

/-- A lane without signal: SIGDET, CDR_LOCK, ADAPT and GOOD_RUN read 0. -/
def laneDown (l : Nat) (s : State) : State := s.wrF (Reg.LANE_STATUS l) 0 8 0

/-- Default taps of a lane (R326): PRE, POST, SWING. -/
def defaultFfe (l : Nat) (pam4 : Bool) : Nat :=
  if 64 ≤ l then 0 + 2 ^ 8 * 8 + 2 ^ 16 * 6
  else if pam4 then 6 + 2 ^ 8 * 2 + 2 ^ 16 * 8
  else 2 + 2 ^ 8 * 6 + 2 ^ 16 * 8

/-- A lane's transmit taps take their defaults. -/
def resetFfe (s : State) (l : Nat) : State := s.wr (Reg.LANE_TXFFE l) (defaultFfe l (lanePam4 s l))

/-! ## Defects (R340 to R347) -/

/-- Whether a port's type has FEC (R323). -/
def portFec (c : PortCfg) : Bool := decide (4 ≤ c.type) || (c.type == 3 && c.fec != 1)

/-- The line port of a trunk span. -/
def trunkLine (s : State) (p : Nat) : Bool :=
  decide (32 ≤ p) && (match portSpan s p with
    | some n => patMode s n == .trunk
    | none => false)

/-- Whether a defect exists on a port (R340). -/
def defectExists (s : State) (p d : Nat) : Bool :=
  let c := portCfg s p
  let trunk := trunkLine s p
  match d with
  | 0 => true
  | 1 => true
  | 2 => true
  | 3 => trunk || decide (4 ≤ c.type)
  | 4 => !trunk && c.type != 1
  | 5 => !trunk && c.type != 1
  | 6 => !trunk
  | 7 => if trunk then decide (4 ≤ c.type) else portFec c
  | _ => trunk

/-- Defects that suppress defect `d` (R343). -/
def suppressors (d : Nat) : List Nat :=
  if d ≤ 6 then List.range d
  else if d ≤ 8 then [0, 1, 2, 3]
  else [8]

/-- Defects that a defect suppresses. -/
def suppressed (d : Nat) : List Nat := (List.range 12).filter (fun e => (suppressors e).contains d)

/-- Whether a defect is suppressed now: a suppressing one is declared or has its raw condition. -/
def isSuppressed (s : State) (p d : Nat) : Bool :=
  (suppressors d).any (fun e => s.bit (Reg.PEN_DEF p) e || s.bit (Reg.PEN_DEF_RAW p) e)

/-- Reports a declaration or a clear (R347). -/
def reportDefect (p d n : Nat) (now : Bool) (s : State) : State :=
  let s := s.setBit (Reg.PEN_DEF_EVT p) d true
  if s.bit (Reg.PEN_DEF_MASK p) d then s
  else
    let s := raiseVector (8 + n) s
    evqPostLimited (2 ^ 20 + 16 * p + d) 0x09 d (p + 256 * b2n now) (s.rd (Reg.PEN_DEF p)) 0 0 s

/-- Clears a declared defect and reports it. -/
def clearDefect (p d n : Nat) (s : State) : State :=
  if s.bit (Reg.PEN_DEF p) d then reportDefect p d n false (s.setBit (Reg.PEN_DEF p) d false) else s

/-- Whether the model itself tracks the raw condition: markers, trunk receiver, FECDEG. -/
def rawTracked (s : State) (p d : Nat) : Bool :=
  decide (7 ≤ d) || (trunkLine s p && (d == 2 || d == 3))

/-- A defect is declared (R341, R343, R345, R347, R398). -/
def defectDeclare (p d : Nat) (s : State) : State :=
  match portSpan s p with
  | none => s
  | some n =>
    if !s.bit (Reg.PEN_EN p) 0 || !defectExists s p d || s.bit (Reg.PEN_DEF p) d || isSuppressed s p d ||
        (rawTracked s p d && !s.bit (Reg.PEN_DEF_RAW p) d) then s
    else
      let s := (s.setBit (Reg.PEN_DEF_RAW p) d true).setBit (Reg.PEN_DEF p) d true
      let s := reportDefect p d n true s
      let s := (suppressed d).foldl (fun s e => clearDefect p e n s) s
      let s := syncPorts s
      if s.bit Reg.EVR_TRIG_DEF d && s.bit Reg.EVR_TRIG_SPANS n then evidenceTrigger 3 s else s

/-- A declared defect clears: its raw condition has been absent (R341). -/
def defectClear (p d : Nat) (s : State) : State :=
  match portSpan s p with
  | none => s
  | some n =>
    if !s.bit (Reg.PEN_DEF p) d || (rawTracked s p d && s.bit (Reg.PEN_DEF_RAW p) d) ||
        (d == 0 && portFailed s p) then s
    else syncPorts (clearDefect p d n (s.setBit (Reg.PEN_DEF_RAW p) d false))

/-- A port is disabled or leaves span `n`: its defects clear at once and its raw conditions read 0 (R325). -/
def portDefectsOff (p n : Nat) (s : State) : State :=
  ((List.range 12).foldl (fun s d => clearDefect p d n s) s).wr (Reg.PEN_DEF_RAW p) 0

/-- A port is disabled, leaves the spans or is retrained: its defects end, and its lanes are powered down (R72, R325). -/
def portOff (p n : Nat) (s : State) : State :=
  let s := (portDefectsOff p n s).setBit (Reg.PEN_PSTAT p) 4 false
  (portLanes (portCfg s p) p).foldl (fun s l => laneDown l s) s

/-- Raw conditions of a port that comes up: LOS with a failed lane, LOBL on a trunk line port (R161, R350). -/
def portOn (p : Nat) (s : State) : State :=
  let s := s.setBit (Reg.PEN_DEF_RAW p) 0 (portFailed s p)
  match portSpan s p with
  | some n => if trunkLine s p then syncMarkers n s else s
  | none => s

/-- A write of PEN_EN. -/
def portEnableWrite (p v : Nat) (s : State) : State :=
  let was := s.bit (Reg.PEN_EN p) 0
  let now := Nat.testBit v 0
  let s := s.wr (Reg.PEN_EN p) (v % 2)
  if was = now then s
  else
    match portSpan s p with
    | none => s
    | some n => syncPorts (if now then portOn p s else portOff p n s)

/-- The Clause 37 base page of a port (R324, R345): full duplex, PAUSE as FLOW sets, and remote-fault 0b10 while the port
sends a fault. The places of the fields are those of the clause, which R345 names (log entry 116). -/
def basePage (s : State) (p : Nat) : Nat :=
  2 ^ 5 + 2 ^ 7 * b2n ((portCfg s p).flow == 1) + 2 ^ 12 * b2n (portFault s p != 0)

/-- Clause 37 auto-negotiation completes: the base page went out (R324, R339). -/
def anegComplete (p : Nat) (s : State) : State :=
  if (portCfg s p).type = 1 ∧ s.bit (Reg.PEN_EN p) 0 ∧ (portSpan s p).isSome then
    (syncPorts (s.setBit (Reg.PEN_PSTAT p) 4 true)).emit (.basePage p (basePage s p))
  else s

/-! ## What the receivers met (R335, R348) -/

/-- One report: the counters of a port that receives, or of a lane whose checker is locked. -/
def lineReport (r : LineReport) (s : State) : State :=
  match r with
  | .port p invalid codewords corrected uncorrectable symbols =>
    if !s.bit (Reg.PEN_EN p.val) 0 || (portSpan s p.val).isNone then s
    else
      let s := penCount p.val 0x28 invalid s
      if !defectExists s p.val 7 then s
      else
        penCount p.val 0x68 symbols (penCount p.val 0x60 uncorrectable (penCount p.val 0x58 corrected
          (penCount p.val 0x50 codewords s)))
  | .checker l errors bits =>
    if !s.bit (Reg.LANE_STATUS l.val) 10 || !s.bit Reg.CLK_ON 2 then s
    else (s.bump64 (Reg.LANE_PRBS_CNT l.val 0) errors).bump64 (Reg.LANE_PRBS_CNT l.val 2) bits

/-- Reports in order. -/
def lineReports (rs : List LineReport) (s : State) : State := rs.foldl (fun s r => lineReport r s) s

/-! ## FECDEG (R344) and the latch (R349), at a TB0 second marker -/

/-- t + 1, and symbols in a codeword, of a port's FEC. -/
def fecShape (trunk : Bool) (c : PortCfg) : Nat × Nat :=
  if trunk then (15, 542) else if c.type = 3 then (8, 528) else (16, 544)

/-- Evaluates FECDEG of a port over the interval since the last marker. -/
def evalFec (s : State) (p : Nat) : State :=
  if (portSpan s p).isNone || !s.bit (Reg.PEN_EN p) 0 || !defectExists s p 7 then s
  else
    let a := Reg.PEN_PAGE p 0
    let now := (s.rd64 (a + 0x50), s.rd64 (a + 0x68), s.rd64 (a + 0x60))
    let old := Tbl.get (fun _ => (0, 0, 0)) s.lan.fecBase p
    let sh := fecShape (trunkLine s p) (portCfg s p)
    let e := (now.2.1 - old.2.1) + sh.1 * (now.2.2 - old.2.2)
    let syms := (now.1 - old.1) * sh.2
    let x := s.rd (Reg.PEN_FECDEG p)
    let raw :=
      if s.bit (Reg.PEN_DEF_RAW p) 7 then !decide (e * 10 ^ (field x 4 4) < syms)
      else decide (syms < e * 10 ^ (field x 0 4))
    let s := { s with lan := { s.lan with fecBase := Tbl.set (fun _ => (0, 0, 0)) s.lan.fecBase p now } }
    s.setBit (Reg.PEN_DEF_RAW p) 7 raw

/-- Copies `words` consecutive registers. -/
def copyWords (src dst words : Nat) (s : State) : State :=
  (List.range words).foldl (fun s k => s.wr (dst + 4 * k) (s.rd (src + 4 * k))) s

/-- The latch pages take the counters as one snapshot (R349). -/
def latchPages (ns : Nat) (s : State) : State :=
  let s := (List.range 64).foldl (fun s p => copyWords (Reg.PEN_PAGE p 0) (Reg.PEN_LATCH p 0) 34 s) s
  let s := (List.range 32).foldl (fun s n => copyWords (Reg.FRM_PAGE n 0) (Reg.FRM_LATCH n 0) 40 s) s
  let s := (List.range 32).foldl (fun s n => copyWords (Reg.FRM_TRK_PAGE n 0) (Reg.FRM_TRK_LATCH n 0) 40 s) s
  (s.wr Reg.PEN_LATCH_SEQ ((s.rd Reg.PEN_LATCH_SEQ + 1) % 2 ^ 32)).wr Reg.PEN_LATCH_NS ns

/-- A write of PEN_INTEG_COMMIT.GO: the group awaits the next TB0 marker (R342). -/
def dintCommit (s : State) : State :=
  let regs := (List.range 2).flatMap (fun side => (List.range 12).map (fun d => Reg.PEN_INTEG side d))
  let s := { s with lan := { s.lan with dint := regs.map (fun a => (a, s.rd a)) } }
  s.setBit Reg.PEN_INTEG_STATUS 0 true

/-- The group takes effect at the marker. -/
def dintApply (s : State) : State :=
  let s := s.lan.dint.foldl (fun s e => s.wrAct e.1 e.2) s
  { s with lan := { s.lan with dint := [] } }.setBit Reg.PEN_INTEG_STATUS 0 false

/-! ## Equalisation, guard, CDR (R325 to R329) -/

/-- A write of LANE_TXFFE. -/
def txffeWrite (l v : Nat) (s : State) : State :=
  let pre := field v 0 5
  let post := field v 8 5
  let swing := field v 16 4
  if pre ≤ 16 ∧ post ≤ 24 ∧ swing ≤ 12 ∧ pre + post ≤ 32 then
    s.wr (Reg.LANE_TXFFE l) (pre + 2 ^ 8 * post + 2 ^ 16 * swing)
  else s.setBit (Reg.LANE_STATUS l) 8 true

/-- CTLE in force where the host overrides it. -/
def ctleInForce (s : State) (l other : Nat) : Nat :=
  if s.bit (Reg.LANE_CTRL l) 3 then s.rdF (Reg.LANE_CTRL l) 8 5 else other

/-- Adaptation starts from a CTLE of 8 dB and taps of 0 (R329); the lane is in ACQUIRE. -/
def adaptStart (l : Nat) (s : State) : State :=
  let s := (s.wrF (Reg.LANE_STATUS l) 2 6 1).wrF (Reg.LANE_STATUS l) 16 5 (ctleInForce s l 8)
  (List.range 12).foldl (fun s k => s.wr (Reg.LANE_DFE l k) 0) s

/-- A lane's CDR reaches lock, and adaptation starts if it is enabled (R325, R327, R329). -/
def cdrLock (l : Nat) (s : State) : State :=
  if !lanePowered s l then s
  else if l = 72 then s.wrF (Reg.LANE_STATUS l) 0 2 3
  else
    let s := s.wrF (Reg.LANE_STATUS l) 0 8 3
    if s.bit (Reg.LANE_CTRL l) 2 then adaptStart l s else s

/-- LANE_CTRL was written: the CTLE follows its override; adaptation stops, its values held, or starts anew on a lane with
CDR lock (R327, R329; log entry 117). -/
def adaptWrite (l : Nat) (was : Bool) (s : State) : State :=
  let s := s.wrF (Reg.LANE_STATUS l) 16 5 (ctleInForce s l (s.rdF (Reg.LANE_STATUS l) 16 5))
  let now := s.bit (Reg.LANE_CTRL l) 2
  if was && !now then s.wrF (Reg.LANE_STATUS l) 2 2 0
  else if !was && now && s.bit (Reg.LANE_STATUS l) 1 then adaptStart l s
  else s

/-- Half the range of a DFE tap, k from 0, in 1/256 (R327). -/
def dfeHalf (k : Nat) : Nat := if k = 0 then 128 else if k < 3 then 64 else 32

/-- Continuous adaptation moves the CTLE and the taps to values the manual does not give. -/
def adapt (l : Nat) (s : State) : State :=
  let x := fun (k : Nat) => Config.freeNat s.rng / 512 ^ k
  let s := s.wrF (Reg.LANE_STATUS l) 16 5 (ctleInForce s l (x 12 % 21))
  ((List.range 12).foldl (fun s k =>
    s.wr (Reg.LANE_DFE l k) ((x k % (2 * dfeHalf k) + 256 - dfeHalf k) % 256)) s).drawn

/-- Whether the quantities shown allow a good window (R328). -/
def windowAllows (pam4 : Bool) (density minPop : Nat) : Bool :=
  if pam4 then decide (563 ≤ density) && decide (density ≤ 972) && decide (153 ≤ minPop) && decide (minPop ≤ 256)
  else decide (307 ≤ density) && decide (density ≤ 716)

/-- A guard window ends; the taps adapt only while adaptation is enabled (R327, R328). LANE_FREEZES counts entries to
FROZEN (DEDUCED, log entry 20). -/
def guardWindow (l density minPop : Nat) (good : Bool) (s : State) : State :=
  if !lanePowered s l || !s.bit (Reg.LANE_STATUS l) 1 then s
  else
    let pam4 := lanePam4 s l
    let s := s.wr (Reg.LANE_GUARD l) (density + 2 ^ 16 * (if pam4 then minPop else 0))
    let st := s.rdF (Reg.LANE_STATUS l) 2 2
    if st = 0 then s
    else if good && windowAllows pam4 density minPop then
      let run := min 8 (s.rdF (Reg.LANE_STATUS l) 4 4 + 1)
      let s := s.wrF (Reg.LANE_STATUS l) 4 4 run
      let s := if run = 8 then s.wrF (Reg.LANE_STATUS l) 2 2 2 else s
      if st = 3 || !s.bit (Reg.LANE_CTRL l) 2 then s else adapt l s
    else
      let s := (s.wrF (Reg.LANE_STATUS l) 4 4 0).wrF (Reg.LANE_STATUS l) 2 2 3
      if st = 3 then s else s.bump (Reg.LANE_FREEZES l)

/-! ## PRBS and error injection (R334 to R337) -/

/-- The patterns of R334: the exponents of the polynomial, its constant term apart. PRBS13Q and PRBS31Q carry the bits of
PRBS13 and PRBS31 two to a symbol (log entry 118). -/
def testPattern (sel : Nat) : TestPattern :=
  match sel with
  | 0 => .prbs [7, 6] false
  | 1 => .prbs [9, 5] false
  | 2 => .prbs [13, 12, 2, 1] false
  | 3 => .prbs [15, 14] false
  | 4 => .prbs [23, 18] false
  | 5 => .prbs [31, 28] false
  | 6 => .prbs [13, 12, 2, 1] true
  | 7 => .prbs [31, 28] true
  | _ => .ssprq

/-- The first `n` bits after `start`, latest first, of the sequence of a polynomial. -/
def prbsBits (exponents : List Nat) : Nat → List Bool → List Bool
  | 0, start => start
  | n + 1, start => prbsBits exponents n (exponents.foldl (fun b e => xor b (start.getD (e - 1) false)) false :: start)

/-- The pattern that a lane sends in place of its signal, if its generator runs (R335). -/
def lanePattern (s : State) (l : Nat) : Option TestPattern :=
  if s.bit Reg.CLK_ON 2 && s.bit (Reg.LANE_PRBS l) 4 then some (testPattern (s.rdF (Reg.LANE_PRBS l) 0 4)) else none

/-- Whether a pattern selection is legal on a lane. -/
def patternOk (s : State) (l v : Nat) : Bool := decide (v ≤ 5) || (decide (v ≤ 8) && lanePam4 s l)

/-- A write of LANE_PRBS. -/
def prbsWrite (l v : Nat) (s : State) : State :=
  let a := Reg.LANE_PRBS l
  let chk := s.bit a 12
  let sent := lanePattern s l
  let s := if patternOk s l (field v 0 4) then s.wrF a 0 4 (field v 0 4) else s
  let s := if patternOk s l (field v 8 4) then s.wrF a 8 4 (field v 8 4) else s
  let s := (s.setBit a 4 (Nat.testBit v 4)).setBit a 12 (Nat.testBit v 12)
  let s := if Nat.testBit v 12 then s else s.setBit (Reg.LANE_STATUS l) 10 false
  let s :=
    if Nat.testBit v 12 ∧ !chk then (s.wr64 (Reg.LANE_PRBS_CNT l 0) 0).wr64 (Reg.LANE_PRBS_CNT l 2) 0 else s
  syncPorts (if lanePattern s l = sent then s else s.emit (.pattern l (lanePattern s l)))

/-- The checker locks. -/
def prbsLock (l : Nat) (s : State) : State :=
  if s.bit (Reg.LANE_PRBS l) 12 && s.bit Reg.CLK_ON 2 then s.setBit (Reg.LANE_STATUS l) 10 true else s

/-- The checker loses lock: since its last report it counted `errors` in `bits`. -/
def prbsLoss (l errors bits : Nat) (s : State) : State :=
  if !s.bit (Reg.LANE_STATUS l) 10 || !s.bit Reg.CLK_ON 2 then s
  else
    let s := (s.bump64 (Reg.LANE_PRBS_CNT l 0) errors).bump64 (Reg.LANE_PRBS_CNT l 2) bits
    (s.setBit (Reg.LANE_STATUS l) 10 false).setBit (Reg.LANE_STATUS l) 11 true

/-- The rate at which a lane's bits are inverted, while MODE is RATE (R336). -/
def injectingRate (s : State) (l : Nat) : Option Nat :=
  if s.rdF (Reg.LANE_INJ l) 0 2 = 3 then some (s.rdF (Reg.LANE_INJ l) 16 5) else none

/-- A write of LANE_INJ: fields out of range keep their values (R12); GO injects under MODE 1 and 2, and MODE 3 injects
for as long as it stands. -/
def injectWrite (l v : Nat) (s : State) : State :=
  let a := Reg.LANE_INJ l
  let rate := injectingRate s l
  let s := s.wrF a 0 2 (field v 0 2)
  let s := if field v 8 8 = 0 then s else s.wrF a 8 8 (field v 8 8)
  let s := if 10 ≤ field v 16 5 ∧ field v 16 5 ≤ 30 then s.wrF a 16 5 (field v 16 5) else s
  let s := if injectingRate s l = rate then s else s.emit (.injectRate l (injectingRate s l))
  if Nat.testBit v 2 then
    match s.rdF a 0 2 with
    | 1 => s.emit (.injected l 1)
    | 2 => s.emit (.injected l (s.rdF a 8 8))
    | _ => s
  else s

/-! ## Harness training (R330 to R333) -/

/-- State of the harness lanes: 0 DOWN, 1 CLOCK, 2 ALIGN, 3 CHECK, 4 UP. -/
def hrnState (s : State) : Nat := s.rdF Reg.LANE_HRN_STATUS 0 3

/-- A training word of lane k (R331). -/
def trainWord (k : Nat) (done : Bool) (count : Nat) : Nat :=
  0x5AC3960FE13C * 2 ^ 16 + ((15 - k) * 16 + k) * 2 ^ 8 + b2n done * 128 + count % 128

/-- Training state of harness lane k. -/
def trainAt (s : State) (k : Nat) : LaneTrain := Tbl.get (fun _ => {}) s.lan.train k

/-- Sets it. -/
def setTrain (k : Nat) (t : LaneTrain) (s : State) : State :=
  { s with lan := { s.lan with train := Tbl.set (fun _ => {}) s.lan.train k t } }

/-- Harness lane k sends its next training word, with RX_DONE once the module's own receiver is deskewed; a lane whose
pattern generator runs sends none (R331, R335). -/
def sendTraining (k : Nat) (s : State) : State :=
  if (lanePattern s (64 + k)).isSome then s
  else
    let t := trainAt s k
    let done := s.lan.deskewed
    setTrain k { t with sent := (t.sent + 1) % 128, doneSent := if done then t.doneSent + 1 else 0 }
      (s.emit (.training k (trainWord k done t.sent)))

/-- Training starts, if the harness is powered; lanes that are not are down (R330). -/
def trainStart (s : State) : State :=
  let s := { s with lan := { s.lan with train := [], failed := false, deskewed := false } }
  if !harnessOn s then (List.range 9).foldl (fun s k => laneDown (64 + k) s) (s.wrF Reg.LANE_HRN_STATUS 0 3 0)
  else
    let s := (List.range 8).foldl (fun s k => s.setBit (Reg.LANE_CTRL (64 + k)) 1 false) s
    (List.range 8).foldl (fun s k => sendTraining k s) ((s.wr Reg.LANE_HRN_STATUS 1).bump Reg.LANE_HRN_TRAINS)

/-- Training fails with a cause. -/
def trainFail (cause : Nat) (s : State) : State :=
  let s := (s.wrF Reg.LANE_HRN_STATUS 0 3 0).wrF Reg.LANE_HRN_STATUS 16 3 cause
  { s with lan := { s.lan with failed := true } }

/-- The harness sampling clock locks (step 1). -/
def hckLock (s : State) : State :=
  if hrnState s ≠ 1 then s
  else (s.wrF (Reg.LANE_STATUS 72) 0 2 3).wrF Reg.LANE_HRN_STATUS 0 3 2

/-- Step 3: polarity and lane map, or failure. -/
def trainCheck (s : State) : State :=
  let ks := List.range 8
  let same := ks.all (fun k => (trainAt s k).lane == k)
  let turned := ks.all (fun k => (trainAt s k).lane == 7 - k)
  if (!same && !turned) || ks.any (fun k => s.bit (Reg.LANE_STATUS (64 + k)) 9) then trainFail 3 s
  else
    let s := ks.foldl (fun s k =>
      (s.setBit (Reg.LANE_CTRL (64 + k)) 1 (trainAt s k).flipped).setBit Reg.LANE_HRN_STATUS (8 + k)
        (trainAt s k).flipped) s
    (s.setBit Reg.LANE_HRN_STATUS 3 (!same)).wrF Reg.LANE_HRN_STATUS 0 3 3

/-- Steps 4 and 5: deskew, then UP once 64 words with RX_DONE in a row have come and gone on every lane. -/
def trainGoOn (s : State) : State :=
  let ks := List.range 8
  let level := ks.all (fun k => (trainAt s k).count == (trainAt s 0).count)
  let s := if level then { s with lan := { s.lan with deskewed := true } } else s
  if s.lan.deskewed && ks.all (fun k => decide (64 ≤ (trainAt s k).done) && decide (64 ≤ (trainAt s k).doneSent)) then
    s.wrF Reg.LANE_HRN_STATUS 0 3 4
  else s

/-- A 64-bit word received on harness lane k during training, as on the pins, most significant bit first. The lanes of
both directions run at one rate: a word is sent for each received (log entry 119). -/
def trainingWord (k w0 : Nat) (s : State) : State :=
  if hrnState s = 0 ∨ 4 ≤ hrnState s then s
  else if hrnState s = 1 then sendTraining k s
  else
    let s := sendTraining k s
    let mark := 0x5AC3960FE13C
    let top := w0 / 2 ^ 16
    let flipped := top == 2 ^ 48 - 1 - mark
    let w := if flipped then 2 ^ 64 - 1 - w0 else w0
    let id := field w 8 8
    let t := trainAt s k
    if (top ≠ mark ∧ flipped = false) ∨ id / 16 ≠ 15 - id % 16 then
      setTrain k { sent := t.sent, doneSent := t.doneSent } s
    else
      let go := decide (0 < t.run) && t.flipped == flipped && t.lane == id % 16
      let done := if Nat.testBit w 7 then t.done + 1 else 0
      let s := setTrain k { t with
        run := if go then t.run + 1 else 1, lane := id % 16, flipped := flipped, count := w % 128, done := done } s
      if hrnState s = 2 then
        if (List.range 8).all (fun j => decide (4 ≤ (trainAt s j).run)) then trainCheck s else s
      else trainGoOn s

/-- UP was not reached within 1 ms of CLOCK. -/
def trainTimeout (s : State) : State :=
  match hrnState s with
  | 1 => trainFail 1 s
  | 2 => trainFail 2 s
  | 3 => trainFail 4 s
  | _ => s

/-- The lanes' part of a harness loss: counted, posted, retrained at once (R333). Which lane P0 names is
open. -/
def harnessLanesDown (s : State) : State :=
  let s := (s.wrF Reg.LANE_HRN_STATUS 0 3 0).bump Reg.LANE_HRN_DOWNS
  trainStart (evqPost 0x0A 1 (Config.freeNat s.rng % 73) (s.rd Reg.LANE_HRN_STATUS) 0 0 s).drawn

/-! ## Start-up loopback (R350) -/

/-- A lane fails its loopback: FAILED, no signal, LOS on its port, an event. -/
def failLane (l : Nat) (s : State) : State :=
  let s := laneDown l (s.setBit (Reg.LANE_STATUS l) 9 true)
  let s := evqPost 0x0A 0 l (s.rd Reg.LANE_HRN_STATUS) 0 0 s
  match lanePort s l with
  | some p => if (portSpan s p).isSome ∧ l < 64 then rawDefect p 0 true s else s
  | none => s

end Sys2Proof.Machine
end

