-- ==== Sys2Proof/Machine/Dram.lean ====
section
/-! DEFINITION. DRAM channels, partitions, patrol scrub and channel fences (R380 to R389). What the
partitions hold stands in the state of the chapter that owns it. -/

namespace Sys2Proof.Machine

/-- Channels fenced. -/
def fencedChannels (s : State) : Nat :=
  ((List.range 8).filter (fun c => s.bit (Reg.EVR_CH_STATUS c) 0)).length

/-- Floor of a partition in GiB (R386). -/
def partFloor (layout i : Nat) : Nat :=
  match i with
  | 0 => if layout = 1 then 2 else 1
  | 1 => 1
  | 4 => 2
  | _ => 0

/-- Takes `n` GiB from partitions in order, each down to its floor. -/
def shrink (layout : Nat) : List Nat → Nat → List Nat → List Nat
  | [], _, sizes => sizes
  | i :: t, n, sizes =>
    let have_ := sizes.getD i 0 - partFloor layout i
    let k := min n have_
    shrink layout t (n - k) (setAt sizes i (sizes.getD i 0 - k))

/-- Partition sizes of a Pattern with `k` channels fenced. -/
def partSizes (a : Pattern) (k : Nat) : List Nat := shrink a.layout a.fenceOrder (16 * k) a.memSize

/-- EVR_PART follows the active Pattern and the fences. -/
def layPartitions (s : State) : State :=
  let sizes := match s.pat.active with
    | some a => partSizes a (fencedChannels s)
    | none => []
  (List.range 5).foldl (fun s i => s.wr (Reg.EVR_PART i) (sizes.getD i 0)) s

/-! ## The evidence partition as the devices hold it (R381, R382, R394) -/

/-- Capacity in GiB: 16 for each healthy channel (R380). -/
def capacityGib (s : State) : Nat := 16 * (8 - fencedChannels s)

/-- Module address of the evidence partition, which ends at the top of the capacity. -/
def evidenceBase (s : State) : Nat := (capacityGib s - s.rd (Reg.EVR_PART 3)) * 2 ^ 30

/-- Module addresses of a record slot and of a checkpoint slot. -/
def recordAddr (s : State) (slot : Nat) : Nat := evidenceBase s + 32 * slot
/-- Address of checkpoint slot `slot`, in the top 64 MiB. -/
def ckptAddr (s : State) (slot : Nat) : Nat := capacityGib s * 2 ^ 30 - 2 ^ 26 + 5120 * slot

/-- The channel that holds a module address: stripes of 512 bytes over the healthy channels in ascending order (R381). -/
def channelOf (s : State) (addr : Nat) : Nat :=
  let healthy := (List.range 8).filter (fun c => !s.bit (Reg.EVR_CH_STATUS c) 0)
  healthy.getD (addr / 512 % healthy.length) 0

/-- What the devices hold of bytes at a burst's address, two record slots or a part of a checkpoint: the ciphertext of
its 64 bytes under the DRAM key, with the burst's number as tweak. -/
def burstHeld (s : State) (addr : Nat) (plain : Bytes) : Bytes := xtsEncrypt s.evr.dramKey (addr / 64) (exactly 64 plain)

/-- The record burst of slots `2 * k` and `2 * k + 1` as held. -/
def recordBurst (s : State) (k : Nat) : Bytes :=
  let slot := fun i => Tbl.get (fun _ => zeros 32) s.evr.records (2 * k + i)
  burstHeld s (recordAddr s (2 * k)) (slot 0 ++ slot 1)

/-- Burst `j` of checkpoint slot `k` as held. -/
def ckptBurst (s : State) (k j : Nat) : Bytes :=
  burstHeld s (ckptAddr s k + 64 * j) (((Tbl.get (fun _ => zeros 5120) s.evr.ckpts k).drop (64 * j)).take 64)

/-- Every staged copy in scratch is gone: the staged Pattern is abandoned (R67). A Pattern that a cut in progress
has been handed is staged no longer: the cut completes with it (R31, R75). -/
def abandonStaged (s : State) : State :=
  if s.pat.cut.isSome || (s.pat.staged.isNone && s.pat.staging.isNone) then s
  else
    let s := { s with pat := { s.pat with staged := none, staging := none, scratchBad := [] } }
    let s := (s.wr Reg.PAT_DIFF 0).wr Reg.PAT_DIFF_SECT 0
    let s := s.wrBytes (Reg.PAT_STG_DIG 0) (zeros 48)
    if s.pat.storing.isSome then s else s.wrF Reg.PAT_STATUS 0 4 0

/-- Queued learn requests are dropped and counted (R387). -/
def dropLearn (s : State) : State :=
  let n := s.cls.learnQ.length
  if n = 0 then s
  else engineGo (syncCls { (s.bump Reg.CLS_LEARN_OVF n) with cls := { s.cls with
    learnQ := [], jobs := s.cls.jobs.map (fun j => { j with ahead := 0 }) } })

/-- A channel is fenced for a cause, 1 TRAIN, 2 UE, 3 HOST by its bit in CAUSE (R385, R387 steps 1 and 2). -/
def fenceChannel (c cause : Nat) (s : State) : State :=
  let was := s.bit (Reg.EVR_CH_STATUS c) 0
  let s := (s.setBit (Reg.EVR_CH_STATUS c) 0 true).setBit (Reg.EVR_CH_STATUS c) cause true
  if was then s
  else
    let s := evrEvent 3 c (raiseVector 0 s)
    let s := { s with evr := { s.evr with rebuilding := true } }
    let s := loseSpill (fun _ => true) (dropLearn s)
    if noDram s then syncPorts (followTrunks s) else s

/-- A host write to EVR_CH_FENCE. -/
def channelFenceWrite (v : Nat) (s : State) : State :=
  let s := s.wr Reg.EVR_CH_FENCE ((s.rd Reg.EVR_CH_FENCE ||| v) % 256)
  (bitsOf 8 v).foldl (fun s c => fenceChannel c 3 s) s

/-- The address map is rebuilt over the remaining channels (R387 steps 3 and 4). -/
def mapRebuilt (s : State) : State :=
  if !s.evr.rebuilding then s
  else
    let s := layPartitions { s with evr := { s.evr with rebuilding := false } }
    openRing 2 (abandonStaged (emptyPeers s))

/-- Spilled frames in the order of their queues: queue key and place among the spilled frames of it. -/
def spilledPlaces (s : State) : List (Nat × Nat) :=
  s.sch.queues.flatMap (fun e => (List.range (spilledOf e.2).length).map (fun k => (e.1, k)))

/-- Takes the k-th spilled entry out of a queue. -/
def cutSpilled : Nat → List QEntry → List QEntry
  | _, [] => []
  | k, .held i :: t => .held i :: cutSpilled k t
  | 0, .spilled _ :: t => t
  | k + 1, .spilled f :: t => .spilled f :: cutSpilled k t

/-- What an uncorrectable read does to the partition it falls in (R384): `item` is the bucket, the spilled
frame, or the burst. -/
def uncorrectable (part item : Nat) (s : State) : State :=
  match part with
  | 0 => clearPlaces ((List.range 8).map (fun k => item * 8 + k)) s
  | 2 =>
    match (spilledPlaces s)[item]? with
    | none => s
    | some (key, k) =>
      let q := s.queue (key / 8) (key % 8)
      match (spilledOf q)[k]? with
      | none => s
      | some f => syncSpill (loseSpilled (key / 8) (key % 8) f (s.setQueue (key / 8) (key % 8) (cutSpilled k q)))
  | 3 => { s with evr := { s.evr with badSlots := item :: s.evr.badSlots } }
  | 4 =>
    if s.pat.staged.isSome || s.pat.staging.isSome then
      { s with pat := { s.pat with scratchBad := item :: s.pat.scratchBad } }
    else s
  | _ => s

/-- One read of the patrol scrubber. EVR_CH_UE_TH uncorrectable reads within 1 s fence the channel. -/
def patrolScrub (c part item : Nat) (o : ScrubOutcome) (s : State) : State :=
  if s.bit (Reg.EVR_CH_STATUS c) 0 then s
  else
    match o with
    | .clean => s
    | .corrected => s.bump (Reg.EVR_CH_CE c)
    | .uncorrectable =>
      let s := uncorrectable part item (s.bump (Reg.EVR_CH_UE c))
      let times := (s.refTick :: Tbl.get (fun _ => []) s.evr.ueTimes c).filter
        (fun t => decide (s.refTick < t + tickSecond))
      let s := { s with evr := { s.evr with ueTimes := Tbl.set (fun _ => []) s.evr.ueTimes c times } }
      if s.rdF Reg.EVR_CH_UE_TH 0 16 ≤ times.length then fenceChannel c 2 s else s

end Sys2Proof.Machine
end

