-- ==== Sys2Proof/Machine/Pmc.lean ====
section
/-! DEFINITION. Programmable counters: the samples of modes 1 and 2, and reading a counter through the
holding registers (R483 to R492, R496). -/

namespace Sys2Proof.Machine

/-- Bytes of a queue entry in the buffer or in the spill partition. -/
def entryBytes (s : State) : QEntry → Nat
  | .held id => outLen (s.frameAt id)
  | .spilled f => outLen f

/-- Cells of the queue of class `c` at port `p`, on-die and spilled. -/
def queueCells (s : State) (p c : Nat) : Nat := ((s.queue p c).map (fun e => cellsOf (entryBytes s e))).sum

/-- The value of an occupancy event, or none for a count event (R486). The model completes each posted
write at once, so none is held. -/
def pmcValue (s : State) (event qual : Nat) : Option Nat :=
  if event = 0x0204 then some (usedTags s).length
  else if event = 0x0205 then some (islandsIn s 0).length
  else if event = 0x0702 then some s.cls.learnQ.length
  else if event = 0x0D01 then some 0
  else if event = 0x0800 then
    some (if qual = 0xFF then ((List.range 256).map (fun k => queueCells s (32 + k / 8) (k % 8))).sum
      else queueCells s (32 + qual / 8) (qual % 8))
  else none

/-- Whether a sampled value counts under MODE 1 or 2 (R485). -/
def pmcPred (mode thr v : Nat) : Bool := if mode = 1 then decide (thr < v) else decide (v ≤ thr)

/-- Counter `n` after `k` sample instants: an occupancy holds its value through all of them, the weights of
a count event fall into the first (R485). -/
def pmcSample (k n : Nat) (s : State) : State :=
  let sel := s.rd (Reg.PMC_SEL n)
  let mode := field sel 24 2
  let thr := s.rd (Reg.PMC_THR n)
  if !pmcRuns s n || !(mode == 1 || mode == 2) then s
  else
    match pmcValue s (field sel 0 16) (field sel 16 8) with
    | some v => if pmcPred mode thr v then pmcAdd n k s else s
    | none =>
      let first := b2n (pmcPred mode thr (Tbl.get (fun _ => 0) s.pmc.since n))
      let rest := if pmcPred mode thr 0 then k - 1 else 0
      if first + rest = 0 then s else pmcAdd n (first + rest) s

/-- `k` sample instants of every counter. -/
def pmcSamples (k : Nat) (s : State) : State :=
  if k = 0 then s
  else
    let s := (pmcSelected s).foldl (fun s n => pmcSample k n s) s
    { s with pmc := { s.pmc with since := [] } }

/-- A read of counter `n` by the BAR0 path (R489): an even counter copies its odd partner into PMC_HOLD, and
the next read of that partner returns the copy. -/
def pmcReadBar (n : Nat) (s : State) : State × Nat :=
  let k := n / 32
  let v := s.rd (Reg.PMC_CNT n)
  if n % 2 = 0 then
    let s := s.wr (Reg.PMC_HOLD k) (s.rd (Reg.PMC_CNT (n + 1)))
    ({ s with pmc := { s.pmc with mark := Tbl.set (fun _ => 0) s.pmc.mark k (n + 1) } }, v)
  else if Tbl.get (fun _ => 0) s.pmc.mark k = n then
    ({ s with pmc := { s.pmc with mark := Tbl.set (fun _ => 0) s.pmc.mark k 0 } }, s.rd (Reg.PMC_HOLD k))
  else (s, v)

/-- A read of counter `n` on its observe page, through the page's own holding register (R490); with the page
or the clock off it returns all ones (R496). -/
def pmcReadObserve (n : Nat) (s : State) : State × Nat :=
  let k := n / 32
  let v := s.rd (Reg.PMC_CNT n)
  if !s.bit Reg.PMC_USER_EN k || !s.bit Reg.CLK_ON 0 then (s, 0xFFFFFFFF)
  else if n % 2 = 0 then
    ({ s with pmc := { s.pmc with
      obsHold := Tbl.set (fun _ => 0) s.pmc.obsHold k (s.rd (Reg.PMC_CNT (n + 1))),
      obsMark := Tbl.set (fun _ => 0) s.pmc.obsMark k (n + 1) } }, v)
  else if Tbl.get (fun _ => 0) s.pmc.obsMark k = n then
    ({ s with pmc := { s.pmc with obsMark := Tbl.set (fun _ => 0) s.pmc.obsMark k 0 } },
      Tbl.get (fun _ => 0) s.pmc.obsHold k)
  else (s, v)

/-- What observe page `k` shows at an offset (R496): its bank's counters, their selections, 0 elsewhere; all ones while
the page or the clock is off. A counter is read by `pmcReadObserve`. -/
def observePage (s : State) (k off : Nat) : Nat :=
  if !s.bit Reg.PMC_USER_EN k || !s.bit Reg.CLK_ON 0 then 0xFFFFFFFF
  else if off < 0x80 then s.rd (Reg.PMC_CNT (32 * k + off / 4))
  else if 0x100 ≤ off ∧ off < 0x180 then s.rd (Reg.PMC_SEL (32 * k + (off - 0x100) / 4))
  else 0

end Sys2Proof.Machine
end

