-- ==== Sys2Proof/Machine/Time.lean ====
section
/-! DEFINITION. The time bases as they run: ticks, wraps, second markers and what acts at them, steps, the
servo, holdover, timing outputs and time of day (R353 to R367). -/

namespace Sys2Proof.Machine

/-! ## Counting (R353) -/

/-- WRAP, NS, FRAC and the fifths below FRAC of a base as one number, in fifths of 2^-32 ns. -/
def baseCount (s : State) (b : Nat) : Nat :=
  ((s.rd (Reg.TB_WRAP b) * 2 ^ 32 + s.rd (Reg.TB_NS b)) * 2 ^ 32 + s.rd (Reg.TB_FRAC b)) * 5 + (s.baseAt b).fifths

/-- Sets the count of a base; WRAP is modulo 65,536. -/
def setCount (b v : Nat) (s : State) : State :=
  let q := v / 5
  let s := s.wr (Reg.TB_FRAC b) (q % 2 ^ 32)
  let s := s.wr (Reg.TB_NS b) (q / 2 ^ 32 % 2 ^ 32)
  let s := s.wr (Reg.TB_WRAP b) (q / 2 ^ 64 % 2 ^ 16)
  s.setBase b { s.baseAt b with fifths := v % 5 }

/-- `n` ticks of a base, and of its step-free shadow (R371). -/
def advanceBase (n b : Nat) (s : State) : State :=
  if !baseOn s b then s
  else
    let d := n * baseInc s b
    let s := s.setBase b { s.baseAt b with shadow := (s.baseAt b).shadow + d }
    setCount b (baseCount s b + d) s

/-- Sample instants of the 1.0 GHz sampling clock within `n` ticks of 6.4 ns (R485). -/
def samplesIn (t n : Nat) : Nat := 32 * (t + n) / 5 - 32 * t / 5

/-- The ages of the chain's position records, in 100 ms units, saturating (R468, R481). -/
def ageRecords (s : State) : State :=
  s.chn.peerTick.foldl (fun s e =>
    s.wrF (Reg.CHN_PEER_INFO e.1) 24 8 (min 255 ((s.refTick + 1 - e.2) / 15625000))) s

/-- `n` ticks of the reference clock with no wrap and no marker acted on. -/
def advance (n : Nat) (s : State) : State :=
  let s := pmcSamples (samplesIn s.refTick n) s
  let s := (List.range 4).foldl (fun s b => advanceBase n b s) s
  ageRecords { s with refTick := s.refTick + n }

/-- Ticks until a base's NS has gone `d` ns on from its present whole count; at least one. -/
def ticksTo (s : State) (b d : Nat) : Nat :=
  let left := d * 2 ^ 32 * 5 - (s.rd (Reg.TB_FRAC b) * 5 + (s.baseAt b).fifths)
  max 1 ((left + baseInc s b - 1) / baseInc s b)

/-- Ticks until NS reaches M. -/
def ticksToMarker (s : State) (b : Nat) : Nat :=
  ticksTo s b ((s.rd (Reg.TB_SECMARK b) + 2 ^ 32 - s.rd (Reg.TB_NS b)) % 2 ^ 32)

/-- Ticks until NS wraps to 0. -/
def ticksToWrap (s : State) (b : Nat) : Nat := ticksTo s b (2 ^ 32 - s.rd (Reg.TB_NS b))

/-! ## Second markers (R355 to R357) -/

/-- TB_SECBASE of a base. -/
def setSecBase (b v : Nat) (s : State) : State :=
  (s.wr (Reg.TB_SECBASE_LO b) (v % 2 ^ 32)).wr (Reg.TB_SECBASE_HI b) (v / 2 ^ 32 % 2 ^ 16)

/-- A base's marker fires: M moves on by a second, TB_SECBASE counts; the marker is remembered. -/
def fireBase (b : Nat) (s : State) : State :=
  let m := s.rd (Reg.TB_SECMARK b)
  let s := setSecBase b ((tbSec s b + 1) % 2 ^ 48) (s.wr (Reg.TB_SECMARK b) ((m + 1000000000) % 2 ^ 32))
  s.setBase b { s.baseAt b with markSec := tbSec s b, markWrap := s.rd (Reg.TB_WRAP b), markNs := m,
                                markTick := s.refTick + 1 }

/-- The actions of a TB0 marker at `m`: per-second latch, age tick every 16th, DINT, FECDEG (R357). -/
def tb0Actions (m : Nat) (s : State) : State :=
  let s := (List.range 64).foldl (fun s p => evalFec s p) (latchPages m s)
  let s := if s.lan.dint.isEmpty then s else dintApply s
  let k := s.tim.ageMarks + 1
  let s := { s with tim := { s.tim with ageMarks := k % 16 } }
  if k = 16 then ageTick s else s

/-- PPS_OUT_TB, TOD_TX_TB and TOD_RX_TB of the active Pattern; with none, as the fields' 0 and "none". -/
def ppsBase (s : State) : Nat := match s.pat.active with
  | some a => a.ppsTb
  | none => 0
/-- TOD_TX_TB. -/
def todTxBase (s : State) : Nat := match s.pat.active with
  | some a => a.todTxTb
  | none => 0
/-- TOD_RX_TB. -/
def todRxBase (s : State) : Nat := match s.pat.active with
  | some a => a.todRxTb
  | none => 0xFF

/-- The 1PPS_OUT rising edge, and the time-of-day message it makes due (R364, R366). -/
def ppsEdge (s : State) : State :=
  if !s.bit Reg.TIM_PPS_CTRL 0 then s
  else
    let x := s.baseAt (todTxBase s)
    let due := if s.bit Reg.TIM_TOD_CTRL 0 then some (x.markSec, x.markWrap, x.markNs) else none
    { s with tim := { s.tim with ppsOut := true, todDue := due } }.emit (.pin "1PPS_OUT" true)

/-- F10M_OUT_TB. -/
def f10mBase (s : State) : Nat := match s.pat.active with
  | some a => a.f10mTb
  | none => 0

/-- Where edges at 100 ns multiples from a base's markers lie in its step-free count (R365). -/
def f10mPhase (s : State) (b : Nat) : Nat :=
  let ahead := (s.rd (Reg.TB_SECMARK b) + 2 ^ 32 - s.rd (Reg.TB_NS b)) % 2 ^ 32 * (2 ^ 32 * 5)
  let edge : Int := ((s.baseAt b).shadow + ahead : Nat) - ((s.rd (Reg.TB_FRAC b) * 5 + (s.baseAt b).fifths : Nat) : Int)
  (edge % ((100 * 2 ^ 32 * 5 : Nat) : Int)).toNat

/-- The wave on F10M_OUT changes. -/
def f10mSet (w : Option (Nat × Nat)) (s : State) : State :=
  if s.tim.f10m = w then s else { s with tim := { s.tim with f10m := w } }.emit (.f10m w)

/-- F10M_OUT carries a wave while TIM_F10M_CTRL.EN is 1 and its base counts; a running wave keeps its edges (R365). -/
def f10mSync (s : State) : State :=
  let b := f10mBase s
  if !s.bit Reg.TIM_F10M_CTRL 0 || !baseOn s b then f10mSet none s
  else if (s.tim.f10m.map Prod.fst) = some b then s
  else f10mSet (some (b, f10mPhase s b)) s

/-- A marker of the wave's base realigns it: its edges moved if the base has stepped (R365). -/
def f10mMarker (bs : List Nat) (s : State) : State :=
  match s.tim.f10m with
  | some (b, _) => if bs.contains b then f10mSet (some (b, f10mPhase s b)) s else s
  | none => s

/-- The markers of the bases `bs` fire in one tick. -/
def fireMarkers (bs : List Nat) (s : State) : State :=
  let m := s.rd (Reg.TB_SECMARK 0)
  let s := bs.foldl (fun s b => fireBase b s) s
  let s := f10mMarker bs (if bs.contains 0 then tb0Actions m s else s)
  if bs.contains (ppsBase s) then ppsEdge s else s

/-- What a tick does at the wrap of TB0: a WRAP record (R392). -/
def wrapAction (s : State) : State := evrQueue (wrapRecord s) s

/-! ## Ticks -/

/-- Enabled bases whose marker falls `k` ticks on. -/
def markersAt (k : Nat) (s : State) : List Nat :=
  (List.range 4).filter (fun b => baseOn s b && ticksToMarker s b == k)

/-- Ticks until the next marker of an enabled base or wrap of TB0. -/
def nextInstant (s : State) : Nat :=
  ((List.range 4).filter (fun b => baseOn s b)).foldl (fun m b => min m (ticksToMarker s b))
    (ticksToWrap s 0)

/-- `k` ticks up to an instant, and what acts at it; `bs` are the bases whose markers fire. -/
def toInstant (k : Nat) (bs : List Nat) (s : State) : State :=
  let wraps := baseOn s 0 && ticksToWrap s 0 == k
  let s := advance k s
  fireMarkers bs (if wraps then wrapAction s else s)

/-- `n` ticks of the reference clock, each marker and wrap acted on at its tick. The first argument bounds
the number of such instants. -/
def elapse : Nat → Nat → State → State
  | 0, n, s => advance n s
  | fuel + 1, n, s =>
    let k := nextInstant s
    if n < k then advance n s else elapse fuel (n - k) (toInstant k (markersAt k s) s)

/-- One tick of the reference clock: what an empty queue lets pass. -/
def tick (s : State) : State := elapse 1 1 s

/-- The ticks before the one that brings a base to its next marker. -/
def beforeMarker (b : Nat) (s : State) : State := elapse 64 (ticksToMarker s b - 1) s

/-- The clock runs to the next marker of a base, and it fires with those of the same tick. -/
def secondMarker (b : Nat) (s : State) : State :=
  if !baseOn s b then s
  else
    let s := beforeMarker b s
    toInstant 1 (b :: (markersAt 1 s).filter (fun c => c != b)) s

/-- The clock runs to the next wrap of a base. -/
def nsWrap (b : Nat) (s : State) : State :=
  if !baseOn s b then s
  else
    let s := elapse 64 (ticksToWrap s b - 1) s
    toInstant 1 (markersAt 1 s) s

/-! ## Writes of the marker and the seconds count (R355, R356) -/

/-- A write of TB_SECMARK. -/
def secmarkWrite (b v : Nat) (s : State) : State :=
  if !baseOn s b then s
  else if (v + 2 ^ 32 - s.rd (Reg.TB_NS b)) % 2 ^ 32 < 2 ^ 31 then s.wr (Reg.TB_SECMARK b) v
  else timEvent 8 b (s.bump Reg.TIM_MARK_REJ)

/-- A write of TB_SECBASE_LO waits for the HI half. -/
def secbaseLo (b v : Nat) (s : State) : State :=
  if !baseOn s b then s else s.setBase b { s.baseAt b with secLo := some v }

/-- A write of TB_SECBASE_HI applies both halves. -/
def secbaseWrite (b v : Nat) (s : State) : State :=
  if !baseOn s b then s
  else
    let lo := (s.baseAt b).secLo.getD (s.rd (Reg.TB_SECBASE_LO b))
    let s := setSecBase b (lo + 2 ^ 32 * (v % 2 ^ 16)) s
    s.setBase b { s.baseAt b with secLo := none }

/-! ## Steps (R358) -/

/-- Fifths of 2^-32 ns in a nanosecond, and in the range of WRAP.NS.FRAC. -/
def nsUnit : Nat := 2 ^ 32 * 5
/-- The modulus of a base's count. -/
def countSpan : Nat := 2 ^ 80 * 5

/-- How many seconds M moves: the smallest k that puts it after the new NS and at most a second ahead, when
it lay `d` ns ahead before the count moved by `step`, both in 2^-32 ns fifths. -/
def markShift (d step : Int) : Int := -((d - step - 1) / ((1000000000 * nsUnit : Nat) : Int))

/-- M and TB_SECBASE move by `k` seconds. -/
def moveMarker (b : Nat) (k : Int) (s : State) : State :=
  let m := ((s.rd (Reg.TB_SECMARK b) : Int) + k * 1000000000) % ((2 ^ 32 : Nat) : Int)
  let sec := ((tbSec s b : Int) + k) % ((2 ^ 48 : Nat) : Int)
  setSecBase b sec.toNat (s.wr (Reg.TB_SECMARK b) m.toNat)

/-- The base's count becomes `new` by a step (R358). The position of M is kept against the whole nanoseconds
of the count. -/
def stepTo (b : Nat) (new : Int) (s : State) : State :=
  let old : Nat := baseCount s b
  let d : Nat := ((s.rd (Reg.TB_SECMARK b) + 2 ^ 32 - s.rd (Reg.TB_NS b)) % 2 ^ 32) * nsUnit
  let frac : Nat := old % nsUnit
  let k := markShift ((d : Int) - frac) (new - old)
  let wrap := s.rd (Reg.TB_WRAP b)
  let s := setCount b (new % (countSpan : Int)).toNat s
  let s := moveMarker b k s
  let s := if 0 < k then timEvent 1 b (s.bump Reg.TIM_MARK_SKIP k.toNat) else s
  let s := (s.setBit (Reg.TB_STATUS b) 4 true).setBase b { s.baseAt b with stepTick := s.refTick + 1 }
  let s := timEvent 0 b s
  let s := if b = 0 ∧ s.rd (Reg.TB_WRAP 0) ≠ wrap then wrapAction s else s
  gateResync b s

/-- A write of TB_STEP adds a signed number of nanoseconds. -/
def tbStep (b v : Nat) (s : State) : State :=
  if !baseOn s b then s else stepTo b ((baseCount s b : Int) + signedOf 32 v * (nsUnit : Int)) s

/-- A write of TB_SET_CTRL: GO sets NS, FRAC and WRAP as a step. -/
def tbSet (b v : Nat) (s : State) : State :=
  if !baseOn s b then s
  else
    let s := s.wrF (Reg.TB_SET_CTRL b) 0 16 v
    if v.testBit 31 then
      stepTo b (((v % 2 ^ 16 * 2 ^ 32 + s.rd (Reg.TB_SET_NS b)) * nsUnit : Nat) : Int) s
    else s

/-! ## Servo (R360 to R362) -/

/-- L: 500 ppm in units of 2^-32. -/
def fadjLimit : Int := 2147483

/-- `x` held within ±`l`. -/
def clampInt (l x : Int) : Int := max (-l) (min l x)

/-- The quotient of a formula whose rounding the manual does not give: either neighbour (log entry 21). -/
def roundFree (n d : Int) (bit : Nat) : Int := if n % d = 0 then n / d else n / d + bit % 2

/-- The servo turns a sample of `th` (in 2^-8 ns) over `ticks` of the reference clock into FADJ (R360). -/
def servo (b : Nat) (th : Int) (ticks : Nat) (s : State) : State :=
  let r := Config.freeNat s.rng
  let s := s.drawn
  -- e in 2^-32 is num / den
  let num := th * 2 ^ 24 * 5
  let den : Int := 32 * ticks
  let ki : Int := s.rd (Reg.TB_KI b)
  let kp : Int := s.rd (Reg.TB_KP b)
  let i := clampInt (fadjLimit * 2 ^ 24) ((s.baseAt b).integral - roundFree (ki * num) den r)
  let f := clampInt fadjLimit (roundFree (i * den - kp * num) (den * 2 ^ 24) (r / 2))
  (s.setBase b { s.baseAt b with integral := i }).wr (Reg.TB_FADJ b) (unsignedOf 32 f)

/-- T_k in ticks, held to 0.001 to 16 s; open at the first sample (R360). -/
def sampleTicks (s : State) (b : Nat) : Nat :=
  let last := (s.baseAt b).lastSample
  if last = 0 then 156250 + Config.freeNat s.rng % (2500000000 - 156250 + 1)
  else max 156250 (min 2500000000 (s.refTick + 1 - last))

/-- A sample of a base's offset, in 2^-8 ns (R361): it ends holdover, and steers or steps a running servo. -/
def sample (b : Nat) (th : Int) (s : State) : State :=
  let t := sampleTicks s b
  let s := s.drawn
  let shown := if th.natAbs < 2 ^ 31 then unsignedOf 32 th else Config.freeNat s.rng % 2 ^ 32
  let s := s.drawn.wr (Reg.TB_LAST_OFFSET b) shown
  let s := s.setBit (Reg.TB_STATUS b) 3 false
  let s := s.setBase b { s.baseAt b with lastSample := s.refTick + 1, misses := 0 }
  let th8 : Int := s.rdF (Reg.TB_STEP_TH b) 0 23 * 256
  if !s.bit (Reg.TB_SERVO b) 0 then s
  else if s.bit (Reg.TB_SERVO b) 1 && decide (th8 < th.natAbs) then
    stepTo b ((baseCount s b : Int) - th * (2 ^ 24 * 5)) s
  else servo b (if s.bit (Reg.TB_SERVO b) 1 then th else clampInt th8 th) t s

/-- TB_SRC of a base. -/
def baseSrc (s : State) (b : Nat) : Nat := s.rdF (Reg.TB_STATUS b) 1 2

/-- A write of TB_OFFSET. -/
def offsetSample (b v : Nat) (s : State) : State :=
  if !baseOn s b then s
  else if s.bit (Reg.TB_STATUS b) 4 then s.bump Reg.TIM_OFFSET_IGN
  else if baseSrc s b = 1 then sample b (signedOf 32 v) s
  else s

/-- The marker value nearest to S, and the sample of a 1PPS_IN edge (R361). -/
def ppsSample (b : Nat) (s : State) : State :=
  let t := s.rd (Reg.TB_NS b)
  let m := s.rd (Reg.TB_SECMARK b)
  let d := (m + 2 ^ 32 - t) % 2 ^ 32
  let near := (m + 5 * 2 ^ 32 - (d + 500000000) / 1000000000 * 1000000000) % 2 ^ 32
  let th := signedOf 32 ((t + 2 ^ 33 - near - s.rd (Reg.TB_PPS_DELAY b)) % 2 ^ 32)
  sample b (th * 256) (s.wr Reg.TIM_PPS_IN_NS t)

/-- A rising edge on 1PPS_IN; a base that stepped in this tick discards it (R359). -/
def ppsInEdge (s : State) : State :=
  let s := { s with tim := { s.tim with ppsIn := s.refTick + 1 } }
  (List.range 4).foldl (fun s b =>
    if baseOn s b && baseSrc s b == 2 && (s.baseAt b).stepTick != s.refTick + 1 then ppsSample b s else s) s

/-- No 1PPS_IN edge within 1.1 s of the last (R362). -/
def ppsMiss (s : State) : State :=
  (List.range 4).foldl (fun s b =>
    if baseOn s b && baseSrc s b == 2 then
      let s := s.setBase b { s.baseAt b with misses := (s.baseAt b).misses + 1 }
      timEvent 3 b (s.bump Reg.TIM_PPS_MISS)
    else s) s

/-- A base enters holdover: a running servo holds FADJ at its integral (R362). -/
def holdover (b : Nat) (s : State) : State :=
  if !baseOn s b || s.bit (Reg.TB_STATUS b) 3 then s
  else if baseSrc s b = 1 ∨ (baseSrc s b = 2 ∧ s.rdF (Reg.TB_HOLD_S b) 0 8 ≤ (s.baseAt b).misses) then
    let f := clampInt fadjLimit (roundFree (s.baseAt b).integral (2 ^ 24) (Config.freeNat s.rng))
    let s := s.drawn
    let s := if s.bit (Reg.TB_SERVO b) 0 then s.wr (Reg.TB_FADJ b) (unsignedOf 32 f) else s
    timEvent 2 b (s.setBit (Reg.TB_STATUS b) 3 true)
  else s

/-- Loads the integral with FADJ. -/
def loadIntegral (b : Nat) (s : State) : State :=
  s.setBase b { s.baseAt b with integral := signedOf 32 (s.rd (Reg.TB_FADJ b)) * 2 ^ 24 }

/-- A write of TB_FADJ: ignored outside ±L. -/
def fadjWrite (b v : Nat) (s : State) : State :=
  if baseOn s b && decide ((signedOf 32 v).natAbs ≤ 2147483) then loadIntegral b (s.wr (Reg.TB_FADJ b) v) else s

/-- A write of TB_SERVO. -/
def servoWrite (b v : Nat) (s : State) : State :=
  if !baseOn s b then s
  else
    let was := s.bit (Reg.TB_SERVO b) 0
    let s := s.wr (Reg.TB_SERVO b) (v % 4)
    if v.testBit 0 && !was then loadIntegral b s else s

/-! ## F10M_IN (R363) -/

/-- TB_FREF of a base. -/
def baseFref (s : State) (b : Nat) : Bool := match s.pat.active with
  | some a => (a.bases.getD b {}).fref
  | none => false

/-- Loss or drift of F10M_IN. -/
def frefLost (b : Nat) (s : State) : State :=
  if baseOn s b && baseFref s b && !s.bit (Reg.TB_STATUS b) 5 then
    timEvent 4 b (s.setBit (Reg.TB_STATUS b) 5 true)
  else s

/-- F10M_IN has been valid for 1 s. -/
def frefRestored (b : Nat) (s : State) : State := if baseOn s b then s.setBit (Reg.TB_STATUS b) 5 false else s

/-! ## Capture (R354) -/

/-- TIM_CAPTURE.GO. -/
def timeCapture (s : State) : State :=
  let s := s.setBit Reg.TIM_CAP_STATUS 0 false
  let s := (List.range 4).foldl (fun s b =>
    ((s.wr (Reg.TIM_CAP_NS b) (s.rd (Reg.TB_NS b))).wr (Reg.TIM_CAP_FRAC b) (s.rd (Reg.TB_FRAC b))).wr
      (Reg.TIM_CAP_WRAP b) (s.rd (Reg.TB_WRAP b))) s
  s.setBit Reg.TIM_CAP_STATUS 0 true

/-! ## Timing outputs and time of day (R364 to R367) -/

/-- 1PPS_OUT goes low. -/
def ppsFall (s : State) : State :=
  if s.tim.ppsOut then { s with tim := { s.tim with ppsOut := false } }.emit (.pin "1PPS_OUT" false) else s

/-- Bytes 2 to 15 of a time-of-day message, and the message. -/
def todMessage (sec wrap ns flags : Nat) : Bytes :=
  let body := [17#8] ++ beBytes 6 sec ++ beBytes 2 wrap ++ beBytes 4 ns ++ [BitVec.ofNat 8 flags]
  [0x4D#8, 0x54#8] ++ body ++ [BitVec.ofNat 8 (body.map BitVec.toNat).sum]

/-- FLAGS of a time-of-day message: byte 15. -/
def todFlags (s : State) : Nat :=
  let b := todTxBase s
  b2n (s.bit (Reg.TB_STATUS b) 3) + 2 * b2n (s.bit (Reg.TB_STATUS b) 5) +
  4 * b2n (baseSrc s b == 2 && s.tim.ppsIn != 0 && decide (s.refTick + 1 - s.tim.ppsIn ≤ 171875000))

/-- 1 ms after a 1PPS_OUT edge, its message leaves. -/
def todSend (s : State) : State :=
  match s.tim.todDue with
  | none => s
  | some (sec, wrap, ns) =>
    let s := { s with tim := { s.tim with todDue := none } }
    if s.bit Reg.TIM_TOD_CTRL 0 then s.emit (.tod (todMessage sec wrap ns (todFlags s))) else s

/-- Whether a received message is valid in form. -/
def todOk (m : Bytes) : Bool :=
  m.length == 17 && slice m 0 3 == [0x4D#8, 0x54#8, 17#8] &&
  byteAt m 16 == ((slice m 2 14).map BitVec.toNat).sum % 256

/-- A message received on TOD_RX (R367). -/
def todReceive (m : Bytes) (s : State) : State :=
  let b := todRxBase s
  if !s.bit Reg.TIM_TOD_CTRL 2 || b == 0xFF || !baseOn s b then s
  else
    let x := s.baseAt b
    if todOk m && x.markTick != 0 && decide (s.refTick + 1 - x.markTick ≤ 140625000) then
      let sec := beAt m 3 6
      if sec = x.markSec then s
      else
        let s := setSecBase b ((tbSec s b + 2 ^ 48 + sec - x.markSec) % 2 ^ 48) s
        timEvent 5 b ((s.setBase b { s.baseAt b with markSec := sec }).bump Reg.TIM_TOD_SET)
    else timEvent 6 b (s.bump Reg.TIM_TOD_BAD)

/-! ## Cuts and resets (R353, R378) -/

/-- Registers of a base that hold more than a write-only trigger. -/
def baseRegs (b : Nat) : List Nat :=
  [Reg.TB_NS b, Reg.TB_FRAC b, Reg.TB_WRAP b, Reg.TB_SECMARK b, Reg.TB_SECBASE_LO b, Reg.TB_SECBASE_HI b,
   Reg.TB_SET_NS b, Reg.TB_SET_CTRL b, Reg.TB_FADJ b, Reg.TB_KP b, Reg.TB_KI b, Reg.TB_SERVO b,
   Reg.TB_STEP_TH b, Reg.TB_PPS_DELAY b, Reg.TB_STATUS b, Reg.TB_LAST_OFFSET b, Reg.TB_HOLD_S b]

/-- A base takes its entry of TIME: one that is enabled or disabled begins anew (R353). -/
def loadBase (b : Nat) (c : BaseCfg) (s : State) : State :=
  let s := if baseOn s b = c.enabled then s
    else ((baseRegs b).foldl (fun s a => s.wr a (regReset a)) s).setBase b {}
  let s := (s.setBit (Reg.TB_STATUS b) 0 c.enabled).wrF (Reg.TB_STATUS b) 1 2 (if c.enabled then c.src else 0)
  if c.fref then s else s.setBit (Reg.TB_STATUS b) 5 false

/-- The four bases take a Pattern's TIME section. -/
def loadTime (cs : List BaseCfg) (s : State) : State :=
  f10mSync ((List.range 4).foldl (fun s b => loadBase b (cs.getD b {}) s) s)

end Sys2Proof.Machine
end

