-- ==== Sys2Proof/Machine/KeyStore.lean ====
section
/-! DEFINITION. The key store and the KEYQ operations: descriptors, checks in the order of R548, completions,
transport keys, parents, SA delivery, vault commit, attestation, queries (R223 to R252, R259, R421 to R424). -/

namespace Sys2Proof.Machine

/-! ## Descriptors and completions (R235, R421 to R424) -/

/-- A KEYQ descriptor as R235 lays it out. -/
structure Desc where
  op : Nat
  tag : Nat
  arg0 : Nat
  arg1 : Nat
  inAddr : Nat
  inLen : Nat
  outLen : Nat
  outAddr : Nat
  /-- A reserved byte is nonzero. -/
  bad : Bool
deriving DecidableEq, Repr

/-- Reads a descriptor from its 64 bytes. -/
def descOf (b : Bytes) : Desc where
  op := byteAt b 0
  tag := leAt b 2 2
  arg0 := leAt b 4 4
  arg1 := leAt b 8 4
  inAddr := leAt b 0x10 8
  inLen := leAt b 0x18 4
  outLen := leAt b 0x1C 4
  outAddr := leAt b 0x20 8
  bad := byteAt b 1 != 0 || leAt b 0xC 4 != 0 || leAt b 0x28 24 != 0

/-- Entries of the KEYQ rings. -/
def kqSize (s : State) : Nat := 2 ^ (s.rdF Reg.HIF_KQ_CTRL 1 4 + 4)

/-- Count i of the descriptor being executed: the completions posted so far (R236). -/
def kqHead (s : State) : Nat := s.rdF Reg.HIF_KQ_STATUS 16 16

/-- Host address of the completion ring. -/
def kqCbase (s : State) : Nat := s.rd Reg.HIF_KQ_CBASE_LO + 2 ^ 32 * s.rd Reg.HIF_KQ_CBASE_HI

/-- The 16 bytes of completion i (R235, R422). -/
def kqRecord (n i tag op code : Nat) (value : Bytes) : Bytes :=
  leBytes 2 tag ++ [BitVec.ofNat 8 op, BitVec.ofNat 8 code] ++ exactly 8 value ++ zeros 3 ++
  [BitVec.ofNat 8 (1 - (i / n) % 2)]

/-- Writes a completion and counts it: HEAD moves on and vector 2 is raised. -/
def kqPost (tag op code : Nat) (value : Bytes) (s : State) : State :=
  let i := kqHead s
  let n := kqSize s
  let s := s.emit (.dmaWrite (kqCbase s + 16 * (i % n)) (kqRecord n i tag op code value))
  raiseVector 2 (s.wrF Reg.HIF_KQ_STATUS 16 16 (i + 1))

/-- The end of a descriptor: HIF_KQ_LAST, and its completion unless a reset of the interface met it (R424). -/
def kqFinish (tag op code : Nat) (value : Bytes) (s : State) : State :=
  let s := s.wr Reg.HIF_KQ_LAST (tag + 2 ^ 16 * op + 2 ^ 24 * code)
  let s := if s.hif.kqMute then s else kqPost tag op code (if code = 0 then value else []) s
  let s := (s.setBit Reg.HIF_KQ_STATUS 2 false)
  let s := if s.hif.kqStopping then s.setBit Reg.HIF_KQ_STATUS 0 false else s
  { s with hif := { s.hif with kqRun := none, kqMute := false, kqStopping := false },
           sec := { s.sec with kqWait := [] } }

/-- Completes the operation in progress with a code. -/
def kqComplete (code : Nat) (value : Bytes) (s : State) : State :=
  match s.hif.kqRun with
  | none => s
  | some b => kqFinish (descOf b).tag (descOf b).op code value s

/-- The module reads the next submitted descriptor (R236, R421). -/
def kqStart (d : DmaData) (s : State) : State :=
  if !s.bit Reg.HIF_KQ_CTRL 0 || s.hif.kqRun.isSome || s.hif.kqAccepted == kqHead s then s
  else
    let s := s.emit (.dmaRead (s.rd Reg.HIF_KQ_BASE_LO + 2 ^ 32 * s.rd Reg.HIF_KQ_BASE_HI +
      64 * (kqHead s % kqSize s)) 64)
    match d with
    | .error => kqFinish 0 0 3 [] (logError 7 true false 0 s)
    | .data b => { s with hif := { s.hif with kqRun := some (exactly 64 b) } }.setBit Reg.HIF_KQ_STATUS 2 true

/-! ## Checks common to the operations (R237, R241, R548) -/

/-- Whether ARG0 and ARG1 hold an argument out of range or an undefined bit (R237, R239). -/
def kqArgBad (d : Desc) : Bool :=
  let scBad := decide ((if d.arg0.testBit 16 then 32768 else 16384) ≤ d.arg0 % 65536)
  let stray := fun (v m : Nat) => v &&& m != v
  match d.op with
  | 0x02 => stray d.arg0 0xF0FFF || d.arg1 != 0
  | 0x03 => stray d.arg0 0xFFF || d.arg1 != 0
  | 0x04 => stray d.arg0 0xF1FFFF || scBad
  | 0x05 => stray d.arg0 0x1FFFF || scBad
  | 0x06 => stray d.arg0 0x1FFFF || stray d.arg1 1 || scBad
  | 0x09 => decide (3 < d.arg0) || (if d.arg0 = 1 then decide (4096 ≤ d.arg1) else d.arg1 != 0)
  | 0x0A => stray d.arg0 0xF0000
  | _ => d.arg0 != 0 || d.arg1 != 0

/-- Whether the lifecycle permits an operation; none is served while a zeroize runs (R241, R257). -/
def kqPermitted (s : State) (op : Nat) : Bool :=
  s.key.zeroizing.isNone &&
  (match op with
   | 0x08 => true
   | 0x09 => true
   | 0x03 => s.lifecycle == .operational || s.lifecycle == .quarantined
   | _ => s.lifecycle == .operational)

/-- Operations that draw random bits or masks before anything else they do; KEY_QUERY 0 does while the identity keys are
not loaded (R227, R228, R246). -/
def kqRandom (s : State) (d : Desc) : Bool :=
  [0x02, 0x04, 0x05, 0x08, 0x0A].contains d.op || (d.op == 9 && d.arg0 == 0 && !s.bit Reg.KEY_STATUS 6)

/-- Operations that use the identity keys (R227). -/
def usesIdentity (d : Desc) : Bool := d.op == 1 || d.op == 8 || (d.op == 9 && d.arg0 == 0)

/-- The first of the codes BAD_OPCODE, BAD_ARG, LIFECYCLE, RNG_FAIL that applies; 0 for none (R548). -/
def kqPrecheck (s : State) (d : Desc) : Nat :=
  if d.op = 0 ∨ 0x0A < d.op then 0x01
  else if d.bad || kqArgBad d then 0x02
  else if d.op = 1 then 0x00
  else if !kqPermitted s d.op then 0x04
  else if kqRandom s d && drbgOff s then 0x05
  else 0x00

/-- Runs the operation in progress when it has this opcode and waits for no fill: a failed common check
completes it, else `f` does. -/
def kqRunOp (op : Nat) (f : Desc → State → State) (s : State) : State :=
  match s.hif.kqRun with
  | none => s
  | some b =>
    let d := descOf b
    if d.op ≠ op ∨ !s.sec.kqWait.isEmpty then s
    else if kqPrecheck s d ≠ 0 then kqComplete (kqPrecheck s d) [] s
    else f d s

/-- A descriptor with an opcode outside 0x01 to 0x0A (R240). -/
def kqBadOpcode (s : State) : State :=
  match s.hif.kqRun with
  | none => s
  | some b =>
    if (descOf b).op = 0 ∨ 0x0A < (descOf b).op then kqComplete 0x01 [] s else s

/-- The input buffer: BAD_BUFFER with no buffer, a wrong alignment, or a DMA error, which is logged. -/
def kqInput (d : Desc) (x : DmaData) (s : State) : State × Option Bytes :=
  if d.inAddr = 0 ∨ d.inAddr % 8 ≠ 0 then (s, none)
  else
    let s := s.emit (.dmaRead d.inAddr d.inLen)
    match x with
    | .error => (logError 7 true false 0 s, none)
    | .data b => (s, some (exactly d.inLen b))

/-- Whether the output buffer serves `n` bytes. -/
def kqOutOk (d : Desc) (n : Nat) : Bool := d.outAddr != 0 && d.outAddr % 8 == 0 && decide (n ≤ d.outLen)

/-! ## Addresses of key words in the key store (R245) -/

/-- First word of parent i, after the SA records. -/
def parentWord (i : Nat) : Nat := 393216 + 4 * i
/-- First word of transport slot i. -/
def transportWord (i : Nat) : Nat := 409600 + 4 * i
/-- First word of the identity region. -/
def identityWord : Nat := 409664
/-- First word of the keeper key's working copy. -/
def keeperWord : Nat := 410688

/-! ## The enrolment record and the registers that show it (R251, R262) -/

/-- TK_FLOOR; 0 with no record. -/
def tkFloor (s : State) : Nat := (s.key.record.map EnrolRecord.tkFloor).getD 0

/-- KEY registers that follow the record and the key store. -/
def syncKey (s : State) : State :=
  let s := s.wr Reg.KEY_TK_VALID (maskOf (Tbl.keys s.key.transport))
  let s := (s.wr (Reg.KEY_TK_FLOOR 0) (tkFloor s % 2 ^ 32)).wr (Reg.KEY_TK_FLOOR 1) (tkFloor s / 2 ^ 32)
  s.wr Reg.KEY_VAULT_GEN s.key.vault.gen

/-- A parent entry, and its bit of KEY_PARENT_VALID. -/
def setParent (i : Nat) (p : Parent) (s : State) : State :=
  { s with key := { s.key with parents := Tbl.set (fun _ => {}) s.key.parents i p } }.setBit
    (Reg.KEY_PARENT_VALID (i / 32)) (i % 32) p.valid

/-- Identity keys come into the identity region for an operation (R227). -/
def loadIdentity (s : State) : State :=
  if drbgOff s || s.bit Reg.KEY_STATUS 6 then s
  else (freshMasks identityWord 1024 s).setBit Reg.KEY_STATUS 6 true

/-- One second after their last use they are cleared. -/
def clearIdentity (s : State) : State := s.setBit Reg.KEY_STATUS 6 false

/-! ## Transport keys (R229 to R231) -/

/-- The 32-byte hybrid key: HMAC-SHA-384(salt, 1 ‖ Z ‖ T ‖ info) (R231, R451). -/
def hybridKey (salt ephPub ct info : Bytes) : Bytes :=
  (hmac384 salt (beBytes 4 1 ++ ecdh exchangeEc ephPub ++ mlkemDecaps exchangeKem ct ++
    info ++ sha384 (ephPub ++ ct))).take 32

/-- The code of a TK_ACCEPT request (R230, checks 1 to 8). -/
def tkCode (s : State) (d : Desc) (r : Bytes) : Nat :=
  let m := r.take 0x1140
  let ec := slice r 0x6C0 96
  let ml := slice r 0x720 2592
  let reserved := leAt r 0x9 7 == 0 && leAt r 0x99 7 == 0 && leAt r 0x23B3 13 == 0 && decide (byteAt r 8 < 16)
  if d.inLen ≠ 9152 ∨ slice r 0 4 ≠ [0x4D#8, 0x59#8, 0x54#8, 0x52#8] ∨ reserved = false then 0x03
  else if !kqPermitted s 0x01 then 0x04
  else if some (sha384 (ec ++ ml)) ≠ s.key.record.map EnrolRecord.kaHash then 0x10
  else if !ecdsaVerify ec m (slice r 0x1140 96) ||
      !mldsaVerify ml (sha384 m) [0x4D#8, 0x59#8, 0x54#8, 0x52#8] (slice r 0x11A0 4627) then 0x11
  else if leAt r 4 4 ≠ s.unit then 0x12
  else if leAt r 0x10 8 ≤ tkFloor s then 0x13
  else if !ecPointValid (slice r 0x38 97) then 0x14
  else if drbgOff s then 0x05
  else 0x00

/-- TK_ACCEPT (R230, R231). `written` is whether the enrolment record took TK_FLOOR. -/
def tkAccept (x : DmaData) (written : Bool) (s : State) : State :=
  kqRunOp 0x01 (fun d s =>
    match kqInput d x s with
    | (s, none) => kqComplete 0x03 [] s
    | (s, some r) =>
      let code := tkCode s d r
      if code ≠ 0 then kqComplete code [] s
      else
        let slot := byteAt r 8
        let seq := leAt r 0x10 8
        let nonce := slice r 0x18 32
        let info := [0x4D#8, 0x59#8, 0x54#8, 0x4B#8] ++ beBytes 4 s.unit ++ beBytes 1 slot ++ beBytes 8 seq
        let tk := hybridKey nonce (slice r 0x38 97) (slice r 0xA0 1568) info
        let s := freshMasks (transportWord slot) 4 (loadIdentity s)
        let s := { s with key := { s.key with transport := Tbl.set (fun _ => []) s.key.transport slot tk } }
        if !written then kqComplete 0x50 [] (syncKey s)
        else
          let s := keyEvent 4 (syncKey (setRecord (fun e => { e with tkFloor := seq }) s))
          kqComplete 0x00 ((hmac384 tk ([0x4D#8, 0x59#8, 0x4B#8, 0x43#8] ++ nonce)).take 8) s) s

/-! ## Wrapped delivery (R233, R234) -/

/-- The result of unwrapping an input buffer: the state after its side effects, and a code or a plaintext. -/
structure Unwrapped where
  state : State
  code : Nat
  plain : Bytes

/-- Unwraps the input of `size` bytes under transport slot `slot` and checks BIND's TYPE, DIR, INDEX and, when
given, its VALUE, in the order of R548. -/
def unwrapInput (d : Desc) (x : DmaData) (slot size type dir index : Nat) (value : Option Nat) (s : State) :
    Unwrapped :=
  let tk := Tbl.get (fun _ => []) s.key.transport slot
  if tk.isEmpty then ⟨s, 0x20, []⟩
  else
    match kqInput d x s with
    | (s, none) => ⟨s, 0x03, []⟩
    | (s, some b) =>
      if d.inLen ≠ size then ⟨s, 0x23, []⟩
      else
        match kwUnwrap tk b with
        | none => ⟨keyEvent 3 (s.bump Reg.KEY_UNWRAP_FAILS), 0x21, []⟩
        | some p =>
          let same := byteAt p 0 == type && byteAt p 1 % 2 == dir && beAt p 2 2 == index &&
            (match value with
             | some v => beAt p 4 4 == v
             | none => true)
          if same then ⟨s, 0x00, p⟩ else ⟨s, 0x22, []⟩

/-! ## Parents (R242 to R244) -/

/-- PARENT_LOAD. -/
def parentLoad (x : DmaData) (s : State) : State :=
  kqRunOp 0x02 (fun d s =>
    let i := d.arg0 % 4096
    if (s.parentAt i).valid then kqComplete 0x30 [] s
    else
      let u := unwrapInput d x (field d.arg0 16 4) 48 0x50 0 i none s
      if u.code ≠ 0 then kqComplete u.code [] u.state
      else
        let s := freshMasks (parentWord i) 4 u.state
        let s := setParent i { valid := true, id := beAt u.plain 4 4, key := slice u.plain 8 32 } s
        kqComplete 0x00 [] (refillParent i s)) s

/-- An SA of the invalidated parent becomes an orphan: FILLING or READY is emptied at once (R220). -/
def orphanSa (sa : Nat) (s : State) : State :=
  let a := s.saAt sa
  let s := s.setSa sa { a with orphan := true }
  if a.state == .filling || a.state == .ready then
    match a.owner with
    | some (i, rx) => (fun s => if rx then s else gapCheck i s) (emptySlot sa s)
    | none => emptySlot sa s
  else s

/-- PARENT_INVALIDATE (R244). `written` is whether the vault took the tombstone; no write starts in a stop or a warm
reset (R457, R517), and the operation then goes no further. -/
def parentInvalidate (written : Bool) (s : State) : State :=
  kqRunOp 0x03 (fun d s =>
    let i := d.arg0 % 4096
    if !(s.parentAt i).valid then kqComplete 0x31 [] s
    else if vaultQuiet s then s
    else
      let sas := (s.sec.sa.filter (fun e => e.2.derived && e.2.parent == i && e.2.state != .empty)).map Prod.fst
      let s := setParent i {} s
      let tomb := s.key.vaultOpen && written
      let s := if tomb then
          s.putVault .parents (fun v => { v with parents := Tbl.set (fun _ => {}) v.parents i {} })
        else s
      let s := keyEvent 5 (sas.foldl (fun s a => orphanSa a s) s)
      if s.key.vaultOpen && !written then kqComplete 0x50 [] s
      else kqComplete 0x00 (leBytes 8 sas.length) s) s

/-- VAULT_COMMIT: the set of valid parents becomes one new generation, or the write fails its check (R243). -/
def vaultCommit (verified : Bool) (s : State) : State :=
  kqRunOp 0x07 (fun _ s =>
    if !s.key.vaultOpen then kqComplete 0x51 [] s
    else if vaultQuiet s then s
    else if !verified then kqComplete 0x50 [] s
    else
      let ps := s.key.parents.map (fun e => (e.1, { e.2 with committed := true }))
      let gen := s.key.vault.gen + 1
      let s := { s with key := { s.key with parents := ps } }.putVault .parents
        (fun v => { v with parents := ps, gen := gen })
      kqComplete 0x00 (leBytes 8 gen) (syncKey s)) s

/-! ## SA delivery (R197, R200, R238) -/

/-- The epoch rule of R197: the current epoch + 1, or with no current SA at least the journalled epoch. -/
def epochOk (s : State) (e : ScEntry) (ep : Nat) : Bool :=
  if hasCurrent s e then ep == e.epoch + 1 else decide (e.epoch ≤ ep)

/-- The block a filled SA starts from: an SA of the journalled epoch resumes, at MARK + 1 for a transmit SC
and at MARK for a receive SC; any other starts anew (R212, R213). -/
def resumeMark (s : State) (rx : Bool) (e : ScEntry) (sa ep : Nat) : Nat :=
  if e.started && e.epoch == ep && !hasCurrent s e then
    if rx then journalledMark s sa else journalledMark s sa + 1
  else 0

/-- SA_INSTALL. -/
def saInstall (x : DmaData) (s : State) : State :=
  kqRunOp 0x04 (fun d s =>
    let i := d.arg0 % 65536
    let rx := d.arg0.testBit 16
    let e := s.scAt rx i
    if !e.inUse then kqComplete 0x40 [] s
    else if scDerived e then kqComplete 0x41 [] s
    else
      let k := keyLen (nextCipher e)
      let u := unwrapInput d x (field d.arg0 20 4) (32 + k) 0x53 (b2n rx) i (some d.arg1) s
      let s := u.state
      let sa := scSa e d.arg1
      if u.code ≠ 0 then kqComplete u.code [] s
      else if (s.saAt sa).state != .empty then kqComplete 0x42 [] s
      else if !epochOk s e d.arg1 then kqComplete 0x43 [] s
      else
        let s := if !hasCurrent s e then applyPending rx i s else s
        let f : FillReq :=
          ⟨sa, i, rx, d.arg1, some (slice u.plain 8 k, slice u.plain (8 + k) 12, beAt u.plain (20 + k) 4),
            !rx && !hasCurrent s e, resumeMark s rx e sa d.arg1⟩
        let s := requestFill f s
        { s with sec := { s.sec with kqWait := [sa] } }) s

/-- SA_DERIVE. -/
def saDerive (s : State) : State :=
  kqRunOp 0x05 (fun d s =>
    let i := d.arg0 % 65536
    let rx := d.arg0.testBit 16
    let e := s.scAt rx i
    let parent := match e.pending with
      | some w => if !hasCurrent s e then field (w.getD 3 0) 0 12 else scParent e
      | none => scParent e
    let sa := scSa e d.arg1
    let other := scSa e (d.arg1 + 1)
    if !e.inUse then kqComplete 0x40 [] s
    else if !scDerived e then kqComplete 0x41 [] s
    else if !(s.parentAt parent).valid then kqComplete 0x31 [] s
    else if (s.saAt sa).state != .empty then kqComplete 0x42 [] s
    else if !epochOk s e d.arg1 then kqComplete 0x43 [] s
    else
      let anew := !hasCurrent s e
      let s := if anew then applyPending rx i s else s
      let s := requestFill ⟨sa, i, rx, d.arg1, none, !rx && anew, resumeMark s rx e sa d.arg1⟩ s
      let both := anew && (s.saAt other).state == .empty && decide (d.arg1 < 0xFFFFFFFF)
      let s := if both then requestFill ⟨other, i, rx, d.arg1 + 1, none, false, 0⟩ s else s
      { s with sec := { s.sec with kqWait := if both then [sa, other] else [sa] } }) s

/-- SA_RETIRE (R238). -/
def saRetire (s : State) : State :=
  kqRunOp 0x06 (fun d s =>
    let i := d.arg0 % 65536
    let rx := d.arg0.testBit 16
    let e := s.scAt rx i
    let sa := scSa e d.arg1
    let st := (s.saAt sa).state
    if !e.inUse then kqComplete 0x40 [] s
    else if rx && st == .old then kqComplete 0x00 [] (retireRx i sa s)
    else if !rx && st == .ready then kqComplete 0x00 [] (gapCheck i (emptyAndRefill false i sa s))
    else kqComplete 0x44 [] s) s

/-- The operation that waits for fills completes once none of its slots is FILLING any more (R236). -/
def kqSettle (s : State) : State :=
  if !s.sec.kqWait.isEmpty && s.sec.kqWait.all (fun a => (s.saAt a).state != .filling) then kqComplete 0x00 [] s
  else s

/-- A slot becomes READY once its MARK is journalled and any partner has acknowledged it (R199, R214). -/
def fillDone (s : State) : State :=
  match s.sec.filling with
  | none => s
  | some f =>
    if needsAck s && decide (Tbl.get (fun _ => 0) s.hrn.ackedMark f.sa ≤ f.resume) then s else fillReady f s

/-! ## Keeper key (R252) -/

/-- KPR_GEN shows the generations of the record. -/
def syncGen (s : State) : State :=
  match s.key.record with
  | some r => s.wr Reg.KPR_GEN (r.imageGen % 65536 + 65536 * (r.keyGen % 65536))
  | none => s.wr Reg.KPR_GEN 0

/-- KEEPER_KEY_ROLL. `written` is whether the enrolment record took the key. -/
def keeperKeyRoll (x : DmaData) (written : Bool) (s : State) : State :=
  kqRunOp 0x0A (fun d s =>
    let u := unwrapInput d x (field d.arg0 16 4) 48 0x4B 0 0 (some d.arg1) s
    let gen := (u.state.key.record.map EnrolRecord.keyGen).getD 0
    if u.code ≠ 0 then kqComplete u.code [] u.state
    else if d.arg1 ≤ gen then kqComplete 0x60 [] u.state
    else if !written then kqComplete 0x50 [] u.state
    else
      let key := slice u.plain 8 32
      let s := freshMasks keeperWord 4 u.state
      let s := { s with key := { s.key with keeperCopy := key } }
      let s := setRecord (fun e => { e with keeperKey := key, keyGen := d.arg1 }) s
      kqComplete 0x00 (leBytes 8 d.arg1) (syncGen s)) s

/-! ## Attestation (R259) -/

/-- Mirror bytes 0x0100 to 0x05FF: the keeper image in force (R447). -/
def imageBytes (s : State) : Bytes := s.rdBytes Reg.KPR_C7_FLAGS 320

/-- Fuse bits of R259. -/
def fuseCfg (s : State) : Nat :=
  let f := match s.key.fuse with
    | .blank => 0 | .enrolled => 1 | .retired => 2
  Config.fuseMapRev.toNat + 2 ^ 8 * f + 2 ^ 10 * b2n s.key.noInvasive

/-- SHA-384 of the running image, as the boot ROM verified it; zero bytes in firmware recovery, when none runs. -/
def fwDigest (s : State) : Bytes :=
  if s.pwr.fwRecovery then zeros 48
  else exactly 48 (if s.bit Reg.PWR_FW_STATUS 6 then s.pwr.fwDigestB else s.pwr.fwDigestA)

/-- The 272-byte body of a statement. -/
def attestBody (s : State) (nonce : Bytes) : Bytes :=
  let ks := match s.pat.active with
    | some a => (a.ksMode, a.ksPeriod, a.digest)
    | none => (0, 0, zeros 48)
  [0x4D#8, 0x59#8, 0x41#8, 0x53#8] ++ leBytes 2 1 ++ leBytes 2 272 ++ leBytes 4 (s.rdF Reg.GLB_ID_PART 0 32) ++
  leBytes 4 s.unit ++ leBytes 1 (chainPos s) ++ leBytes 1 (lifecycleCode s.lifecycle) ++
  leBytes 1 (debugCode s.kpr.debug) ++ leBytes 1 ks.1 ++ leBytes 4 ks.2.1 ++ leBytes 4 (s.rd Reg.KEY_ZCOUNT) ++
  leBytes 4 (fuseCfg s) ++ leBytes 4 (s.rd Reg.GLB_FWVER) ++ zeros 4 ++ exactly 32 nonce ++
  fwDigest s ++ exactly 48 ks.2.2 ++ sha384 (imageBytes s) ++
  sha384 identityPublic ++ leBytes 4 (s.rd (Reg.TB_NS 0)) ++ leBytes 2 (s.rd (Reg.TB_WRAP 0)) ++ zeros 2

/-- An operation has written its output buffer: OK with its length, or BAD_BUFFER on a DMA error, which is logged
(R240, R410). -/
def kqWritten (delivered : Bool) (n : Nat) (s : State) : State :=
  if delivered then kqComplete 0x00 (leBytes 8 n) s else kqComplete 0x03 [] (logError 7 true true 0 s)

/-- ATTEST. `delivered` is whether the host took the statement. -/
def attest (x : DmaData) (delivered : Bool) (s : State) : State :=
  kqRunOp 0x08 (fun d s =>
    if d.inLen ≠ 32 ∨ !kqOutOk d 5000 then kqComplete 0x03 [] s
    else
      match kqInput d x s with
      | (s, none) => kqComplete 0x03 [] s
      | (s, some nonce) =>
        let s := loadIdentity s
        let st := dualSign s (attestBody s nonce) [0x4D#8, 0x59#8, 0x41#8, 0x54#8] 5000
        kqWritten delivered 5000 (s.drawn.drawn.emit (.dmaWrite d.outAddr st))) s

/-! ## KEY_QUERY (R239) -/

/-- KEY_QUERY with function `fn`; a descriptor of another function is that function's command. -/
def keyQuery (fn : Nat) (f : Desc → State → State) (s : State) : State :=
  match s.hif.kqRun with
  | none => s
  | some b => if (descOf b).op = 9 ∧ (descOf b).arg0 % 4 ≠ fn then s else kqRunOp 0x09 f s

/-- Function 0: the public identity keys. -/
def queryIdentity (delivered : Bool) (s : State) : State :=
  keyQuery 0 (fun d s =>
    if !kqOutOk d 4353 then kqComplete 0x03 [] s
    else kqWritten delivered 4353 ((loadIdentity s).emit (.dmaWrite d.outAddr identityPublic))) s

/-- Function 1: a parent's state. -/
def queryParent (s : State) : State :=
  keyQuery 1 (fun d s =>
    let p := s.parentAt d.arg1
    let n := (s.sec.sa.filter (fun e => e.2.derived && e.2.parent == d.arg1 && e.2.state != .empty)).length
    kqComplete 0x00 (leBytes 8 (b2n p.valid + 2 * b2n p.committed + 2 ^ 16 * (n % 65536) + 2 ^ 32 * p.id)) s) s

/-- Function 2: valid transport slots and TK_FLOOR. -/
def queryTransport (s : State) : State :=
  keyQuery 2 (fun _ s =>
    kqComplete 0x00 (leBytes 8 (s.rd Reg.KEY_TK_VALID + 2 ^ 16 * (tkFloor s % 2 ^ 48))) s) s

/-- Function 3: DRBG error, re-mask running, vault generation. -/
def queryStatus (s : State) : State :=
  keyQuery 3 (fun _ s =>
    kqComplete 0x00 (leBytes 8 (b2n (s.bit Reg.KEY_STATUS 2) + 2 * b2n (s.bit Reg.KEY_STATUS 1) +
      2 ^ 16 * s.key.vault.gen)) s) s

/-! ## DRBG and re-masking (R228, R247) -/

/-- A continuous test fails. -/
def drbgFail (s : State) : State :=
  let s := (s.setBit Reg.KEY_STATUS 2 true).bump Reg.KEY_DRBG_FAILS
  keeperAlarm (2 ^ 7) (keyEvent 2 s)

/-- The module's current challenge. -/
def challenge (s : State) : Bytes := s.rdBytes (Reg.KPR_CHALLENGE 0) 8

/-- Draws a new challenge, or owes it while the DRBG gives no bits (R228, R444). -/
def newChallenge (s : State) : State :=
  if drbgOff s then { s with kpr := { s.kpr with challengeDue := true } }
  else
    let s := { s with kpr := { s.kpr with challengeDue := false } }
    (s.wrBytes (Reg.KPR_CHALLENGE 0) (exactly 32 (s.drbg 32))).drawn

/-- A challenge that is owed is drawn. -/
def newChallengeDue (s : State) : State := if s.kpr.challengeDue then newChallenge s else s

/-- The retry 100 ms after an error. -/
def drbgRetry (pass : Bool) (s : State) : State :=
  if s.bit Reg.KEY_STATUS 2 && pass then
    newChallengeDue ({ s with key := { s.key with drbgDraw := s.rng + 1 } }.drawn.setBit Reg.KEY_STATUS 2 false)
  else s

/-- Words of a key-store bank. -/
def bankWords : Nat := 524288

/-- The end of a re-mask pass. -/
def remaskEnd (s : State) : State :=
  let late := decide (ticksUs s.key.remaskPeriod < s.refTick - s.key.remaskStart)
  let s := { s with key := { s.key with remaskPos := 0 } }
  let s := (s.setBit Reg.KEY_STATUS 1 false).bump Reg.KEY_REMASK_PASSES
  if late then s.bump Reg.KEY_REMASK_LATE else s

/-- The engine re-masks its next word, drawing r; the first word starts a pass. It pauses while the DRBG gives
no bits and while a zeroize runs. -/
def remaskWord (s : State) : State :=
  if !s.bit Reg.KEY_STATUS 0 || drbgOff s || s.key.zeroizing.isSome then s
  else
    let s := if s.bit Reg.KEY_STATUS 1 then s
      else
        let p := match s.pat.active with
          | some a => a.ksPeriod
          | none => 0
        { s with key := { s.key with remaskStart := s.refTick, remaskPeriod := p, remaskPos := 0 } }.setBit
          Reg.KEY_STATUS 1 true
    let r := BitVec.ofNat 64 (leNat (s.drbg 8))
    let a := s.key.remaskPos
    let m := Tbl.modify (fun _ => (0 : BitVec 64)) s.key.masks a (· ^^^ r)
    let s := { s with key := { s.key with masks := m, remaskPos := a + 1 } }.drawn
    if a + 1 = bankWords then remaskEnd s else s

end Sys2Proof.Machine
end

