-- ==== Sys2Proof/Machine/Chain.lean ====
section
/-! DEFINITION. The Trox chain: messages, forwarding, enumeration, Orphan Chain, alarms, cinch, ZEROIZE
fan-out (R460 to R471). -/

namespace Sys2Proof.Machine

/-- A CHN event (R482): HRN_STATE is posted whatever CHN_EVT_EN holds. -/
def chnEvent (b : Nat) (s : State) : State :=
  raiseEvent 0x0F b 0 s

/-- CHAIN.CFLAGS of the active Pattern; none set without one (R471). -/
def cflags (s : State) : Nat := match s.pat.active with
  | some a => a.cflags
  | none => 0

/-- The module has joined the chain (R57, R471): it sends messages of its own. -/
def joined (s : State) : Bool := (cflags s).testBit 0 && s.pwr.warm.isNone && !startingUp s

/-- The module heads the ring (R465). -/
def isHead (s : State) : Bool := joined s && s.chn.headStrap

/-- SRC_POS of a message of its own: its position, or 0xFF. -/
def srcPos (s : State) : Nat := if s.bit Reg.CHN_STATUS 6 then s.rdF Reg.CHN_STATUS 0 6 else 0xFF

/-- A chain message with its CRC (R462). -/
def withCrc (m : Bytes) : Bytes := m ++ beBytes 4 (crc32c m)

/-- A message of the module's own. -/
def ownMessage (s : State) (type : Nat) (payload : Bytes) : Bytes :=
  withCrc (beBytes 1 type ++ [0#8] ++ beBytes 1 (srcPos s) ++ [0#8] ++ beBytes 4 s.unit ++ exactly 8 payload)

/-- Sending priority of a type: ZEROIZE, CINCH, ENUM, ALARM, HEARTBEAT (R464); unknown types last. -/
def chainPrio : Nat → Nat
  | 4 => 0 | 3 => 1 | 1 => 2 | 2 => 3 | 5 => 4 | _ => 5

/-- Queues a message for the chain output. -/
def chainQueue (m : Bytes) (s : State) : State :=
  { s with chn := { s.chn with sendQ := s.chn.sendQ ++ [(chainPrio (byteAt m 0), m)] } }

/-- The chain port sends its next message: the first of the most urgent priority (R464). -/
def chainSend (s : State) : State :=
  match s.chn.sendQ with
  | [] => s
  | h :: t =>
    let best := t.foldl (fun b e => if e.1 < b.1 then e else b) h
    ({ s with chn := { s.chn with sendQ := s.chn.sendQ.erase best } }).emit (.chain best.2)

/-- Whether a received message is 20 bytes with a right CRC. -/
def chainOk (m : Bytes) : Bool := m.length == 20 && slice m 16 4 == beBytes 4 (crc32c (m.take 16))

/-- A message returns to its origin. -/
def ownReturn (s : State) (m : Bytes) : Bool := byteAt m 2 == srcPos s && beAt m 4 4 == s.unit

/-- Forwards a message, one hop on; at 64 hops it is dropped (R464). -/
def forward (m : Bytes) (s : State) : State :=
  let h := byteAt m 1 + 1
  if 64 ≤ h then s else chainQueue (withCrc (splice (m.take 16) 1 (beBytes 1 h))) s

/-- A received message of type `type`: dropped when its CRC fails or it is the module's own, else acted on
by `act` and forwarded. A message of another type is that type's command. -/
def chainReceive (type : Nat) (m : Bytes) (act : State → State) (s : State) : State :=
  if !chainOk m then s.bump Reg.CHN_CRC_ERR
  else if byteAt m 0 ≠ type ∨ ownReturn s m then s
  else forward m (act s)

/-- A message whose CRC fails. -/
def badCrc (m : Bytes) (s : State) : State := if chainOk m then s else s.bump Reg.CHN_CRC_ERR

/-! ## Enumeration (R465 to R467) -/

/-- The head sends a count. -/
def sendCount (s : State) : State :=
  if !isHead s then s
  else
    let g := s.chn.gen + 1
    let s := { s with chn := { s.chn with gen := g } }
    chainQueue (ownMessage s 1 ([0#8, 1#8] ++ beBytes 2 g)) s

/-- Sets a bit of CHN_STATUS; a change posts event `b`. -/
def chnFlag (n : Nat) (v : Bool) (b : Nat) (s : State) : State :=
  if s.bit Reg.CHN_STATUS n = v then s else chnEvent b (s.setBit Reg.CHN_STATUS n v)

/-- Clears every position record (R468). -/
def clearPeers (s : State) : State :=
  let s := (List.range 64).foldl (fun s p => (s.wr (Reg.CHN_PEER_ID p) 0).wr (Reg.CHN_PEER_INFO p) 0) s
  { s with chn := { s.chn with peerTick := [] } }

/-- A joined module takes its position from a count. -/
def takePosition (c g : Nat) (s : State) : State :=
  let same := s.bit Reg.CHN_STATUS 6 && s.rdF Reg.CHN_STATUS 0 6 == c
  let s := s.wr Reg.CHN_GEN g
  let s := if same then s
    else chnEvent 0 (clearPeers (((s.wrF Reg.CHN_STATUS 0 6 c).setBit Reg.CHN_STATUS 6 true).bump Reg.CHN_ENUMS))
  chnFlag 11 false 0 s

/-- A count returns to the head: one it sent gives the size of the ring and closes it, another shows a second
head. -/
def headCount (c g : Nat) (s : State) : State :=
  if 65536 ≤ s.chn.gen ∨ (1 ≤ g ∧ g ≤ s.chn.gen) then
    let size := c - 1
    let s := if s.rdF Reg.CHN_STATUS 16 7 = size then s else clearPeers (s.wrF Reg.CHN_STATUS 16 7 size)
    chnFlag 9 false 3 s
  else chnFlag 10 true 4 s

/-- A received ENUM count (R465, R467). -/
def enumCount (m : Bytes) (s : State) : State :=
  if !chainOk m then s.bump Reg.CHN_CRC_ERR
  else if byteAt m 0 ≠ 1 ∨ byteAt m 8 ≠ 0 then s
  else
    let c := byteAt m 9
    let g := beAt m 10 2
    if isHead s then headCount c g s
    else if ownReturn s m then s
    else if !joined s then forward m s
    else
      let s := chnFlag 7 false 2 s
      if c ≤ 63 then forward (splice (m.take 16) 9 (beBytes 1 (c + 1))) (takePosition c g s)
      else
        forward m (chnFlag 11 true 0 (chnFlag 6 false 0 s))

/-- A received ENUM request: the head answers with a count. -/
def enumRequest (m : Bytes) (s : State) : State :=
  if byteAt m 8 ≠ 1 ∧ chainOk m = true then s else chainReceive 1 m sendCount s

/-- A joined module other than the head enters Orphan Chain; the head finds its ring open (R467). -/
def chainLost (s : State) : State :=
  if isHead s then chnFlag 9 true 3 s
  else if joined s then chnFlag 7 true 1 s
  else s

/-- The input link goes down (R461, R467). -/
def linkDown (s : State) : State :=
  if !s.bit Reg.CHN_STATUS 12 then s
  else chainLost ((s.setBit Reg.CHN_STATUS 12 false).bump Reg.CHN_SYNC_LOSS)

/-- The input link returns: a joined module asks for an enumeration (R466). -/
def linkBack (s : State) : State :=
  if s.bit Reg.CHN_STATUS 12 then s
  else
    let s := s.setBit Reg.CHN_STATUS 12 true
    if joined s then chainQueue (ownMessage s 1 [1#8]) s else s

/-- The Pattern is active: the head takes position 0 and sends a count; a module that no longer joins gives
up its position; one that joins with its input link down is in Orphan Chain, or heads an open ring (R465, R467, R471). -/
def chainJoin (s : State) : State :=
  let down := fun (s : State) => if s.bit Reg.CHN_STATUS 12 then s else chainLost s
  if isHead s then
    let s := s.setBit Reg.CHN_STATUS 8 true
    let s := if s.bit Reg.CHN_STATUS 6 then s else chnEvent 0 ((s.wrF Reg.CHN_STATUS 0 6 0).setBit Reg.CHN_STATUS 6 true)
    sendCount (down s)
  else
    let s := s.setBit Reg.CHN_STATUS 8 false
    if joined s then down s else chnFlag 6 false 0 (chnFlag 7 false 2 s)

/-! ## Position records (R468) -/

/-- Writes the record of a position. -/
def setPeerRec (p unit life alarm pair : Nat) (s : State) : State :=
  let s := s.wr (Reg.CHN_PEER_ID p) (unit % 2 ^ 18 + 2 ^ 20 * (life % 4) + 2 ^ 31)
  let s := s.wr (Reg.CHN_PEER_INFO p) (alarm % 4096 + 2 ^ 16 * (pair % 8))
  { s with chn := { s.chn with peerTick := Tbl.set (fun _ => 0) s.chn.peerTick p (s.refTick + 1) } }

/-- Records an ALARM or HEARTBEAT of a position; an alarm bit not recorded before sets PEER_ALARM. -/
def recordPeer (m : Bytes) (life alarm : Nat) (pair : Option Nat) (s : State) : State :=
  let p := byteAt m 2
  if 64 ≤ p then s
  else
    let known := s.bit (Reg.CHN_PEER_ID p) 31
    let old := if known then s.rdF (Reg.CHN_PEER_INFO p) 0 12 else 0
    let pr := pair.getD (if known then s.rdF (Reg.CHN_PEER_INFO p) 16 3 else 0)
    let s := setPeerRec p (beAt m 4 4) life alarm pr s
    if (alarm % 4096) &&& (4095 ^^^ old) = 0 then s else chnEvent 5 s

/-- A received ALARM. -/
def alarmMessage (m : Bytes) (s : State) : State :=
  chainReceive 2 m (recordPeer m (byteAt m 12) (beAt m 8 4) none) s

/-- A received HEARTBEAT. -/
def heartbeatMessage (m : Bytes) (s : State) : State :=
  chainReceive 5 m (recordPeer m (byteAt m 8) (beAt m 10 4) (some (byteAt m 9))) s

/-- A record older than its age limit has VALID cleared. -/
def expirePeer (p : Nat) (s : State) : State :=
  { s with chn := { s.chn with peerTick := Tbl.set (fun _ => 0) s.chn.peerTick p 0 } }.setBit (Reg.CHN_PEER_ID p) 31 false

/-- HEARTBEAT_MS has passed (R463). -/
def heartbeatTimer (s : State) : State :=
  if joined s && (cflags s).testBit 3 then
    chainQueue (ownMessage s 5 ([BitVec.ofNat 8 (lifecycleCode s.lifecycle), BitVec.ofNat 8 (pairState s)] ++
      beBytes 4 (s.rd Reg.KPR_ALARM))) s
  else s

/-- An ALARM message for newly set alarm bits, from a joined module (R463). -/
def chainSettle (s : State) : State :=
  if !s.chn.alarmDue then s
  else
    let s := { s with chn := { s.chn with alarmDue := false } }
    if joined s then
      chainQueue (ownMessage s 2 (beBytes 4 (s.rd Reg.KPR_ALARM) ++ [BitVec.ofNat 8 (lifecycleCode s.lifecycle)])) s
    else s

/-! ## Cinch (R202, R469) -/

/-- CHAIN.CINCH_TB. -/
def cinchBase (s : State) : Nat := match s.pat.active with
  | some a => a.cinchTb
  | none => 0

/-- A cinch instant that was not ahead is counted and reported. The event is no SC's: which one SEC_LAST names is a free
value (R202, R221; log entry 110). -/
def cinchLate (s : State) : State :=
  let k := Config.freeNat s.rng
  secEvent 7 (k / 2 % 32768) (k % 2 == 1) (s.bump Reg.SEC_CINCH_LATE).drawn

/-- Applies a cinch instant: scheduled when ahead, fired at once and counted late otherwise (R202). -/
def applyCinch (t : Nat) (s : State) : State :=
  if (t + 2 ^ 32 - s.rd (Reg.TB_NS (cinchBase s))) % 2 ^ 32 < 2 ^ 31 then
    { s with sec := { s.sec with cinchAt := s.sec.cinchAt ++ [t] } }
  else cinchAll (cinchLate s)

/-- A received CINCH: ignored in Orphan Chain, recorded, and applied when accepted. -/
def cinchMessage (m : Bytes) (s : State) : State :=
  chainReceive 3 m (fun s =>
    if s.bit Reg.CHN_STATUS 7 then s
    else
      let t := beAt m 8 4
      let s := { s with chn := { s.chn with cinchRxId := beAt m 12 2 } }
      let s := chnEvent 6 (s.wr Reg.CHN_CINCH_RX t)
      if (cflags s).testBit 1 then applyCinch t s else s) s

/-- CHN_CINCH_CMD.GO (R469). -/
def cinchCommand (s : State) : State :=
  if !joined s || !s.bit Reg.CHN_STATUS 6 then s.wrF Reg.CHN_CINCH_STATUS 0 2 1
  else if s.bit Reg.CHN_STATUS 7 then s.wrF Reg.CHN_CINCH_STATUS 0 2 2
  else if !(cflags s).testBit 1 then s.wrF Reg.CHN_CINCH_STATUS 0 2 3
  else
    let id := (s.chn.cinchId + 1) % 65536
    let t := s.rd Reg.CHN_CINCH_NS
    let s := { s with chn := { s.chn with cinchId := id } }
    let s := s.wr Reg.CHN_CINCH_STATUS (2 ^ 16 * id)
    applyCinch t (chainQueue (ownMessage s 3 (beBytes 4 t ++ beBytes 2 id)) s)

/-! ## ZEROIZE fan-out (R470) -/

/-- A zeroizing module sends ZEROIZE, and three repeats are due. -/
def fanOut (s : State) : State :=
  if !s.bit Reg.KPR_ZFANOUT 0 || s.pwr.warm.isSome then s
  else
    let z := (s.chn.zseq + 1) % 65536
    let m := ownMessage s 4 (beBytes 2 (s.rd Reg.KEY_ZSRC) ++ beBytes 2 z)
    chainQueue m { s with chn := { s.chn with zseq := z, zrepeat := some (m, 3) } }

/-- The next repeat of the ZEROIZE message. -/
def zeroizeRepeat (s : State) : State :=
  match s.chn.zrepeat with
  | none => s
  | some (m, k) =>
    chainQueue m { s with chn := { s.chn with zrepeat := if k ≤ 1 then none else some (m, k - 1) } }

/-- Whether a ZEROIZE message was acted on within the last second. -/
def zeroizeSeen (s : State) (pos unit z : Nat) : Bool :=
  s.chn.zseen.any (fun e => e.1 == pos && e.2.1 == unit && e.2.2.1 == z && decide (s.refTick ≤ e.2.2.2 + tickSecond))

end Sys2Proof.Machine
end

