-- ==== Sys2Proof/Machine/Harness.lean ====
section
/-! DEFINITION. The harness link and the pair: records, acknowledgement, pairing, mirroring, isolation and
takeover (R472 to R480, R333). The manual lists the payload fields and not their places: they stand one after
the other, most significant byte first (log entry 22). -/

namespace Sys2Proof.Machine

/-! ## Pair state (R472) -/

/-- Whether HRN_ACTIVE_N is low in a pair state. -/
def pairActive (st : Nat) : Bool := st == 2 || st == 4 || st == 5

/-- The claim journalled with a pair state: none for NONE and WAIT. -/
def claimOf : Nat → Option Nat
  | 2 => some 1 | 3 => some 2 | 4 => some 1 | 5 => some 3 | _ => none

/-- Journals a claim in the vault. -/
def setClaim (c : Nat) (s : State) : State :=
  let s := if s.key.vaultOpen then s.putVault .claim (fun v => { v with claim := c }) else s
  s.wrF Reg.CHN_HRN_STATUS 4 2 c

/-- The module's own claim. -/
def claim (s : State) : Nat := s.rdF Reg.CHN_HRN_STATUS 4 2

/-- Enters a pair state, with its claim; HRN_STATE is posted at every change. -/
def setPair (st : Nat) (s : State) : State :=
  if pairState s = st then s
  else
    let was := pairActive (pairState s)
    let s := s.wrF Reg.CHN_HRN_STATUS 0 3 st
    let s := match claimOf st with
      | some c => setClaim c s
      | none => s
    let alone := s.sec.isolated
    let s := { s with sec := { s.sec with isolated := st == 5 } }
    let s := if st = 5 then isolateScs s else if alone then reuniteScs s else s
    let s := if was = pairActive st then s else s.emit (.pin "HRN_ACTIVE_N" was)
    syncPorts (followTrunks (chnEvent 7 s))

/-- HARNESS.ROLE of the active Pattern. -/
def hrnRole (s : State) : Nat := match s.pat.active with
  | some a => a.role
  | none => 0

/-- HARNESS.MIRROR. -/
def hrnMirror (s : State) : Nat := match s.pat.active with
  | some a => a.mirror
  | none => 0

/-- HARNESS.PEER_UNIT. -/
def hrnPeer (s : State) : Nat := match s.pat.active with
  | some a => a.peerUnit
  | none => 0

/-! ## Records (R473, R474) -/

/-- The harness key: the KDF of R198 over the parent named in CHN_HRN_CTRL. -/
def hrnKey (s : State) : Bytes :=
  let p := s.parentAt (s.rdF Reg.CHN_HRN_CTRL 0 12)
  if s.bit Reg.CHN_HRN_CTRL 31 && p.valid then
    kdf108 p.key ([0x48#8, 0x52#8, 0x4E#8, 0#8] ++ beBytes 4 (min s.unit (hrnPeer s)) ++
      beBytes 4 (max s.unit (hrnPeer s)) ++ beBytes 4 256) 32
  else []

/-- NONCE_LOW ‖ NONCE_HIGH. -/
def nonces (s : State) : Bytes :=
  if s.unit ≤ hrnPeer s then s.hrn.nonce ++ s.hrn.peerNonce else s.hrn.peerNonce ++ s.hrn.nonce

/-- Bytes 0 to 47 of a record. -/
def recBody (type seq : Nat) (payload : Bytes) : Bytes :=
  beBytes 1 type ++ beBytes 1 payload.length ++ beBytes 6 seq ++ exactly 40 payload

/-- The CMAC of a record. -/
def recMac (s : State) (body : Bytes) : Bytes := cmac s.hrn.key (nonces s ++ body)

/-- Sends an authenticated record, which stays outstanding until it is acknowledged; `mark` is the MARK that
it carries. -/
def sendRecord (type : Nat) (payload : Bytes) (mark : Option (Nat × Nat)) (s : State) : State :=
  let seq := s.hrn.seqTx + 1
  let body := recBody type seq payload
  let r := body ++ recMac s body
  ({ s with hrn := { s.hrn with seqTx := seq, unacked := s.hrn.unacked ++ [(seq, r, 1, mark)] } }).emit (.harness r)

/-- The link draws its nonce, as soon as the DRBG gives bits (R228, R474). -/
def drawNonce (s : State) : State :=
  if !s.hrn.nonce.isEmpty || drbgOff s then s else { s with hrn := { s.hrn with nonce := s.drbg 16 } }.drawn

/-- Sends HELLO, unauthenticated; there is none to send without a nonce. -/
def sendHello (s : State) : State :=
  if s.hrn.nonce.isEmpty then s
  else
    let p := beBytes 4 s.unit ++ beBytes 4 (hrnPeer s) ++ beBytes 1 (hrnRole s) ++
      beBytes 1 (lifecycleCode s.lifecycle) ++ beBytes 1 (claim s) ++ s.hrn.nonce
    s.emit (.harness (recBody 1 0 p ++ zeros 16))

/-- Sends an ACK of the highest SEQ received in order. -/
def sendAck (s : State) : State :=
  if !s.hrn.paired then s
  else
    let n := s.hrn.seqRx
    sendRecord 2 (beBytes 6 n) none { s with hrn := { s.hrn with ackSent := n } }

/-- The payload of an SC record: the entry's pending words if it has any. -/
def scPayload (s : State) (rx : Bool) (i : Nat) : Bytes :=
  let e := s.scAt rx i
  let w := if e.inUse then e.pending.getD e.words else []
  beBytes 2 i ++ beBytes 1 (b2n rx) ++ (List.range 8).flatMap (fun k => beBytes 4 (w.getD k 0))

/-- Sends one message of the mirror stream. LEARN and GATE go only where HARNESS.MIRROR asks for them. -/
def sendMsg (m : HrnMsg) (s : State) : State :=
  match m with
  | .sc i rx => sendRecord 0x10 (scPayload s rx i) none s
  | .epoch i rx =>
    let e := s.scAt rx i
    sendRecord 0x11 (beBytes 2 i ++ beBytes 1 (b2n rx) ++ beBytes 4 e.epoch ++ beBytes 1 (e.cur.getD 0)) none s
  | .mark a k => sendRecord 0x12 (beBytes 2 a ++ beBytes 5 k) (some (a, k)) s
  | .snapEnd n => sendRecord 0x13 (beBytes 4 n) none s
  | .learn op e => if (hrnMirror s).testBit 0 then sendRecord 0x20 (beBytes 1 op ++ e.take 16) none s else s
  | .gate p =>
    let ps := s.portAt (32 + p)
    if (hrnMirror s).testBit 1 then
      sendRecord 0x21 (beBytes 1 p ++ beBytes 2 ps.gen ++ beBytes 2 ps.entry ++ beBytes 4 ps.cycleStart) none s
    else s
  | .takeover => sendRecord 0x30 [] none s
  | .takeoverAck => sendRecord 0x31 [] none s
  | .hello => sendHello s
  | .ack => sendAck s

/-- What a command gave the mirror stream leaves, when the module is the active of a running pair; else it is
dropped. -/
def hrnSettle (s : State) : State :=
  if s.hrn.toSend.isEmpty then s
  else
    let l := s.hrn.toSend
    let s := { s with hrn := { s.hrn with toSend := [] } }
    if s.hrn.paired && pairState s == 2 then l.foldl (fun s m => sendMsg m s) s else s

/-! ## Link up and down (R333, R473, R480) -/

/-- The harness lanes are UP: the link comes up with a new nonce and says HELLO. -/
def linkUpHrn (s : State) : State :=
  let s := { s with hrn := { s.hrn with up := true, paired := false, nonce := [], key := hrnKey s } }
  sendHello ((drawNonce s).setBit Reg.CHN_HRN_STATUS 6 true)

/-- Local health for a takeover: 0 good, else the code of CHN_HRN_CODE (R478). -/
def takeoverCode (permit : Nat) (s : State) : Nat :=
  if pairState s ≠ 3 then 1
  else if !s.bit Reg.CHN_HRN_STATUS 3 then 2
  else if !s.bit Reg.KPR_TAKEOVER permit then 3
  else if s.lifecycle != .operational || s.pat.active.isNone || s.bit Reg.KEY_STATUS 2 ||
      s.key.zeroizing.isSome then 4
  else 0

/-- A takeover starts: TAKEOVER is sent with the harness up, else the journal write starts (R479). -/
def takeoverStart (s : State) : State :=
  if s.hrn.takeover.isSome then s
  else if s.hrn.paired then
    sendRecord 0x30 [] none { s with hrn := { s.hrn with takeover := some (.asked, s.refTick) } }
  else { s with hrn := { s.hrn with takeover := some (.journalling, s.refTick) } }

/-- The link's part of a harness loss with DOWN_CAUSE `cause`: the key is cleared, an active is isolated, a
standby takes over or stays. -/
def linkLost (cause : Nat) (s : State) : State :=
  let asked := match s.hrn.takeover with
    | some (.asked, _) => true
    | _ => false
  let s := (s.setBit Reg.CHN_HRN_STATUS 6 false).wrF Reg.CHN_HRN_STATUS 8 3 cause
  let tk := s.hrn.takeover.map (fun t => (TakeoverPhase.journalling, t.2))
  let s := { s with hrn := { s.hrn with
    up := false, paired := false, key := [], nonce := [], peerNonce := [], unacked := [], toSend := [],
    authRun := 0, takeover := tk } }
  if pairState s = 2 then setPair 5 s
  else if asked then s
  else if takeoverCode 2 s = 0 ∧ s.hrn.gaveUp = false then takeoverStart s
  else s

/-- The harness goes down (R333): counted, posted, retrained at once, and the pair acts. -/
def hrnDown (cause : Nat) (s : State) : State :=
  if hrnRole s = 0 then s else linkLost cause (harnessLanesDown s)

/-- DOWN_CAUSE of a loss seen on the lanes or reported by the link layer. A generator's is not given. -/
def lossCause (c : HarnessLoss) (s : State) : Nat :=
  match c with
  | .clock => 1
  | .signal => 1
  | .link => 2
  | .prbs => 1 + Config.freeNat s.rng % 2

/-- HARNESS_DOWN: nothing is lost while the harness is already down. -/
def harnessLoss (c : HarnessLoss) (s : State) : State :=
  if hrnState s ≠ 4 ∧ s.hrn.up = false then s else (hrnDown (lossCause c s) s).drawn

/-- LANE_HRN_CTRL.RETRAIN: training starts at once; a link that was up goes down with it. -/
def retrain (s : State) : State :=
  if s.hrn.up then hrnDown 2 s else if harnessOn s then trainStart s else s

/-- Training starts again 10 ms after it failed. -/
def trainAgain (s : State) : State := if s.lan.failed then trainStart s else s

/-- A training word; when training reaches UP the link layer starts. -/
def trainWordIn (k w : Nat) (s : State) : State :=
  let was := hrnState s
  let s := trainingWord k w s
  if was ≠ 4 ∧ hrnState s = 4 then linkUpHrn s else s

/-- A write of LANE_PRBS; a generator on a harness lane takes the harness down (R337). -/
def lanePrbs (l v : Nat) (s : State) : State :=
  let s := prbsWrite l v s
  if 64 ≤ l ∧ v.testBit 4 = true then harnessLoss .prbs s else s

/-- LANE_HRN_CTRL.DISABLE (R330, R481). -/
def hrnDisable (v : Bool) (s : State) : State :=
  let was := s.bit Reg.LANE_HRN_CTRL 1
  let s := s.setBit Reg.LANE_HRN_CTRL 1 v
  if v && !was then
    let up := s.hrn.up
    let s := trainStart s
    if up then linkLost 5 s else s.wrF Reg.CHN_HRN_STATUS 8 3 5
  else if !v && was then trainStart s
  else s

/-! ## Reception (R474) -/

/-- A received record of `type` on a running pair: its CMAC, its order, then `act` on its payload. -/
def hrnReceive (type : Nat) (r : Bytes) (act : Bytes → State → State) (s : State) : State :=
  if !s.hrn.paired || r.length ≠ 64 || byteAt r 0 ≠ type then s
  else
    let body := r.take 48
    if recMac s body ≠ slice r 48 16 then
      let s := s.bump Reg.CHN_HRN_AUTH_FAILS
      let s := { s with hrn := { s.hrn with authRun := s.hrn.authRun + 1 } }
      if 16 ≤ s.hrn.authRun then hrnDown 3 s else s
    else
      let s := { s with hrn := { s.hrn with authRun := 0 } }
      if beAt r 2 6 ≠ s.hrn.seqRx + 1 then s
      else act (slice r 8 40) { s with hrn := { s.hrn with seqRx := s.hrn.seqRx + 1 } }

/-- A received ACK: everything up to its SEQ is acknowledged, MARKs included (R214). -/
def ackRecord (r : Bytes) (s : State) : State :=
  hrnReceive 2 r (fun p s =>
    let n := beAt p 0 6
    let done := s.hrn.unacked.filter (fun u => decide (u.1 ≤ n))
    let marks := done.foldl (fun t u => match u.2.2.2 with
      | some (a, k) => Tbl.set (fun _ => 0) t a (max (k + 1) (Tbl.get (fun _ => 0) t a))
      | none => t) s.hrn.ackedMark
    { s with hrn := { s.hrn with ackedMark := marks, unacked := s.hrn.unacked.filter (fun u => decide (n < u.1)) } }) s

/-- An ACK is due while records received are not acknowledged. -/
def ackTimer (s : State) : State := if s.hrn.ackSent = s.hrn.seqRx then s else sendAck s

/-- No progress for 10 µs: everything outstanding is sent again; a record sent 8 times takes the harness
down. -/
def retransmit (s : State) : State :=
  match s.hrn.unacked with
  | [] => s
  | h :: _ =>
    if 8 ≤ h.2.2.1 then hrnDown 2 s
    else
      let s := s.hrn.unacked.foldl (fun s u => s.emit (.harness u.2.1)) s
      let s := s.bump Reg.CHN_HRN_RETX s.hrn.unacked.length
      { s with hrn := { s.hrn with unacked := s.hrn.unacked.map (fun u => (u.1, u.2.1, u.2.2.1 + 1, u.2.2.2)) } }

/-! ## Pairing (R475, R476) -/

/-- The snapshot that the active sends. -/
def snapshot (s : State) : List HrnMsg :=
  let ofSc := fun (rx : Bool) (i : Nat) =>
    let e := s.scAt rx i
    if e.inUse then
      [HrnMsg.sc i rx] ++ (if e.started then [HrnMsg.epoch i rx] else []) ++
      [HrnMsg.mark (scSa e 0) (s.saAt (scSa e 0)).mark, HrnMsg.mark (scSa e 1) (s.saAt (scSa e 1)).mark]
    else []
  let l := (Tbl.keys s.sec.tx).flatMap (ofSc false) ++ (Tbl.keys s.sec.rx).flatMap (ofSc true) ++
    (if (hrnMirror s).testBit 0 then s.cls.peers.map (fun e => HrnMsg.learn 0 e.2) else []) ++
    (if (hrnMirror s).testBit 1 then (List.range 32).map HrnMsg.gate else [])
  l ++ [HrnMsg.snapEnd l.length]

/-- The role that a passed HELLO gives: whether this module becomes the active (R475). -/
def becomesActive (s : State) (peerClaim : Nat) : Bool :=
  if claim s = 1 then peerClaim != 1 || hrnRole s == 1
  else if peerClaim = 1 then false
  else if pairState s = 5 then true
  else if pairState s = 3 ∧ peerClaim = 3 then false
  else hrnRole s == 1

/-- A passed HELLO pairs the modules. -/
def pairUp (nonce : Bytes) (peerClaim : Nat) (s : State) : State :=
  let act := becomesActive s peerClaim
  let s := { s with hrn := { s.hrn with
    paired := true, peerNonce := nonce, seqTx := 0, seqRx := 0, ackSent := 0, unacked := [], authRun := 0,
    gaveUp := false, takeover := none } }
  let s := s.wrF Reg.CHN_HRN_STATUS 8 3 0
  if act then
    let s := setPair 2 s
    { s with hrn := { s.hrn with toSend := snapshot s } }
  else setPair 3 s

/-- A received HELLO (R475). While the parent is not valid no pair forms (R473). -/
def helloRecord (r : Bytes) (s : State) : State :=
  if !s.hrn.up || r.length ≠ 64 || byteAt r 0 ≠ 1 then s
  else
    let p := slice r 8 40
    let ok := beAt p 0 4 == hrnPeer s && beAt p 4 4 == s.unit && byteAt p 8 != hrnRole s &&
      byteAt p 9 == 1 && s.lifecycle == .operational
    if !ok then s.wrF Reg.CHN_HRN_STATUS 8 3 4
    else
      let s := if s.hrn.key.isEmpty then { s with hrn := { s.hrn with key := hrnKey s } } else s
      if s.hrn.key.isEmpty || s.hrn.nonce.isEmpty then s else pairUp (slice p 11 16) (byteAt p 10) s

/-- A failed HELLO is retried. -/
def helloRetry (s : State) : State := if s.hrn.up && !s.hrn.paired then sendHello (drawNonce s) else s

/-! ## The standby (R476) -/

/-- Whether the module applies mirrored records. -/
def isStandby (s : State) : Bool := pairState s == 3

/-- SC: a commit on the standby; an entry of zero words is a deletion. -/
def scRecord (r : Bytes) (s : State) : State :=
  hrnReceive 0x10 r (fun p s =>
    let i := beAt p 0 2
    let rx := byteAt p 2 == 1
    let w := (List.range 8).map (fun k => beAt p (3 + 4 * k) 4)
    if !isStandby s then s
    else if w.all (· == 0) then (if (s.scAt rx i).inUse then scRemove rx i s else s)
    else if (s.scAt rx i).inUse then scStage rx i w s
    else scInstall rx i w s) s

/-- EPOCH: the SC's epoch and current slot follow the active; a derived SA that is not there is filled. -/
def epochRecord (r : Bytes) (s : State) : State :=
  hrnReceive 0x11 r (fun p s =>
    let i := beAt p 0 2
    let rx := byteAt p 2 == 1
    let ep := beAt p 3 4
    let slot := byteAt p 7 % 2
    let e := s.scAt rx i
    if !isStandby s || !e.inUse then s
    else
      let sa := scSa e slot
      let other := scSa e (1 - slot)
      let s := applyPending rx i (s.setSc rx i { e with cur := some slot, epoch := ep, started := true })
      let a := s.saAt sa
      let s := if a.state == .ready then s.setSa sa { a with state := .current }
        else if a.state == .empty && scDerived e && (s.parentAt (scParent e)).valid then
          requestFill ⟨sa, i, rx, ep, none, false, 0⟩ s
        else s
      let o := s.saAt other
      let s := if o.state != .current then s
        else if rx then s.setSa other { o with state := .old }
        else emptySlot other s
      journalSc rx i (refill rx i s)) s

/-- MARK: journalled, then acknowledged. -/
def markRecord (r : Bytes) (s : State) : State :=
  hrnReceive 0x12 r (fun p s =>
    let a := beAt p 0 2
    let k := beAt p 2 5
    if !isStandby s then s
    else sendAck (journalMark a k (s.setSa a { s.saAt a with mark := k }))) s

/-- SNAP_END: the standby is SYNCED. -/
def snapEnd (r : Bytes) (s : State) : State :=
  hrnReceive 0x13 r (fun _ s => if isStandby s then s.setBit Reg.CHN_HRN_STATUS 3 true else s) s

/-- LEARN: the peer table follows the active's. -/
def learnRecord (r : Bytes) (s : State) : State :=
  hrnReceive 0x20 r (fun p s =>
    let e := exactly 64 (slice p 1 16)
    if !isStandby s then s else engineDo (.mirrored (byteAt p 0) e) s.cls.learnQ.length s) s

/-- GATE: the gate cycle of the line port is aligned, with no resync counted. -/
def gateRecord (r : Bytes) (s : State) : State :=
  hrnReceive 0x21 r (fun p s =>
    let port := byteAt p 0 % 32
    let ps := s.portAt (32 + port)
    let k := beAt p 3 2
    let start := beAt p 5 4
    if !isStandby s || !ps.gatesOn then s
    else
      let off := ((ps.list.entries.take k).map GateEntry.dur).sum
      syncGstat port (s.setPort (32 + port)
        { ps with entry := k, cycleStart := start, entryStart := (start + off) % 2 ^ 32 })) s

/-! ## Takeover (R478, R479), SOLO (R477) -/

/-- CHN_HRN_CMD.TAKEOVER. -/
def hostTakeover (s : State) : State :=
  let c := takeoverCode 1 s
  let s := s.wrF Reg.CHN_HRN_CODE 0 3 c
  if c = 0 then takeoverStart s else s

/-- A received TAKEOVER: the active stops, journals STANDBY, sends its final MARKs and the answer. -/
def takeoverRecord (r : Bytes) (s : State) : State :=
  hrnReceive 0x30 r (fun _ s =>
    if pairState s ≠ 2 then s
    else
      let s := setPair 3 { s with hrn := { s.hrn with gaveUp := true } }
      let sas := (Tbl.keys s.sec.tx).flatMap (fun i =>
        let e := s.scAt false i
        if e.inUse then [scSa e 0, scSa e 1] else [])
      let s := sas.foldl (fun s a => sendMsg (.mark a (s.saAt a).mark) s) s
      sendMsg .takeoverAck s) s

/-- A received TAKEOVER_ACK. -/
def takeoverAck (r : Bytes) (s : State) : State :=
  hrnReceive 0x31 r (fun _ s =>
    match s.hrn.takeover with
    | some (.asked, t) => { s with hrn := { s.hrn with takeover := some (.journalling, t) } }
    | _ => s) s

/-- A transmit SA resumes one block above the MARK acknowledged to its former user. -/
def resumeSa (a : Nat) (s : State) : State :=
  let e := s.saAt a
  let m := e.mark + 1
  (journalMark a m (s.setSa a { e with mark := m, pn := m * 2 ^ 24 })).mirror (.mark a m)

/-- A transmit SC whose current SA the module does not hold goes on with the next epoch if that is READY, and is in key gap
otherwise (R217). -/
def takeoverSc (i : Nat) (s : State) : State :=
  let e := s.scAt false i
  if e.inUse && e.started && !hasCurrent s e then
    gapCheck i (s.setSc false i { e with cur := none, trigger := true })
  else s

/-- The takeover's journal write completes: the standby's spans carry traffic. -/
def takeoverDone (s : State) : State :=
  match s.hrn.takeover with
  | some (.journalling, t) =>
    let sas := (Tbl.keys s.sec.tx).flatMap (fun i =>
      let e := s.scAt false i
      if e.inUse then [scSa e 0, scSa e 1] else [])
    let s := sas.foldl (fun s a => resumeSa a s) { s with hrn := { s.hrn with takeover := none } }
    let s := setPair (if s.hrn.paired then 2 else 4) s
    let s := (Tbl.keys s.sec.tx).foldl (fun s i => takeoverSc i s) s
    let s := s.wr Reg.CHN_HRN_LAST_US (min 65535 ((s.refTick - t) * 4 / 625))
    s.bump Reg.CHN_HRN_TAKEOVERS
  | _ => s

/-- CHN_HRN_WAIT seconds without a pairing (R477). -/
def soloTimeout (s : State) : State :=
  if pairState s = 1 ∧ s.hrn.paired = false ∧ (claim s = 1 ∨ (claim s = 0 ∧ hrnRole s = 1)) then setPair 4 s else s

/-- The pair after a cut or a start-up loads HARNESS: NONE without a role; a module that gets one enters
WAIT and trains its lanes (R472, R477). -/
def harnessJoin (s : State) : State :=
  if hrnRole s = 0 then
    let s := if s.hrn.up then linkLost 5 s else s
    let s := if pairState s = 0 then s else setPair 0 s
    { trainStart s with hrn := {} }
  else if pairState s = 0 then trainStart (setPair 1 s)
  else s

end Sys2Proof.Machine
end

