-- ==== Sys2Proof/Machine/Tamper.lean ====
section
/-! DEFINITION. Tamper sources and zeroize: what a source does, the zeroize sequence, its record, and the
warm-reset trigger that a zeroize holds back (R253 to R257, R470, R517, R518). -/

namespace Sys2Proof.Machine

/-! ## The start of a warm reset (R517 step 1, R518) -/

/-- A warm reset trigger with cause `c` of PWR_LAST_RESET: admission closes and the cut in progress ends. It
is absorbed by a stop or by a reset already begun, and held while a zeroize runs. -/
def warmTrigger (c : Nat) (s : State) : State :=
  match s.pwr.mode, s.pwr.warm, s.key.zeroizing with
  | .stopping, _, _ => s
  | .battery, _, _ => s
  | .off, _, _ => s
  | _, some _, _ => s
  | _, none, some _ =>
    if s.pwr.warmHeld.isSome then s else { s with pwr := { s.pwr with warmHeld := some c } }
  | _, none, none =>
    let s := { s with pwr := { s.pwr with warm := some .draining, warmCause := c } }
    syncPorts (followTrunks (abandonStaged { s with pat := { s.pat with cut := none } }))

/-- A warm reset held back by the zeroize is performed (R518). -/
def warmRelease (s : State) : State :=
  match s.pwr.warmHeld with
  | none => s
  | some c => warmTrigger c { s with pwr := { s.pwr with warmHeld := none } }

/-! ## What the PAT registers show of the vault (R65, R68) -/

/-- A vault slot; nothing can be read while the vault is closed. -/
def slotAt (s : State) (i : Nat) : VaultSlot := if i = 0 then s.key.vault.slotA else s.key.vault.slotB

/-- PAT_SLOT_INFO and PAT_SLOT_SERIAL of both slots. -/
def syncSlots (s : State) : State :=
  (List.range 2).foldl (fun s i =>
    match slotAt s i with
    | .full c signed => (s.wr (Reg.PAT_SLOT_INFO i) (1 + 2 * b2n signed)).wr (Reg.PAT_SLOT_SERIAL i) (leAt c 0x1C 4)
    | _ => (s.wr (Reg.PAT_SLOT_INFO i) 0).wr (Reg.PAT_SLOT_SERIAL i) 0) s

/-! ## The zeroize (R255, R256) -/

/-- What the key store, the vault and the tables hold after a zeroize: nothing but the fuse root and the
enrolment record (R216, R255). -/
def clearKeys (s : State) : State :=
  let s := (Tbl.keys s.sec.tx).foldl (fun s i => setGapBit i false s) s
  let s := { s with
    key := { s.key with
      vaultOpen := false, vaultKey := [], vault := {}, parents := [], transport := [], masks := [], remaskPos := 0,
      keeperCopy := [], permD := [], permM := [], drbgDraw := 0, drbgDown := true }
    evr := { s.evr with dramKey := [] }
    sec := { s.sec with tx := [], rx := [], sa := [], fills := [], filling := none, kqWait := [] }
    hrn := { s.hrn with key := [], ackedMark := [] } }
  let s := (List.range 128).foldl (fun s i => s.wr (Reg.KEY_PARENT_VALID i) 0) s
  syncSlots (syncKey ((s.setBit Reg.KEY_STATUS 1 false).setBit Reg.KEY_STATUS 6 false))

/-- A KEYQ operation that runs ends with the code of its first failing common check, else with ZEROIZED
(R257, R548). -/
def endKeyq (s : State) : State :=
  match s.hif.kqRun with
  | none => s
  | some b =>
    let c := kqPrecheck { s with key := { s.key with zeroizing := none } } (descOf b)
    kqComplete (if c ≠ 0 ∧ s.sec.kqWait.isEmpty = true then c else 0x06) [] s

/-- A zeroize starts, or a further source joins the one that runs (R254 to R257). -/
def zeroizeFrom (src : Nat) (s : State) : State :=
  match s.key.zeroizing with
  | some m =>
    let m := m ||| 2 ^ src
    { s with key := { s.key with zeroizing := some m } }.wr Reg.KEY_ZSRC m
  | none =>
    let s := endKeyq s
    let s := { s with key := { s.key with zeroizing := some (2 ^ src) } }.wr Reg.KEY_ZSRC (2 ^ src)
    let s := clearKeys (endAllFrames (fun _ => true) s)
    let s := abandonStaged (emptyPeers (loseSpill (fun _ => true) s))
    let s := syncPorts (followTrunks (syncStatus s))
    if src = 8 then s else fanOut s

/-- The zeroize is entered in the enrolment record, the KEY registers and the reports (R256 step 4); `ns` is
KEY_ZTIME. -/
def recordZeroize (mask ns : Nat) (s : State) : State :=
  let was := s.lifecycle
  let s :=
    match s.key.fuse with
    | .blank => s
    | .enrolled => setRecord (fun r => { r with quarantined := true, zcount := r.zcount + 1, zsrc := mask }) s
    | .retired => setRecord (fun r => { r with zcount := r.zcount + 1, zsrc := mask }) s
  let s := match s.key.fuse, s.key.record with
    | .blank, _ => s
    | _, some r => s.wr Reg.KEY_ZCOUNT r.zcount
    | _, none => s
  let s := { s with key := { s.key with ztime := ns } }
  let s := syncStatus ((s.wr Reg.KEY_ZSRC mask).wr Reg.KEY_ZTIME ns)
  let s := if was == s.lifecycle then s
    else evqPost 0x0E 2 (s.rd Reg.KPR_STATUS) (s.rd Reg.KEY_ZCOUNT) 0 0 s
  let s := if was == .operational && s.lifecycle == .quarantined then keeperAlarm (2 ^ 11) s else s
  keyEvent 0 (raiseVector 5 s)

/-- The Retired fuse is blown (R450). -/
def blowRetired (s : State) : State :=
  if !s.key.retireDue then s
  else
    let s := syncStatus { s with key := { s.key with fuse := .retired, retireDue := false } }
    evqPost 0x0E 2 (s.rd Reg.KPR_STATUS) (s.rd Reg.KEY_ZCOUNT) 0 0 s

/-- Both key-store banks and the islands are clear: ZDONE, the record, what waited for it (R256 steps 3 and
4). -/
def zeroizeDone (s : State) : State :=
  match s.key.zeroizing with
  | none => s
  | some m =>
    let s := flushFabric (s.setBit Reg.KEY_STATUS 5 true)
    let s := { s with key := { s.key with zeroizing := none } }
    let s := blowRetired (recordZeroize m (s.rd (Reg.TB_NS 0)) s)
    let s := if s.key.invasiveDue then
        { s with key := { s.key with invasiveDue := false } }.setBit Reg.DBG_STATUS 2 true
      else s
    warmRelease (syncPorts (followTrunks (checkBypass s)))

/-- The DRBG is instantiated again, and with it the DRAM key and the permutation keys: every partition starts
empty (R256 step 5, R383). -/
def drbgUp (s : State) : State :=
  if !s.key.drbgDown || s.key.zeroizing.isSome then s
  else
    openRing 3 (newChallengeDue (startDrbg s))

/-! ## Tamper sources (R254) -/

/-- Sources that the tamper monitor watches in Battery (R254, R456). -/
def batteryWatched (src : Nat) : Bool := [0, 1, 2, 5, 6].contains src

/-- Whether a source zeroizes under a KPR_TAMPER_RESP. -/
def zeroizes (resp src : Nat) : Bool := decide (6 ≤ src) || Nat.testBit resp src

/-- A word of the keeper image of the record, for the tamper monitor in Battery. -/
def imageWord (s : State) (a : Nat) : Nat :=
  match s.key.record with
  | some r => (Tbl.get regDflt r.image a).toNat
  | none => (regDflt a).toNat

/-- A source becomes present with the rails up: an alarm, or a zeroize. -/
def tamperRise (src : Nat) (s : State) : State :=
  if zeroizes (s.rd Reg.KPR_TAMPER_RESP) src then zeroizeFrom src s
  else keeperAlarm (2 ^ src) (keyEvent 1 (s.setBit Reg.KEY_ALARM src true))

/-- A source becomes present in Battery: the vault key is cleared, or an alarm is noted; the rest waits for start-up
(R256, R458). -/
def batteryRise (src : Nat) (s : State) : State :=
  if zeroizes (imageWord s Reg.KPR_TAMPER_RESP) src then
    { s with key := { s.key with
      vaultOpen := false, vaultKey := [], vault := {}, batterySources := s.key.batterySources ||| 2 ^ src } }
  else { s with key := { s.key with batteryAlarms := s.key.batteryAlarms ||| 2 ^ src } }

/-- A source's raw condition changes; only the transition to present acts. SUPPLY is not watched in the orderly
stop, and Off watches nothing. -/
def tamperSource (src : Nat) (present : Bool) (s : State) : State :=
  let rise := present && !s.bit Reg.KEY_TAMPER src
  let t := s.setBit Reg.KEY_TAMPER src present
  match s.pwr.mode with
  | .off => s
  | .battery => if batteryWatched src then (if rise then batteryRise src t else t) else s
  | .stopping => if src = 3 then s else if rise then tamperRise src t else t
  | _ => if rise then tamperRise src t else t

/-- A received ZEROIZE message (R470). -/
def zeroizeMessage (m : Bytes) (s : State) : State :=
  chainReceive 4 m (fun s =>
    let pos := byteAt m 2
    let unit := beAt m 4 4
    let z := beAt m 10 2
    if s.bit Reg.KPR_ZFANOUT 1 then
      if zeroizeSeen s pos unit z then s
      else
        let s := { s with chn := { s.chn with zseen := (pos, unit, z, s.refTick) :: s.chn.zseen } }
        zeroizeFrom 8 (s.bump Reg.CHN_ZRX)
    else if pos < 64 then
      let known := s.bit (Reg.CHN_PEER_ID pos) 31
      if known then setPeerRec pos unit (s.rdF (Reg.CHN_PEER_ID pos) 20 2) (s.rdF (Reg.CHN_PEER_INFO pos) 0 12)
        (s.rdF (Reg.CHN_PEER_INFO pos) 16 3) s
      else setPeerRec pos unit 0 0 0 s
    else s) s

/-- The identity keys are cleared 1 s after their last use; never under a running operation that needs them (R227). -/
def identityExpire (s : State) : State :=
  match s.hif.kqRun with
  | some b => if usesIdentity (descOf b) then s else clearIdentity s
  | none => clearIdentity s

end Sys2Proof.Machine
end

