-- ==== Sys2Proof/Machine/Keeper.lean ====
section
/-! DEFINITION. The keeper port: frames, checks, requests, the keeper image, enrolment, lifecycle tokens and
debug levels (R434 to R454). -/

namespace Sys2Proof.Machine

/-! ## Frames (R435 to R437) -/

/-- KMAGIC is right, LEN is at most 232 and the frame is complete (R438 check 1). -/
def kFrameOk (r : Bytes) : Bool :=
  slice r 0 2 == [0x4B#8, 0x46#8] && decide (byteAt r 3 ≤ 232) && decide (28 + byteAt r 3 ≤ r.length)

/-- OPCODE of a frame. -/
def kOp (r : Bytes) : Nat := byteAt r 2
/-- SEQ of a frame. -/
def kSeq (r : Bytes) : Nat := beAt r 4 8
/-- PAYLOAD of a frame. -/
def kPayload (r : Bytes) : Bytes := slice r 12 (byteAt r 3)

/-- The not-ready frame. -/
def kNotReady : Bytes := [0x4B#8, 0x46#8, 0xFF#8] ++ zeros 25

/-- The keeper key, once enrolled. -/
def keeperKey (s : State) : Option Bytes :=
  if s.key.fuse = .blank then none else s.key.record.map EnrolRecord.keeperKey

/-- The CMAC of a frame over UNIT ‖ its bytes; zero in Blank. -/
def kMac (s : State) (body : Bytes) : Bytes :=
  match keeperKey s with
  | some k => cmac k (beBytes 4 s.unit ++ body)
  | none => zeros 16

/-- The port answers: not during a warm reset, from step 3 of an orderly stop on, or before start-up has
loaded the keeper image (R440, R457). -/
def keeperReady (s : State) : Bool :=
  s.pwr.warm.isNone && decide (s.pwr.mode ≠ .stopping) && decide (4 < s.rdF Reg.PWR_STATUS 8 4)

/-- Stores the response to a request: STATUS and data. -/
def kRespond (r : Bytes) (status : Nat) (data : Bytes) (s : State) : State :=
  let body := [0x4B#8, 0x46#8, BitVec.ofNat 8 (kOp r + 0x80)] ++ beBytes 1 (1 + data.length) ++
    exactly 8 (slice r 4 8) ++ beBytes 1 status ++ data
  { s with kpr := { s.kpr with response := some (body ++ kMac s body) } }

/-- A transaction: KDO carries the response to the latest request, and the request is taken by `f`. -/
def kTransact (f : State → State) (s : State) : State :=
  if !keeperReady s then s.emit (.keeper kNotReady)
  else f (s.emit (.keeper (s.kpr.response.getD kNotReady)))

/-! ## Checks (R438, R439) -/

/-- Opcodes that R441 defines. -/
def kDefined (op : Nat) : Bool :=
  [0x00, 0x01, 0x02, 0x03, 0x10, 0x11, 0x12, 0x20, 0x21, 0x22, 0x23, 0x24, 0x25, 0x26, 0x30, 0x31, 0x32,
    0x33].contains op

/-- Whether a request is authenticated. -/
def kAuthenticated (s : State) (op : Nat) : Bool := s.key.fuse != .blank && op != 0x00 && op != 0x02

/-- Whether the lifecycle and the debug level permit a request (R441, R459). While a zeroize runs, none that
opens a vault is (log entry 23). -/
def kPermitted (s : State) (op : Nat) : Bool :=
  let l := s.lifecycle
  let free := s.kpr.debug != .invasive
  match op with
  | 0x00 => true
  | 0x01 => true
  | 0x02 => true
  | 0x25 => true
  | 0x03 => l != .retired
  | 0x10 => l == .operational || l == .quarantined
  | 0x11 => l == .operational || l == .quarantined
  | 0x12 => l == .operational || l == .quarantined
  | 0x20 => l == .operational || l == .quarantined
  | 0x21 => l != .blank
  | 0x22 => l == .operational
  | 0x23 => l == .operational
  | 0x24 => l != .blank
  | 0x26 => l != .blank
  | 0x30 => (l == .blank || l == .quarantined) && free && s.key.zeroizing.isNone
  | 0x31 => l == .quarantined && free && s.key.zeroizing.isNone
  | 0x32 => l == .quarantined
  | 0x33 => (l == .operational || l == .quarantined) && free
  | _ => false

/-- Whether a PAYLOAD length is allowed by the request's row. -/
def kLenOk (op n : Nat) : Bool :=
  match op with
  | 0x00 => true
  | 0x03 => decide (3 ≤ n) && decide (n ≤ 232)
  | 0x10 => decide (6 ≤ n) && decide (n ≤ 130) && n % 4 == 2
  | 0x21 => n == 2
  | 0x25 => n == 1
  | _ => n == 0

/-- Counts a wrapping counter of the KPR block (R447). -/
def kCount (a : Nat) (s : State) : State := s.wr a ((s.rd a + 1) % 2 ^ 32)

/-- An AUTH failure: counted, and the sixteenth in a row starts a lockout (R439). -/
def authFail (s : State) : State :=
  let n := s.kpr.authRun + 1
  let s := kCount Reg.KPR_AUTH_FAILS s
  if n < 16 then { s with kpr := { s.kpr with authRun := n } }
  else keeperAlarm (2 ^ 8) (syncStatus { s with kpr := { s.kpr with authRun := 0, lockout := true } })

/-- Writes KSEQ in the enrolment record and shows it. -/
def consumeSeq (n : Nat) (s : State) : State :=
  let s := setRecord (fun e => { e with kseq := n }) s
  (s.wr (Reg.KPR_SEQ 0) (n % 2 ^ 32)).wr (Reg.KPR_SEQ 1) (n / 2 ^ 32)

/-- Checks 2 to 7 on a frame that passed check 1: the state they leave and the STATUS of the first failure,
0 for none. -/
def kCheck (r : Bytes) (s : State) : State × Nat :=
  let op := kOp r
  let auth := kAuthenticated s op
  let late := fun (s : State) =>
    if !kDefined op then 0x20 else if !kPermitted s op then 0x21
    else if !kLenOk op (byteAt r 3) then 0x22 else 0x00
  if !auth then (s, late s)
  else if s.kpr.lockout then (s, 0x13)
  else if slice r (12 + byteAt r 3) 16 ≠ kMac s (r.take (12 + byteAt r 3)) then (authFail s, 0x11)
  else
    let s := { s with kpr := { s.kpr with authRun := 0 } }
    if kSeq r ≤ (s.key.record.map EnrolRecord.kseq).getD 0 then (kCount Reg.KPR_REPLAYS s, 0x12)
    else
      let s := consumeSeq (kSeq r) s
      let c := late s
      (if c = 0 then kCount Reg.KPR_CMDS s else s, c)

/-- What a request answers: the state it leaves, STATUS and data. -/
structure KAnswer where
  state : State
  status : Nat
  data : Bytes

/-- OK without data. -/
def kDone (s : State) : KAnswer := ⟨s, 0x00, []⟩

/-- A request of opcode `op`: the checks, then `act` on its PAYLOAD, and the response. -/
def keeperRequest (op : Nat) (act : Bytes → State → KAnswer) (r : Bytes) (s : State) : State :=
  if kFrameOk r = false ∨ kOp r ≠ op then s
  else kTransact (fun s =>
    let c := kCheck r s
    if c.2 ≠ 0 then kRespond r c.2 [] c.1
    else
      let a := act (kPayload r) c.1
      kRespond r a.status a.data a.state) s

/-- A frame that fails check 1. -/
def keeperBadFrame (r : Bytes) (s : State) : State :=
  if kFrameOk r then s else kTransact (kRespond r 0x10 []) s

/-- A request with an undefined opcode. -/
def keeperBadOpcode (r : Bytes) (s : State) : State :=
  if kFrameOk r = false ∨ kDefined (kOp r) = true then s
  else kTransact (fun s => let c := kCheck r s; kRespond r c.2 [] c.1) s

/-- NOP collects the response and has none of its own. -/
def keeperNop (r : Bytes) (s : State) : State :=
  if kFrameOk r = false ∨ kOp r ≠ 0 then s else kTransact (fun s => s) s

/-- The lockout ends after 1 s. -/
def lockoutExpire (s : State) : State := syncStatus { s with kpr := { s.kpr with lockout := false } }

/-! ## Status, challenge, staging buffer (R441 to R444) -/

/-- GET_STATUS. -/
def kGetStatus (_ : Bytes) (s : State) : KAnswer :=
  ⟨s, 0x00, beBytes 4 (s.rd Reg.KPR_STATUS) ++ beBytes 4 (s.rd Reg.KPR_ALARM) ++ beBytes 4 (s.rd Reg.KEY_TAMPER) ++
    beBytes 4 (s.rd Reg.KEY_ZCOUNT) ++ beBytes 4 (s.rd Reg.KPR_GEN)⟩

/-- GET_CHALLENGE. -/
def kGetChallenge (_ : Bytes) (s : State) : KAnswer := ⟨s, 0x00, challenge s⟩

/-- Size of the staging buffer. -/
def bufferSize : Nat := 16384

/-- LOAD_SEG. -/
def kLoadSeg (p : Bytes) (s : State) : KAnswer :=
  let o := beAt p 0 2
  let d := p.drop 2
  if bufferSize < o + d.length then ⟨s, 0x22, []⟩
  else
    let old := if o = 0 then [] else s.kpr.buffer
    kDone { s with kpr := { s.kpr with buffer := splice (padTo (o + d.length) old) o d } }

/-! ## The keeper image (R445 to R448) -/

/-- BAR0 address of mirror offset 0. -/
def kprBase : Nat := 0x300000

/-- Offsets of the 320 words of the image. -/
def imageOffsets : List Nat := (List.range 320).map (fun i => 0x100 + 4 * i)

/-- A word of the staged image. -/
def stagedWord (s : State) (a : Nat) : Nat :=
  match Tbl.get (fun _ => none) s.kpr.staged a with
  | some w => w.toNat
  | none => s.rd a

/-- IMG_WRITE. -/
def kImgWrite (p : Bytes) (s : State) : KAnswer :=
  let o := beAt p 0 2
  let n := (p.length - 2) / 4
  if o % 4 ≠ 0 ∨ o < 0x100 ∨ 0x600 < o + 4 * n then ⟨s, 0x22, []⟩
  else
    let t := (List.range n).foldl (fun t i =>
      Tbl.set (fun _ => none) t (kprBase + o + 4 * i) (some (word (beAt p (2 + 4 * i) 4)))) s.kpr.staged
    kDone (syncStatus { s with kpr := { s.kpr with staged := t } })

/-- IMG_DISCARD. -/
def kImgDiscard (_ : Bytes) (s : State) : KAnswer := kDone (syncStatus { s with kpr := { s.kpr with staged := [] } })

/-- The bits of a register that its fields define. -/
def definedBits (a : Nat) : Nat :=
  (regFields a).foldl (fun m f => m ||| ((2 ^ f.width - 1) * 2 ^ f.lsb)) 0

/-- The range of an image word that R447 states beside its field widths. -/
def imageRange (o w : Nat) : Bool :=
  if o = 0x100 then decide (field w 8 4 ≤ 8)
  else if o = 0x104 then decide (field w 8 24 ≤ 3600000)
  else if o = 0x114 then decide (field w 0 12 ≤ 3600)
  else if 0x480 ≤ o ∧ o < 0x500 then decide (64 ≤ w) && decide (w ≤ 16777216)
  else true

/-- The staged image passes R446. -/
def imageLegal (s : State) : Bool :=
  imageOffsets.all (fun o =>
    let w := stagedWord s (kprBase + o)
    w &&& definedBits (kprBase + o) == w && imageRange o w) &&
  (List.range (field (stagedWord s Reg.KPR_C7_FLAGS) 8 4)).all (fun r =>
    ruleLegal ((List.range 4).flatMap (fun j => leBytes 4 (stagedWord s (Reg.KPR_C7_RULE r j)))) 7)

/-- The words of the image in force that differ from their defaults. -/
def imageTbl (s : State) : Tbl Word := s.regs.filter (fun e => decide (kprBase + 0x100 ≤ e.1) && decide (e.1 < kprBase + 0x600))

/-- Sets the debug level; a DEBUG event marks a change, and the trace stops outside Observe. -/
def setDebug (l : DebugLevel) (s : State) : State :=
  if s.kpr.debug = l then s
  else
    let s := { s with kpr := { s.kpr with debug := l }, dbg := { s.dbg with running := s.dbg.running && l != .closed } }
    let s := syncStatus s
    evqPost 0x0E 3 (s.rd Reg.KPR_STATUS) 0 0 0 s

/-- Class 7 bucket of a line port after its RATE or DEPTH changed: the NORMAL rule, whatever SCH_SVC holds. -/
def retune7 (p : Nat) (old : Nat × Nat × Bool) (s : State) : State :=
  let new := bucketOf s p 7
  let t := (s.portAt (32 + p)).tokens.getD 7 0
  if new.2.2 && !old.2.2 then setTokens p 7 (8 * new.2.1) s
  else if new = old then s
  else setTokens p 7 (min (8 * new.2.1 : Int) t) s

/-- The effects of a new image on what already runs (R448). -/
def imageEffects (oldB : List (Nat × Nat × Bool)) (oldGap : Nat) (s : State) : State :=
  let s := (List.range 32).foldl (fun s p => retune7 p (oldB.getD p (0, 0, false)) s) (syncRes7 s)
  let s := if !Nat.testBit oldGap 0 || s.bit Reg.KPR_GAP 0 then s
    else (Tbl.keys s.sec.tx).foldl (fun s i => if (s.scAt false i).gap then gapEmpty i s else s) s
  let s := if s.kpr.debug = .observe ∧ s.bit Reg.KPR_OBSERVE 0 = false ∧ s.lifecycle != .blank then setDebug .closed s
    else s
  checkBypass s

/-- Puts image words in force and applies them. -/
def putImage (f : Nat → Nat) (s : State) : State :=
  let oldB := (List.range 32).map (fun p => bucketOf s p 7)
  let oldGap := s.rd Reg.KPR_GAP
  let s := imageOffsets.foldl (fun s o => s.wr (kprBase + o) (f (kprBase + o))) s
  let s := s.wrBytes (Reg.KPR_DIGEST 0) (sha384 (imageBytes s))
  imageEffects oldB oldGap s

/-- Keeps the image in force in the record, and in the vault while it is open. -/
def saveImage (s : State) : State :=
  let t := imageTbl s
  let s := setRecord (fun e => { e with image := t }) s
  if s.key.vaultOpen then s.putVault .image (fun v => { v with image := t }) else s

/-- IMG_COMMIT; a record write that fails leaves the image in force and the staged one (R442, R446). -/
def kImgCommit (written : Bool) (_ : Bytes) (s : State) : KAnswer :=
  if !imageStaged s then ⟨s, 0x23, []⟩
  else if !imageLegal s then ⟨s, 0x22, []⟩
  else if !written then ⟨s, 0x37, []⟩
  else
    let f := stagedWord s
    let s := saveImage (putImage f { s with kpr := { s.kpr with staged := [] } })
    let s := syncGen (setRecord (fun e => { e with imageGen := e.imageGen + 1 }) s)
    let s := syncPorts (followTrunks (syncStatus s))
    let s := evqPost 0x0E 1 (s.rd Reg.KPR_GEN) 0 0 0 s
    ⟨s, 0x00, beBytes 4 (s.rd Reg.KPR_GEN)⟩

/-! ## Alarms and simple requests (R441, R449) -/

/-- Keeper alarm bits whose condition is present. -/
def alarmPresent (s : State) : Nat :=
  (s.rd Reg.KEY_TAMPER % 64) + 2 ^ 6 * b2n (bypassDenied s) + 2 ^ 7 * b2n (s.bit Reg.KEY_STATUS 2) +
  2 ^ 8 * b2n s.kpr.lockout +
  2 ^ 10 * b2n ((Tbl.keys s.sec.tx).any (fun i => (s.scAt false i).gap && isK7 s false i)) +
  2 ^ 11 * b2n (s.lifecycle == .quarantined)

/-- ALARM_CLEAR: bits whose condition persists stay set, with no report. -/
def kAlarmClear (p : Bytes) (s : State) : KAnswer :=
  let old := s.rd Reg.KPR_ALARM
  let mask := beAt p 0 2 % 4096
  let new := (old &&& (4095 ^^^ mask)) ||| (old &&& mask &&& alarmPresent s)
  let s := s.wr Reg.KPR_ALARM new
  let s := if old ≠ 0 ∧ new = 0 then s.emit (.pin "KALARM_N" true) else s
  ⟨s, 0x00, beBytes 4 new⟩

/-- ZEROIZE. -/
def kZeroize (_ : Bytes) (s : State) : KAnswer := kDone (zeroizeFrom 7 s)

/-- TRIGGER. -/
def kTrigger (_ : Bytes) (s : State) : KAnswer :=
  kDone (if s.bit Reg.KPR_TRIG_ROUTE 1 then evidenceTrigger 1 s else s)

/-- TAKEOVER: STATE when it is not permitted or the pair is not fit for it. -/
def kTakeover (_ : Bytes) (s : State) : KAnswer :=
  if takeoverCode 0 s = 0 then kDone (takeoverStart s) else ⟨s, 0x21, []⟩

/-- WARM_RESET: performed 10 ms after the response is ready. -/
def kWarmReset (_ : Bytes) (s : State) : KAnswer := kDone { s with pwr := { s.pwr with keeperReset := true } }

/-- The 10 ms have passed. -/
def keeperDelay (s : State) : State :=
  if s.pwr.keeperReset then warmTrigger 3 { s with pwr := { s.pwr with keeperReset := false } } else s

/-- NO_INVASIVE, unless the fuse write fails. -/
def kNoInvasive (written : Bool) (_ : Bytes) (s : State) : KAnswer :=
  if written then kDone (syncStatus { s with key := { s.key with noInvasive := true } }) else ⟨s, 0x37, []⟩

/-! ## Debug levels (R454) -/

/-- Invasive is entered with a zeroize; scan access follows ZDONE. -/
def enterInvasive (s : State) : State :=
  if s.kpr.debug = .invasive then s
  else zeroizeFrom 9 (setDebug .invasive { s with key := { s.key with invasiveDue := true } })

/-- DEBUG_LEVEL. -/
def kDebugLevel (p : Bytes) (s : State) : KAnswer :=
  let l := byteAt p 0
  let blank := s.lifecycle == .blank
  if 2 < l then ⟨s, 0x22, []⟩
  else if l = 2 then
    if !blank then ⟨s, 0x21, []⟩
    else if s.key.noInvasive then ⟨s, 0x35, []⟩
    else kDone (enterInvasive s)
  else if s.kpr.debug = .invasive then ⟨s, 0x21, []⟩
  else if l = 1 then
    if blank || s.bit Reg.KPR_OBSERVE 0 then kDone (setDebug .observe s) else ⟨s, 0x21, []⟩
  else kDone (setDebug .closed s)

/-! ## Enrolment and lifecycle tokens (R450 to R452) -/

/-- The package in the staging buffer, zero beyond what was loaded. -/
def package (s : State) : Bytes := exactly bufferSize s.kpr.buffer

/-- Runs a request that reads the buffer: a package that passes its check 1 draws a new challenge, and the
buffer is cleared whatever the outcome (R443, R444). A challenge that has served its attempt serves no other. -/
def kPackage (formOk : Bytes → Bool) (act : Bytes → Bytes → State → KAnswer) (s : State) : KAnswer :=
  let b := package s
  let c := if s.kpr.challengeDue then [] else challenge s
  let s := { s with kpr := { s.kpr with buffer := [] } }
  if formOk b then act b c (newChallenge s) else ⟨s, 0x30, []⟩

/-- A vault key is drawn: the vault is empty at generation 0 but for the image (R258, R451). -/
def newVault (s : State) : State :=
  let s := { s with key := { s.key with vaultOpen := true, vaultKey := s.drbg 32, vault := {} } }.drawn
  let s := s.putVault .image (fun v => { v with image := imageTbl s })
  syncSlots (syncKey (s.setBit Reg.KEY_STATUS 5 false))

/-- The lifecycle has changed: reports, and what the spans run as. -/
def lifecycleChanged (s : State) : State :=
  let s := syncGen (syncKey (syncStatus s))
  let s := evqPost 0x0E 2 (s.rd Reg.KPR_STATUS) (s.rd Reg.KEY_ZCOUNT) 0 0 s
  checkBypass (syncPorts (followTrunks s))

/-- SHA-384 over both key-authority keys. -/
def kaHashOf (ec ml : Bytes) : Bytes := sha384 (ec ++ ml)

/-- Whether a key-authority hash is the record's. -/
def kaKnown (s : State) (h : Bytes) : Bool := s.key.record.map EnrolRecord.kaHash == some h

/-- The enrolment package's form (R451 step 1). -/
def enrolForm (b : Bytes) : Bool :=
  slice b 0 4 == [0x4D#8, 0x59#8, 0x45#8, 0x4E#8] && beAt b 8 8 == 0 && beAt b 0xC1 7 == 0 && beAt b 0x240B 5 == 0

/-- The keeper key that the package wraps, if it unwraps to the generation asked for (R451 step 5). -/
def enrolKey (b c : Bytes) (gen : Nat) : Option Bytes :=
  let eph := slice b 0x60 97
  if !ecPointValid eph then none
  else
    let info := [0x4D#8, 0x59#8, 0x45#8, 0x4E#8] ++ slice b 4 4 ++ zeros 9
    match kwUnwrap (hybridKey c eph (slice b 0xC8 1568) info) (slice b 0x6E8 48) with
    | none => none
    | some p =>
      if byteAt p 0 = 0x4B ∧ beAt p 2 2 = 0 ∧ beAt p 4 4 = gen then some (slice p 8 32) else none

/-- Writes the record of an enrolment: anew in Blank; in Quarantined UNIT, the keeper key and KPR_PAT_HASH are
replaced and the flag is cleared (R451 step 6). -/
def enrolWrite (b key : Bytes) (gen : Nat) (s : State) : State :=
  let hash := slice b 0x30 48
  let s := putImage (fun a =>
    if Reg.KPR_PAT_HASH 0 ≤ a ∧ a < Reg.KPR_PAT_HASH 0 + 48 then leAt hash (a - Reg.KPR_PAT_HASH 0) 4 else s.rd a) s
  let unit := beAt b 4 4
  let r : EnrolRecord :=
    match s.key.fuse, s.key.record with
    | .enrolled, some r =>
      { r with unit := unit, keeperKey := key, keyGen := gen, image := imageTbl s, quarantined := false }
    | _, _ =>
      { unit := unit, kaHash := kaHashOf (slice b 0x718 96) (slice b 0x778 2592), keeperKey := key, keyGen := gen,
        image := imageTbl s, zcount := 0, zsrc := 0, tkFloor := 0, quarantined := false, kseq := 0, imageGen := 0,
        stops := 0 }
  let s := freshMasks keeperWord 4 s
  let s := { s with key := { s.key with fuse := .enrolled, keeperCopy := key } }
  consumeSeq r.kseq (writeRecord r s)

/-- Generation of the keeper key that an enrolment brings: 1 in Blank, else one more (R451). -/
def enrolGen (s : State) : Nat :=
  if s.lifecycle == .blank then 1 else (s.key.record.map EnrolRecord.keyGen).getD 0 + 1

/-- The checks of an enrolment package after its form, and the write of the record: its STATUS, 0 for none. The vault key
and masks need the DRBG (R228, R451). -/
def enrolCode (s : State) (written : Bool) (b c : Bytes) : Nat :=
  let ec := slice b 0x718 96
  let ml := slice b 0x778 2592
  let m := b.take 0x1198
  if s.lifecycle != .blank && !kaKnown s (kaHashOf ec ml) then 0x31
  else if !ecdsaVerify ec m (slice b 0x1198 96) ||
      !mldsaVerify ml (sha384 m) [0x4D#8, 0x59#8, 0x45#8, 0x4E#8] (slice b 0x11F8 4627) then 0x32
  else if slice b 0x10 32 ≠ c ∨ beAt b 4 4 = 0 ∨ 262143 < beAt b 4 4 then 0x33
  else if (enrolKey b c (enrolGen s)).isNone then 0x36
  else if drbgOff s || !written then 0x37
  else 0x00

/-- ENROL (R451). -/
def kEnrol (written : Bool) (_ : Bytes) (s : State) : KAnswer :=
  kPackage enrolForm (fun b c s =>
    let code := enrolCode s written b c
    if code ≠ 0 then ⟨s, code, []⟩
    else
      let key := (enrolKey b c (enrolGen s)).getD []
      let s := lifecycleChanged (newVault (enrolWrite b key (enrolGen s) s))
      ⟨s, 0x00, beBytes 4 s.unit⟩) s

/-- The token's form (R452 check 1). -/
def tokenForm (type : Nat) (b : Bytes) : Bool :=
  slice b 0 4 == [0x4D#8, 0x59#8, 0x4C#8, 0x43#8] && byteAt b 4 == type && beAt b 5 3 == 0 && beAt b 7459 5 == 0

/-- Checks 2 to 4 of a token: its STATUS, 0 for none. -/
def tokenCode (s : State) (b c : Bytes) : Nat :=
  let ec := slice b 48 96
  let ml := slice b 144 2592
  let m := b.take 2736
  if !kaKnown s (kaHashOf ec ml) then 0x31
  else if !ecdsaVerify ec m (slice b 2736 96) ||
      !mldsaVerify ml (sha384 m) [0x4D#8, 0x59#8, 0x4C#8, 0x43#8] (slice b 2832 4627) then 0x32
  else if beAt b 8 4 ≠ s.unit ∨ beAt b 12 4 ≠ s.rd Reg.KEY_ZCOUNT ∨ slice b 16 32 ≠ c then 0x33
  else 0x00

/-- A source that would zeroize is present. -/
def tamperPresent (s : State) : Bool :=
  (List.range 11).any (fun i => s.bit Reg.KEY_TAMPER i && zeroizes (s.rd Reg.KPR_TAMPER_RESP) i)

/-- RELEASE (R258). -/
def kRelease (written : Bool) (_ : Bytes) (s : State) : KAnswer :=
  kPackage (tokenForm 1) (fun b c s =>
    let code := tokenCode s b c
    if code ≠ 0 then ⟨s, code, []⟩
    else if tamperPresent s then ⟨s, 0x34, []⟩
    else if drbgOff s || !written then ⟨s, 0x37, []⟩
    else kDone (lifecycleChanged (newVault (setRecord (fun r => { r with quarantined := false }) s)))) s

/-- UNLOCK (R454). -/
def kUnlock (_ : Bytes) (s : State) : KAnswer :=
  kPackage (tokenForm 2) (fun b c s =>
    let code := tokenCode s b c
    if code ≠ 0 then ⟨s, code, []⟩
    else if s.key.noInvasive then ⟨s, 0x35, []⟩
    else kDone (enterInvasive s)) s

/-- RETIRE (R450): a zeroize with source KEEPER, then the fuse; one that cannot be blown is a record fault after the
zeroize (log entry 122). -/
def kRetire (written : Bool) (_ : Bytes) (s : State) : KAnswer :=
  kPackage (tokenForm 3) (fun b c s =>
    let code := tokenCode s b c
    if code ≠ 0 then ⟨s, code, []⟩
    else if written then kDone (zeroizeFrom 7 { s with key := { s.key with retireDue := true } })
    else ⟨zeroizeFrom 7 s, 0x37, []⟩) s

end Sys2Proof.Machine
end

