-- ==== Sys2Proof/Machine/Pattern.lean ====
section
/-! DEFINITION. The Pattern: the container and its acceptance checks in the order of their result codes,
staging, the vault slots, differences, cuts and re-cuts, the start-up load (R34 to R77). -/

namespace Sys2Proof.Machine

/-! ## The container (R36 to R40, R59) -/

/-- A location of PAT_REJ_INFO: SECT and BYTE. -/
abbrev Loc := Nat × Nat

/-- OFFSET of section `t`. -/
def secOff (b : Bytes) (t : Nat) : Nat := leAt b (48 + 16 * t + 4) 4
/-- LENGTH of section `t`. -/
def secLen (b : Bytes) (t : Nat) : Nat := leAt b (48 + 16 * t + 8) 4
/-- The bytes of section `t`. -/
def sect (b : Bytes) (t : Nat) : Bytes := slice b (secOff b t) (secLen b t)

/-- Offset of the block of LPm in SCHED (R52). -/
def schedPos (x : Bytes) : Nat → Nat
  | 0 => 0
  | m + 1 => schedPos x m + 32 + 8 * leAt x (schedPos x m + 2) 2

/-- The LENGTH that R40 gives a section, from its own counts. -/
def secExpect (x : Bytes) (t : Nat) : Nat :=
  match t with
  | 1 => 512 | 2 => 512 | 3 => 64 | 4 => 16 | 5 => 16
  | 6 => 36 + 16 * leAt x 0 2
  | 7 => schedPos x 32
  | 8 => 168 | 13 => 32
  | _ => 8

/-- SIG_OFF. -/
def sigOff (b : Bytes) : Nat := leAt b 0x24 4
/-- TOTAL_LEN. -/
def totalLen (b : Bytes) : Nat := leAt b 8 4
/-- SERIAL. -/
def patSerial (b : Bytes) : Nat := leAt b 0x1C 4

/-- M of R60: everything before the signature block. -/
def patBody (b : Bytes) : Bytes := if sigOff b = 0 then b else b.take (sigOff b)

/-- Offset of the first nonzero byte among `n` bytes from `o`. -/
def firstNonzero (b : Bytes) (o n : Nat) : Option Nat := (List.range n).findSome? (fun k =>
  if byteAt b (o + k) ≠ 0 then some (o + k) else none)

/-! ## Reading a container whose table is right (R42 to R58) -/

/-- PORTS entry p. -/
def portOf (b : Bytes) (p : Nat) : PortCfg :=
  let x := sect b 1
  { type := byteAt x (8 * p), first := byteAt x (8 * p + 1), fec := byteAt x (8 * p + 2), flow := byteAt x (8 * p + 3) }

/-- MODE of R22; none is 0xFF, an undefined span. -/
def modeOf : Nat → Option SpanMode
  | 0 => some .frame | 1 => some .trunk | 2 => some .bypass | 3 => some .discard | _ => none

/-- SPANS entry n. -/
def spanOf (b : Bytes) (n : Nat) : SpanCfg :=
  let x := sect b 2
  { mode := modeOf (byteAt x (16 * n)), line := byteAt x (16 * n + 1), clients := leAt x (16 * n + 4) 4,
    units := leAt x (16 * n + 8) 2 }

/-- SCHED block of LPm. -/
def schedOf (b : Bytes) (m : Nat) : SchedCfg :=
  let x := sect b 7
  let o := schedPos x m
  { allot := leAt x o 2, tb := byteAt x (o + 4), gatesEn := byteAt x (o + 5) == 1, cycle := leAt x (o + 8) 4,
    phase := leAt x (o + 12) 4, weights := (List.range 7).map (fun c => leAt x (o + 16 + 2 * c) 2),
    entries := (List.range (leAt x (o + 2) 2)).map (fun j =>
      { dur := leAt x (o + 32 + 8 * j) 4, gates := byteAt x (o + 36 + 8 * j) }) }

/-- Class entry c of CLASSES. -/
def classEntry (b : Bytes) (c : Nat) : ClassCfg :=
  let x := sect b 6
  let f := byteAt x (10 + 4 * c)
  { integrityOnly := byteAt x (8 + 4 * c) == 1, verifyLate := byteAt x (9 + 4 * c) == 1, evidence := f.testBit 0,
    spill := f.testBit 1 }

/-- The Pattern that a container describes. -/
def patternOf (b : Bytes) : Pattern :=
  let tm := sect b 8
  { container := b, digest := sha384 (patBody b), signed := sigOff b != 0, lifecycles := leAt b 0x14 2,
    serial := patSerial b, ports := (List.range 64).map (portOf b), spans := (List.range 32).map (spanOf b),
    shares := (List.range 32).map (fun n => leAt (sect b 3) (2 * n) 2),
    memSize := (List.range 5).map (byteAt (sect b 4)), fenceOrder := (List.range 5).map (fun i => byteAt (sect b 4) (8 + i)),
    layout := byteAt (sect b 5) 0, ageDefault := leAt (sect b 5) 4 4, learnMask := leAt (sect b 5) 8 4,
    defaultClass := byteAt (sect b 6) 2, classes := (List.range 7).map (classEntry b),
    rules := (List.range (leAt (sect b 6) 0 2)).map (fun i => ruleOf (slice (sect b 6) (36 + 16 * i) 16)),
    sched := (List.range 32).map (schedOf b),
    bases := (List.range 4).map (fun i =>
      { enabled := byteAt tm (8 * i) == 1, src := byteAt tm (8 * i + 1), fref := byteAt tm (8 * i + 2) == 1 }),
    ppsTb := byteAt tm 32, todTxTb := byteAt tm 33, f10mTb := byteAt tm 34, todRxTb := byteAt tm 35,
    stampTb := (List.range 32).map (fun n => byteAt tm (40 + 4 * n)),
    tcMode := (List.range 32).map (fun n => byteAt tm (41 + 4 * n)),
    ksMode := byteAt (sect b 9) 0, ksPeriod := leAt (sect b 9) 4 4,
    plan := byteAt (sect b 10) 0, trim := byteAt (sect b 10) 1 == 1,
    cflags := byteAt (sect b 11) 0, cinchTb := byteAt (sect b 11) 1, heartbeatMs := leAt (sect b 11) 2 2,
    role := byteAt (sect b 12) 0, mirror := byteAt (sect b 12) 1, peerUnit := leAt (sect b 12) 4 4,
    order := (List.range 32).map (byteAt (sect b 13)) }

/-! ## Header checks, codes 0x10 to 0x18 (R63) -/

/-- The location list of one check: its location when the check fails. -/
def failsAt (bad : Bool) (l : Loc) : List Loc := if bad then [l] else []

/-- The signature block lies where R59 places it, in `n` bytes fetched. -/
def sigPlaced (b : Bytes) (n : Nat) : Bool :=
  sigOff b != 0 && sigOff b % 64 == 0 && sigOff b + 7424 == totalLen b && totalLen b == n

/-- BAD_MAGIC. -/
def magicBad (b : Bytes) : List Loc :=
  failsAt (slice b 0 4 != [0x4D#8, 0x59#8, 0x50#8, 0x54#8]) (0, 0) ++ failsAt (leAt b 6 2 != 64) (0, 6) ++
  failsAt (sigPlaced b b.length && slice b (sigOff b) 4 != [0x4D#8, 0x59#8, 0x53#8, 0x47#8]) (0, sigOff b)

/-- BAD_FORMAT. -/
def formatBad (b : Bytes) : List Loc :=
  failsAt (leAt b 4 2 != 1) (0, 4) ++ failsAt (8 ≤ leAt b 0x14 2) (0, 0x14) ++ failsAt (leAt b 0x16 2 != 0) (0, 0x16) ++
  failsAt (leAt b 0x18 2 != 13) (0, 0x18) ++ failsAt (leAt b 0x1A 2 != 1) (0, 0x1A) ++
  (match firstNonzero b 0x34 8 with
   | some o => [(0, o)]
   | none => [])

/-- BAD_LENGTH. -/
def lengthBad (b : Bytes) : List Loc :=
  let t := totalLen b
  let o := sigOff b
  let off := o != 0 && (o % 64 != 0 || decide (o < 272) || o + 7424 != t)
  failsAt (decide (1048576 < t) || decide (t < 272) || t != b.length) (0, 8) ++ failsAt off (0, 0x24) ++
  failsAt (o != 0 && !off && leAt b (o + 4) 4 != 7424) (0, o + 4)

/-- HDR_CRC. -/
def crcBad (b : Bytes) : List Loc :=
  failsAt (crc32c (slice b 64 208) != leAt b 0x30 4) (0, 0x30) ++ failsAt (crc32c (b.take 0x3C) != leAt b 0x3C 4) (0, 0x3C)

/-- Whether LIFECYCLE permits the present lifecycle; Retired permits none. -/
def lifecycleOk (s : State) (mask : Nat) : Bool :=
  match s.lifecycle with
  | .blank => mask.testBit 0
  | .operational => mask.testBit 1
  | .quarantined => mask.testBit 2
  | .retired => false

/-- WRONG_UNIT. -/
def unitBad (s : State) (b : Bytes) : Bool :=
  let u := leAt b 0x20 4
  u != 0 && (s.lifecycle == .blank || u != s.unit)

/-! ## The section table, codes 0x20 and 0x21 -/

/-- End of what precedes section `t`: the section table, or the section before. -/
def prevEnd (b : Bytes) (t : Nat) : Nat := if t ≤ 1 then 272 else secOff b (t - 1) + secLen b (t - 1)

/-- Where the sections end: the signature block, or the container. -/
def secLimit (b : Bytes) : Nat := if sigOff b = 0 then totalLen b else sigOff b

/-- SECT_TABLE. A LENGTH that disagrees with the counts in its section is located at LENGTH (DEDUCED, log entry 139). -/
def tableBad (b : Bytes) : List Loc :=
  let entries := ((List.range 13).map (· + 1)).flatMap (fun t =>
    let e := 48 + 16 * t
    let o := secOff b t
    let n := secLen b t
    failsAt (leAt b e 2 != t) (0, e) ++ failsAt (leAt b (e + 2) 2 != 1) (0, e + 2) ++
    failsAt (o % 64 != 0 || decide (o < prevEnd b t)) (0, e + 4) ++
    failsAt (decide (secLimit b < o + n) || n != secExpect (sect b t) t) (0, e + 8))
  if !entries.isEmpty then entries
  else
    let pads := ((List.range 13).map (· + 1)).map (fun t => (prevEnd b t, secOff b t - prevEnd b t)) ++
      [(prevEnd b 14, secLimit b - prevEnd b 14)] ++
      (if sigOff b = 0 then [] else [(sigOff b + 7419, 5)])
    pads.flatMap (fun p => match firstNonzero b p.1 p.2 with
      | some o => [(0, o)]
      | none => [])

/-- SECT_CRC: a wrong CRC, or a burst of scratch that reads uncorrectable within the section (R384). -/
def sectionBad (b : Bytes) (bad : List Nat) : List Loc :=
  ((List.range 13).map (· + 1)).flatMap (fun t =>
    failsAt (crc32c (sect b t) != leAt b (48 + 16 * t + 12) 4 ||
      bad.any (fun k => decide (secOff b t < 64 * (k + 1)) && decide (64 * k < secOff b t + secLen b t))) (t, 0))

/-! ## The signature, codes 0x30 to 0x33 (R60, R61) -/

/-- Whether KEY_HASH fails: only an enrolled module compares. -/
def keyHashBad (s : State) (b : Bytes) : Bool :=
  s.lifecycle != .blank && sigOff b != 0 && sha384 (slice b (sigOff b + 8) 2688) != s.rdBytes (Reg.KPR_PAT_HASH 0) 12

/-- SIG_EC fails. -/
def sigEcBad (b : Bytes) : Bool :=
  sigOff b != 0 && !ecdsaVerify (slice b (sigOff b + 8) 96) (patBody b) (slice b (sigOff b + 2696) 96)

/-- SIG_MLDSA fails. -/
def sigMlBad (b : Bytes) : Bool :=
  sigOff b != 0 && !mldsaVerify (slice b (sigOff b + 104) 2592) (sha384 (patBody b))
    [0x4D#8, 0x59#8, 0x50#8, 0x54#8] (slice b (sigOff b + 2792) 4627)

/-! ## RANGE (R41) -/

/-- A field of section `t` outside `lo` to `hi`. -/
def outOf (x : Bytes) (t o n lo hi : Nat) : List Loc := failsAt (leAt x o n < lo || hi < leAt x o n) (t, o)

/-- A reserved field that is not zero: its first nonzero byte (DEDUCED, log entry 24). -/
def reserved (x : Bytes) (t o n : Nat) : List Loc :=
  match firstNonzero x o n with
  | some k => [(t, k)]
  | none => []

/-- Line ports that a span names, bit m for LPm. -/
def linesOf (b : Bytes) : List Nat :=
  (List.range 32).filterMap (fun n => if (spanOf b n).mode.isSome then some (spanOf b n).line else none)

/-- RANGE in PORTS and SPANS. -/
def rangePorts (b : Bytes) : List Loc :=
  let x := sect b 1
  let y := sect b 2
  (List.range 64).flatMap (fun p => outOf x 1 (8 * p) 1 0 7 ++ outOf x 1 (8 * p + 1) 1 0 31 ++
    outOf x 1 (8 * p + 2) 1 0 2 ++ outOf x 1 (8 * p + 3) 1 0 (if p < 32 then 2 else 0) ++ reserved x 1 (8 * p + 4) 4) ++
  (List.range 32).flatMap (fun n => failsAt (3 < byteAt y (16 * n) && byteAt y (16 * n) != 0xFF) (2, 16 * n) ++
    outOf y 2 (16 * n + 1) 1 0 31 ++ reserved y 2 (16 * n + 2) 2 ++ reserved y 2 (16 * n + 10) 6)

/-- RANGE in MEMORY, TABLES and CLASSES. -/
def rangeTables (b : Bytes) : List Loc :=
  let m := sect b 4
  let t := sect b 5
  let c := sect b 6
  outOf m 4 1 1 1 255 ++ outOf m 4 3 1 0 96 ++ outOf m 4 4 1 2 255 ++ reserved m 4 5 3 ++
  (List.range 5).flatMap (fun i => outOf m 4 (8 + i) 1 0 4) ++ reserved m 4 13 3 ++
  outOf t 5 0 1 0 1 ++ reserved t 5 1 3 ++ outOf t 5 4 4 16 1000000 ++ reserved t 5 12 4 ++
  outOf c 6 0 2 0 64 ++ outOf c 6 2 1 0 6 ++ reserved c 6 3 5 ++
  (List.range 7).flatMap (fun k => outOf c 6 (8 + 4 * k) 1 0 1 ++ outOf c 6 (9 + 4 * k) 1 0 1 ++
    outOf c 6 (10 + 4 * k) 1 0 (if k < 4 then 3 else 1) ++ reserved c 6 (11 + 4 * k) 1) ++
  (List.range (leAt c 0 2)).flatMap (fun i => outOf c 6 (36 + 16 * i) 1 1 8 ++ outOf c 6 (37 + 16 * i) 1 0 6 ++
    reserved c 6 (38 + 16 * i) 2)

/-- RANGE in SCHED: only in the blocks of line ports that belong to a span (R53). -/
def rangeSched (b : Bytes) : List Loc :=
  let x := sect b 7
  (linesOf b).flatMap (fun m =>
    let o := schedPos x m
    outOf x 7 o 2 0 1024 ++ outOf x 7 (o + 4) 1 0 3 ++ outOf x 7 (o + 5) 1 0 1 ++ reserved x 7 (o + 6) 2 ++
    outOf x 7 (o + 8) 4 1000 1000000000 ++
    (List.range 7).flatMap (fun c => outOf x 7 (o + 16 + 2 * c) 2 1 1024) ++ reserved x 7 (o + 30) 2 ++
    (List.range (leAt x (o + 2) 2)).flatMap (fun j => outOf x 7 (o + 32 + 8 * j) 4 64 0xFFFFFFFF ++
      reserved x 7 (o + 37 + 8 * j) 3))

/-- RANGE in TIME and the sections after it. -/
def rangeRest (b : Bytes) : List Loc :=
  let x := sect b 8
  let k := sect b 9
  let c := sect b 10
  let h := sect b 11
  let r := sect b 12
  (List.range 4).flatMap (fun i => outOf x 8 (8 * i) 1 (if i = 0 then 1 else 0) 1 ++ outOf x 8 (8 * i + 1) 1 0 2 ++
    outOf x 8 (8 * i + 2) 1 0 1 ++ reserved x 8 (8 * i + 3) 5) ++
  outOf x 8 32 1 0 3 ++ outOf x 8 33 1 0 3 ++ outOf x 8 34 1 0 3 ++
  failsAt (3 < byteAt x 35 && byteAt x 35 != 0xFF) (8, 35) ++ reserved x 8 36 4 ++
  (List.range 32).flatMap (fun n => outOf x 8 (40 + 4 * n) 1 0 3 ++ outOf x 8 (41 + 4 * n) 1 0 2 ++
    reserved x 8 (42 + 4 * n) 2) ++
  outOf k 9 0 1 0 1 ++ reserved k 9 1 3 ++
  (if byteAt k 0 = 1 then outOf k 9 4 4 1000 65000000 else outOf k 9 4 4 0 0) ++
  outOf c 10 0 1 0 1 ++ outOf c 10 1 1 0 1 ++ reserved c 10 2 6 ++
  outOf h 11 0 1 0 15 ++ outOf h 11 1 1 0 3 ++ reserved h 11 4 4 ++
  outOf r 12 0 1 0 2 ++ outOf r 12 1 1 0 3 ++ reserved r 12 2 2 ++
  (List.range 32).flatMap (fun i => failsAt (31 < byteAt (sect b 13) i && byteAt (sect b 13) i != 0xFF) (13, i))

/-- RANGE. -/
def rangeBad (b : Bytes) : List Loc := rangePorts b ++ rangeTables b ++ rangeSched b ++ rangeRest b

/-! ## Rules, codes 0x41 to 0x49 -/

/-- Lanes of a port on its side. -/
def lanesOf (c : PortCfg) : List Nat := (List.range (typeLanes c.type)).map (fun k => c.first + k)

/-- PORT_RULE (R42, R43). -/
def portsBad (p : Pattern) : List Loc :=
  (List.range 64).flatMap (fun i =>
    let c := p.ports.getD i {}
    let n := typeLanes c.type
    let before := (List.range i).filter (fun j => j / 32 == i / 32)
    if c.type = 0 then failsAt (c.first != 0) (1, 8 * i + 1) ++ failsAt (c.fec != 0) (1, 8 * i + 2) ++
      failsAt (c.flow != 0) (1, 8 * i + 3)
    else
      failsAt (c.first % n != 0 || decide (32 < c.first + n) ||
        before.any (fun j => (lanesOf (p.ports.getD j {})).any (lanesOf c).contains)) (1, 8 * i + 1) ++
      failsAt (c.fec != 0 && c.type != 3) (1, 8 * i + 2))

/-- Ports of a span of a Pattern, in PEN numbering. -/
def portsOfSpan (c : SpanCfg) : List Nat := if c.mode.isSome then (32 + c.line) :: bitsOf 32 c.clients else []

/-- Whether a mode does cipher work. -/
def ciphers (c : SpanCfg) : Bool := c.mode == some .frame || c.mode == some .trunk

/-- SPAN_RULE (R21, R22, R44, R45). -/
def spansBad (p : Pattern) : List Loc :=
  let span := fun n => p.spans.getD n {}
  let type := fun q => (p.ports.getD q {}).type
  (List.range 32).flatMap (fun n =>
    let c := span n
    let e := 16 * n
    let cl := bitsOf 32 c.clients
    let taken := fun q => (List.range n).any (fun m => (portsOfSpan (span m)).contains q)
    let units := ((List.range (n + 1)).map (fun m => (span m).units)).sum
    let before := ((List.range n).map (fun m => (span m).units)).sum
    if c.mode.isNone then failsAt (c.line != 0) (2, e + 1) ++ failsAt (c.clients != 0) (2, e + 4) ++
      failsAt (c.units != 0) (2, e + 8)
    else
      failsAt (cl.isEmpty || decide (8 < cl.length) || cl.any (fun q => type q == 0 || taken q)) (2, e + 4) ++
      failsAt (type (32 + c.line) == 0 || taken (32 + c.line)) (2, e + 1) ++
      failsAt (c.mode == some .trunk && decide (type (32 + c.line) < 2)) (2, e + 1) ++
      failsAt (c.mode == some .trunk && (cl.length != 1 || cl.any (fun q => type q != type (32 + c.line)))) (2, e + 4) ++
      failsAt (ciphers c && decide (c.units < 8)) (2, e + 8) ++
      failsAt (decide (640 < units) && decide (before ≤ 640)) (2, e + 8))

/-- The minimum share of a span (R89), for its line port's rate in Mb/s. -/
def minShare (c : SpanCfg) (mbps : Nat) : Nat :=
  match c.mode with
  | some .frame => (1268112 * mbps + 999999999) / 1000000000
  | some .trunk => (847041 * mbps + 999999999) / 1000000000
  | _ => 0

/-- WHEEL_RULE (R46). -/
def wheelBad (p : Pattern) : List Loc :=
  (List.range 32).flatMap (fun n =>
    let c := p.spans.getD n {}
    let v := p.shares.getD n 0
    let upTo := fun k => ((List.range k).map (fun m => p.shares.getD m 0)).sum
    failsAt (decide (4096 < upTo (n + 1)) && decide (upTo n ≤ 4096)) (3, 2 * n) ++
    failsAt (if ciphers c then decide (v < minShare c (typeRate (p.ports.getD (32 + c.line) {}).type)) else v != 0)
      (3, 2 * n))

/-- MEMORY_RULE (R47). -/
def memoryBad (p : Pattern) : List Loc :=
  let upTo := fun k => ((List.range k).map (fun m => p.memSize.getD m 0)).sum
  (List.range 5).flatMap (fun i => failsAt (decide (128 < upTo (i + 1)) && decide (upTo i ≤ 128)) (4, i)) ++
  failsAt (decide (upTo 5 < 128)) (4, 4) ++
  (List.range 5).flatMap (fun i => failsAt ((p.fenceOrder.take i).contains (p.fenceOrder.getD i 0)) (4, 8 + i)) ++
  failsAt (decide (p.memSize.getD 0 0 < 1 + p.layout)) (5, 0)

/-- CLASS_RULE (R49 to R51): a VALUE of a kind that compares nothing points at VALUE, the rest at MASK. -/
def classesBad (p : Pattern) : List Loc :=
  (List.range p.rules.length).flatMap (fun i =>
    let r := p.rules.getD i ⟨0, 0, 0, 0, 0⟩
    failsAt (ruleWidth r.kind == 0 && r.value != 0) (6, 44 + 16 * i) ++ failsAt (!ruleFits r) (6, 48 + 16 * i))

/-- Fields of a SCHED block header, as their first bytes. -/
def schedFields : List Nat := [0, 2, 4, 5, 6, 8, 12, 16, 18, 20, 22, 24, 26, 28, 30]

/-- SCHED_RULE (R52, R53). A nonzero reserved byte in the block of a line port in no span is this one, not RANGE
(DEDUCED, log entry 138). -/
def schedBad (p : Pattern) : List Loc :=
  let x := sect p.container 7
  (List.range 32).flatMap (fun m =>
    let o := schedPos x m
    let c := p.sched.getD m {}
    let n := c.entries.length
    let upTo := fun k => ((c.entries.take k).map GateEntry.dur).sum
    if !(linesOf p.container).contains m then
      match firstNonzero x o 32 with
      | some k => [(7, o + (schedFields.filter (fun f => decide (o + f ≤ k))).getLastD 0)]
      | none => []
    else
      failsAt (decide (c.allot < n)) (7, o + 2) ++ failsAt (decide (c.cycle ≤ c.phase)) (7, o + 12) ++
      (if !c.gatesEn then []
       else failsAt (n == 0) (7, o + 5) ++
        (List.range n).flatMap (fun j =>
          failsAt (decide (c.cycle < upTo (j + 1)) && decide (upTo j ≤ c.cycle)) (7, o + 32 + 8 * j)) ++
        failsAt (decide (0 < n) && decide (upTo n < c.cycle)) (7, o + 32 + 8 * (n - 1))))

/-- TIME_RULE (R54, R55): a disabled base points at the byte that names it. -/
def timeBad (p : Pattern) : List Loc :=
  let on := fun b => (p.bases.getD b {}).enabled
  let x := sect p.container 7
  let second := fun i => (p.bases.getD i {}).src == 2 && (p.bases.take i).any (fun c => c.src == 2)
  failsAt (!on p.ppsTb) (8, 32) ++ failsAt (!on p.todTxTb) (8, 33) ++ failsAt (!on p.f10mTb) (8, 34) ++
  failsAt (p.todRxTb != 0xFF && !on p.todRxTb) (8, 35) ++
  (List.range 32).flatMap (fun n => failsAt (!on (p.stampTb.getD n 0)) (8, 40 + 4 * n) ++
    failsAt (!ciphers (p.spans.getD n {}) && p.tcMode.getD n 0 != 0) (8, 41 + 4 * n)) ++
  (List.range 4).flatMap (fun i => failsAt (second i) (8, 8 * i + 1)) ++
  failsAt (p.cflags.testBit 1 && !on p.cinchTb) (11, 1) ++
  (List.range 32).flatMap (fun m =>
    let c := p.sched.getD m {}
    failsAt (c.gatesEn && !on c.tb) (7, schedPos x m + 4))

/-- CHAIN_RULE (R56, R57), with the strap read as "head" or not. -/
def chainBad (p : Pattern) (head : Bool) : List Loc :=
  let h := p.heartbeatMs
  failsAt (p.cflags.testBit 2 != head) (11, 0) ++
  failsAt (if p.cflags.testBit 3 then decide (h < 10) || decide (1000 < h) else h != 0) (11, 2) ++
  failsAt (if p.role = 0 then p.peerUnit != 0 else p.peerUnit == 0 || decide (262143 < p.peerUnit)) (12, 4)

/-- FENCE_RULE (R58): a byte that is not 0xFF names a Frame or Trunk span not named before; one that is missing is a
count over ORDER that is not reached, and points at its last byte (R63, log entry 27). -/
def fenceBad (p : Pattern) : List Loc :=
  let wanted := fun n => ciphers (p.spans.getD n {})
  (List.range 32).flatMap (fun i =>
    let v := p.order.getD i 0xFF
    failsAt (v != 0xFF && (!wanted v || (p.order.take i).contains v)) (13, i)) ++
  failsAt ((List.range 32).any (fun n => wanted n && !p.order.contains n)) (13, 31)

/-! ## The verdict (R63) -/

/-- The checks on a container in the order of the result codes, each with the locations where it fails. -/
def patChecks (s : State) (b : Bytes) (bad : List Nat) : List (Nat × List Loc) :=
  let p := patternOf b
  [(0x10, magicBad b), (0x11, formatBad b), (0x12, lengthBad b), (0x13, crcBad b),
   (0x14, failsAt (leAt b 0xC 4 != s.rd Reg.GLB_ID_PART && leAt b 0xC 4 != 0x64000BFF) (0, 0xC)),
   (0x15, failsAt (s.rd Reg.GLB_FWVER < leAt b 0x10 4) (0, 0x10)),
   (0x16, failsAt (!lifecycleOk s (leAt b 0x14 2)) (0, 0x14)),
   (0x17, failsAt (unitBad s b) (0, 0x20)),
   (0x18, failsAt (patSerial b < s.rd Reg.PAT_FLOOR) (0, 0x1C)),
   (0x20, tableBad b), (0x21, sectionBad b bad),
   (0x30, failsAt (s.lifecycle != .blank && sigOff b == 0) (0, 0x24)),
   (0x31, failsAt (keyHashBad s b) (0, sigOff b + 104)),
   (0x32, failsAt (sigEcBad b) (0, sigOff b + 2696)),
   (0x33, failsAt (sigMlBad b) (0, sigOff b + 2792)),
   (0x40, rangeBad b), (0x41, portsBad p), (0x42, spansBad p), (0x43, wheelBad p), (0x44, memoryBad p),
   (0x45, classesBad p), (0x46, schedBad p), (0x47, timeBad p), (0x48, chainBad p s.chn.headStrap),
   (0x49, fenceBad p)]

/-- The lower of two locations. -/
def lowerLoc (a b : Loc) : Loc := if b.1 < a.1 ∨ (b.1 = a.1 ∧ b.2 < a.2) then b else a

/-- The lowest of the locations of a failed check. -/
def lowestLoc : List Loc → Loc
  | [] => (0, 0)
  | h :: t => t.foldl lowerLoc h

/-- The first check that fails: its code and location, or OK. -/
def patVerdict (l : List (Nat × List Loc)) : Nat × Loc :=
  match l.find? (fun e => !e.2.isEmpty) with
  | some e => (e.1, lowestLoc e.2)
  | none => (0x00, (0, 0))

/-- EVIDENCE_HELD: the evidence partition would change while the ring is frozen. -/
def evidenceHeld (s : State) (p : Pattern) : Bool :=
  evrState s == 3 && (match s.pat.active with
    | some a => a.memSize.getD 3 0 != p.memSize.getD 3 0
    | none => false)

/-- The verdict on a container: its code and location, and the Pattern when it passes. -/
def judge (s : State) (b : Bytes) (bad : List Nat) : (Nat × Loc) × Option Pattern :=
  let v := patVerdict (patChecks s b bad)
  let p := patternOf b
  if v.1 ≠ 0 then (v, none)
  else if evidenceHeld s p then ((0x51, (4, 3)), none)
  else (v, some p)

/-! ## PAT registers -/

/-- PAT_STATUS.STATE and BUSY. -/
def setPatState (n : Nat) (s : State) : State :=
  (s.wrF Reg.PAT_STATUS 0 3 n).setBit Reg.PAT_STATUS 3 (n == 1 || n == 3 || n == 4)

/-- STATE between operations. -/
def restState (s : State) : State := setPatState (if s.pat.staged.isSome then 2 else 0) s

/-- An operation ends: STATE, RESULT, event. The location is left as it was. -/
def patEnd (op code : Nat) (s : State) : State := patEvent op ((restState s).wrF Reg.PAT_STATUS 8 8 code)

/-- An operation that judged a container ends: the location too, 0 when no check failed (log entry 26). -/
def patDone (op code : Nat) (l : Loc) (s : State) : State :=
  patEnd op code (s.wr Reg.PAT_REJ_INFO (l.1 + 2 ^ 8 * l.2))

/-- What a write of PAT_CTRL does: ignored while BUSY and while FW_READY is 0, else `f` (R66, R430). -/
def patOp (f : State → State) (s : State) : State :=
  if s.bit Reg.PAT_STATUS 3 || !s.bit Reg.HIF_STATUS 16 then s.setBit Reg.PAT_STATUS 4 true else f s

/-! ## Differences (R70) -/

/-- Whether span `n` belongs to the re-cut set between two Patterns. -/
def spanDiffers (a b : Pattern) (n : Nat) : Bool :=
  let x := a.spans.getD n {}
  let y := b.spans.getD n {}
  let held := portsOfSpan x ++ portsOfSpan y
  let lines := (if x.mode.isSome then [x.line] else []) ++ (if y.mode.isSome then [y.line] else [])
  x != y || held.any (fun p => a.ports.getD p {} != b.ports.getD p {}) || a.shares.getD n 0 != b.shares.getD n 0 ||
  a.learnMask.testBit n != b.learnMask.testBit n ||
  lines.any (fun m => a.sched.getD m {} != b.sched.getD m {}) ||
  a.stampTb.getD n 0 != b.stampTb.getD n 0 || a.tcMode.getD n 0 != b.tcMode.getD n 0

/-- Whether a global part differs. -/
def globalDiffers (a b : Pattern) : Bool :=
  let x := fun t => sect a.container t != sect b.container t
  x 4 || a.layout != b.layout || a.ageDefault != b.ageDefault || x 6 || a.bases != b.bases || a.ppsTb != b.ppsTb ||
  a.todTxTb != b.todTxTb || a.f10mTb != b.f10mTb || a.todRxTb != b.todRxTb || x 9 || x 10 || x 11 || x 12

/-- PAT_DIFF and PAT_DIFF_SECT of a staged Pattern. -/
def patDiff (active : Option Pattern) (b : Pattern) : Nat × Nat :=
  match active with
  | none => (maskOf ((List.range 32).filter (fun n => (b.spans.getD n {}).mode.isSome)), 0x80003FFE)
  | some a =>
    (maskOf ((List.range 32).filter (spanDiffers a b)),
     maskOf (((List.range 13).map (· + 1)).filter (fun t => sect a.container t != sect b.container t)) +
       2 ^ 31 * b2n (globalDiffers a b))

/-! ## Staging (R63 to R67) -/

/-- A stage operation starts; a Pattern already staged is discarded first. -/
def stageStart (src len : Nat) (s : State) : State :=
  let s := abandonStaged s
  setPatState 1 { s with pat := { s.pat with staging := some src, stagingLen := len, scratchBad := [] } }

/-- STAGE_WINDOW. One refused with WIN_ARG has discarded the staged Pattern too (DESIGN CHOICE, log entry 94). -/
def stageWindow (s : State) : State :=
  patOp (fun s =>
    let n := s.rd Reg.PAT_WIN_LEN
    if n < 128 ∨ 1048576 < n ∨ s.rd Reg.PAT_WIN_LO % 64 ≠ 0 then patDone 1 0x08 (0, 0) (abandonStaged s)
    else (stageStart 1 n s).emit (.dmaRead (s.rd Reg.PAT_WIN_LO + 2 ^ 32 * s.rd Reg.PAT_WIN_HI) n)) s

/-- STAGE_SLOT_A and STAGE_SLOT_B. -/
def stageSlot (i : Nat) (s : State) : State := patOp (stageStart (2 + i) 0) s

/-- A container that passed is staged. -/
def putStaged (src : Nat) (p : Pattern) (s : State) : State :=
  let d := patDiff s.pat.active p
  let s := { s with pat := { s.pat with staged := some p, stagedSource := src } }
  let s := (s.wr Reg.PAT_DIFF d.1).wr Reg.PAT_DIFF_SECT d.2
  s.wrBytes (Reg.PAT_STG_DIG 0) p.digest

/-- The end of the checks on a container from source `src`. -/
def stageJudged (src : Nat) (b : Bytes) (s : State) : State :=
  match judge s b s.pat.scratchBad with
  | (v, some p) => patDone src v.1 v.2 (putStaged src p s)
  | (v, none) => patDone src v.1 v.2 s

/-- What a vault slot yields: its container, or a code. -/
def slotRead (i : Nat) (intact : Bool) (s : State) : Nat × Bytes :=
  if !s.key.vaultOpen then (0x53, [])
  else
    match slotAt s i with
    | .empty => (0x52, [])
    | .broken => (0x53, [])
    | .full c _ => if intact then (0x00, c) else (0x53, [])

/-- `n` vault records failed their tag: each counts, and the event is noted (R250). -/
def vaultFault (n : Nat) (s : State) : State := if n = 0 then s else keyEvent 6 (s.bump Reg.KEY_VAULT_FAULTS n)

/-- The fetch or slot read ends, and the checks run. -/
def stagingComplete (c : Bytes) (failAt : Option Nat) (intact : Bool) (s : State) : State :=
  match s.pat.staging with
  | none => s
  | some 1 =>
    let s := { s with pat := { s.pat with staging := none } }
    match failAt with
    | some o => patDone 1 0x09 (0, o) (logError 7 false false Reg.PAT_CTRL s)
    | none => stageJudged 1 (exactly s.pat.stagingLen c) s
  | some k =>
    let s := { s with pat := { s.pat with staging := none } }
    match slotRead (k - 2) intact s with
    | (0, b) => stageJudged k b s
    | (code, _) => patDone k code (0, 0) (vaultFault (if code = 0x53 ∧ s.key.vaultOpen = true then 1 else 0) s)

/-- DISCARD. -/
def patDiscard (s : State) : State := patOp (fun s => patEnd 5 0x00 (abandonStaged s)) s

/-! ## Vault operations (R65, R68) -/

/-- Sets a vault slot. -/
def setSlot (i : Nat) (v : VaultSlot) (s : State) : State :=
  syncSlots (s.putVault (.slot i) (fun t => if i = 0 then { t with slotA := v } else { t with slotB := v }))

/-- The vault takes no write: its key is absent, or a stop or a warm reset lets no new write start (R68, R457, R517,
log entry 80). -/
def vaultShut (s : State) : Bool := !s.key.vaultOpen || vaultQuiet s

/-- STORE_A and STORE_B: the vault key is judged first. -/
def patStore (i : Nat) (s : State) : State :=
  patOp (fun s =>
    if vaultShut s then patEnd (6 + i) 0x55 s
    else if s.pat.active.isNone then patEnd (6 + i) 0x54 s
    else setPatState 4 { s with pat := { s.pat with storing := some i } }) s

/-- The slot write ends. One that does not verify leaves the slot as it was (R68). -/
def storingComplete (verified : Bool) (s : State) : State :=
  match s.pat.storing with
  | none => s
  | some i =>
    let s := { s with pat := { s.pat with storing := none } }
    match s.pat.active with
    | none => patEnd (6 + i) 0x54 s
    | some a =>
      if !s.key.vaultOpen then patEnd (6 + i) 0x55 s
      else if !verified then patEnd (6 + i) 0x53 s
      else patEnd (6 + i) 0x00 (setSlot i (.full a.container a.signed) s)

/-- RAISE_FLOOR. -/
def raiseFloor (s : State) : State :=
  patOp (fun s =>
    if vaultShut s then patEnd 8 0x55 s
    else
      match s.pat.active with
      | none => patEnd 8 0x54 s
      | some a =>
        let s := s.putVault .floor (fun v => { v with floor := a.serial })
        patEnd 8 0x00 (s.wr Reg.PAT_FLOOR a.serial)) s

/-- ERASE_A and ERASE_B. -/
def patErase (i : Nat) (s : State) : State :=
  patOp (fun s =>
    if vaultShut s then patEnd (9 + i) 0x55 s else patEnd (9 + i) 0x00 (setSlot i .empty s)) s

/-- PAT_BOOT: SLOT is kept in the vault; LOCK locks it (R415). -/
def setBoot (v : Nat) (s : State) : State :=
  let s := s.setBit Reg.PAT_BOOT 0 (v % 2 == 1)
  if !vaultShut s then s.putVault .floor (fun w => { w with boot := v % 2 }) else s

/-! ## Applying a Pattern (R71 to R75) -/

/-- The code of APPLY for a staged Pattern: checks in the order of R64, with SECT_CRC where a burst of the
staged copy was lost since (R384). -/
def applyCode (s : State) (p : Pattern) : Nat × Loc :=
  let d := patDiff s.pat.active p
  let kind := s.rdF Reg.PAT_APPLY 0 2
  if s.pat.active.any (fun a => a.digest == p.digest) then (0x01, (0, 0))
  else if !lifecycleOk s p.lifecycles then (0x16, (0, 0x14))
  else if p.serial < s.rd Reg.PAT_FLOOR then (0x18, (0, 0x1C))
  else if !(sectionBad p.container s.pat.scratchBad).isEmpty then
    (0x21, lowestLoc (sectionBad p.container s.pat.scratchBad))
  else if kind = 2 ∧ d.2.testBit 31 = true then (0x50, (0, 0))
  else if evidenceHeld s p then (0x51, (4, 3))
  else (0x00, (0, 0))

/-- Admission closes for the stopped set (R72 steps 1 and 2). -/
def cutStart (full : Bool) (stopped : Nat) (s : State) : State :=
  let s := setPatState 3 { s with pat := { s.pat with cut := some { full := full, stopped := stopped } } }
  syncPorts (syncSpans (followTrunks s))

/-- APPLY. -/
def patApply (s : State) : State :=
  patOp (fun s =>
    match s.pat.staged with
    | none => s.setBit Reg.PAT_STATUS 4 true
    | some p =>
      let c := applyCode s p
      if c.1 = 1 then patEnd 4 1 s
      else if c.1 ≠ 0 then patDone 4 c.1 c.2 s
      else
        let d := patDiff s.pat.active p
        let kind := s.rdF Reg.PAT_APPLY 0 2
        let full := kind == 1 || (kind != 2 && d.2.testBit 31)
        cutStart full (if full then 0xFFFFFFFF else d.1) s) s

/-- PAT registers of the active Pattern. -/
def syncActive (src : Nat) (s : State) : State :=
  match s.pat.active with
  | none => ((s.setBit Reg.PAT_STATUS 16 false).wrF Reg.PAT_STATUS 17 2 0).wr Reg.PAT_ACT_SERIAL 0
  | some a =>
    let s := ((s.setBit Reg.PAT_STATUS 16 a.signed).wrF Reg.PAT_STATUS 17 2 src).wr Reg.PAT_ACT_SERIAL a.serial
    s.wrBytes (Reg.PAT_ACT_DIG 0) a.digest

/-- The configuration with no Pattern. -/
def spansOf (p : Option Pattern) : List SpanCfg := match p with
  | some a => a.spans
  | none => []

/-- A port's entry in a Pattern. -/
def portIn (p : Option Pattern) (i : Nat) : PortCfg := match p with
  | some a => a.ports.getD i {}
  | none => {}

/-- Ports whose entry changes, or that enter or leave a span. -/
def portChanges (old : Option Pattern) (new : Pattern) (p : Nat) : Bool :=
  portIn old p != new.ports.getD p {} || (patSpanOf (spansOf old) p).isSome != (patSpanOf new.spans p).isSome

/-- Port and port type that a Pattern gives a lane of a span's port. -/
def laneOwner (a : Option Pattern) (l : Nat) : Option (Nat × Nat) :=
  ((List.range 64).find? (fun p => (patSpanOf (spansOf a) p).isSome && (portLanes (portIn a p) p).contains l)).map
    (fun p => (p, (portIn a p).type))

/-- Lanes whose port changes: another port, or one of another type (R326; log entry 96). -/
def laneMoves (old : Option Pattern) (new : Pattern) (l : Nat) : Bool :=
  (laneOwner (some new) l).isSome && laneOwner old l != laneOwner (some new) l

/-- The structure's lanes and ports are replaced: changed ports go down under the old Pattern and come up
under the new one, ports that pass from span to span end their defects with the old one, and the lanes that changed port take their default taps (R72 step 5, R325, R326). -/
def swapPorts (old : Option Pattern) (new : Pattern) (src : Nat) (s : State) : State :=
  let moved := (List.range 64).filter (portChanges old new)
  let passed := (List.range 64).filter (fun p => !portChanges old new p && patSpanOf (spansOf old) p != patSpanOf new.spans p)
  let s := passed.foldl (fun s p => portDefectsOff p ((patSpanOf (spansOf old) p).getD 0) s) s
  let s := moved.foldl (fun s p => match patSpanOf (spansOf old) p with
    | some n => portOff p n s
    | none => s) s
  let s := syncActive src { s with pat := { s.pat with active := some new } }
  let s := ((List.range 64).filter (laneMoves old new)).foldl (fun s l => resetFfe s l) s
  (moved ++ passed).foldl (fun s p => if (patSpanOf new.spans p).isSome then portOn p s else s) s

/-- MEMORY changes: partitions are laid out anew, and what they held is lost (R73, R386). -/
def swapMemory (old : Option Pattern) (new : Pattern) (s : State) : State :=
  let same := match old with
    | some a => a.memSize == new.memSize && a.fenceOrder == new.fenceOrder && a.layout == new.layout
    | none => false
  if same then s
  else
    let ev := s.rd (Reg.EVR_PART 3)
    let s := layPartitions (loseSpill (fun _ => true) s)
    if ev = s.rd (Reg.EVR_PART 3) || startingUp s then s else openRing 1 s

/-- The peer table under the new Pattern: flushed whole when LAYOUT changes, for a span whose MODE or
LINE_PORT changes (R73). -/
def swapPeers (old : Option Pattern) (new : Pattern) (s : State) : State :=
  match old with
  | none => s
  | some a =>
    if a.layout ≠ new.layout then emptyPeers s
    else
      let gone := (List.range 32).filterMap (fun n =>
        let x := a.spans.getD n {}
        let y := new.spans.getD n {}
        if x.mode.isSome && (x.mode != y.mode || x.line != y.line) then some x.line else none)
      if gone.isEmpty then s else removePeers (fun e => gone.contains (eLp e)) s

/-- SCHED of the stopped spans (R319). The line port that a stopped span leaves takes its own block too, the
zeros of R53 where it belongs to no span any more. -/
def swapSched (old : Option Pattern) (stopped : Nat) (new : Pattern) (s : State) : State :=
  let left := match old with
    | none => []
    | some a => (List.range 32).filterMap (fun n =>
        let x := a.spans.getD n {}
        let kept := new.spans.any (fun y => y.mode.isSome && y.line == x.line)
        if x.mode.isSome && stopped.testBit n && !kept then some x.line else none)
  let s := left.foldl (fun s p => loadSched p (new.sched.getD p {}) s) s
  (List.range 32).foldl (fun s n =>
    let c := new.spans.getD n {}
    if c.mode.isNone || !stopped.testBit n then s
    else
      let x := new.sched.getD c.line {}
      (bitsOf 32 c.clients).foldl (fun s m => loadClientWeights m x s) (loadSched c.line x s)) s

/-- The trunk spans of the stopped set: four tags set aside, the binding taken from its registers (R174, R182). -/
def swapTrunks (stopped : Nat) (s : State) : State :=
  (bitsOf 32 stopped).foldl (fun s n =>
    let s := reserveTags n s
    if patMode s n == .trunk then trunkBind n s else s) s

/-- KEYSTORE and CLOCKS come into force (R248, R507, R508). -/
def swapModes (new : Pattern) (s : State) : State :=
  let s := s.setBit Reg.KEY_STATUS 0 (new.ksMode == 1)
  let s := if new.ksMode = 1 then s
    else { s with key := { s.key with remaskPos := 0 } }.setBit Reg.KEY_STATUS 1 false
  let al := new.plan == 1
  if s.rdF Reg.CLK_STATUS 1 2 ≠ 0 || alignedPlan s == al then s
  else (islandsIn s 0).foldl (fun s i => operate i s) (s.setBit Reg.CLK_STATUS 0 al)

/-- HARNESS comes into force; another partner or role ends the pair that was. -/
def swapHarness (old : Option Pattern) (new : Pattern) (s : State) : State :=
  let same := match old with
    | some a => a.role == new.role && a.peerUnit == new.peerUnit
    | none => false
  harnessJoin (if same || !s.hrn.up then s else linkLost 5 s)

/-- Step 5 of R72: the new structure is loaded. -/
def loadPattern (full : Bool) (stopped : Nat) (new : Pattern) (src : Nat) (s : State) : State :=
  let old := s.pat.active
  let s := swapPorts old new src s
  let s := { s with fab := { s.fab with wheel := wheelOf new.shares, wheelPos := s.fab.wheelPos % 4096 } }
  let s := swapPeers old new (swapMemory old new s)
  let s := s.setBit Reg.CLS_STATUS 0 (new.layout == 1)
  let s := if full then s.wr Reg.CLS_AGE new.ageDefault else s
  let s := swapModes new (loadTime new.bases (swapSched old stopped new s))
  let s := syncHealth s
  let s := if stopped = 0 then s else shedAtCut full stopped s
  let s := syncTags (swapTrunks stopped s)
  let s := swapHarness old new (chainJoin s)
  shedCheck (checkBypass (syncPorts (trimRecompute s)))

/-- Whether a frame of the stopped set is still leaving a port. -/
def cutDraining (s : State) : Bool := s.sch.frames.any (fun e => cutStops s e.2.span && !e.2.heads.isEmpty)

/-- The queues of the stopped set are discarded and counted, its trunk spans stop (R72 steps 3 and 4). -/
def cutDrop (stopped : Nat) (s : State) : State :=
  (bitsOf 32 stopped).foldl (fun s n =>
    let d := dropSpan n s
    let s := d.1.bump Reg.PAT_CUT_DROPS d.2
    if patMode s n == .trunk then trunkStop n s else s) s

/-- Leaving frames have finished: the stopped set's queues are discarded, the new structure is loaded (R72
steps 3 to 5). -/
def cutDrainDone (s : State) : State :=
  match s.pat.cut, s.pat.staged with
  | some c, some p =>
    if c.loaded || cutDraining s then s
    else
      let s := cutDrop c.stopped s
      let s := loadPattern c.full c.stopped p s.pat.stagedSource s
      { s with pat := { s.pat with cut := some { c with loaded := true } } }
  | _, _ => s

/-- The stopped set resumes (R72 step 6), `us` after APPLY. -/
def cutResume (us : Nat) (s : State) : State :=
  match s.pat.cut with
  | none => s
  | some c =>
    if !c.loaded then s
    else
      let s := { s with pat := { s.pat with cut := none } }
      let s := (abandonStaged s).wr Reg.PAT_CUT_US us
      let s := trimRecompute (syncPorts (followTrunks s))
      patDone 4 0x00 (0, 0) s

/-! ## Start-up (R76, R77) -/

/-- A Pattern comes into force at start-up. -/
def bootLoad (i : Nat) (p : Pattern) (s : State) : State :=
  (loadPattern true 0xFFFFFFFF p (2 + i) s).wrF Reg.PAT_STATUS 8 8 0

/-- Judges the Pattern of a slot at start-up, whose record fails its tag where bit `i` of `fails` is set (R250). -/
def bootJudge (i fails : Nat) (s : State) : (Nat × Loc) × Option Pattern :=
  match slotRead i (!fails.testBit i) s with
  | (0, b) => judge s b []
  | (code, _) => ((code, (0, 0)), none)

/-- The slot has been read: a record that failed its tag is counted (R250). -/
def bootFault (v : Nat × Loc) (s : State) : State :=
  vaultFault (if v.1 = 0x53 ∧ s.key.vaultOpen = true then 1 else 0) s

/-- The start-up load: the slot that PAT_BOOT names, then the other; with neither, no active Pattern, and the
failure of the second is reported. -/
def patternBoot (fails : Nat) (s : State) : State :=
  let i := s.rdF Reg.PAT_BOOT 0 1
  match bootJudge i fails s with
  | (_, some p) => bootLoad i p s
  | (u, none) =>
    let s := bootFault u s
    match bootJudge (1 - i) fails s with
    | (_, some p) => bootLoad (1 - i) p s
    | (v, none) =>
      let s := bootFault v s
      let s := layPartitions (syncActive 0 { s with pat := { s.pat with active := none } })
      (s.wrF Reg.PAT_STATUS 8 8 v.1).wr Reg.PAT_REJ_INFO (v.2.1 + 2 ^ 8 * v.2.2)

end Sys2Proof.Machine
end

