-- ==== Sys2Proof/Machine/Queues.lean ====
section
/-! DEFINITION. The host interface's queues, vectors and resets: doorbells, enabling and disabling KEYQ and
EVQ, MSI-X delivery, D3hot, PERST# and firmware restart as they act on it (R404, R405, R419 to R433). -/

namespace Sys2Proof.Machine

/-! ## Doorbells (R421, R423, R425, R430) -/

/-- The firmware runs: HIF_STATUS.FW_READY. -/
def fwIsReady (s : State) : Bool := s.bit Reg.HIF_STATUS 16

/-- A write to HIF_KQ_DB. -/
def kqDoorbell (v : Nat) (s : State) : State :=
  if !s.bit Reg.HIF_KQ_CTRL 0 || !fwIsReady s then s
  else
    let l := s.hif.kqAccepted
    if (v + 65536 - l) % 65536 ≤ (kqHead s + kqSize s + 65536 - l) % 65536 then
      { s with hif := { s.hif with kqAccepted := v } }
    else logError 6 true true 0 (s.setBit Reg.HIF_KQ_STATUS 1 true)

/-- A write to HIF_EQ_DB. What it frees can make an OVERFLOW record possible. -/
def eqDoorbell (v : Nat) (s : State) : State :=
  if !s.bit Reg.HIF_EQ_CTRL 0 || !fwIsReady s then s
  else
    let c := s.hif.eqConsumed
    if (v + 2 ^ 32 - c) % 2 ^ 32 ≤ (s.rd Reg.HIF_EQ_TAIL + 2 ^ 32 - c) % 2 ^ 32 then
      eqStatus { s with hif := { s.hif with eqConsumed := v } }
    else logError 6 true true 4 (s.setBit Reg.HIF_EQ_STATUS 2 true)

/-- The OVERFLOW record that is due once the queue has room for two records (R428). -/
def eqOverflowRecord (s : State) : State :=
  let t := eqOverflow s
  if t.rd Reg.HIF_EQ_TAIL = s.rd Reg.HIF_EQ_TAIL then s else raiseVector 1 t

/-! ## Enabling and disabling (R423, R425) -/

/-- The FW_READY record owed after a firmware restart (R430); it is never rate-limited. -/
def postFwReady (s : State) : State :=
  if s.hif.fwReadyOwed && s.bit Reg.HIF_EQ_CTRL 0 then
    evqPost 0x0D 4 (s.rd Reg.HIF_FW_RESTARTS) 0 0 0 { s with hif := { s.hif with fwReadyOwed := false } }
  else s

/-- A write to HIF_KQ_CTRL: SIZE while EN is 0 and only to a legal value, IRQ_EN, and EN with what setting
or clearing it does. -/
def kqCtrlWrite (v : Nat) (s : State) : State :=
  let on := s.bit Reg.HIF_KQ_CTRL 0
  let s := s.setBit Reg.HIF_KQ_CTRL 5 (v.testBit 5)
  let s := if !on && decide (field v 1 4 ≤ 4) then s.wrF Reg.HIF_KQ_CTRL 1 4 (field v 1 4) else s
  if on == v.testBit 0 then s
  else
    let s := s.setBit Reg.HIF_KQ_CTRL 0 (!on)
    if on then
      if s.hif.kqRun.isSome then { s with hif := { s.hif with kqStopping := true } }
      else s.setBit Reg.HIF_KQ_STATUS 0 false
    else
      let s := (s.wrF Reg.HIF_KQ_STATUS 16 16 0).setBit Reg.HIF_KQ_STATUS 0 true
      { s with hif := { s.hif with
        kqAccepted := 0, kqStopping := false, kqMute := s.hif.kqMute || s.hif.kqRun.isSome } }

/-- A write to HIF_EQ_CTRL, in the same way. -/
def eqCtrlWrite (v : Nat) (s : State) : State :=
  let on := s.bit Reg.HIF_EQ_CTRL 0
  let s := s.setBit Reg.HIF_EQ_CTRL 5 (v.testBit 5)
  let s := if !on && decide (field v 1 4 ≤ 10) then s.wrF Reg.HIF_EQ_CTRL 1 4 (field v 1 4) else s
  if on == v.testBit 0 then s
  else
    let s := (s.setBit Reg.HIF_EQ_CTRL 0 (!on)).setBit Reg.HIF_EQ_STATUS 0 (!on)
    if on then eqStatus s
    else
      let s := s.wr Reg.HIF_EQ_TAIL 0
      postFwReady (eqStatus { s with hif := { s.hif with eqConsumed := 0, eqLostSince := 0 } })

/-- Both queues are disabled and a running KEYQ operation will write no completion (R424, R430, R432). -/
def muteQueues (s : State) : State :=
  let s := (s.setBit Reg.HIF_KQ_CTRL 0 false).setBit Reg.HIF_EQ_CTRL 0 false
  let s := (s.setBit Reg.HIF_KQ_STATUS 0 false).setBit Reg.HIF_EQ_STATUS 0 false
  eqStatus { s with hif := { s.hif with
    kqMute := s.hif.kqRun.isSome, kqStopping := false, kqAccepted := 0 } }

/-! ## Vectors (R419, R420, R433) -/

/-- The host clears a vector's mask: a pending message is sent. -/
def vectorUnmask (v : Nat) (s : State) : State :=
  let s := s.setBit (Reg.IRQ_MSIX_CTRL v) 0 false
  if s.bit (Reg.IRQ_PBA (v / 32)) (v % 32) && s.hif.msixEnable then
    (s.setBit (Reg.IRQ_PBA (v / 32)) (v % 32) false).emit (.msix v)
  else s

/-- A write of a vector's control word. -/
def vectorCtrlWrite (v w : Nat) (s : State) : State :=
  if w.testBit 0 then s.setBit (Reg.IRQ_MSIX_CTRL v) 0 true else vectorUnmask v s

/-- The holdoff interval of vector 1 or 2 ends. -/
def holdoffExpire (key : Bool) (s : State) : State :=
  if key then
    if !s.hif.hold2 then s
    else
      let again := s.hif.dirty2
      let s := { s with hif := { s.hif with hold2 := false, dirty2 := false } }
      if again then raiseVector 2 s else s
  else
    if !s.hif.hold1 then s
    else
      let again := s.hif.dirty1
      let s := { s with hif := { s.hif with hold1 := false, dirty1 := false } }
      if again then raiseVector 1 s else s

/-- A write to IRQ_TEST. -/
def irqTest (v : Nat) (s : State) : State :=
  if v.testBit 31 && decide (field v 0 6 < 40) then raiseVector (field v 0 6) s else s

/-! ## Resets of the interface (R67, R290, R405, R424, R430, R432) -/

/-- Registers by address return to their reset values. -/
def resetRegs (p : Nat → Bool) (s : State) : State :=
  { s with regs := s.regs.filter (fun e => !p e.1), act := s.act.filter (fun e => !p e.1) }

/-- What R432 resets: the MSI-X table, the PBA and the HIF block but for its two kept registers. HIF_STATUS
shows the link and the firmware, which no interface reset touches. -/
def interfaceReg (a : Nat) : Bool :=
  (decide (0x8000 ≤ a) && decide (a < 0x10000)) ||
  (decide (0x3C0000 ≤ a) && decide (a < 0x400000) && a != Reg.HIF_KQ_LAST && a != Reg.HIF_FW_RESTARTS &&
    a != Reg.HIF_STATUS)

/-- PERST#, a Function Level Reset or an exit from D3hot. -/
def interfaceReset (s : State) : State :=
  let s := abandonStaged (releaseLocks (resetRegs interfaceReg s))
  let s := s.setBit Reg.HIF_KQ_STATUS 2 s.hif.kqRun.isSome
  { s with hif := { s.hif with
    d3hot := false, kqAccepted := 0, kqMute := s.hif.kqRun.isSome, kqStopping := false, eqConsumed := 0,
    eqLostSince := 0, hold1 := false, hold2 := false, dirty1 := false, dirty2 := false } }

/-- A configuration write places the function in D3hot (R405). -/
def d3hotEnter (s : State) : State := { s with hif := { s.hif with d3hot := true } }

/-- A host access is served: rails up, PCIe ready, and the function not in D3hot (R405, R517, R519). -/
def hostServed (s : State) : Bool :=
  !s.hif.d3hot && s.pwr.warm != some .asserted && decide (3 < s.rdF Reg.PWR_STATUS 8 4) &&
  (match s.pwr.mode with
   | .battery => false
   | .off => false
   | _ => true)

/-- A request answered with Unsupported Request (R405). -/
def unsupported (s : State) : State := if hostServed s then s.emit .unsupportedRequest else s

end Sys2Proof.Machine
end

