-- ==== Sys2Proof/Machine/Power.lean ====
section
/-! DEFINITION. Supply, clocks, firmware banks, resets and start-up (R456, R457, R500 to R523). -/

namespace Sys2Proof.Machine

/-- The rails are up: Run, Trim, Hold or the orderly stop. -/
def railsUp (s : State) : Bool :=
  match s.pwr.mode with
  | .battery => false
  | .off => false
  | _ => true

/-- The core runs: rails up and the core reset not asserted. -/
def coreRuns (s : State) : Bool := railsUp s && s.pwr.warm != some .asserted

/-! ## Core reset (R516, R517) -/

/-- TIM registers that a warm reset keeps (R378), and TB_STATUS, whose ENABLED bit keeps the base running. -/
def warmTimReg (a : Nat) : Bool :=
  (List.range 4).any (fun b => [Reg.TB_NS b, Reg.TB_FRAC b, Reg.TB_WRAP b, Reg.TB_SECMARK b,
    Reg.TB_SECBASE_LO b, Reg.TB_SECBASE_HI b, Reg.TB_FADJ b, Reg.TB_STATUS b].contains a)

/-- Registers that no reset clears: PWR_LAST_RESET, PWR_STOPS, the firmware bank bits (R522), and what shows
the supply, the temperature, the reference and the tamper monitor as they stand. -/
def keptReg (a : Nat) : Bool :=
  [Reg.PWR_LAST_RESET, Reg.PWR_STOPS, Reg.PWR_FW_STATUS, Reg.PWR_STATUS, Reg.PWR_IN_V, Reg.PWR_IN_MW,
   Reg.PWR_IN_HZ, Reg.PWR_TEMP, Reg.PWR_VBAT, Reg.KEY_TAMPER, Reg.CLK_STATUS].contains a

/-- What a warm reset keeps of a base beside its registers: its count and the servo integral (R378). -/
def warmBase (x : BaseState) : BaseState := { x with lastSample := 0, misses := 0, secLo := none, stepTick := 0 }

/-- KALARM_N and HRN_ACTIVE_N go high where the reset takes away what held them low (R449, R472, R538). -/
def pinsRise (s : State) : State :=
  let s := if s.rdF Reg.KPR_ALARM 0 12 = 0 then s else s.emit (.pin "KALARM_N" true)
  if pairActive (pairState s) then s.emit (.pin "HRN_ACTIVE_N" true) else s

/-- TROX_ACT_N is low while the chain port is powered and forwarding (R461, R471, R538). -/
def troxActLow (s : State) : Bool := railsUp s && decide (3 ≤ s.rdF Reg.PWR_STATUS 8 4)

/-- KALARM_N is low while any alarm bit is set and the rails are up (R449, R538). -/
def kalarmLow (s : State) : Bool := railsUp s && s.rdF Reg.KPR_ALARM 0 12 != 0

/-- HRN_ACTIVE_N is low in ACTIVE, SOLO and ISOLATED while the rails are up (R472, R538). -/
def hrnActiveLow (s : State) : Bool := railsUp s && pairActive (pairState s)

/-- The core reset of a warm or a cold reset: every register to its reset value but for those kept, every
unit empty; key store and SA slots cleared; the vault key, the fuses and the record untouched. -/
def coreReset (cold : Bool) (s : State) : State :=
  let lock := s.bit Reg.PAT_BOOT 31
  let s := resetRegs (fun a => !(keptReg a || (!cold && warmTimReg a))) s
  let bases := if cold then [] else s.tim.base.map (fun e => (e.1, warmBase e.2))
  let s := { s with
    hif := {}
    pmc := {}
    evr := {}
    sec := {}
    kpr := {}
    pat := {}
    fab := {}
    sch := {}
    trk := []
    cls := {}
    lan := {}
    tim := { base := bases }
    chn := { sendQ := if cold then [] else s.chn.sendQ,
             zseen := if cold then [] else s.chn.zseen, zseq := s.chn.zseq, headStrap := s.chn.headStrap }
    hrn := {}
    dbg := {}
    key := { s.key with
      parents := [], transport := [], masks := [], remaskPos := 0, remaskStart := 0, remaskPeriod := 0,
      keeperCopy := [], permD := [], permM := [],
      zeroizing := none, invasiveDue := false, retireDue := false }
    pwr := { s.pwr with
      overTemp := false, warm := none, warmHeld := none, keeperReset := false, clockFences := [], closing := [],
      fwRestarting := false, fwRecovery := false, fwInstalling := false, restoreDue := false } }
  let s := (List.range 4).foldl (fun s b =>
    if cold then s else (s.wrF (Reg.TB_STATUS b) 1 5 0)) s
  let s := if cold then s else s.setBit Reg.PAT_BOOT 31 lock
  let s := (s.wrF Reg.PWR_FW_STATUS 0 4 0).setBit Reg.HIF_STATUS 16 false
  let s := (s.wrF Reg.CLK_STATUS 0 3 0).setBit Reg.CLK_STATUS 4 false
  syncStatus (s.setBit Reg.PWR_STATUS 5 false)

/-- Enters a start-up step. -/
def enterStep (n : Nat) (s : State) : State := s.wrF Reg.PWR_STATUS 8 4 n

/-- A start-up from step 1 or 3, its cause recorded. -/
def startUp (cause step : Nat) (s : State) : State :=
  syncStatus (enterStep step (s.wr Reg.PWR_LAST_RESET cause))

/-! ## Loss of input, orderly and thermal stops (R456, R457, R500, R502, R505) -/

/-- Records whether the mains input is present. -/
def setInput (b : Bool) (s : State) : State :=
  { s with pwr := { s.pwr with inputPresent := b } }.setBit Reg.PWR_STATUS 3 b

/-- t_loss: the absent declaration. A staged Pattern is abandoned (R67). -/
def inputLoss (s : State) : State :=
  let s := abandonStaged (setInput false s)
  if s.pwr.mode = .on then syncStatus { s with pwr := { s.pwr with mode := .hold } } else s

/-- The input is declared present again; within Hold the module rides through. -/
def inputReturn (s : State) : State :=
  let s := setInput true s
  if s.pwr.mode = .hold then
    let s := syncStatus { s with pwr := { s.pwr with mode := .on } }
    pwrEvent 0 (s.bump Reg.PWR_DIPS)
  else s

/-- Step 3 of R457: admission closes, a warm reset and a cut in progress end, the stop is counted. -/
def beginStop (thermal : Bool) (s : State) : State :=
  let s := setRecord (fun r => { r with stops := (r.stops + 1) % 2 ^ 32 }) s
  let s := match s.key.record with
    | some r => s.wr Reg.PWR_STOPS r.stops
    | none => s
  let s := abandonStaged { s with
    pwr := { s.pwr with mode := .stopping, thermal := thermal, warm := none, warmHeld := none, keeperReset := false }
    pat := { s.pat with cut := none } }
  syncPorts (followTrunks (syncStatus s))

/-- 20 ms after the loss of input. -/
def holdExpire (s : State) : State := if s.pwr.mode = .hold then beginStop false s else s

/-- The rails go off (R457 step 5). A zeroize that runs has completed; a thermal stop resets as a warm reset
does (R516). -/
def railsOff (s : State) : State :=
  if s.pwr.mode ≠ .stopping then s
  else
    let s := (coreReset (!s.pwr.thermal) (pinsRise (zeroizeDone s))).emit (.pin "TROX_ACT_N" true)
    { s with pwr := { s.pwr with mode := .battery, afterStop := s.pwr.inputPresent } }

/-- VBAT and the bridging capacitor are lost in Battery: the vault key is gone (R253, R456). -/
def vbatLost (s : State) : State :=
  if s.pwr.mode ≠ .battery then s
  else
    { (s.setBit Reg.PWR_STATUS 6 false) with
      pwr := { s.pwr with mode := .off, afterStop := false }
      key := { s.key with vaultOpen := false, vaultKey := [], vault := {} } }

/-- The input is declared present after Off, Battery or a completed stop (R516, R519). -/
def coldStart (s : State) : State :=
  if railsUp s then s
  else
    let s := setInput true s
    if s.pwr.thermal then s
    else
      let cause := if s.pwr.afterStop then 1 else 0
      startUp cause 1 { s with pwr := { s.pwr with mode := .on, afterStop := false } }

/-- A temperature in quarter degrees. -/
def quarterDeg (t : Nat) : Int := signedOf 12 t

/-- HOT and HOT_CLEAR (R505). -/
def hotCheck (die : Int) (s : State) : State :=
  let h : Int := 4 * (s.rdF Reg.PWR_THR 0 8 : Int)
  if h ≤ die then
    if s.bit Reg.PWR_STATUS 5 then s else pwrEvent 1 (s.setBit Reg.PWR_STATUS 5 true)
  else if die ≤ h - 20 ∧ s.bit Reg.PWR_STATUS 5 = true then pwrEvent 2 (s.setBit Reg.PWR_STATUS 5 false)
  else s

/-- The supply meter's report: PWR_IN_V, PWR_IN_MW, PWR_IN_HZ, the kind of input, and VBAT with whether it lies
within 2.5 V and 3.6 V (R500, R503, R522; DESIGN CHOICE, log entry 124). -/
def supplyReport (r : SupplyReading) (s : State) : State :=
  let v := r.vbat.toNat
  let s := (s.wr Reg.PWR_IN_V r.decivolts.toNat).wr Reg.PWR_IN_MW r.milliwatts.toNat
  let s := (s.wr Reg.PWR_IN_HZ r.decihertz.toNat).setBit Reg.PWR_STATUS 4 (r.decihertz != 0)
  (s.wr Reg.PWR_VBAT v).setBit Reg.PWR_STATUS 6 (decide (2500 ≤ v) && decide (v ≤ 3600))

/-- The sensors are sampled, and every 100 ms the supply meter. Two samples in a row at 125 °C or above, 10 ms apart,
start a thermal stop; after one, start-up begins once the die has fallen to 100 °C and input is present. -/
def tempSample (die plate : Nat) (supply : Option SupplyReading) (s : State) : State :=
  let d := quarterDeg die
  if railsUp s then
    let s := match supply with
      | some r => supplyReport r s
      | none => s
    let s := hotCheck d (s.wr Reg.PWR_TEMP (die + 2 ^ 16 * plate))
    let hot := decide (500 ≤ d)
    let stop := hot && s.pwr.overTemp && (s.pwr.mode == .on || s.pwr.mode == .hold)
    let s := { s with pwr := { s.pwr with overTemp := hot } }
    if stop then beginStop true s else s
  else if s.pwr.thermal ∧ d ≤ 400 then
    let s := { s with pwr := { s.pwr with thermal := false } }
    if s.pwr.inputPresent then startUp 5 1 { s with pwr := { s.pwr with mode := .on, afterStop := false } } else s
  else s

/-! ## The reference clock and the clock plan (R507 to R510) -/

/-- The reference shows no edge for 50 ns. -/
def refLost (s : State) : State :=
  if s.bit Reg.CLK_STATUS 3 then s else pwrEvent 4 (s.setBit Reg.CLK_STATUS 3 true)

/-- 10 ms without the reference: every span runs as Discard. -/
def refLossExtended (s : State) : State :=
  if !s.bit Reg.CLK_STATUS 3 then s else syncPorts (followTrunks (s.setBit Reg.CLK_STATUS 5 true))

/-- The reference has been valid for 100 ms: spans resume, trunk receivers hunt afresh. -/
def refBack (s : State) : State :=
  if !s.bit Reg.CLK_STATUS 3 then s
  else
    let s := (s.setBit Reg.CLK_STATUS 3 false).setBit Reg.CLK_STATUS 5 false
    let s := (List.range 32).foldl (fun s n => if trunkRuns s n then trunkStart n (trunkStop n s) else s) s
    pwrEvent 5 (syncPorts (followTrunks s))

/-- Moves to the aligned plan: islands at 0.80 GHz and 0.72 V, first cells late for up to 50 µs, LIMIT follows
(R79, R94, R508). -/
def moveAligned (src : Nat) (s : State) : State :=
  let s := (s.setBit Reg.CLK_STATUS 0 true).wrF Reg.CLK_STATUS 1 2 src
  let s := { s with fab := { s.fab with slow := [], lateUntil := max s.fab.lateUntil (s.refTick + ticksUs 50) } }
  let s := ((islandsIn s 0) ++ (islandsIn s 3)).foldl (fun s i =>
    (s.wrF (Reg.CPH_ISL_STATUS i) 16 12 800).wr (Reg.CPH_ISL_MV i) 720) s
  trimRecompute (shedCheck (syncHealth s))

/-- The lower island of two that were fenced with cause CLOCK within 10 ms, if there are two. -/
def clockPair : List (Nat × Nat) → Option Nat
  | (t1, i) :: (t2, j) :: rest => if t1 ≤ t2 + 1562500 then some (min i j) else clockPair ((t2, j) :: rest)
  | _ => none

/-- A clock fault under the islands plan. Under the aligned plan a PLL that R508 counts and that loses lock is a warm
reset (R509). -/
def clockFault (cause : ClockFaultCause) (s : State) : State :=
  if alignedPlan s then
    match cause with
    | .pllLock _ => warmTrigger 4 s
    | .islands => s
  else
    let go := fun (info : Nat) => pwrEvent 3 ((moveAligned 1 s).wr Reg.CLK_FAULT_INFO (info + 2 ^ 31))
    match cause with
    | .pllLock d => go (1 + 16 * d.toNat)
    | .islands =>
      match clockPair s.pwr.clockFences with
      | some i => go (2 + 16 * i)
      | none => s

/-- CLK_CTRL.ALIGN written 1. -/
def align (s : State) : State :=
  if alignedPlan s then s else moveAligned 2 (s.setBit Reg.CLK_CTRL 0 true)

/-- The root or a counted PLL loses lock under the aligned plan. -/
def rootLockLoss (s : State) : State := if alignedPlan s then warmTrigger 4 s else s

/-! ## Clock enables and CLKOBS (R511 to R513) -/

/-- A write of CLK_EN: set bits open at once and cancel a deferred close; a cleared bit of an open unit defers
its close. -/
def clkEnWrite (v : Nat) (s : State) : State :=
  let new := v % 32
  let on := s.rd Reg.CLK_ON
  let s := (s.wr Reg.CLK_EN new).wr Reg.CLK_ON (on ||| new)
  let shut := (bitsOf 5 on).filter (fun b => !new.testBit b)
  syncPorts { s with pwr := { s.pwr with closing := shut } }

/-- A deferred gate closes; `busy` when the unit's port was not idle for 64 cycles. -/
def gateClose (unit : Nat) (busy : Bool) (s : State) : State :=
  if !s.pwr.closing.contains unit then s
  else
    let s := { s with pwr := { s.pwr with closing := s.pwr.closing.filter (· != unit) } }
    let s := syncPorts (s.setBit Reg.CLK_ON unit false)
    if busy then pwrEvent 6 (s.bump Reg.CLK_GATE_ABORTS) else s

/-- Baud rate of a port type in Hz. -/
def typeBaud : Nat → Nat
  | 0 => 0 | 1 => 1250000000 | 2 => 10312500000 | 3 => 25781250000 | 4 => 26562500000 | _ => 53125000000

/-- Baud rate of a lane of a trunk line port in Hz, with two bits to a PAM4 symbol (R158). -/
def trunkBaud (type : Nat) : Nat :=
  (trunkLaneRate type).1 / (trunkLaneRate type).2 / (if trunkFec type then 2 else 1)

/-- Frequency of a CLKOBS source in Hz; 0 while it is still. -/
def obsSource (s : State) (src : Nat) : Nat :=
  if src = 0 then 156250000
  else if src = 1 then 1000000000
  else if src = 2 then (if alignedPlan s then 3200000000 else 0)
  else if 0x10 ≤ src ∧ src ≤ 0x27 then
    let i := src - 0x10
    if islandState s i = 1 ∨ islandState s i = 2 then 0 else s.rdF (Reg.CPH_ISL_STATUS i) 16 12 * 1000000
  else if 0x40 ≤ src ∧ src ≤ 0x88 then
    let l := src - 0x40
    if !s.bit (Reg.LANE_STATUS l) 1 then 0
    else if l < 64 then
      (match lanePort s l with
       | some p => (if trunkLine s p then trunkBaud (portCfg s p).type else typeBaud (portCfg s p).type) / 64
       | none => 0)
    else 14062500000 / 64
  else if 0x90 ≤ src ∧ src ≤ 0x93 then (if baseOn s (src - 0x90) then 156250000 else 0)
  else 0

/-- CLK_OBS_STATUS: RUNNING, or TOO_FAST above 250 MHz. -/
def syncObs (s : State) : State :=
  let hz := if s.bit Reg.CLK_ON 4 && s.bit Reg.CLK_OBS_SEL 31 then obsSource s (s.rdF Reg.CLK_OBS_SEL 0 8) else 0
  let fast := decide (250000000 * (s.rdF Reg.CLK_OBS_DIV 0 16 + 1) < hz)
  s.wr Reg.CLK_OBS_STATUS (b2n (decide (0 < hz) && !fast) + 2 * b2n fast)

/-- Whether SRC names a source. -/
def obsLegal (v : Nat) : Bool :=
  decide (v ≤ 2) || (decide (0x10 ≤ v) && decide (v ≤ 0x27)) || (decide (0x40 ≤ v) && decide (v ≤ 0x88)) ||
  (decide (0x90 ≤ v) && decide (v ≤ 0x93))

/-- A write of CLK_OBS_SEL or CLK_OBS_DIV: the output is held low and restarts. -/
def obsWrite (a v : Nat) (s : State) : State :=
  if a = Reg.CLK_OBS_SEL then
    let s := if obsLegal (field v 0 8) then s.wrF a 0 8 (field v 0 8) else s
    syncObs ((s.setBit a 31 (v.testBit 31)).emit (.pin "CLKOBS" false))
  else if a = Reg.CLK_OBS_DIV then syncObs ((s.wr a (v % 65536)).emit (.pin "CLKOBS" false))
  else s

/-! ## Firmware (R514, R515) -/

/-- Whether a bank holds a valid image. -/
def bankValid (s : State) (b : Nat) : Bool := s.bit Reg.PWR_FW_STATUS (4 + b)

/-- Version of the image in a bank. -/
def bankVersion (s : State) (b : Nat) : Nat := if b = 0 then s.pwr.fwVersionA else s.pwr.fwVersionB

/-- The running bank, and the one not running. -/
def bankRunning (s : State) : Nat := s.rdF Reg.PWR_FW_STATUS 6 1

/-- Posts the result of an OP. -/
def fwDone (code : Nat) (s : State) : State :=
  let s := { s with pwr := { s.pwr with fwInstalling := false } }.setBit Reg.PWR_FW_STATUS 0 false
  pwrEvent 7 (s.wrF Reg.PWR_FW_STATUS 1 3 code)

/-- INSTALL: checks the length and starts the fetch; the bank being written is not valid. -/
def fwInstall (s : State) : State :=
  if s.bit Reg.PWR_FW_STATUS 0 then s
  else
    let len := s.rdF Reg.PWR_FW_LEN 0 25
    if len = 0 ∨ 2 ^ 24 < len then fwDone 3 s
    else
      let s := s.emit (.dmaRead (s.rd Reg.PWR_FW_ADDR_LO + 2 ^ 32 * s.rd Reg.PWR_FW_ADDR_HI) len)
      let s := (s.setBit Reg.PWR_FW_STATUS 0 true).setBit Reg.PWR_FW_STATUS (5 - bankRunning s) false
      { s with pwr := { s.pwr with fwInstalling := true } }

/-- The fetch of a firmware image has ended and the image has been verified. -/
def fwInstallDone (img : FwImage) (s : State) : State :=
  if !s.pwr.fwInstalling then s
  else
    match img with
    | .dmaError => fwDone 4 (logError 7 false false Reg.PWR_FW_CTRL s)
    | .image bytes ok v =>
      if !ok then fwDone 1 s
      else if v.toNat < s.pwr.fwFloor then fwDone 2 s
      else
        let b := 1 - bankRunning s
        let d := sha384 bytes
        let s := if b = 0 then { s with pwr := { s.pwr with fwVersionA := v.toNat, fwDigestA := d } }
          else { s with pwr := { s.pwr with fwVersionB := v.toNat, fwDigestB := d } }
        fwDone 0 (s.setBit Reg.PWR_FW_STATUS (4 + b) true)

/-- PREFER. -/
def fwPrefer (s : State) : State :=
  if s.bit Reg.PWR_FW_STATUS 0 then s
  else
    let b := 1 - bankRunning s
    if bankValid s b then fwDone 0 (s.wrF Reg.PWR_FW_STATUS 7 1 b) else fwDone 5 s

/-- RAISE_FLOOR: an image below the new floor is valid no longer. -/
def fwRaiseFloor (s : State) : State :=
  if s.bit Reg.PWR_FW_STATUS 0 then s
  else
    let f := bankVersion s (bankRunning s)
    let s := { s with pwr := { s.pwr with fwFloor := f } }
    let b := 1 - bankRunning s
    fwDone 0 (if bankVersion s b < f then s.setBit Reg.PWR_FW_STATUS (4 + b) false else s)

/-- The preferred valid bank is started, else the other; with neither, firmware recovery. -/
def bootFirmware (ok : Bool) (s : State) : State :=
  let p := s.rdF Reg.PWR_FW_STATUS 7 1
  let pick := if !ok then none else if bankValid s p then some p else if bankValid s (1 - p) then some (1 - p) else none
  match pick with
  | some b =>
    let s := { s with pwr := { s.pwr with fwRecovery := false } }
    (s.wrF Reg.PWR_FW_STATUS 6 1 b).wr Reg.GLB_FWVER (bankVersion s b)
  | none => { s with pwr := { s.pwr with fwRecovery := true } }.wr Reg.GLB_FWVER 0

/-- A firmware restart begins; one that runs absorbs it (R430, R515). -/
def firmwareRestart (s : State) : State :=
  if s.pwr.fwRestarting then s
  else
    let s := abandonStaged (releaseLocks (muteQueues (s.setBit Reg.HIF_STATUS 16 false)))
    { s with pwr := { s.pwr with fwRestarting := true } }

/-- OP RESTART. -/
def fwRestartOp (s : State) : State :=
  if s.bit Reg.PWR_FW_STATUS 0 then s else firmwareRestart (fwDone 0 s)

/-- A firmware restart ends. The log names no access: its place is a free value. -/
def fwReady (s : State) : State :=
  if !s.pwr.fwRestarting then s
  else
    let s := bootFirmware true { s with pwr := { s.pwr with fwRestarting := false } }
    if s.pwr.fwRecovery then s
    else
      let s := s.setBit Reg.HIF_STATUS 16 true
      let s := s.wr Reg.HIF_FW_RESTARTS ((s.rd Reg.HIF_FW_RESTARTS + 1) % 2 ^ 32)
      let x := Config.freeNat s.rng
      let s := (logError 8 (x.testBit 26) (x.testBit 27) (x % 2 ^ 26) s).drawn
      postFwReady { s with hif := { s.hif with fwReadyOwed := true } }

/-! ## Warm reset (R516 to R518) -/

/-- MRESET_N has been low for 10 µs. -/
def mresetFall (s : State) : State :=
  warmTrigger 2 { s with pwr := { s.pwr with mresetLow := true } }

/-- Frames are still leaving, or journal and vault writes are still in progress (R517 step 2). -/
def warmDraining (s : State) : Bool :=
  s.sch.frames.any (fun e => !e.2.heads.isEmpty) || s.sec.sa.any (fun e => e.2.journalling.isSome) ||
  s.pat.storing.isSome ||
  (match s.hrn.takeover with
   | some (.journalling, _) => true
   | _ => false)

/-- The drain is over: the core reset is asserted, and released at once unless MRESET_N is still low. -/
def warmDrained (s : State) : State :=
  if s.pwr.warm ≠ some .draining ∨ warmDraining s then s
  else
    let s := startUp s.pwr.warmCause 3 (coreReset false (pinsRise s))
    if s.pwr.mresetLow then { s with pwr := { s.pwr with warm := some .asserted } } else s

/-- MRESET_N returns high. -/
def mresetRise (s : State) : State :=
  let s := { s with pwr := { s.pwr with mresetLow := false } }
  if s.pwr.warm = some .asserted then { s with pwr := { s.pwr with warm := none } } else s

/-! ## Vault restore (R212, R213, R242, R250) -/

/-- Restores an SC entry with its epoch, and the MARK of its SAs. -/
def restoreSc (rx : Bool) (i : Nat) (j : JournalSc) (s : State) : State :=
  let e : ScEntry := { inUse := true, words := j.words, epoch := j.epoch, started := j.started }
  [0, 1].foldl (fun s k =>
    s.setSa (scSa e k) { owner := some (i, rx), mark := journalledMark s (scSa e k) }) (s.setSc rx i e)

/-- Fills a restored SC again: a derived SC at its current epoch, where it resumes, and the next. Delivered
transmit SCs are in key gap, and derived ones whose parent did not come back. -/
def restoreFills (rx : Bool) (i : Nat) (s : State) : State :=
  let e := s.scAt rx i
  if !e.started && (rx || scDerived e) then s
  else if e.started && scDerived e && (s.parentAt (scParent e)).valid then
    let sa := scSa e e.epoch
    let m := journalledMark s sa
    let s := requestFill ⟨sa, i, rx, e.epoch, none, !rx, if rx then m else m + 1⟩ s
    if e.epoch < 0xFFFFFFFF then requestFill ⟨scSa e (e.epoch + 1), i, rx, e.epoch + 1, none, false, 0⟩ s else s
  else if rx then s
  else enterGap i s

/-- The vault's parents and SCs come back. -/
def vaultRestore (s : State) : State :=
  if !s.key.vaultOpen then s
  else
    let v := s.key.vault
    let s := v.parents.foldl (fun s e => setParent e.1 e.2 s) s
    let put := fun (rx : Bool) (s : State) (e : Nat × Option JournalSc) => match e.2 with
      | some j => restoreSc rx e.1 j s
      | none => s
    let s := v.rx.foldl (put true) (v.tx.foldl (put false) s)
    let s := (Tbl.keys s.sec.tx).foldl (fun s i => restoreFills false i s) s
    syncKey ((Tbl.keys s.sec.rx).foldl (fun s i => restoreFills true i s) s)

/-- The restore waits for a Pattern (R520). -/
def restoreDue (s : State) : State :=
  if s.pwr.restoreDue && s.pat.active.isSome && s.pat.cut.isNone then
    vaultRestore { s with pwr := { s.pwr with restoreDue := false } }
  else s

/-! ## Start-up (R519, R520) -/

/-- Step 3: firmware, DRBG and its keys; PCIe is ready after it. -/
def stepFirmware (ok : Bool) (s : State) : State :=
  bootFirmware ok (startDrbg s)

/-- The copy of the enrolment record with the higher valid counter; `fails` are the copies that fail their tag (R251). -/
def pickRecord (fails : Nat) (s : State) : State :=
  if !fails.testBit 6 then s
  else
    { s with key := { s.key with
      record := if fails.testBit 7 then none else s.key.recordOld, recordOld := none } }

/-- The class 7 buckets that the image meters start full (R302, R309). -/
def fillRes7 (s : State) : State :=
  (List.range 32).foldl (fun s p =>
    let b := bucketOf s p 7
    if b.2.2 then setTokens p 7 (8 * b.2.1) s else s) s

/-- Step 4: keeper image and keeper key, KEY and KPR registers from the record, a new challenge. -/
def stepKeeper (fails : Nat) (s : State) : State :=
  let s := pickRecord fails s
  let s := match keeperKey s with
    | some k => freshMasks keeperWord 4 { s with key := { s.key with keeperCopy := k } }
    | none => s
  let s := imageOffsets.foldl (fun s o => s.wr (kprBase + o) (imageWord s (kprBase + o))) s
  let s := fillRes7 (syncRes7 (s.wrBytes (Reg.KPR_DIGEST 0) (sha384 (imageBytes s))))
  let s := match s.key.record with
    | some r => ((((s.wr64 (Reg.KPR_SEQ 0) r.kseq).wr Reg.KEY_ZCOUNT r.zcount).wr Reg.KEY_ZSRC r.zsrc).wr
        Reg.PWR_STOPS r.stops)
    | none => s
  syncStatus (syncGen (syncKey (newChallenge (s.wr Reg.KEY_ZTIME s.key.ztime))))

/-- Step 5: island BIST, DRAM training, lane loopback. -/
def stepTests (r : StartupReport) (s : State) : State :=
  let s := (List.range 24).foldl (fun s i =>
    if r.islandFails.getLsbD i then fenceIsland i 0 s else islandRuns i s) s
  let s := (List.range 8).foldl (fun s c => if r.channelFails.getLsbD c then fenceChannel c 1 s else s) s
  let s := (List.range 72).foldl (fun s l => if r.laneFails.getLsbD l then failLane l s else s) s
  syncHealth { s with evr := { s.evr with rebuilding := false } }

/-- Records of the vault that fail their tag at start-up step 8 are absent, and each counts (R250): parent set, SC
entries with epochs and marks, keeper image. -/
def dropRecords (fails : Nat) (s : State) : State :=
  let v := s.key.vault
  let parents := fails.testBit 2 && !v.parents.isEmpty
  let journal := fails.testBit 3 && !(v.tx.isEmpty && v.rx.isEmpty && v.marks.isEmpty)
  let image := fails.testBit 4
  let v := if parents then { v with parents := [] } else v
  let v := if journal then { v with tx := [], rx := [], marks := [] } else v
  let v := if image then { v with image := [] } else v
  vaultFault (b2n parents + b2n journal + b2n image) { s with key := { s.key with vault := v } }

/-- PAT_FLOOR and PAT_BOOT are absent where their record fails its tag. -/
def dropFloor (fails : Nat) (s : State) : State :=
  if fails.testBit 5 && s.key.vaultOpen then
    vaultFault 1 { s with key := { s.key with vault := { s.key.vault with floor := 0, boot := 0 } } }
  else s

/-- Step 6: what the vault shows in registers, then the Pattern; `fails` are the records that fail their tag. -/
def stepPattern (fails : Nat) (s : State) : State :=
  let s := dropFloor fails s
  let v := s.key.vault
  let s := (s.wr Reg.PAT_FLOOR v.floor).setBit Reg.PAT_BOOT 0 (v.boot == 1)
  let s := syncSlots ((s.wr Reg.CHN_HRN_CTRL v.hrnCtrl).wr Reg.CHN_HRN_WAIT v.hrnWait)
  let s := s.wrF Reg.CHN_HRN_STATUS 4 2 v.claim
  if s.pwr.fwRecovery then s else patternBoot fails s

/-- Alarms of sources that rose in Battery (R254, R458). -/
def batteryAlarm (s : State) : State :=
  if s.key.batteryAlarms = 0 then s
  else
    let m := s.key.batteryAlarms
    let s := { s with key := { s.key with batteryAlarms := 0 } }
    keeperAlarm m (keyEvent 1 (s.wr Reg.KEY_ALARM (s.rd Reg.KEY_ALARM ||| m)))

/-- Zeroizes that start-up owes: sources seen in Battery are recorded with KEY_ZTIME 0; a vault that is lost
or cannot be read zeroizes with source POWER (R253, R256, R520). -/
def stepTamper (ok : Bool) (s : State) : State :=
  let s := batteryAlarm s
  if s.key.batterySources ≠ 0 then
    let m := s.key.batterySources
    let s := { s with key := { s.key with batterySources := 0 } }
    recordZeroize m 0 (s.setBit Reg.KEY_STATUS 5 true)
  else if s.lifecycle == .operational && (!s.key.vaultOpen || !ok) then zeroizeDone (zeroizeFrom 10 s)
  else s

/-- Step 9: spans enabled, chain participation, the evidence ring opens. -/
def stepEnable (s : State) : State :=
  let s := chainJoin (openRing 0 (enterStep 9 s))
  syncStatus (checkBypass (trimRecompute (syncPorts (followTrunks s))))

/-- Step 8: vault restore and FW_READY, then step 9. With no Pattern the restore waits for one. -/
def stepVault (ok : Bool) (fails : Nat) (s : State) : State :=
  let s := stepTamper ok s
  let s := if s.key.vaultOpen then dropRecords fails s else s
  let s := restoreDue { s with pwr := { s.pwr with restoreDue := true } }
  stepEnable (s.setBit Reg.HIF_STATUS 16 (!s.pwr.fwRecovery))

/-- The start-up step in progress completes. -/
def startupStep (r : StartupReport) (s : State) : State :=
  let n := s.rdF Reg.PWR_STATUS 8 4
  if 9 ≤ n ∨ s.pwr.warm.isSome ∨ s.pwr.mode = .stopping then s
  else if n = 8 then stepVault r.ok r.vaultFails.toNat s
  else
    let s :=
      if n = 2 then { s with chn := { s.chn with headStrap := r.head } }.emit (.pin "TROX_ACT_N" false)
      else if n = 3 then stepFirmware r.ok s
      else if n = 4 then stepKeeper r.vaultFails.toNat s
      else if n = 5 then stepTests r s
      else if n = 6 then stepPattern (if r.ok then r.vaultFails.toNat else 3) s
      else s
    enterStep (n + 1) s

end Sys2Proof.Machine
end

