-- ==== Sys2Proof/Machine/HostIf.lean ====
section
/-! DEFINITION. Host accesses: which are served, which answer as gated, what a read returns and what a write
of any register does by the access types of its fields or by its own rule (R7 to R12, R150, R405 to R418,
R489, R547). -/

namespace Sys2Proof.Machine

/-! ## Who answers (R405, R411, R511, R515) -/

/-- A BAR0 address lies in a block or unit that answers as gated: a gated unit of CLK_EN, or, in firmware
recovery, every block but GLB and PWR. -/
def gatedAt (s : State) (a : Nat) : Bool :=
  let within := fun (lo hi : Nat) => decide (lo ≤ a) && decide (a < hi)
  (s.pwr.fwRecovery && !within 0 0x4000 && !within 0x340000 0x380000) ||
  (!s.bit Reg.CLK_ON 0 && within 0x280000 0x2C0000) ||
  (!s.bit Reg.CLK_ON 1 && (within 0x380004 0x38000C || within 0x390000 0x3A0000)) ||
  (!s.bit Reg.CLK_ON 2 && within 0x40000 (0x40000 + 73 * 0x400) &&
    decide (0x100 ≤ a % 0x400) && decide (a % 0x400 ≤ 0x118)) ||
  (!s.bit Reg.CLK_ON 3 && within 0x1C0000 0x1C0084)

/-- Identity in PCI configuration space: Vendor ID, Device ID, Revision ID, class code and Subsystem ID, the last by the
part (R3, R404). -/
def pciIdentity (s : State) : List Nat :=
  [0x1E9C, 0x6400, 0xA2, 0x108000, if s.rdF Reg.GLB_ID_PART 0 32 = 0x64000B01 then 0x0B01 else 0x0B00]

/-- The Device Serial Number: the domain unit number, 0 in Blank (R404). -/
def deviceSerial (s : State) : Nat := if s.lifecycle = .blank then 0 else s.unit % 2 ^ 18

/-- A host write to BAR0: served, discarded and logged as GATED_WR, or not served at all. -/
def hostWrite (a : Nat) (f : State → State) (s : State) : State :=
  if !hostServed s then s
  else if gatedAt s a then logError 1 false true a s
  else f s

/-- A host read of BAR0: served, aborted and logged as GATED_RD, or not served at all. -/
def hostRead (a : Nat) (f : State → State) (s : State) : State :=
  if !hostServed s then s
  else if gatedAt s a then logError 2 false false a (s.emit .completerAbort)
  else pmcCount 0x0D00 0xFF 1 (f s)

/-- A host write to BAR2. -/
def hostWrite2 (f : State → State) (s : State) : State := if hostServed s then f s else s

/-! ## Lock violations and the keeper mirror (R415, R416) -/

/-- A write that addresses an RWL field of a locked register. -/
def lockViolation (a : Nat) (s : State) : State :=
  let s := (s.setBit Reg.HIF_LOCK_STATUS 0 true).bump Reg.HIF_LOCK_VCNT
  hifEvent 2 a 0 (s.wr Reg.HIF_LOCK_ADDR a)

/-- A write to the keeper mirror. -/
def mirrorWrite (a : Nat) (s : State) : State :=
  let s := (s.bump Reg.HIF_KPR_WRITES).wr Reg.HIF_KPR_ADDR a
  keeperAlarm (2 ^ 9) (hifEvent 3 a 0 (raiseVector 4 s))

/-! ## Writes by access type (R7, R12, R547) -/

/-- What a write of `v` leaves in one field of a register that holds `old`. -/
def fieldWrite (v old : Nat) (f : RegField) : Nat :=
  let x := field v f.lsb f.width
  match f.acc with
  | .rw => if f.legal.ok x then putField old f.lsb f.width x else old
  | .rws => if f.legal.ok x then putField old f.lsb f.width x else old
  | .w1c => putField old f.lsb f.width (field old f.lsb f.width &&& (2 ^ f.width - 1 - x))
  | .w1s => putField old f.lsb f.width (field old f.lsb f.width ||| x)
  | _ => old

/-- A write that acts on every field as its access type gives and does nothing else. -/
def plainWrite (a v : Nat) (s : State) : State := s.wr a ((regFields a).foldl (fieldWrite v) (s.rd a))

/-! ## Registers with rules of their own -/

/-- Index of an instance of a register, its first instance at `base`. -/
def instIndex (base stride count a : Nat) : Option Nat :=
  if base ≤ a ∧ (a - base) % stride = 0 ∧ (a - base) / stride < count then some ((a - base) / stride) else none

/-- The operation a write of PAT_CTRL names (R65); NOP and the reserved values have no effect but OP_IGNORED while BUSY
(R12, R66). -/
def patCtrl (op : Nat) (s : State) : State :=
  match op with
  | 1 => stageWindow s
  | 2 => stageSlot 0 s
  | 3 => stageSlot 1 s
  | 4 => patApply s
  | 5 => patDiscard s
  | 6 => patStore 0 s
  | 7 => patStore 1 s
  | 8 => raiseFloor s
  | 9 => patErase 0 s
  | 0xA => patErase 1 s
  | _ => patOp id s

/-- A write to a register with RWL fields: PAT_BOOT or PMC_USER_EN (R415, R546). -/
def lockableWrite (a v : Nat) (s : State) : State :=
  let locked := s.bit a 31
  let t := if locked then lockViolation a s
    else if a = Reg.PAT_BOOT then setBoot (field v 0 1) s
    else s.wrF a 0 16 (field v 0 16)
  if v.testBit 31 then t.setBit a 31 true else t

/-- GLB, CLK and IRQ registers. -/
def writeClkIrq (a v : Nat) (s : State) : State :=
  if a = Reg.CLK_CTRL then (if v.testBit 0 then align s else s)
  else if a = Reg.CLK_EN then clkEnWrite v s
  else if a = Reg.CLK_OBS_SEL ∨ a = Reg.CLK_OBS_DIV then obsWrite a v s
  else if a = Reg.IRQ_TEST then irqTest v s
  else match instIndex (Reg.IRQ_MSIX_CTRL 0) 16 64 a with
    | some n => vectorCtrlWrite n v s
    | none => plainWrite a v s

/-- A write of PEN_FECDEG: CLR_EXP runs from SET_EXP to 9, and a write with CLR_EXP below SET_EXP is ignored (R344). -/
def fecDegWrite (a v : Nat) (s : State) : State :=
  if field v 4 4 < field v 0 4 then s
  else
    let t := plainWrite a v s
    if t.rdF a 4 4 < t.rdF a 0 4 then s else t

/-- PEN registers. -/
def writePen (a v : Nat) (s : State) : State :=
  if a = Reg.PEN_INTEG_COMMIT then (if v.testBit 0 then dintCommit s else s)
  else match instIndex (Reg.PEN_EN 0) 16 64 a, instIndex (Reg.PEN_FECDEG 0) 4 64 a with
    | some p, _ => portEnableWrite p v s
    | _, some _ => fecDegWrite a v s
    | none, none => plainWrite a v s

/-- LANE registers. LANE_CTRL of HCK acts on SQUELCH only (R351). -/
def writeLane (a v : Nat) (s : State) : State :=
  if a = Reg.LANE_HRN_CTRL then
    let s := hrnDisable (v.testBit 1) s
    if v.testBit 0 then retrain s else s
  else if a = Reg.LANE_CTRL 72 then s.setBit a 16 (v.testBit 16)
  else match instIndex (Reg.LANE_CTRL 0) 0x400 72 a, instIndex (Reg.LANE_TXFFE 0) 0x400 72 a,
      instIndex (Reg.LANE_PRBS 0) 0x400 72 a, instIndex (Reg.LANE_INJ 0) 0x400 72 a with
    | some l, _, _, _ =>
      adaptWrite l (s.bit a 2) (plainWrite a v s)
    | _, some l, _, _ => txffeWrite l v s
    | _, _, some l, _ => lanePrbs l v s
    | _, _, _, some l => injectWrite l v s
    | _, _, _, _ => plainWrite a v s

/-- FRM and CPH registers. -/
def writeFrmCph (a v : Nat) (s : State) : State :=
  if Reg.FRM_TRK_TXSC 0 ≤ a ∧ a < Reg.FRM_TRK_TXSC 0 + 0x400 ∧ (a - Reg.FRM_TRK_TXSC 0) % 0x20 ≤ 8 then trunkBindingWrite a v s
  else if a = Reg.CPH_CTRL then trimRecompute (plainWrite a v s)
  else match instIndex (Reg.CPH_ISL_CTRL 0) 4 24 a with
    | some i => if v.testBit 0 then hostFence i s else hostFenceClear i s
    | none => plainWrite a v s

/-- The registers whose writes a busy commit ignores: SECW members, SEL, OP and COMMIT (R193). -/
def secwMember (a : Nat) : Bool :=
  a == Reg.SEC_SCW_SEL || a == Reg.SEC_SCW_OP || a == Reg.SEC_SCW_COMMIT ||
  (instIndex (Reg.SEC_SCW_W 0) 4 8 a).isSome

/-- SEC registers: SECW members, SEL, OP and COMMIT are ignored while a commit is busy (R193). -/
def writeSec (a v : Nat) (s : State) : State :=
  if secwMember a && s.bit Reg.SEC_SCW_STATUS 0 then s.setBit Reg.SEC_SCW_STATUS 1 true
  else if a = Reg.SEC_SCW_COMMIT then (if v.testBit 0 then secwCommit s else s)
  else if a = Reg.SEC_SCR_SEL then scReadback v s
  else if a = Reg.SEC_SAR_SEL then saReadback v s
  else if a = Reg.SEC_EPOCH_CMD then hostTrigger v s
  else plainWrite a v s

/-- The argument and data registers of the command interface (R287, R288). -/
def clsArgument (a : Nat) : Bool :=
  decide (Reg.CLS_CMD_ARG 0 ≤ a) && decide (a < Reg.CLS_PORT_COMMIT) && a != Reg.CLS_WIN_PAGE &&
  (regFields a).any (fun f => f.acc == .rw)

/-- CLS registers: argument and data registers are ignored while a command runs (R288). -/
def writeCls (a v : Nat) (s : State) : State :=
  if a = Reg.CLS_CMD then clsCmdWrite v s
  else if a = Reg.CLS_AGE then ageWrite v s
  else if a = Reg.CLS_PORT_COMMIT then (if v.testBit 0 then clspCommit s else s)
  else if clsArgument a && s.bit Reg.CLS_CMD_STATUS 0 then
    s.setBit Reg.CLS_CMD_STATUS 1 true
  else plainWrite a v s

/-- SCH registers: the shadow gate list through its window, commits, service modes, flow-control levels. -/
def writeSch (a v : Nat) (s : State) : State :=
  if a = Reg.SCH_LS_SEL then lsSelect v s
  else if a = Reg.SCH_LS_CLR then (if v.testBit 0 then lsClear s else s)
  else if a = Reg.SCH_GCL_SEL then syncGcl (plainWrite a v s)
  else if a = Reg.SCH_GCL_DUR then gclEntryWrite (setEntry (s.rdF Reg.SCH_GCL_SEL 16 10) (fun e => { e with dur := v })) s
  else if a = Reg.SCH_GCL_GATES then gclAccess (some v) s
  else if a = Reg.SCH_GCL_COUNT then gclWrite (fun ps => { ps with shadowCount := v % 2048 }) s
  else if a = Reg.SCH_GCL_CYCLE then
    gclWrite (fun ps => { ps with shadow := { ps.shadow with cycle := v % 2 ^ 30 } }) s
  else if a = Reg.SCH_GCL_PHASE then
    gclWrite (fun ps => { ps with shadow := { ps.shadow with phase := v % 2 ^ 30 } }) s
  else if a = Reg.SCH_GCL_COMMIT then (if v.testBit 0 then gclCommit s else s)
  else match instIndex (Reg.SCH_PCOMMIT 0) 0x80 32 a, instIndex (Reg.SCH_SVC 0) 0x80 32 a,
      instIndex (Reg.SCH_CCOMMIT 0) 0x40 32 a with
    | some p, _, _ => if v.testBit 0 then schpCommit p s else s
    | _, some p, _ => serviceWrite p v s
    | _, _, some m => if v.testBit 0 then schcCommit m s else s
    | _, _, _ => plainWrite a v s

/-- The base whose registers hold an address, and the register's place. -/
def timBase (a : Nat) : Option (Nat × Nat) :=
  if Reg.TB_NS 0 ≤ a ∧ a < Reg.TB_NS 0 + 0x400 then some ((a - Reg.TB_NS 0) / 0x100, (a - Reg.TB_NS 0) % 0x100) else none

/-- TIM registers: those of a disabled base ignore writes (R353). -/
def writeTim (a v : Nat) (s : State) : State :=
  match timBase a with
  | some (b, o) =>
    if !baseOn s b then s
    else match o with
      | 0x0C => secmarkWrite b v s
      | 0x10 => secbaseLo b v s
      | 0x14 => secbaseWrite b v s
      | 0x18 => tbStep b v s
      | 0x20 => tbSet b v s
      | 0x24 => offsetSample b v s
      | 0x28 => fadjWrite b v s
      | 0x34 => servoWrite b v s
      | _ => plainWrite a v s
  | none =>
    if a = Reg.TIM_CAPTURE then (if v.testBit 0 then timeCapture s else s)
    else if a = Reg.TIM_PPS_CTRL then
      let s := plainWrite a v s
      if v.testBit 0 then s else ppsFall s
    else if a = Reg.TIM_F10M_CTRL then f10mSync (plainWrite a v s)
    else plainWrite a v s

/-- EVR registers. -/
def writeEvr (a v : Nat) (s : State) : State :=
  if a = Reg.EVR_CTRL then
    let s := plainWrite a v s
    let s := if v.testBit 1 then releaseRing s else s
    if v.testBit 2 then evidenceTrigger 2 s else s
  else if a = Reg.EVR_RD_CMD then rdStart v s
  else if a = Reg.EVR_CH_FENCE then channelFenceWrite v s
  else plainWrite a v s

/-- Events that R486 defines. -/
def pmcEvents : List Nat :=
  [0x0200, 0x0201, 0x0202, 0x0203, 0x0204, 0x0205, 0x0300, 0x0301, 0x0302, 0x0600, 0x0601, 0x0700, 0x0701,
   0x0702, 0x0800, 0x0801, 0x0900, 0x0D00, 0x0D01]

/-- PMC registers: reserved EVENT values, MODE 3 and CHAIN of an odd counter are ignored (R484 to R486). -/
def writePmc (a v : Nat) (s : State) : State :=
  match instIndex (Reg.PMC_SEL 0) 4 512 a with
  | some n =>
    let s := if pmcEvents.contains (field v 0 16) then s.wrF a 0 16 (field v 0 16) else s
    let s := if field v 24 2 = 3 then s else s.wrF a 24 2 (field v 24 2)
    let s := if n % 2 = 0 ∨ v.testBit 30 = false then s.setBit a 30 (v.testBit 30) else s
    (s.wrF a 16 8 (field v 16 8)).setBit a 31 (v.testBit 31)
  | none => if a = Reg.PMC_USER_EN then lockableWrite a v s else plainWrite a v s

/-- Keeps CHN_HRN_CTRL and CHN_HRN_WAIT in the vault (R481). -/
def journalChn (s : State) : State :=
  if s.key.vaultOpen && !vaultQuiet s then
    s.putVault .harness (fun v => { v with hrnCtrl := s.rd Reg.CHN_HRN_CTRL, hrnWait := s.rd Reg.CHN_HRN_WAIT })
  else s

/-- CHN registers. -/
def writeChn (a v : Nat) (s : State) : State :=
  if a = Reg.CHN_CINCH_CMD then (if v.testBit 0 then cinchCommand s else s)
  else if a = Reg.CHN_HRN_CMD then (if v.testBit 0 then hostTakeover s else s)
  else if a = Reg.CHN_HRN_CTRL ∨ a = Reg.CHN_HRN_WAIT then journalChn (plainWrite a v s)
  else plainWrite a v s

/-- The operation a write of PWR_FW_CTRL names (R514). -/
def fwCtrl (op : Nat) (s : State) : State :=
  match op with
  | 1 => fwInstall s
  | 2 => fwPrefer s
  | 3 => fwRestartOp s
  | 4 => fwRaiseFloor s
  | _ => s

/-- A write of DBG_TRACE_CTRL: ignored in Closed; EN = 1 clears the buffer and starts a capture (R455). -/
def traceWrite (v : Nat) (s : State) : State :=
  if s.kpr.debug = .closed then s
  else
    let s := plainWrite Reg.DBG_TRACE_CTRL v s
    let s := if v.testBit 31 then
        { s with dbg := { records := [], running := true } }.wr Reg.DBG_TRACE_COUNT 0
      else { s with dbg := { s.dbg with running := false } }
    syncStatus s

/-- HIF registers: bases are fixed while their queue is enabled; VALID of HIF_ERRINFO clears OVERFLOW too. -/
def writeHif (a v : Nat) (s : State) : State :=
  if a = Reg.HIF_KQ_CTRL then kqCtrlWrite v s
  else if a = Reg.HIF_EQ_CTRL then eqCtrlWrite v s
  else if Reg.HIF_KQ_BASE_LO ≤ a ∧ a ≤ Reg.HIF_KQ_CBASE_HI ∧ s.bit Reg.HIF_KQ_CTRL 0 = true then s
  else if (a = Reg.HIF_EQ_BASE_LO ∨ a = Reg.HIF_EQ_BASE_HI) ∧ s.bit Reg.HIF_EQ_CTRL 0 = true then s
  else if a = Reg.HIF_ERRINFO then
    if v.testBit 31 then (s.setBit a 31 false).setBit a 30 false else s
  else plainWrite a v s

/-- A served host write of a BAR0 register. -/
def writeRegister (a v : Nat) (s : State) : State :=
  if a = Reg.PAT_CTRL then patCtrl (field v 0 4) s
  else if a = Reg.PAT_BOOT then lockableWrite a v s
  else if a = Reg.PWR_FW_CTRL then fwCtrl (field v 0 3) s
  else if a = Reg.DBG_TRACE_CTRL then traceWrite v s
  else if a < 0x4000 then plainWrite a v s
  else if a < 0x10000 then writeClkIrq a v s
  else if a < 0x20000 then plainWrite a v s
  else if a < 0x40000 then writePen a v s
  else if a < 0x80000 then writeLane a v s
  else if a < 0x100000 then writeFrmCph a v s
  else if a < 0x140000 then writeSec a v s
  else if a < 0x180000 then plainWrite a v s
  else if a < 0x1C0000 then writeCls a v s
  else if a < 0x200000 then writeSch a v s
  else if a < 0x240000 then writeTim a v s
  else if a < 0x280000 then writeEvr a v s
  else if a < 0x2C0000 then writePmc a v s
  else if a < 0x300000 then writeChn a v s
  else if a < 0x340000 then mirrorWrite a s
  else if a < 0x3C0000 then plainWrite a v s
  else if a < 0x400000 then writeHif a v s
  else if a < 0x800000 then winViol s
  else s

/-! ## Bit words (R413, R414) -/

/-- The register and bit that a bit word stands for. -/
def aliasTarget (a : Nat) : Nat × Nat :=
  let k := (a - 0x800000) / 4
  let o := k / 8
  (o - o % 4, 8 * (o % 4) + k % 8)

/-- The word that writes one bit of a register and leaves its others: stored values for those a write sets,
zeros for those it would clear or set by a 1. -/
def aliasWord (a n : Nat) (b : Bool) (s : State) : Nat :=
  let keep := (regFields a).foldl (fun m f =>
    match f.acc with
    | .rw => putField m f.lsb f.width (s.rdF a f.lsb f.width)
    | .rws => putField m f.lsb f.width (s.rdF a f.lsb f.width)
    | .rwl => putField m f.lsb f.width (s.rdF a f.lsb f.width)
    | _ => m) 0
  putBit keep n b

/-- A write of a bit word: the bit's own type decides. Setting PAT_BOOT.LOCK is no lock violation (R415). -/
def aliasBit (a n : Nat) (b : Bool) (s : State) : State :=
  match (regFields a).find? (fun f => decide (f.lsb ≤ n) && decide (n < f.lsb + f.width)) with
  | none => s
  | some f =>
    let write := writeRegister a (aliasWord a n b s) s
    match f.acc with
    | .rw => write
    | .rws => write
    | .rwl => write
    | .w1c => if b then write else s
    | .w1s => if !b then s else if a = Reg.PAT_BOOT then s.setBit a n true else write
    | _ => s

/-- A write of a bit word at its BAR0 address. -/
def aliasWrite (a v : Nat) (s : State) : State :=
  if a < 0x800000 ∨ 0x1000000 ≤ a then s
  else
    let t := aliasTarget a
    hostWrite t.1 (aliasBit t.1 t.2 (v.testBit 0)) s

/-! ## Reads with effects (R9, R150, R489) -/

/-- What a read of a register returns: what it holds, but 0 of a time base that is not enabled (R353), and of DBG_TRACE_*
in Closed (R455). -/
def regShown (s : State) (a : Nat) : Nat :=
  if (a = Reg.DBG_TRACE_CTRL ∨ a = Reg.DBG_TRACE_COUNT) ∧ s.kpr.debug = .closed then 0
  else match timBase a with
  | some (b, _) => if baseOn s b then s.rd a else 0
  | none => s.rd a

/-- A read of a register with RC fields: its value, and those fields cleared. -/
def clearingRead (a : Nat) (s : State) : State :=
  let fs := (regFields a).filter (fun f => f.acc == .rc)
  if fs.isEmpty then s
  else
    let v := s.rd a
    (s.emit (.readData [word v])).wr a (fs.foldl (fun m f => putField m f.lsb f.width 0) v)

/-- The holding register that serves a word of a 64-bit counter. -/
def holdFor (a : Nat) : Option Nat :=
  let within := fun (lo hi : Nat) => decide (lo ≤ a) && decide (a < hi)
  if within (Reg.PEN_PAGE 0 0) (Reg.PEN_PAGE 0 0 + 0x4000) && decide (a % 0x100 < 0x88) then some Reg.PEN_CNT_HOLD
  else if (within (Reg.FRM_PAGE 0 0) (Reg.FRM_PAGE 0 0 + 0x2000) || within (Reg.FRM_TRK_PAGE 0 0) (Reg.FRM_TRK_PAGE 0 0 + 0x2000)) &&
      decide (a % 0x100 < 0xA0) then some Reg.FRM_CNT_HOLD
  else if within (Reg.LANE_PRBS_CNT 0 0) (Reg.LANE_CTRL 72) && decide (0x108 ≤ a % 0x400) && decide (a % 0x400 < 0x118) then
    some (Reg.LANE_PRBS_HOLD ((a - Reg.LANE_CTRL 0) / 0x400))
  else if within (Reg.FRM_TRK_TXSC 0) (Reg.FRM_TRK_TXSC 0 + 0x400) && decide (a % 0x20 / 8 = 2) then some Reg.FRM_CNT_HOLD
  else if within (Reg.EVR_CAP 0) (Reg.EVR_CKPT_NO) then some Reg.EVR_HOLD
  else if within (Reg.PMC_ISL 0 0) (Reg.PMC_ISL 0 0 + 0x300) then some Reg.PMC_ISL_HOLD
  else none

/-- A read of half a 64-bit counter: a lower half loads the holding register; an upper half within 1 µs of it
returns that register, else the live half. -/
def holdingRead (a : Nat) (s : State) : State :=
  match holdFor a with
  | none => s
  | some h =>
    if a % 8 = 0 then
      let s := s.wr h (s.rd (a + 4))
      let s := s.emit (.readData [word (s.rd a)])
      { s with hif := { s.hif with lastLow := Tbl.set (fun _ => 0) s.hif.lastLow h (s.refTick + 1) } }
    else
      let t := Tbl.get (fun _ => 0) s.hif.lastLow h
      let v := if decide (0 < t) && decide (s.refTick + 1 ≤ t + 156) then s.rd h else s.rd a
      s.emit (.readData [word v])

/-- A BAR0 or observe-page read of a programmable counter. -/
def pmcRead (n : Nat) (observe : Bool) (s : State) : State :=
  if observe then
    if !hostServed s then s
    else
      let r := pmcReadObserve n s
      r.1.emit (.readData [word r.2])
  else
    hostRead (Reg.PMC_CNT n) (fun s =>
      let r := pmcReadBar n s
      r.1.emit (.readData [word r.2])) s

/-! ## Size and gate errors (R408, R411) -/

/-- Whether a region accepts an access of this size and alignment. -/
def sizeOk (bar2 : Bool) (a n : Nat) : Bool :=
  let one := n == 4 && a % 4 == 0
  let block := decide (4 ≤ n) && decide (n ≤ 64) && n % 4 == 0 && a % 4 == 0 && decide (a % 64 + n ≤ 64)
  if bar2 then (if 0x2000000 ≤ a ∧ a < 0x4000000 then block else one)
  else if (0x8000 ≤ a ∧ a < 0x8400) ∨ (0x8800 ≤ a ∧ a < 0x8808) then one || (n == 8 && a % 8 == 0)
  else if 0x400000 ≤ a ∧ a < 0x800000 then block
  else one

/-- The end of a BAR (R406, R407). -/
def barEnd (bar2 : Bool) : Nat := if bar2 then 0x4000000 else 0x1000000

/-- An access of a size or alignment that its region does not accept; outside the BAR it is no request of it
(R405). -/
def badSize (bar2 : Bool) (a n : Nat) (isWrite : Bool) (s : State) : State :=
  if !hostServed s || sizeOk bar2 a n then s
  else if barEnd bar2 ≤ a then unsupported s
  else if isWrite then logError 3 bar2 true a s
  else logError 4 bar2 false a (s.emit .completerAbort)

/-- A host write of one word anywhere in BAR0. -/
def registerWrite (a v : Nat) (s : State) : State :=
  if 0x1000000 ≤ a then unsupported s
  else if a % 4 ≠ 0 then badSize false a 4 true s
  else if 0x800000 ≤ a then aliasWrite a v s
  else hostWrite a (writeRegister a v) s

/-- Whether a register has fields of an access type. -/
def hasAcc (a : Nat) (k : Access) : Bool := (regFields a).any (fun f => f.acc == k)

/-- A host write of a register with RWL fields. -/
def rwlWrite (a v : Nat) (s : State) : State := if hasAcc a .rwl then hostWrite a (lockableWrite a v) s else s

/-- A host read of a register with RC fields. -/
def readClearing (a : Nat) (s : State) : State := if hasAcc a .rc then hostRead a (clearingRead a) s else s

/-- A host read of half a 64-bit counter. -/
def readHolding (a : Nat) (s : State) : State := if (holdFor a).isSome then hostRead a (holdingRead a) s else s

/-- A host write to the keeper mirror. -/
def kprWrite (a : Nat) (s : State) : State :=
  if 0x300000 ≤ a ∧ a < 0x340000 then hostWrite a (mirrorWrite a) s else s

/-- A host write to the prefix-table read view of BAR0. -/
def viewWrite (a : Nat) (s : State) : State :=
  if 0x400000 ≤ a ∧ a < 0x800000 then hostWrite a winViol s else s

/-- A host write of a burst of words to the bucket window of BAR2. -/
def entryWrite (a : Nat) (ws : List Word) (s : State) : State :=
  if a < 0x2000000 ∨ 0x4000000 ≤ a then s
  else if sizeOk true a (4 * ws.length) then hostWrite2 (windowWrite a ws) s
  else badSize true a (4 * ws.length) true s

/-- An access to a block that answers as gated. -/
def gatedAccess (a : Nat) (isWrite : Bool) (s : State) : State :=
  if !gatedAt s a then s else if isWrite then hostWrite a id s else hostRead a id s

end Sys2Proof.Machine
end

