-- ==== Sys2Proof/Machine/Run.lean ====
section
/-! DEFINITION. What every meaning shares: when the machine can take the command at all, and what settles
after it; and the few operations that only a row of the table adds to its register's rule. -/

namespace Sys2Proof.Machine

/-- What follows at once from what a command did: a vault restore that waited for a Pattern, frames that waited for the
islands of a rise, PAUSE toward the clients, the mirror stream, the chain ALARM message, a KEYQ operation that waited
for its fills, events owed; then the read-only fields that show the lifecycle, debug level, power state, islands,
capacity and CLKOBS follow what they show. -/
def settle (s : State) : State :=
  syncObs (syncHealth (postEvents (kqSettle (chainSettle (hrnSettle (pauseChecks (endRise (restoreDue s))))))))

/-- The outcome of a command that left `t`: everything but the queue, which is that of `s`. -/
def finish (s t : State) : Host.Outcome State Fault Refusal := .next { t with pending := s.pending }

/-- A command the core takes: without rails, or with the core held in reset, nothing happens (R456, R517). -/
def powered (f : State → State) (s : State) : Host.Outcome State Fault Refusal :=
  finish s (if coreRuns s then settle (f s.fresh) else s.fresh)

/-- A command that needs the rails and that the core reset does not stop: the chain (R516) and the keeper port,
which answers not-ready (R517). -/
def onRails (f : State → State) (s : State) : Host.Outcome State Fault Refusal :=
  finish s (if railsUp s then settle (f s.fresh) else s.fresh)

/-- What time brings: the bases run on through a warm reset and a thermal stop (R378, R516). -/
def clocked (f : State → State) (s : State) : Host.Outcome State Fault Refusal :=
  finish s (if railsUp s || s.pwr.thermal then settle (f s.fresh) else s.fresh)

/-- A command that acts in every power state (R253, R456). -/
def anyTime (f : State → State) (s : State) : Host.Outcome State Fault Refusal := finish s (settle (f s.fresh))

/-! ## Operations of single rows -/

/-- An exit from D3hot. -/
def d3hotLeave (s : State) : State := if s.hif.d3hot then interfaceReset s else s

/-- A write of a queue's control register whose EN bit is what the row says: set for enabling, clear for
disabling. -/
def enabling (on : Bool) (f : State → State) (v : Word) (s : State) : State :=
  if v.toNat.testBit 0 = on then f s else s

/-- A write of a reserved value of PAT_CTRL.OP is ignored (R12). -/
def patReserved (op : Nat) (s : State) : State := if 0xB ≤ op then patCtrl op s else s

/-- A MAC control frame received on a client port that obeys flow control, or on one that does not (R316,
R317). -/
def macControlArrival (obeys : Bool) (m : Nat) (frame : Bytes) (s : State) : State :=
  if isMacControl frame && decide ((portCfg s m).flow ≠ 0) == obeys then
    sealArrival m frame .terminate s
  else s

/-- A CLS command of an undefined code (R288). -/
def clsBad (code : Nat) (s : State) : State := if code = 0 ∨ 9 ≤ code then clsCommand code s else s

/-- An access to SCH_GCL_GATES: a write or a read. -/
def gatesAccess (v : Option Word) (s : State) : State :=
  match v with
  | some w => hostWrite Reg.SCH_GCL_GATES (gclAccess (some w.toNat)) s
  | none => hostRead Reg.SCH_GCL_GATES (gclAccess none) s

/-- A write of DBG_TRACE_CTRL with EN = 1. -/
def traceStart (v : Nat) (s : State) : State := if v.testBit 31 then traceWrite v s else s

end Sys2Proof.Machine
end

