-- ==== Sys2Proof/Machine/ChainCmds.lean ====
section
/-! DEFINITION. Meanings. The chain (R461 to R470), which a warm reset does not stop (R516). -/

namespace Sys2Proof.Machine

/-- ENUM_COUNT (R465). -/
def execEnumCount (message : Bytes) (s : State) : Host.Outcome State Fault Refusal := onRails (enumCount message) s

/-- ENUM_REQUEST (R466). -/
def execEnumRequest (message : Bytes) (s : State) : Host.Outcome State Fault Refusal :=
  onRails (enumRequest message) s

/-- ALARM (R468). -/
def execAlarm (message : Bytes) (s : State) : Host.Outcome State Fault Refusal := onRails (alarmMessage message) s

/-- CINCH (R469). -/
def execCinch (message : Bytes) (s : State) : Host.Outcome State Fault Refusal := onRails (cinchMessage message) s

/-- ZEROIZE_MESSAGE (R470). -/
def execZeroizeMessage (message : Bytes) (s : State) : Host.Outcome State Fault Refusal :=
  onRails (zeroizeMessage message) s

/-- HEARTBEAT (R468). -/
def execHeartbeat (message : Bytes) (s : State) : Host.Outcome State Fault Refusal :=
  onRails (heartbeatMessage message) s

/-- CHAIN_MESSAGE_SEND (R464). -/
def execChainMessageSend (s : State) : Host.Outcome State Fault Refusal := onRails chainSend s

/-- ENUM_TIMER (R465). -/
def execEnumTimer (s : State) : Host.Outcome State Fault Refusal := onRails sendCount s

/-- ORPHAN_TIMEOUT (R467). -/
def execOrphanTimeout (s : State) : Host.Outcome State Fault Refusal := onRails chainLost s

/-- CHAIN_LINK_DOWN (R461). -/
def execChainLinkDown (s : State) : Host.Outcome State Fault Refusal := onRails linkDown s

/-- CHAIN_LINK_UP (R466). -/
def execChainLinkUp (s : State) : Host.Outcome State Fault Refusal := onRails linkBack s

/-- HEARTBEAT_TIMER (R463). -/
def execHeartbeatTimer (s : State) : Host.Outcome State Fault Refusal := onRails heartbeatTimer s

/-- PEER_RECORD_EXPIRE (R468). -/
def execPeerRecordExpire (position : Fin 64) (s : State) : Host.Outcome State Fault Refusal :=
  onRails (expirePeer position.val) s

/-- ZEROIZE_REPEAT (R470). -/
def execZeroizeRepeat (s : State) : Host.Outcome State Fault Refusal := onRails zeroizeRepeat s

/-- CINCH_COMMAND (R469). -/
def execCinchCommand (s : State) : Host.Outcome State Fault Refusal :=
  powered (hostWrite Reg.CHN_CINCH_CMD cinchCommand) s

/-- CHAIN_BAD_CRC (R464). -/
def execChainBadCrc (message : Bytes) (s : State) : Host.Outcome State Fault Refusal := onRails (badCrc message) s

end Sys2Proof.Machine
end

