-- ==== Sys2Proof/Machine/ClassCmds.lean ====
section
/-! DEFINITION. Meanings. Classification tables (R274 to R292). -/

namespace Sys2Proof.Machine

/-- LEARN_COMMIT (R282). -/
def execLearnCommit (s : State) : Host.Outcome State Fault Refusal := powered learnCommit s

/-- RELOCATE_CLEAR (R283). -/
def execRelocateClear (s : State) : Host.Outcome State Fault Refusal := powered relocateClear s

/-- AGER_VISIT (R285). -/
def execAgerVisit (bucket : Nat) (s : State) : Host.Outcome State Fault Refusal := powered (agerVisit bucket) s

/-- CLS_AGE_WRITE (R284). -/
def execClsAgeWrite (value : Word) (s : State) : Host.Outcome State Fault Refusal :=
  powered (hostWrite Reg.CLS_AGE (ageWrite value.toNat)) s

/-- LOOKUP (R287). -/
def execLookup (s : State) : Host.Outcome State Fault Refusal := powered (hostWrite Reg.CLS_CMD (clsCommand 1)) s

/-- INSERT (R287). -/
def execInsert (s : State) : Host.Outcome State Fault Refusal := powered (hostWrite Reg.CLS_CMD (clsCommand 2)) s

/-- UPDATE (R287). -/
def execUpdate (s : State) : Host.Outcome State Fault Refusal := powered (hostWrite Reg.CLS_CMD (clsCommand 3)) s

/-- DELETE (R287). -/
def execDelete (s : State) : Host.Outcome State Fault Refusal := powered (hostWrite Reg.CLS_CMD (clsCommand 4)) s

/-- AGE_SWEEP (R287). -/
def execAgeSweep (s : State) : Host.Outcome State Fault Refusal := powered (hostWrite Reg.CLS_CMD (clsCommand 5)) s

/-- FLUSH_SPAN (R287). -/
def execFlushSpan (s : State) : Host.Outcome State Fault Refusal := powered (hostWrite Reg.CLS_CMD (clsCommand 6)) s

/-- SWEEP_BUCKET (R287). -/
def execSweepBucket (s : State) : Host.Outcome State Fault Refusal := powered sweepBucket s

/-- PREFIX_INSERT (R276). -/
def execPrefixInsert (s : State) : Host.Outcome State Fault Refusal :=
  powered (hostWrite Reg.CLS_CMD (clsCommand 7)) s

/-- PREFIX_DELETE (R276). -/
def execPrefixDelete (s : State) : Host.Outcome State Fault Refusal :=
  powered (hostWrite Reg.CLS_CMD (clsCommand 8)) s

/-- CLS_BAD_CODE (R288). -/
def execClsBadCode (code : BitVec 4) (s : State) : Host.Outcome State Fault Refusal :=
  powered (hostWrite Reg.CLS_CMD (clsBad code.toNat)) s

/-- CLS_CMD_COMPLETE (R288). -/
def execClsCmdComplete (s : State) : Host.Outcome State Fault Refusal := powered clsComplete s

/-- BUCKET_LOCK_READ (R290). -/
def execBucketLockRead (bucket : Nat) (s : State) : Host.Outcome State Fault Refusal :=
  powered (hostWrite2 (lockRead bucket)) s

/-- BUCKET_ENTRY_WRITE (R290). -/
def execBucketEntryWrite (addr : Addr) (words : List Word) (s : State) : Host.Outcome State Fault Refusal :=
  powered (entryWrite addr.toNat words) s

/-- BUCKET_COMMIT (R290). -/
def execBucketCommit (bucket : Nat) (s : State) : Host.Outcome State Fault Refusal :=
  powered (hostWrite2 (lockWrite bucket 0)) s

/-- BUCKET_ABORT (R290). -/
def execBucketAbort (bucket : Nat) (s : State) : Host.Outcome State Fault Refusal :=
  powered (hostWrite2 (lockWrite bucket 4)) s

/-- BUCKET_LOCK_TIMEOUT (R290). -/
def execBucketLockTimeout (s : State) : Host.Outcome State Fault Refusal := powered lockTimeout s

/-- CLSP_COMMIT (R292). -/
def execClspCommit (s : State) : Host.Outcome State Fault Refusal :=
  powered (hostWrite Reg.CLS_PORT_COMMIT clspCommit) s

/-- TABLE_WINDOW_WRITE (R292). -/
def execTableWindowWrite (addr : Addr) (_value : Word) (s : State) : Host.Outcome State Fault Refusal :=
  powered (viewWrite addr.toNat) s

end Sys2Proof.Machine
end

