-- ==== Sys2Proof/Machine/EvidenceCmds.lean ====
section
/-! DEFINITION. Meanings. The evidence ring and the DRAM channels (R384 to R400). -/

namespace Sys2Proof.Machine

/-- EVIDENCE_RECORD_WRITE (R395). -/
def execEvidenceRecordWrite (s : State) : Host.Outcome State Fault Refusal := powered ringWrite s

/-- TRIG_IN (R398). -/
def execTrigIn (s : State) : Host.Outcome State Fault Refusal := powered (evidenceTrigger 0) s

/-- EVR_TRIG (R398). -/
def execEvrTrig (s : State) : Host.Outcome State Fault Refusal :=
  powered (hostWrite Reg.EVR_CTRL (evidenceTrigger 2)) s

/-- EVR_RELEASE (R399). -/
def execEvrRelease (s : State) : Host.Outcome State Fault Refusal := powered (hostWrite Reg.EVR_CTRL releaseRing) s

/-- FREEZE (R398). -/
def execFreeze (s : State) : Host.Outcome State Fault Refusal := powered freezeRing s

/-- EVR_READOUT (R400). -/
def execEvrReadout (value : Word) (s : State) : Host.Outcome State Fault Refusal :=
  powered (hostWrite Reg.EVR_RD_CMD (rdStart value.toNat)) s

/-- READOUT_COMPLETE (R400). -/
def execReadoutComplete (dmaOk : Bool) (s : State) : Host.Outcome State Fault Refusal := powered (rdComplete dmaOk) s

/-- PATROL_SCRUB (R384). -/
def execPatrolScrub (channel : Channel) (partition : Fin 5) (item : Nat) (outcome : ScrubOutcome)
    (s : State) : Host.Outcome State Fault Refusal :=
  powered (patrolScrub channel.val partition.val item outcome) s

/-- CHANNEL_FENCE_WRITE (R385). -/
def execChannelFenceWrite (value : Word) (s : State) : Host.Outcome State Fault Refusal :=
  powered (hostWrite Reg.EVR_CH_FENCE (channelFenceWrite value.toNat)) s

/-- ADDRESS_MAP_REBUILT (R387). -/
def execAddressMapRebuilt (s : State) : Host.Outcome State Fault Refusal := powered mapRebuilt s

end Sys2Proof.Machine
end

