-- ==== Sys2Proof/Machine/FabricCmds.lean ====
section
/-! DEFINITION. Meanings. Cipher islands, the wheel, audits, fences, shedding and parking (R78 to R112). -/

namespace Sys2Proof.Machine

/-- CELL_DISPATCH (R87). -/
def execCellDispatch (s : State) : Host.Outcome State Fault Refusal := powered cellDispatch s

/-- CELL_COMPLETE (R78). -/
def execCellComplete (island : Island) (wrong : Bool) (s : State) : Host.Outcome State Fault Refusal :=
  powered (cellComplete island.val wrong) s

/-- AUDIT_COMPARE (R102). -/
def execAuditCompare (s : State) : Host.Outcome State Fault Refusal := powered auditCompare s

/-- PARTNER_KAT_DONE (R104). -/
def execPartnerKatDone (island : Island) (pass : Bool) (s : State) : Host.Outcome State Fault Refusal :=
  powered (partnerKat island.val pass) s

/-- ISLAND_CLOCK_WINDOW (R80). -/
def execIslandClockWindow (island : Island) (cycles : Nat) (millivolts : Nat)
    (s : State) : Host.Outcome State Fault Refusal :=
  powered (clockWindow island.val cycles millivolts) s

/-- ISLAND_SUPPLY_FAULT (R80). -/
def execIslandSupplyFault (island : Island) (s : State) : Host.Outcome State Fault Refusal :=
  powered (supplyFault island.val) s

/-- HOST_FENCE (R107). -/
def execHostFence (island : Island) (s : State) : Host.Outcome State Fault Refusal :=
  powered (hostWrite (Reg.CPH_ISL_CTRL island.val) (hostFence island.val)) s

/-- HOST_FENCE_CLEAR (R107). -/
def execHostFenceClear (island : Island) (s : State) : Host.Outcome State Fault Refusal :=
  powered (hostWrite (Reg.CPH_ISL_CTRL island.val) (hostFenceClear island.val)) s

/-- ISLAND_BIST_DONE (R107). -/
def execIslandBistDone (island : Island) (pass : Bool) (s : State) : Host.Outcome State Fault Refusal :=
  powered (bistDone island.val pass) s

/-- SHED_COMPLETE (R111). -/
def execShedComplete (s : State) : Host.Outcome State Fault Refusal := powered shedComplete s

/-- SPAN_RESTORE (R112). -/
def execSpanRestore (s : State) : Host.Outcome State Fault Refusal := powered spanRestore s

/-- ISLAND_UNPARK_DONE (R99). -/
def execIslandUnparkDone (island : Island) (pass : Bool) (s : State) : Host.Outcome State Fault Refusal :=
  powered (unparkDone island.val pass) s

/-- ISLAND_PARK (R99). -/
def execIslandPark (island : Island) (s : State) : Host.Outcome State Fault Refusal :=
  powered (parkIsland island.val) s

end Sys2Proof.Machine
end

