-- ==== Sys2Proof/Machine/FrameCmds.lean ====
section
/-! DEFINITION. Meanings. Frame mode: arrivals, verdicts, decisions, departures, aborts, and received MAC control (R95, R135, R142, R143, R300, R316, R317, R338). -/

namespace Sys2Proof.Machine

/-- SEAL_FRAME_ARRIVAL (R143). -/
def execSealFrameArrival (port : Port32) (frame : Bytes) (ending : RxEnd)
    (s : State) : Host.Outcome State Fault Refusal :=
  powered (sealArrival port.val frame ending) s

/-- OPEN_FRAME_ARRIVAL (R142). -/
def execOpenFrameArrival (port : Port32) (frame : Bytes) (ending : RxEnd)
    (s : State) : Host.Outcome State Fault Refusal :=
  powered (openArrival port.val frame ending) s

/-- ICV_VERDICT (R142). -/
def execIcvVerdict (tag : Fin 16384) (s : State) : Host.Outcome State Fault Refusal := powered (icvVerdict tag.val) s

/-- SCHEDULER_DECISION (R300). -/
def execSchedulerDecision (port : Port64) (s : State) : Host.Outcome State Fault Refusal :=
  powered (decide_ port.val) s

/-- FRAME_DEPARTURE_DONE (R95). -/
def execFrameDepartureDone (port : Port64) (s : State) : Host.Outcome State Fault Refusal :=
  powered (departure port.val) s

/-- FRAME_ABORT (R338). -/
def execFrameAbort (port : Port64) (s : State) : Host.Outcome State Fault Refusal := powered (frameAbort port.val) s

/-- PAUSE_RECEIVED (R317). -/
def execPauseReceived (port : Port32) (frame : Bytes) (s : State) : Host.Outcome State Fault Refusal :=
  powered (macControlArrival true port.val frame) s

/-- MAC_CONTROL_DISCARD (R316). -/
def execMacControlDiscard (port : Port32) (frame : Bytes) (s : State) : Host.Outcome State Fault Refusal :=
  powered (macControlArrival false port.val frame) s

end Sys2Proof.Machine
end

