-- ==== Sys2Proof/Machine/HarnessCmds.lean ====
section
/-! DEFINITION. Meanings. Harness records and pair roles (R472 to R480). -/

namespace Sys2Proof.Machine

/-- HELLO (R475). -/
def execHello (record : Bytes) (s : State) : Host.Outcome State Fault Refusal := powered (helloRecord record) s

/-- HELLO_RETRY (R475). -/
def execHelloRetry (s : State) : Host.Outcome State Fault Refusal := powered helloRetry s

/-- ACK (R474). -/
def execAck (record : Bytes) (s : State) : Host.Outcome State Fault Refusal := powered (ackRecord record) s

/-- ACK_TIMER (R474). -/
def execAckTimer (s : State) : Host.Outcome State Fault Refusal := powered ackTimer s

/-- HARNESS_RETRANSMIT (R474). -/
def execHarnessRetransmit (s : State) : Host.Outcome State Fault Refusal := powered retransmit s

/-- SC_RECORD (R476). -/
def execScRecord (record : Bytes) (s : State) : Host.Outcome State Fault Refusal := powered (scRecord record) s

/-- EPOCH_RECORD (R476). -/
def execEpochRecord (record : Bytes) (s : State) : Host.Outcome State Fault Refusal := powered (epochRecord record) s

/-- MARK_RECORD (R476). -/
def execMarkRecord (record : Bytes) (s : State) : Host.Outcome State Fault Refusal := powered (markRecord record) s

/-- SNAP_END (R476). -/
def execSnapEnd (record : Bytes) (s : State) : Host.Outcome State Fault Refusal := powered (snapEnd record) s

/-- LEARN_RECORD (R476). -/
def execLearnRecord (record : Bytes) (s : State) : Host.Outcome State Fault Refusal := powered (learnRecord record) s

/-- GATE_RECORD (R476). -/
def execGateRecord (record : Bytes) (s : State) : Host.Outcome State Fault Refusal := powered (gateRecord record) s

/-- TAKEOVER_RECORD (R479). -/
def execTakeoverRecord (record : Bytes) (s : State) : Host.Outcome State Fault Refusal :=
  powered (takeoverRecord record) s

/-- TAKEOVER_ACK (R479). -/
def execTakeoverAck (record : Bytes) (s : State) : Host.Outcome State Fault Refusal := powered (takeoverAck record) s

/-- TAKEOVER_JOURNAL_DONE (R479). -/
def execTakeoverJournalDone (s : State) : Host.Outcome State Fault Refusal := powered takeoverDone s

/-- HOST_TAKEOVER (R478). -/
def execHostTakeover (s : State) : Host.Outcome State Fault Refusal :=
  powered (hostWrite Reg.CHN_HRN_CMD hostTakeover) s

/-- SOLO_TIMEOUT (R477). -/
def execSoloTimeout (s : State) : Host.Outcome State Fault Refusal := powered soloTimeout s

end Sys2Proof.Machine
end

