-- ==== Sys2Proof/Machine/HostCmds.lean ====
section
/-! DEFINITION. Meanings. Host accesses, resets of the interface, doorbells, queues, vectors and the firmware's restart (R7 to R12, R150, R405 to R433, R489). -/

namespace Sys2Proof.Machine

/-- REGISTER_WRITE (R7). -/
def execRegisterWrite (addr : Addr) (value : Word) (s : State) : Host.Outcome State Fault Refusal :=
  powered (registerWrite addr.toNat value.toNat) s

/-- COUNTER_CLEARING_READ (R9). -/
def execCounterClearingRead (addr : Addr) (s : State) : Host.Outcome State Fault Refusal :=
  powered (readClearing addr.toNat) s

/-- HOLDING_LOWER_READ (R150). -/
def execHoldingLowerRead (addr : Addr) (s : State) : Host.Outcome State Fault Refusal :=
  powered (readHolding addr.toNat) s

/-- PMC_EVEN_READ (R489). -/
def execPmcEvenRead (n : Fin 512) (observe : Bool) (s : State) : Host.Outcome State Fault Refusal :=
  powered (pmcRead n.val observe) s

/-- ALIAS_WRITE (R413). -/
def execAliasWrite (addr : Addr) (value : Word) (s : State) : Host.Outcome State Fault Refusal :=
  powered (aliasWrite addr.toNat value.toNat) s

/-- RWL_REGISTER_WRITE (R415). -/
def execRwlRegisterWrite (addr : Addr) (value : Word) (s : State) : Host.Outcome State Fault Refusal :=
  powered (rwlWrite addr.toNat value.toNat) s

/-- KPR_WRITE (R416). -/
def execKprWrite (addr : Addr) (_value : Word) (s : State) : Host.Outcome State Fault Refusal :=
  powered (kprWrite addr.toNat) s

/-- BAD_SIZE_ACCESS (R408). -/
def execBadSizeAccess (bar2 : Bool) (addr : Addr) (bytes : Nat) (isWrite : Bool)
    (s : State) : Host.Outcome State Fault Refusal :=
  powered (badSize bar2 addr.toNat bytes isWrite) s

/-- GATED_ACCESS (R411). -/
def execGatedAccess (addr : Addr) (isWrite : Bool) (_value : Word) (s : State) : Host.Outcome State Fault Refusal :=
  powered (gatedAccess addr.toNat isWrite) s

/-- UNSUPPORTED_REQUEST (R405). -/
def execUnsupportedRequest (_req : RequestKind) (_addr : Nat) (s : State) : Host.Outcome State Fault Refusal :=
  powered unsupported s

/-- PERST (R432). -/
def execPerst (s : State) : Host.Outcome State Fault Refusal := powered interfaceReset s

/-- FUNCTION_LEVEL_RESET (R405). -/
def execFunctionLevelReset (s : State) : Host.Outcome State Fault Refusal := powered interfaceReset s

/-- D3HOT_EXIT (R405). -/
def execD3hotExit (s : State) : Host.Outcome State Fault Refusal := powered d3hotLeave s

/-- KEYQ_DOORBELL (R421). -/
def execKeyqDoorbell (count : BitVec 16) (s : State) : Host.Outcome State Fault Refusal :=
  powered (hostWrite2 (kqDoorbell count.toNat)) s

/-- EVQ_DOORBELL (R425). -/
def execEvqDoorbell (count : Word) (s : State) : Host.Outcome State Fault Refusal :=
  powered (hostWrite2 (eqDoorbell count.toNat)) s

/-- KEYQ_ENABLE (R423). -/
def execKeyqEnable (ctrl : Word) (s : State) : Host.Outcome State Fault Refusal :=
  powered (hostWrite Reg.HIF_KQ_CTRL (enabling true (kqCtrlWrite ctrl.toNat) ctrl)) s

/-- KEYQ_DISABLE (R423). -/
def execKeyqDisable (ctrl : Word) (s : State) : Host.Outcome State Fault Refusal :=
  powered (hostWrite Reg.HIF_KQ_CTRL (enabling false (kqCtrlWrite ctrl.toNat) ctrl)) s

/-- EVQ_ENABLE (R425). -/
def execEvqEnable (ctrl : Word) (s : State) : Host.Outcome State Fault Refusal :=
  powered (hostWrite Reg.HIF_EQ_CTRL (enabling true (eqCtrlWrite ctrl.toNat) ctrl)) s

/-- EVQ_DISABLE (R425). -/
def execEvqDisable (ctrl : Word) (s : State) : Host.Outcome State Fault Refusal :=
  powered (hostWrite Reg.HIF_EQ_CTRL (enabling false (eqCtrlWrite ctrl.toNat) ctrl)) s

/-- KEYQ_DESCRIPTOR_START (R236). -/
def execKeyqDescriptorStart (descriptor : DmaData) (s : State) : Host.Outcome State Fault Refusal :=
  powered (kqStart descriptor) s

/-- EVQ_OVERFLOW_RECORD (R428). -/
def execEvqOverflowRecord (s : State) : Host.Outcome State Fault Refusal := powered eqOverflowRecord s

/-- MSIX_VECTOR_UNMASK (R419). -/
def execMsixVectorUnmask (v : Fin 64) (s : State) : Host.Outcome State Fault Refusal :=
  powered (hostWrite (Reg.IRQ_MSIX_CTRL v.val) (vectorUnmask v.val)) s

/-- INTERRUPT_HOLDOFF_EXPIRE (R420). -/
def execInterruptHoldoffExpire (key : Bool) (s : State) : Host.Outcome State Fault Refusal :=
  powered (holdoffExpire key) s

/-- IRQ_TEST (R433). -/
def execIrqTest (value : Word) (s : State) : Host.Outcome State Fault Refusal :=
  powered (hostWrite Reg.IRQ_TEST (irqTest value.toNat)) s

/-- FIRMWARE_RESTART (R515). -/
def execFirmwareRestart (s : State) : Host.Outcome State Fault Refusal := powered firmwareRestart s

/-- FW_READY (R430). -/
def execFwReady (s : State) : Host.Outcome State Fault Refusal := powered fwReady s

/-- WATCHDOG_EXPIRE (R515). -/
def execWatchdogExpire (s : State) : Host.Outcome State Fault Refusal := powered firmwareRestart s

/-- D3HOT_ENTRY (R405). -/
def execD3hotEntry (s : State) : Host.Outcome State Fault Refusal := powered d3hotEnter s

end Sys2Proof.Machine
end

