-- ==== Sys2Proof/Machine/KeeperCmds.lean ====
section
/-! DEFINITION. Meanings. The keeper port's requests (R434 to R454). The port answers a request in a warm reset too: not ready. -/

namespace Sys2Proof.Machine

/-- NOP (R435). -/
def execNop (request : Bytes) (s : State) : Host.Outcome State Fault Refusal := onRails (keeperNop request) s

/-- GET_STATUS (R441). -/
def execGetStatus (request : Bytes) (s : State) : Host.Outcome State Fault Refusal :=
  onRails (keeperRequest 0x01 kGetStatus request) s

/-- GET_CHALLENGE (R444). -/
def execGetChallenge (request : Bytes) (s : State) : Host.Outcome State Fault Refusal :=
  onRails (keeperRequest 0x02 kGetChallenge request) s

/-- LOAD_SEG (R443). -/
def execLoadSeg (request : Bytes) (s : State) : Host.Outcome State Fault Refusal :=
  onRails (keeperRequest 0x03 kLoadSeg request) s

/-- IMG_WRITE (R445). -/
def execImgWrite (request : Bytes) (s : State) : Host.Outcome State Fault Refusal :=
  onRails (keeperRequest 0x10 kImgWrite request) s

/-- IMG_COMMIT (R446). -/
def execImgCommit (request : Bytes) (written : Bool) (s : State) : Host.Outcome State Fault Refusal :=
  onRails (keeperRequest 0x11 (kImgCommit written) request) s

/-- IMG_DISCARD (R445). -/
def execImgDiscard (request : Bytes) (s : State) : Host.Outcome State Fault Refusal :=
  onRails (keeperRequest 0x12 kImgDiscard request) s

/-- ZEROIZE (R441). -/
def execZeroize (request : Bytes) (s : State) : Host.Outcome State Fault Refusal :=
  onRails (keeperRequest 0x20 kZeroize request) s

/-- ALARM_CLEAR (R449). -/
def execAlarmClear (request : Bytes) (s : State) : Host.Outcome State Fault Refusal :=
  onRails (keeperRequest 0x21 kAlarmClear request) s

/-- TRIGGER (R441). -/
def execTrigger (request : Bytes) (s : State) : Host.Outcome State Fault Refusal :=
  onRails (keeperRequest 0x22 kTrigger request) s

/-- TAKEOVER (R478). -/
def execTakeover (request : Bytes) (s : State) : Host.Outcome State Fault Refusal :=
  onRails (keeperRequest 0x23 kTakeover request) s

/-- WARM_RESET (R441). -/
def execWarmReset (request : Bytes) (s : State) : Host.Outcome State Fault Refusal :=
  onRails (keeperRequest 0x24 kWarmReset request) s

/-- KEEPER_RESET_DELAY_EXPIRE (R441). -/
def execKeeperResetDelayExpire (s : State) : Host.Outcome State Fault Refusal := powered keeperDelay s

/-- DEBUG_LEVEL (R454). -/
def execDebugLevel (request : Bytes) (s : State) : Host.Outcome State Fault Refusal :=
  onRails (keeperRequest 0x25 kDebugLevel request) s

/-- NO_INVASIVE (R441). -/
def execNoInvasive (request : Bytes) (written : Bool) (s : State) : Host.Outcome State Fault Refusal :=
  onRails (keeperRequest 0x26 (kNoInvasive written) request) s

/-- ENROL (R451). -/
def execEnrol (request : Bytes) (written : Bool) (s : State) : Host.Outcome State Fault Refusal :=
  onRails (keeperRequest 0x30 (kEnrol written) request) s

/-- RELEASE (R452). -/
def execRelease (request : Bytes) (written : Bool) (s : State) : Host.Outcome State Fault Refusal :=
  onRails (keeperRequest 0x31 (kRelease written) request) s

/-- UNLOCK (R454). -/
def execUnlock (request : Bytes) (s : State) : Host.Outcome State Fault Refusal :=
  onRails (keeperRequest 0x32 kUnlock request) s

/-- RETIRE (R450). -/
def execRetire (request : Bytes) (written : Bool) (s : State) : Host.Outcome State Fault Refusal :=
  onRails (keeperRequest 0x33 (kRetire written) request) s

/-- KEEPER_BAD_OPCODE (R438). -/
def execKeeperBadOpcode (request : Bytes) (s : State) : Host.Outcome State Fault Refusal :=
  onRails (keeperBadOpcode request) s

/-- LOCKOUT_EXPIRE (R439). -/
def execLockoutExpire (s : State) : Host.Outcome State Fault Refusal := powered lockoutExpire s

/-- TRACE_START (R455). -/
def execTraceStart (value : Word) (s : State) : Host.Outcome State Fault Refusal :=
  powered (hostWrite Reg.DBG_TRACE_CTRL (traceStart value.toNat)) s

/-- KEEPER_BAD_FRAME (R438). -/
def execKeeperBadFrame (request : Bytes) (s : State) : Host.Outcome State Fault Refusal :=
  onRails (keeperBadFrame request) s

end Sys2Proof.Machine
end

