-- ==== Sys2Proof/Machine/KeyCmds.lean ====
section
/-! DEFINITION. Meanings. KEYQ operations, tamper sources, zeroize, DRBG, re-mask and identity keys (R226 to R260). -/

namespace Sys2Proof.Machine

/-- TK_ACCEPT (R230). -/
def execTkAccept (input : DmaData) (written : Bool) (s : State) : Host.Outcome State Fault Refusal :=
  powered (tkAccept input written) s

/-- PARENT_LOAD (R242). -/
def execParentLoad (input : DmaData) (s : State) : Host.Outcome State Fault Refusal := powered (parentLoad input) s

/-- PARENT_INVALIDATE (R244). -/
def execParentInvalidate (written : Bool) (s : State) : Host.Outcome State Fault Refusal :=
  powered (parentInvalidate written) s

/-- SA_INSTALL (R197). -/
def execSaInstall (input : DmaData) (s : State) : Host.Outcome State Fault Refusal := powered (saInstall input) s

/-- SA_DERIVE (R200). -/
def execSaDerive (s : State) : Host.Outcome State Fault Refusal := powered saDerive s

/-- SA_RETIRE (R238). -/
def execSaRetire (s : State) : Host.Outcome State Fault Refusal := powered saRetire s

/-- VAULT_COMMIT (R243). -/
def execVaultCommit (verified : Bool) (s : State) : Host.Outcome State Fault Refusal :=
  powered (vaultCommit verified) s

/-- ATTEST (R259). -/
def execAttest (input : DmaData) (delivered : Bool) (s : State) : Host.Outcome State Fault Refusal :=
  powered (attest input delivered) s

/-- KEY_QUERY_IDENTITY (R239). -/
def execKeyQueryIdentity (delivered : Bool) (s : State) : Host.Outcome State Fault Refusal :=
  powered (queryIdentity delivered) s

/-- KEY_QUERY_PARENT (R239). -/
def execKeyQueryParent (s : State) : Host.Outcome State Fault Refusal := powered queryParent s

/-- KEY_QUERY_TRANSPORT (R239). -/
def execKeyQueryTransport (s : State) : Host.Outcome State Fault Refusal := powered queryTransport s

/-- KEY_QUERY_STATUS (R239). -/
def execKeyQueryStatus (s : State) : Host.Outcome State Fault Refusal := powered queryStatus s

/-- KEEPER_KEY_ROLL (R252). -/
def execKeeperKeyRoll (input : DmaData) (written : Bool) (s : State) : Host.Outcome State Fault Refusal :=
  powered (keeperKeyRoll input written) s

/-- KEYQ_BAD_OPCODE (R240). -/
def execKeyqBadOpcode (s : State) : Host.Outcome State Fault Refusal := powered kqBadOpcode s

/-- TAMPER_SOURCE (R254). -/
def execTamperSource (source : Fin 11) (present : Bool) (s : State) : Host.Outcome State Fault Refusal :=
  anyTime (tamperSource source.val present) s

/-- ZEROIZE_CLEAR_DONE (R256). -/
def execZeroizeClearDone (s : State) : Host.Outcome State Fault Refusal := powered zeroizeDone s

/-- DRBG_REINSTANTIATED (R256). -/
def execDrbgReinstantiated (s : State) : Host.Outcome State Fault Refusal := powered drbgUp s

/-- DRBG_TEST_FAIL (R228). -/
def execDrbgTestFail (s : State) : Host.Outcome State Fault Refusal := powered drbgFail s

/-- DRBG_RETRY (R228). -/
def execDrbgRetry (pass : Bool) (s : State) : Host.Outcome State Fault Refusal := powered (drbgRetry pass) s

/-- REMASK_WORD (R247). -/
def execRemaskWord (s : State) : Host.Outcome State Fault Refusal := powered remaskWord s

/-- IDENTITY_KEY_EXPIRE (R227). -/
def execIdentityKeyExpire (s : State) : Host.Outcome State Fault Refusal := powered identityExpire s

end Sys2Proof.Machine
end

