-- ==== Sys2Proof/Machine/LaneCmds.lean ====
section
/-! DEFINITION. Meanings. Ports, defects, lanes, test patterns and harness training (R324 to R351). -/

namespace Sys2Proof.Machine

/-- DEFECT_DECLARE (R341). -/
def execDefectDeclare (port : Port64) (defect : Fin 12) (s : State) : Host.Outcome State Fault Refusal :=
  powered (defectDeclare port.val defect.val) s

/-- DEFECT_CLEAR (R341). -/
def execDefectClear (port : Port64) (defect : Fin 12) (s : State) : Host.Outcome State Fault Refusal :=
  powered (defectClear port.val defect.val) s

/-- PORT_ENABLE_WRITE (R325). -/
def execPortEnableWrite (port : Port64) (value : Word) (s : State) : Host.Outcome State Fault Refusal :=
  powered (hostWrite (Reg.PEN_EN port.val) (portEnableWrite port.val value.toNat)) s

/-- DINT_COMMIT (R342). -/
def execDintCommit (s : State) : Host.Outcome State Fault Refusal :=
  powered (hostWrite Reg.PEN_INTEG_COMMIT dintCommit) s

/-- TXFFE_WRITE (R326). -/
def execTxffeWrite (lane : Fin 72) (value : Word) (s : State) : Host.Outcome State Fault Refusal :=
  powered (hostWrite (Reg.LANE_TXFFE lane.val) (txffeWrite lane.val value.toNat)) s

/-- GUARD_WINDOW (R328). -/
def execGuardWindow (lane : Fin 72) (density : BitVec 10) (minPop : BitVec 10) (good : Bool)
    (s : State) : Host.Outcome State Fault Refusal :=
  powered (guardWindow lane.val density.toNat minPop.toNat good) s

/-- CDR_LOCK (R325). -/
def execCdrLock (lane : Lane) (s : State) : Host.Outcome State Fault Refusal := powered (cdrLock lane.val) s

/-- ANEG_COMPLETE (R339). -/
def execAnegComplete (port : Port64) (s : State) : Host.Outcome State Fault Refusal :=
  powered (anegComplete port.val) s

/-- PRBS_LOCK (R335). -/
def execPrbsLock (lane : Fin 72) (s : State) : Host.Outcome State Fault Refusal := powered (prbsLock lane.val) s

/-- PRBS_LOSS (R335). -/
def execPrbsLoss (lane : Fin 72) (errors : Nat) (bits : Nat) (s : State) : Host.Outcome State Fault Refusal :=
  powered (prbsLoss lane.val errors bits) s

/-- LANE_PRBS_WRITE (R335). -/
def execLanePrbsWrite (lane : Fin 72) (value : Word) (report : List LineReport) (s : State) :
    Host.Outcome State Fault Refusal :=
  powered (fun s => hostWrite (Reg.LANE_PRBS lane.val) (lanePrbs lane.val value.toNat) (lineReports report s)) s

/-- ERROR_INJECT (R336). -/
def execErrorInject (lane : Fin 72) (value : Word) (s : State) : Host.Outcome State Fault Refusal :=
  powered (hostWrite (Reg.LANE_INJ lane.val) (injectWrite lane.val value.toNat)) s

/-- HCK_LOCK (R332). -/
def execHckLock (s : State) : Host.Outcome State Fault Refusal := powered hckLock s

/-- TRAINING_WORD (R332). -/
def execTrainingWord (lane : Fin 8) (word : BitVec 64) (s : State) : Host.Outcome State Fault Refusal :=
  powered (trainWordIn lane.val word.toNat) s

/-- TRAINING_TIMEOUT (R332). -/
def execTrainingTimeout (s : State) : Host.Outcome State Fault Refusal := powered trainTimeout s

/-- TRAINING_RESTART (R332). -/
def execTrainingRestart (s : State) : Host.Outcome State Fault Refusal := powered trainAgain s

/-- HARNESS_DOWN (R333). -/
def execHarnessDown (cause : HarnessLoss) (s : State) : Host.Outcome State Fault Refusal :=
  powered (harnessLoss cause) s

/-- HARNESS_RETRAIN (R351). -/
def execHarnessRetrain (s : State) : Host.Outcome State Fault Refusal :=
  powered (hostWrite Reg.LANE_HRN_CTRL retrain) s

end Sys2Proof.Machine
end

