-- ==== Sys2Proof/Machine/PatternCmds.lean ====
section
/-! DEFINITION. Meanings. Pattern operations and the cut (R63 to R76). -/

namespace Sys2Proof.Machine

/-- STAGE_WINDOW (R63). -/
def execStageWindow (s : State) : Host.Outcome State Fault Refusal := powered (hostWrite Reg.PAT_CTRL stageWindow) s

/-- STAGE_SLOT_A (R65). -/
def execStageSlotA (s : State) : Host.Outcome State Fault Refusal := powered (hostWrite Reg.PAT_CTRL (stageSlot 0)) s

/-- STAGE_SLOT_B (R65). -/
def execStageSlotB (s : State) : Host.Outcome State Fault Refusal := powered (hostWrite Reg.PAT_CTRL (stageSlot 1)) s

/-- STAGING_COMPLETE (R63). -/
def execStagingComplete (container : Bytes) (failAt : Option Nat) (slotIntact : Bool)
    (s : State) : Host.Outcome State Fault Refusal :=
  powered (stagingComplete container failAt slotIntact) s

/-- APPLY (R71). -/
def execApply (s : State) : Host.Outcome State Fault Refusal := powered (hostWrite Reg.PAT_CTRL patApply) s

/-- CUT_DRAIN_DONE (R72). -/
def execCutDrainDone (s : State) : Host.Outcome State Fault Refusal := powered cutDrainDone s

/-- CUT_RESUME (R72). -/
def execCutResume (us : Word) (s : State) : Host.Outcome State Fault Refusal := powered (cutResume us.toNat) s

/-- DISCARD (R65). -/
def execDiscard (s : State) : Host.Outcome State Fault Refusal := powered (hostWrite Reg.PAT_CTRL patDiscard) s

/-- STORE_A (R68). -/
def execStoreA (s : State) : Host.Outcome State Fault Refusal := powered (hostWrite Reg.PAT_CTRL (patStore 0)) s

/-- STORE_B (R68). -/
def execStoreB (s : State) : Host.Outcome State Fault Refusal := powered (hostWrite Reg.PAT_CTRL (patStore 1)) s

/-- STORING_COMPLETE (R68). -/
def execStoringComplete (verified : Bool) (s : State) : Host.Outcome State Fault Refusal :=
  powered (storingComplete verified) s

/-- RAISE_FLOOR (R65). -/
def execRaiseFloor (s : State) : Host.Outcome State Fault Refusal := powered (hostWrite Reg.PAT_CTRL raiseFloor) s

/-- ERASE_A (R65). -/
def execEraseA (s : State) : Host.Outcome State Fault Refusal := powered (hostWrite Reg.PAT_CTRL (patErase 0)) s

/-- ERASE_B (R65). -/
def execEraseB (s : State) : Host.Outcome State Fault Refusal := powered (hostWrite Reg.PAT_CTRL (patErase 1)) s

/-- PAT_NOP (R65). -/
def execPatNop (s : State) : Host.Outcome State Fault Refusal := powered (hostWrite Reg.PAT_CTRL (patCtrl 0)) s

/-- PAT_RESERVED_OP (R12). -/
def execPatReservedOp (op : BitVec 4) (s : State) : Host.Outcome State Fault Refusal :=
  powered (hostWrite Reg.PAT_CTRL (patReserved op.toNat)) s

end Sys2Proof.Machine
end

