-- ==== Sys2Proof/Machine/PowerCmds.lean ====
section
/-! DEFINITION. Meanings. Supply, clocks, firmware banks, resets and start-up (R456, R457, R500 to R520). -/

namespace Sys2Proof.Machine

/-- INPUT_LOSS (R457). -/
def execInputLoss (s : State) : Host.Outcome State Fault Refusal := anyTime inputLoss s

/-- INPUT_RETURN (R502). -/
def execInputReturn (s : State) : Host.Outcome State Fault Refusal := anyTime inputReturn s

/-- HOLD_EXPIRE (R457). -/
def execHoldExpire (s : State) : Host.Outcome State Fault Refusal := anyTime holdExpire s

/-- RAILS_OFF (R457). -/
def execRailsOff (s : State) : Host.Outcome State Fault Refusal := anyTime railsOff s

/-- TEMP_SAMPLE (R505). -/
def execTempSample (die : BitVec 12) (plate : BitVec 12) (supply : Option SupplyReading) (s : State) :
    Host.Outcome State Fault Refusal :=
  anyTime (tempSample die.toNat plate.toNat supply) s

/-- REF_LOST (R510). -/
def execRefLost (s : State) : Host.Outcome State Fault Refusal := powered refLost s

/-- REF_LOSS_EXTENDED (R510). -/
def execRefLossExtended (s : State) : Host.Outcome State Fault Refusal := powered refLossExtended s

/-- REF_BACK (R510). -/
def execRefBack (s : State) : Host.Outcome State Fault Refusal := powered refBack s

/-- CLOCK_FAULT (R508). -/
def execClockFault (cause : ClockFaultCause) (s : State) : Host.Outcome State Fault Refusal :=
  powered (clockFault cause) s

/-- ALIGN (R508). -/
def execAlign (s : State) : Host.Outcome State Fault Refusal := powered (hostWrite Reg.CLK_CTRL align) s

/-- ROOT_LOCK_LOSS (R509). -/
def execRootLockLoss (s : State) : Host.Outcome State Fault Refusal := powered rootLockLoss s

/-- CLK_EN_WRITE (R512). -/
def execClkEnWrite (value : Word) (s : State) : Host.Outcome State Fault Refusal :=
  powered (hostWrite Reg.CLK_EN (clkEnWrite value.toNat)) s

/-- GATE_CLOSE (R512). -/
def execGateClose (unit : Fin 5) (busy : Bool) (s : State) : Host.Outcome State Fault Refusal :=
  powered (gateClose unit.val busy) s

/-- CLKOBS_SELECT (R513). -/
def execClkobsSelect (addr : Addr) (value : Word) (s : State) : Host.Outcome State Fault Refusal :=
  powered (hostWrite addr.toNat (obsWrite addr.toNat value.toNat)) s

/-- INSTALL (R514). -/
def execInstall (s : State) : Host.Outcome State Fault Refusal := powered (hostWrite Reg.PWR_FW_CTRL fwInstall) s

/-- INSTALL_DONE (R514). -/
def execInstallDone (image : FwImage) (s : State) : Host.Outcome State Fault Refusal :=
  powered (fwInstallDone image) s

/-- PREFER (R514). -/
def execPrefer (s : State) : Host.Outcome State Fault Refusal := powered (hostWrite Reg.PWR_FW_CTRL fwPrefer) s

/-- RESTART (R515). -/
def execRestart (s : State) : Host.Outcome State Fault Refusal := powered (hostWrite Reg.PWR_FW_CTRL fwRestartOp) s

/-- FW_RAISE_FLOOR (R514). -/
def execFwRaiseFloor (s : State) : Host.Outcome State Fault Refusal :=
  powered (hostWrite Reg.PWR_FW_CTRL fwRaiseFloor) s

/-- MRESET_N (R516). -/
def execMresetN (s : State) : Host.Outcome State Fault Refusal := anyTime mresetFall s

/-- WARM_RESET_DRAINED (R517). -/
def execWarmResetDrained (s : State) : Host.Outcome State Fault Refusal := powered warmDrained s

/-- COLD_START (R519). -/
def execColdStart (s : State) : Host.Outcome State Fault Refusal := anyTime coldStart s

/-- STARTUP_STEP (R519). -/
def execStartupStep (report : StartupReport) (s : State) : Host.Outcome State Fault Refusal :=
  powered (startupStep report) s

/-- MRESET_N_RELEASE (R517). -/
def execMresetNRelease (s : State) : Host.Outcome State Fault Refusal := anyTime mresetRise s

/-- VBAT_AND_CAPACITOR_LOST (R456). -/
def execVbatAndCapacitorLost (s : State) : Host.Outcome State Fault Refusal := anyTime vbatLost s

end Sys2Proof.Machine
end

