-- ==== Sys2Proof/Machine/ScCmds.lean ====
section
/-! DEFINITION. Meanings. Secure channels, epochs, fills and marks (R193 to R221). -/

namespace Sys2Proof.Machine

/-- SC_CREATE (R195). -/
def execScCreate (s : State) : Host.Outcome State Fault Refusal :=
  powered (hostWrite Reg.SEC_SCW_COMMIT (secwCommitOp 1)) s

/-- SC_MODIFY (R195). -/
def execScModify (s : State) : Host.Outcome State Fault Refusal :=
  powered (hostWrite Reg.SEC_SCW_COMMIT (secwCommitOp 2)) s

/-- SC_DELETE (R196). -/
def execScDelete (s : State) : Host.Outcome State Fault Refusal :=
  powered (hostWrite Reg.SEC_SCW_COMMIT (secwCommitOp 3)) s

/-- SCW_COMMIT_NO_OP (R194). -/
def execScwCommitNoOp (s : State) : Host.Outcome State Fault Refusal :=
  powered (hostWrite Reg.SEC_SCW_COMMIT (secwCommitOp 0)) s

/-- SCW_RESULT (R193). -/
def execScwResult (s : State) : Host.Outcome State Fault Refusal := powered scwResult s

/-- SC_READBACK_SELECT (R221). -/
def execScReadbackSelect (value : Word) (s : State) : Host.Outcome State Fault Refusal :=
  powered (hostWrite Reg.SEC_SCR_SEL (scReadback value.toNat)) s

/-- SA_READBACK_SELECT (R221). -/
def execSaReadbackSelect (value : Word) (s : State) : Host.Outcome State Fault Refusal :=
  powered (hostWrite Reg.SEC_SAR_SEL (saReadback value.toNat)) s

/-- EPOCH_HOST_TRIGGER (R203). -/
def execEpochHostTrigger (value : Word) (s : State) : Host.Outcome State Fault Refusal :=
  powered (hostWrite Reg.SEC_EPOCH_CMD (hostTrigger value.toNat)) s

/-- EPOCH_COUNT_EXPIRE (R201). -/
def execEpochCountExpire (sc : TxSc) (s : State) : Host.Outcome State Fault Refusal := powered (countExpire sc.val) s

/-- EPOCH_TIME_EXPIRE (R201). -/
def execEpochTimeExpire (sc : TxSc) (s : State) : Host.Outcome State Fault Refusal := powered (timeExpire sc.val) s

/-- PN_SOFT (R201). -/
def execPnSoft (sc : TxSc) (s : State) : Host.Outcome State Fault Refusal := powered (pnSoft sc.val) s

/-- PN_HARD (R211). -/
def execPnHard (sc : TxSc) (s : State) : Host.Outcome State Fault Refusal := powered (pnHard sc.val) s

/-- ORPHAN_GRACE_EXPIRE (R220). -/
def execOrphanGraceExpire (sa : SaNo) (s : State) : Host.Outcome State Fault Refusal :=
  powered (orphanExpire sa.val) s

/-- CINCH_INSTANT (R202). -/
def execCinchInstant (s : State) : Host.Outcome State Fault Refusal := powered cinchInstant s

/-- OVERLAP_EXPIRE (R207). -/
def execOverlapExpire (sc : RxSc) (s : State) : Host.Outcome State Fault Refusal := powered (overlapExpire sc.val) s

/-- SLOT_FILL_START (R199). -/
def execSlotFillStart (s : State) : Host.Outcome State Fault Refusal := powered fillStart s

/-- SLOT_FILL_DONE (R199). -/
def execSlotFillDone (s : State) : Host.Outcome State Fault Refusal := powered fillDone s

/-- MARK_JOURNAL_DONE (R210). -/
def execMarkJournalDone (sa : SaNo) (s : State) : Host.Outcome State Fault Refusal := powered (markDone sa.val) s

/-- HOLD_LIMIT_EXPIRE (R218). -/
def execHoldLimitExpire (sc : TxSc) (s : State) : Host.Outcome State Fault Refusal := powered (holdLimit sc.val) s

end Sys2Proof.Machine
end

