-- ==== Sys2Proof/Machine/SchedCmds.lean ====
section
/-! DEFINITION. Meanings. Scheduling: gates, shapers, spill, PAUSE and sampling (R304 to R320). -/

namespace Sys2Proof.Machine

/-- GATE_CYCLE_START (R304). -/
def execGateCycleStart (port : Port32) (s : State) : Host.Outcome State Fault Refusal :=
  powered (gateCycle port.val) s

/-- GATE_ENTRY_CHANGE (R304). -/
def execGateEntryChange (port : Port32) (s : State) : Host.Outcome State Fault Refusal :=
  powered (gateEntry port.val) s

/-- GATE_LIST_COMMIT (R307). -/
def execGateListCommit (s : State) : Host.Outcome State Fault Refusal :=
  powered (hostWrite Reg.SCH_GCL_COMMIT gclCommit) s

/-- GATE_ENTRY_ACCESS (R320). -/
def execGateEntryAccess (write : Option Word) (s : State) : Host.Outcome State Fault Refusal :=
  powered (gatesAccess write) s

/-- SCHP_COMMIT (R310). -/
def execSchpCommit (port : Port32) (s : State) : Host.Outcome State Fault Refusal :=
  powered (hostWrite (Reg.SCH_PCOMMIT port.val) (schpCommit port.val)) s

/-- SCHC_COMMIT (R320). -/
def execSchcCommit (port : Port32) (s : State) : Host.Outcome State Fault Refusal :=
  powered (hostWrite (Reg.SCH_CCOMMIT port.val) (schcCommit port.val)) s

/-- SERVICE_MODE_WRITE (R310). -/
def execServiceModeWrite (port : Port32) (value : Word) (s : State) : Host.Outcome State Fault Refusal :=
  powered (hostWrite (Reg.SCH_SVC port.val) (serviceWrite port.val value.toNat)) s

/-- TOKEN_ACCRUE (R309). -/
def execTokenAccrue (port : Port32) (cls : Fin 8) (s : State) : Host.Outcome State Fault Refusal :=
  powered (tokenAccrue port.val cls.val) s

/-- SPILL_WRITE_DONE (R311). -/
def execSpillWriteDone (port : Port32) (cls : Fin 8) (s : State) : Host.Outcome State Fault Refusal :=
  powered (spillWrite port.val cls.val) s

/-- SPILL_READBACK (R312). -/
def execSpillReadback (port : Port32) (cls : Fin 8) (s : State) : Host.Outcome State Fault Refusal :=
  powered (spillRead port.val cls.val) s

/-- PAUSE_REPEAT (R314). -/
def execPauseRepeat (port : Port32) (s : State) : Host.Outcome State Fault Refusal := powered (pauseRepeat port.val) s

/-- PAUSE_EXPIRE (R317). -/
def execPauseExpire (port : Port32) (s : State) : Host.Outcome State Fault Refusal := powered (pauseEnd port.val) s

/-- QUEUE_SAMPLE (R318). -/
def execQueueSample (s : State) : Host.Outcome State Fault Refusal := powered queueSample s

/-- LS_SELECT (R318). -/
def execLsSelect (value : Word) (s : State) : Host.Outcome State Fault Refusal :=
  powered (hostWrite Reg.SCH_LS_SEL (lsSelect value.toNat)) s

/-- LS_CLEAR (R318). -/
def execLsClear (s : State) : Host.Outcome State Fault Refusal := powered (hostWrite Reg.SCH_LS_CLR lsClear) s

end Sys2Proof.Machine
end

