-- ==== Sys2Proof/Machine/TimeCmds.lean ====
section
/-! DEFINITION. Meanings. Time bases, servo, timing signals and time of day (R353 to R367). -/

namespace Sys2Proof.Machine

/-- NS_WRAP (R353). -/
def execNsWrap (base : Base) (s : State) : Host.Outcome State Fault Refusal := clocked (nsWrap base.val) s

/-- SECOND_MARKER (R355). -/
def execSecondMarker (base : Base) (report : List LineReport) (s : State) : Host.Outcome State Fault Refusal :=
  clocked (fun s => secondMarker base.val (lineReports report s)) s

/-- PPS_OUT_FALL (R364). -/
def execPpsOutFall (s : State) : Host.Outcome State Fault Refusal := powered ppsFall s

/-- TOD_TX_SEND (R366). -/
def execTodTxSend (s : State) : Host.Outcome State Fault Refusal := powered todSend s

/-- TOD_RX_MESSAGE (R367). -/
def execTodRxMessage (message : Bytes) (s : State) : Host.Outcome State Fault Refusal :=
  powered (todReceive message) s

/-- SECMARK_WRITE (R355). -/
def execSecmarkWrite (base : Base) (value : Word) (s : State) : Host.Outcome State Fault Refusal :=
  powered (hostWrite (Reg.TB_SECMARK base.val) (secmarkWrite base.val value.toNat)) s

/-- SECBASE_WRITE (R356). -/
def execSecbaseWrite (base : Base) (value : Word) (s : State) : Host.Outcome State Fault Refusal :=
  powered (hostWrite (Reg.TB_SECBASE_HI base.val) (secbaseWrite base.val value.toNat)) s

/-- TB_STEP (R358). -/
def execTbStep (base : Base) (value : Word) (s : State) : Host.Outcome State Fault Refusal :=
  powered (hostWrite (Reg.TB_STEP base.val) (tbStep base.val value.toNat)) s

/-- TB_SET (R358). -/
def execTbSet (base : Base) (value : Word) (s : State) : Host.Outcome State Fault Refusal :=
  powered (hostWrite (Reg.TB_SET_CTRL base.val) (tbSet base.val value.toNat)) s

/-- OFFSET_SAMPLE (R361). -/
def execOffsetSample (base : Base) (value : Word) (s : State) : Host.Outcome State Fault Refusal :=
  powered (hostWrite (Reg.TB_OFFSET base.val) (offsetSample base.val value.toNat)) s

/-- PPS_IN_EDGE (R361). -/
def execPpsInEdge (s : State) : Host.Outcome State Fault Refusal := powered ppsInEdge s

/-- PPS_MISS (R362). -/
def execPpsMiss (s : State) : Host.Outcome State Fault Refusal := powered ppsMiss s

/-- HOLDOVER_ENTRY (R362). -/
def execHoldoverEntry (base : Base) (s : State) : Host.Outcome State Fault Refusal := powered (holdover base.val) s

/-- FADJ_WRITE (R360). -/
def execFadjWrite (base : Base) (value : Word) (s : State) : Host.Outcome State Fault Refusal :=
  powered (hostWrite (Reg.TB_FADJ base.val) (fadjWrite base.val value.toNat)) s

/-- SERVO_CTRL_WRITE (R360). -/
def execServoCtrlWrite (base : Base) (value : Word) (s : State) : Host.Outcome State Fault Refusal :=
  powered (hostWrite (Reg.TB_SERVO base.val) (servoWrite base.val value.toNat)) s

/-- FREF_LOST (R363). -/
def execFrefLost (base : Base) (s : State) : Host.Outcome State Fault Refusal := powered (frefLost base.val) s

/-- FREF_RESTORED (R363). -/
def execFrefRestored (base : Base) (s : State) : Host.Outcome State Fault Refusal := powered (frefRestored base.val) s

/-- TIME_CAPTURE (R354). -/
def execTimeCapture (s : State) : Host.Outcome State Fault Refusal :=
  powered (hostWrite Reg.TIM_CAPTURE timeCapture) s

end Sys2Proof.Machine
end

