-- ==== Sys2Proof/Machine/TrunkCmds.lean ====
section
/-! DEFINITION. Meanings. Trunk mode (R152 to R184). -/

namespace Sys2Proof.Machine

/-- CLIENT_BLOCK_RECEIVED (R152). -/
def execClientBlockReceived (span : SpanNo) (block : Block66) (s : State) : Host.Outcome State Fault Refusal :=
  powered (clientBlock span.val block) s

/-- STITCH_BIND (R170). -/
def execStitchBind (span : SpanNo) (s : State) : Host.Outcome State Fault Refusal := powered (stitchBind span.val) s

/-- MARKER_BLOCK (R161). -/
def execMarkerBlock (span : SpanNo) (lane : Fin 8) (position : Nat) (marker : Bytes) (s : State) :
    Host.Outcome State Fault Refusal :=
  powered (markerBlock span.val lane.val position marker) s

/-- MARKER_LOCK_LOSS (R161). -/
def execMarkerLockLoss (span : SpanNo) (lane : Fin 8) (s : State) : Host.Outcome State Fault Refusal :=
  powered (markerLoss span.val lane.val) s

/-- STITCH_WORD_MATCH (R175). -/
def execStitchWordMatch (span : SpanNo) (position : Nat) (s : State) : Host.Outcome State Fault Refusal :=
  powered (wordMatch span.val position) s

/-- STITCH_HEADER_CHECK (R175). -/
def execStitchHeaderCheck (span : SpanNo) (position : Nat) (h1 h2 : Block257) (errored : Bool)
    (s : State) : Host.Outcome State Fault Refusal :=
  powered (headerCheck span.val position (headerOf h1 h2 errored)) s

/-- STITCH_TAG_CHECK (R177). -/
def execStitchTagCheck (span : SpanNo) (body : Bytes) (s : State) : Host.Outcome State Fault Refusal :=
  powered (stitchTagCheck span.val body) s

/-- STITCH_RELEASE (R179). -/
def execStitchRelease (span : SpanNo) (s : State) : Host.Outcome State Fault Refusal :=
  powered (stitchRelease span.val) s

/-- TRUNK_BINDING_WRITE (R182). -/
def execTrunkBindingWrite (addr : Addr) (value : Word) (s : State) : Host.Outcome State Fault Refusal :=
  powered (hostWrite addr.toNat (trunkBindingWrite addr.toNat value.toNat)) s

end Sys2Proof.Machine
end

