-- ==== Sys2Proof/Machine/Dispatch.lean ====
section
/-! DEFINITION. One arm per command: each calls its meaning. -/

namespace Sys2Proof.Machine

def exec (i : Instr) (s : State) : Host.Outcome State Fault Refusal :=
  match i with
  | .registerWrite addr value => Sys2Proof.Machine.execRegisterWrite addr value s
  | .counterClearingRead addr => Sys2Proof.Machine.execCounterClearingRead addr s
  | .holdingLowerRead addr => Sys2Proof.Machine.execHoldingLowerRead addr s
  | .pmcEvenRead n observe => Sys2Proof.Machine.execPmcEvenRead n observe s
  | .aliasWrite addr value => Sys2Proof.Machine.execAliasWrite addr value s
  | .rwlRegisterWrite addr value => Sys2Proof.Machine.execRwlRegisterWrite addr value s
  | .kprWrite addr value => Sys2Proof.Machine.execKprWrite addr value s
  | .badSizeAccess bar2 addr bytes isWrite => Sys2Proof.Machine.execBadSizeAccess bar2 addr bytes isWrite s
  | .gatedAccess addr isWrite value => Sys2Proof.Machine.execGatedAccess addr isWrite value s
  | .unsupportedRequest req addr => Sys2Proof.Machine.execUnsupportedRequest req addr s
  | .perst => Sys2Proof.Machine.execPerst s
  | .functionLevelReset => Sys2Proof.Machine.execFunctionLevelReset s
  | .d3hotExit => Sys2Proof.Machine.execD3hotExit s
  | .keyqDoorbell count => Sys2Proof.Machine.execKeyqDoorbell count s
  | .evqDoorbell count => Sys2Proof.Machine.execEvqDoorbell count s
  | .keyqEnable ctrl => Sys2Proof.Machine.execKeyqEnable ctrl s
  | .keyqDisable ctrl => Sys2Proof.Machine.execKeyqDisable ctrl s
  | .evqEnable ctrl => Sys2Proof.Machine.execEvqEnable ctrl s
  | .evqDisable ctrl => Sys2Proof.Machine.execEvqDisable ctrl s
  | .keyqDescriptorStart descriptor => Sys2Proof.Machine.execKeyqDescriptorStart descriptor s
  | .evqOverflowRecord => Sys2Proof.Machine.execEvqOverflowRecord s
  | .msixVectorUnmask v => Sys2Proof.Machine.execMsixVectorUnmask v s
  | .interruptHoldoffExpire key => Sys2Proof.Machine.execInterruptHoldoffExpire key s
  | .irqTest value => Sys2Proof.Machine.execIrqTest value s
  | .firmwareRestart => Sys2Proof.Machine.execFirmwareRestart s
  | .fwReady => Sys2Proof.Machine.execFwReady s
  | .watchdogExpire => Sys2Proof.Machine.execWatchdogExpire s
  | .stageWindow => Sys2Proof.Machine.execStageWindow s
  | .stageSlotA => Sys2Proof.Machine.execStageSlotA s
  | .stageSlotB => Sys2Proof.Machine.execStageSlotB s
  | .stagingComplete container failAt slotIntact => Sys2Proof.Machine.execStagingComplete container failAt slotIntact s
  | .apply => Sys2Proof.Machine.execApply s
  | .cutDrainDone => Sys2Proof.Machine.execCutDrainDone s
  | .cutResume us => Sys2Proof.Machine.execCutResume us s
  | .discard => Sys2Proof.Machine.execDiscard s
  | .storeA => Sys2Proof.Machine.execStoreA s
  | .storeB => Sys2Proof.Machine.execStoreB s
  | .storingComplete verified => Sys2Proof.Machine.execStoringComplete verified s
  | .raiseFloor => Sys2Proof.Machine.execRaiseFloor s
  | .eraseA => Sys2Proof.Machine.execEraseA s
  | .eraseB => Sys2Proof.Machine.execEraseB s
  | .patNop => Sys2Proof.Machine.execPatNop s
  | .patReservedOp op => Sys2Proof.Machine.execPatReservedOp op s
  | .cellDispatch => Sys2Proof.Machine.execCellDispatch s
  | .cellComplete island wrong => Sys2Proof.Machine.execCellComplete island wrong s
  | .auditCompare => Sys2Proof.Machine.execAuditCompare s
  | .partnerKatDone island pass => Sys2Proof.Machine.execPartnerKatDone island pass s
  | .islandClockWindow island cycles millivolts => Sys2Proof.Machine.execIslandClockWindow island cycles millivolts s
  | .islandSupplyFault island => Sys2Proof.Machine.execIslandSupplyFault island s
  | .hostFence island => Sys2Proof.Machine.execHostFence island s
  | .hostFenceClear island => Sys2Proof.Machine.execHostFenceClear island s
  | .islandBistDone island pass => Sys2Proof.Machine.execIslandBistDone island pass s
  | .shedComplete => Sys2Proof.Machine.execShedComplete s
  | .spanRestore => Sys2Proof.Machine.execSpanRestore s
  | .islandUnparkDone island pass => Sys2Proof.Machine.execIslandUnparkDone island pass s
  | .islandPark island => Sys2Proof.Machine.execIslandPark island s
  | .sealFrameArrival port frame ending => Sys2Proof.Machine.execSealFrameArrival port frame ending s
  | .openFrameArrival port frame ending => Sys2Proof.Machine.execOpenFrameArrival port frame ending s
  | .icvVerdict tag => Sys2Proof.Machine.execIcvVerdict tag s
  | .schedulerDecision port => Sys2Proof.Machine.execSchedulerDecision port s
  | .frameDepartureDone port => Sys2Proof.Machine.execFrameDepartureDone port s
  | .frameAbort port => Sys2Proof.Machine.execFrameAbort port s
  | .clientBlockReceived span block => Sys2Proof.Machine.execClientBlockReceived span block s
  | .stitchBind span => Sys2Proof.Machine.execStitchBind span s
  | .markerBlock span lane position marker => Sys2Proof.Machine.execMarkerBlock span lane position marker s
  | .markerLockLoss span lane => Sys2Proof.Machine.execMarkerLockLoss span lane s
  | .stitchWordMatch span position => Sys2Proof.Machine.execStitchWordMatch span position s
  | .stitchHeaderCheck span position h1 h2 errored => Sys2Proof.Machine.execStitchHeaderCheck span position h1 h2 errored s
  | .stitchTagCheck span body => Sys2Proof.Machine.execStitchTagCheck span body s
  | .stitchRelease span => Sys2Proof.Machine.execStitchRelease span s
  | .trunkBindingWrite addr value => Sys2Proof.Machine.execTrunkBindingWrite addr value s
  | .scCreate => Sys2Proof.Machine.execScCreate s
  | .scModify => Sys2Proof.Machine.execScModify s
  | .scDelete => Sys2Proof.Machine.execScDelete s
  | .scwCommitNoOp => Sys2Proof.Machine.execScwCommitNoOp s
  | .scwResult => Sys2Proof.Machine.execScwResult s
  | .scReadbackSelect value => Sys2Proof.Machine.execScReadbackSelect value s
  | .saReadbackSelect value => Sys2Proof.Machine.execSaReadbackSelect value s
  | .epochHostTrigger value => Sys2Proof.Machine.execEpochHostTrigger value s
  | .epochCountExpire sc => Sys2Proof.Machine.execEpochCountExpire sc s
  | .epochTimeExpire sc => Sys2Proof.Machine.execEpochTimeExpire sc s
  | .pnSoft sc => Sys2Proof.Machine.execPnSoft sc s
  | .pnHard sc => Sys2Proof.Machine.execPnHard sc s
  | .orphanGraceExpire sa => Sys2Proof.Machine.execOrphanGraceExpire sa s
  | .cinchInstant => Sys2Proof.Machine.execCinchInstant s
  | .overlapExpire sc => Sys2Proof.Machine.execOverlapExpire sc s
  | .slotFillStart => Sys2Proof.Machine.execSlotFillStart s
  | .slotFillDone => Sys2Proof.Machine.execSlotFillDone s
  | .markJournalDone sa => Sys2Proof.Machine.execMarkJournalDone sa s
  | .holdLimitExpire sc => Sys2Proof.Machine.execHoldLimitExpire sc s
  | .tkAccept input written => Sys2Proof.Machine.execTkAccept input written s
  | .parentLoad input => Sys2Proof.Machine.execParentLoad input s
  | .parentInvalidate written => Sys2Proof.Machine.execParentInvalidate written s
  | .saInstall input => Sys2Proof.Machine.execSaInstall input s
  | .saDerive => Sys2Proof.Machine.execSaDerive s
  | .saRetire => Sys2Proof.Machine.execSaRetire s
  | .vaultCommit verified => Sys2Proof.Machine.execVaultCommit verified s
  | .attest input delivered => Sys2Proof.Machine.execAttest input delivered s
  | .keyQueryIdentity delivered => Sys2Proof.Machine.execKeyQueryIdentity delivered s
  | .keyQueryParent => Sys2Proof.Machine.execKeyQueryParent s
  | .keyQueryTransport => Sys2Proof.Machine.execKeyQueryTransport s
  | .keyQueryStatus => Sys2Proof.Machine.execKeyQueryStatus s
  | .keeperKeyRoll input written => Sys2Proof.Machine.execKeeperKeyRoll input written s
  | .keyqBadOpcode => Sys2Proof.Machine.execKeyqBadOpcode s
  | .tamperSource source present => Sys2Proof.Machine.execTamperSource source present s
  | .zeroizeClearDone => Sys2Proof.Machine.execZeroizeClearDone s
  | .drbgReinstantiated => Sys2Proof.Machine.execDrbgReinstantiated s
  | .drbgTestFail => Sys2Proof.Machine.execDrbgTestFail s
  | .drbgRetry pass => Sys2Proof.Machine.execDrbgRetry pass s
  | .remaskWord => Sys2Proof.Machine.execRemaskWord s
  | .identityKeyExpire => Sys2Proof.Machine.execIdentityKeyExpire s
  | .learnCommit => Sys2Proof.Machine.execLearnCommit s
  | .relocateClear => Sys2Proof.Machine.execRelocateClear s
  | .agerVisit bucket => Sys2Proof.Machine.execAgerVisit bucket s
  | .clsAgeWrite value => Sys2Proof.Machine.execClsAgeWrite value s
  | .lookup => Sys2Proof.Machine.execLookup s
  | .insert => Sys2Proof.Machine.execInsert s
  | .update => Sys2Proof.Machine.execUpdate s
  | .delete => Sys2Proof.Machine.execDelete s
  | .ageSweep => Sys2Proof.Machine.execAgeSweep s
  | .flushSpan => Sys2Proof.Machine.execFlushSpan s
  | .sweepBucket => Sys2Proof.Machine.execSweepBucket s
  | .prefixInsert => Sys2Proof.Machine.execPrefixInsert s
  | .prefixDelete => Sys2Proof.Machine.execPrefixDelete s
  | .clsBadCode code => Sys2Proof.Machine.execClsBadCode code s
  | .clsCmdComplete => Sys2Proof.Machine.execClsCmdComplete s
  | .bucketLockRead bucket => Sys2Proof.Machine.execBucketLockRead bucket s
  | .bucketEntryWrite addr words => Sys2Proof.Machine.execBucketEntryWrite addr words s
  | .bucketCommit bucket => Sys2Proof.Machine.execBucketCommit bucket s
  | .bucketAbort bucket => Sys2Proof.Machine.execBucketAbort bucket s
  | .bucketLockTimeout => Sys2Proof.Machine.execBucketLockTimeout s
  | .clspCommit => Sys2Proof.Machine.execClspCommit s
  | .tableWindowWrite addr value => Sys2Proof.Machine.execTableWindowWrite addr value s
  | .gateCycleStart port => Sys2Proof.Machine.execGateCycleStart port s
  | .gateEntryChange port => Sys2Proof.Machine.execGateEntryChange port s
  | .gateListCommit => Sys2Proof.Machine.execGateListCommit s
  | .gateEntryAccess write => Sys2Proof.Machine.execGateEntryAccess write s
  | .schpCommit port => Sys2Proof.Machine.execSchpCommit port s
  | .schcCommit port => Sys2Proof.Machine.execSchcCommit port s
  | .serviceModeWrite port value => Sys2Proof.Machine.execServiceModeWrite port value s
  | .tokenAccrue port cls => Sys2Proof.Machine.execTokenAccrue port cls s
  | .spillWriteDone port cls => Sys2Proof.Machine.execSpillWriteDone port cls s
  | .spillReadback port cls => Sys2Proof.Machine.execSpillReadback port cls s
  | .pauseRepeat port => Sys2Proof.Machine.execPauseRepeat port s
  | .pauseReceived port frame => Sys2Proof.Machine.execPauseReceived port frame s
  | .pauseExpire port => Sys2Proof.Machine.execPauseExpire port s
  | .macControlDiscard port frame => Sys2Proof.Machine.execMacControlDiscard port frame s
  | .queueSample => Sys2Proof.Machine.execQueueSample s
  | .lsSelect value => Sys2Proof.Machine.execLsSelect value s
  | .lsClear => Sys2Proof.Machine.execLsClear s
  | .defectDeclare port defect => Sys2Proof.Machine.execDefectDeclare port defect s
  | .defectClear port defect => Sys2Proof.Machine.execDefectClear port defect s
  | .portEnableWrite port value => Sys2Proof.Machine.execPortEnableWrite port value s
  | .dintCommit => Sys2Proof.Machine.execDintCommit s
  | .txffeWrite lane value => Sys2Proof.Machine.execTxffeWrite lane value s
  | .guardWindow lane density minPop good => Sys2Proof.Machine.execGuardWindow lane density minPop good s
  | .cdrLock lane => Sys2Proof.Machine.execCdrLock lane s
  | .anegComplete port => Sys2Proof.Machine.execAnegComplete port s
  | .prbsLock lane => Sys2Proof.Machine.execPrbsLock lane s
  | .prbsLoss lane errors bits => Sys2Proof.Machine.execPrbsLoss lane errors bits s
  | .lanePrbsWrite lane value report => Sys2Proof.Machine.execLanePrbsWrite lane value report s
  | .errorInject lane value => Sys2Proof.Machine.execErrorInject lane value s
  | .hckLock => Sys2Proof.Machine.execHckLock s
  | .trainingWord lane word => Sys2Proof.Machine.execTrainingWord lane word s
  | .trainingTimeout => Sys2Proof.Machine.execTrainingTimeout s
  | .trainingRestart => Sys2Proof.Machine.execTrainingRestart s
  | .harnessDown cause => Sys2Proof.Machine.execHarnessDown cause s
  | .harnessRetrain => Sys2Proof.Machine.execHarnessRetrain s
  | .nsWrap base => Sys2Proof.Machine.execNsWrap base s
  | .secondMarker base report => Sys2Proof.Machine.execSecondMarker base report s
  | .ppsOutFall => Sys2Proof.Machine.execPpsOutFall s
  | .todTxSend => Sys2Proof.Machine.execTodTxSend s
  | .todRxMessage message => Sys2Proof.Machine.execTodRxMessage message s
  | .secmarkWrite base value => Sys2Proof.Machine.execSecmarkWrite base value s
  | .secbaseWrite base value => Sys2Proof.Machine.execSecbaseWrite base value s
  | .tbStep base value => Sys2Proof.Machine.execTbStep base value s
  | .tbSet base value => Sys2Proof.Machine.execTbSet base value s
  | .offsetSample base value => Sys2Proof.Machine.execOffsetSample base value s
  | .ppsInEdge => Sys2Proof.Machine.execPpsInEdge s
  | .ppsMiss => Sys2Proof.Machine.execPpsMiss s
  | .holdoverEntry base => Sys2Proof.Machine.execHoldoverEntry base s
  | .fadjWrite base value => Sys2Proof.Machine.execFadjWrite base value s
  | .servoCtrlWrite base value => Sys2Proof.Machine.execServoCtrlWrite base value s
  | .frefLost base => Sys2Proof.Machine.execFrefLost base s
  | .frefRestored base => Sys2Proof.Machine.execFrefRestored base s
  | .timeCapture => Sys2Proof.Machine.execTimeCapture s
  | .evidenceRecordWrite => Sys2Proof.Machine.execEvidenceRecordWrite s
  | .trigIn => Sys2Proof.Machine.execTrigIn s
  | .evrTrig => Sys2Proof.Machine.execEvrTrig s
  | .evrRelease => Sys2Proof.Machine.execEvrRelease s
  | .freeze => Sys2Proof.Machine.execFreeze s
  | .evrReadout value => Sys2Proof.Machine.execEvrReadout value s
  | .readoutComplete dmaOk => Sys2Proof.Machine.execReadoutComplete dmaOk s
  | .patrolScrub channel partition item outcome => Sys2Proof.Machine.execPatrolScrub channel partition item outcome s
  | .channelFenceWrite value => Sys2Proof.Machine.execChannelFenceWrite value s
  | .addressMapRebuilt => Sys2Proof.Machine.execAddressMapRebuilt s
  | .nop request => Sys2Proof.Machine.execNop request s
  | .getStatus request => Sys2Proof.Machine.execGetStatus request s
  | .getChallenge request => Sys2Proof.Machine.execGetChallenge request s
  | .loadSeg request => Sys2Proof.Machine.execLoadSeg request s
  | .imgWrite request => Sys2Proof.Machine.execImgWrite request s
  | .imgCommit request written => Sys2Proof.Machine.execImgCommit request written s
  | .imgDiscard request => Sys2Proof.Machine.execImgDiscard request s
  | .zeroize request => Sys2Proof.Machine.execZeroize request s
  | .alarmClear request => Sys2Proof.Machine.execAlarmClear request s
  | .trigger request => Sys2Proof.Machine.execTrigger request s
  | .takeover request => Sys2Proof.Machine.execTakeover request s
  | .warmReset request => Sys2Proof.Machine.execWarmReset request s
  | .keeperResetDelayExpire => Sys2Proof.Machine.execKeeperResetDelayExpire s
  | .debugLevel request => Sys2Proof.Machine.execDebugLevel request s
  | .noInvasive request written => Sys2Proof.Machine.execNoInvasive request written s
  | .enrol request written => Sys2Proof.Machine.execEnrol request written s
  | .release request written => Sys2Proof.Machine.execRelease request written s
  | .unlock request => Sys2Proof.Machine.execUnlock request s
  | .retire request written => Sys2Proof.Machine.execRetire request written s
  | .keeperBadOpcode request => Sys2Proof.Machine.execKeeperBadOpcode request s
  | .lockoutExpire => Sys2Proof.Machine.execLockoutExpire s
  | .inputLoss => Sys2Proof.Machine.execInputLoss s
  | .inputReturn => Sys2Proof.Machine.execInputReturn s
  | .holdExpire => Sys2Proof.Machine.execHoldExpire s
  | .railsOff => Sys2Proof.Machine.execRailsOff s
  | .tempSample die plate supply => Sys2Proof.Machine.execTempSample die plate supply s
  | .refLost => Sys2Proof.Machine.execRefLost s
  | .refLossExtended => Sys2Proof.Machine.execRefLossExtended s
  | .refBack => Sys2Proof.Machine.execRefBack s
  | .clockFault cause => Sys2Proof.Machine.execClockFault cause s
  | .align => Sys2Proof.Machine.execAlign s
  | .rootLockLoss => Sys2Proof.Machine.execRootLockLoss s
  | .clkEnWrite value => Sys2Proof.Machine.execClkEnWrite value s
  | .gateClose unit busy => Sys2Proof.Machine.execGateClose unit busy s
  | .clkobsSelect addr value => Sys2Proof.Machine.execClkobsSelect addr value s
  | .install => Sys2Proof.Machine.execInstall s
  | .installDone image => Sys2Proof.Machine.execInstallDone image s
  | .prefer => Sys2Proof.Machine.execPrefer s
  | .restart => Sys2Proof.Machine.execRestart s
  | .fwRaiseFloor => Sys2Proof.Machine.execFwRaiseFloor s
  | .mresetN => Sys2Proof.Machine.execMresetN s
  | .warmResetDrained => Sys2Proof.Machine.execWarmResetDrained s
  | .coldStart => Sys2Proof.Machine.execColdStart s
  | .startupStep report => Sys2Proof.Machine.execStartupStep report s
  | .enumCount message => Sys2Proof.Machine.execEnumCount message s
  | .enumRequest message => Sys2Proof.Machine.execEnumRequest message s
  | .alarm message => Sys2Proof.Machine.execAlarm message s
  | .cinch message => Sys2Proof.Machine.execCinch message s
  | .zeroizeMessage message => Sys2Proof.Machine.execZeroizeMessage message s
  | .heartbeat message => Sys2Proof.Machine.execHeartbeat message s
  | .chainMessageSend => Sys2Proof.Machine.execChainMessageSend s
  | .enumTimer => Sys2Proof.Machine.execEnumTimer s
  | .orphanTimeout => Sys2Proof.Machine.execOrphanTimeout s
  | .chainLinkDown => Sys2Proof.Machine.execChainLinkDown s
  | .chainLinkUp => Sys2Proof.Machine.execChainLinkUp s
  | .heartbeatTimer => Sys2Proof.Machine.execHeartbeatTimer s
  | .peerRecordExpire position => Sys2Proof.Machine.execPeerRecordExpire position s
  | .zeroizeRepeat => Sys2Proof.Machine.execZeroizeRepeat s
  | .cinchCommand => Sys2Proof.Machine.execCinchCommand s
  | .hello record => Sys2Proof.Machine.execHello record s
  | .helloRetry => Sys2Proof.Machine.execHelloRetry s
  | .ack record => Sys2Proof.Machine.execAck record s
  | .ackTimer => Sys2Proof.Machine.execAckTimer s
  | .harnessRetransmit => Sys2Proof.Machine.execHarnessRetransmit s
  | .scRecord record => Sys2Proof.Machine.execScRecord record s
  | .epochRecord record => Sys2Proof.Machine.execEpochRecord record s
  | .markRecord record => Sys2Proof.Machine.execMarkRecord record s
  | .snapEnd record => Sys2Proof.Machine.execSnapEnd record s
  | .learnRecord record => Sys2Proof.Machine.execLearnRecord record s
  | .gateRecord record => Sys2Proof.Machine.execGateRecord record s
  | .takeoverRecord record => Sys2Proof.Machine.execTakeoverRecord record s
  | .takeoverAck record => Sys2Proof.Machine.execTakeoverAck record s
  | .takeoverJournalDone => Sys2Proof.Machine.execTakeoverJournalDone s
  | .hostTakeover => Sys2Proof.Machine.execHostTakeover s
  | .soloTimeout => Sys2Proof.Machine.execSoloTimeout s
  | .traceStart value => Sys2Proof.Machine.execTraceStart value s
  | .mresetNRelease => Sys2Proof.Machine.execMresetNRelease s
  | .vbatAndCapacitorLost => Sys2Proof.Machine.execVbatAndCapacitorLost s
  | .keeperBadFrame request => Sys2Proof.Machine.execKeeperBadFrame request s
  | .chainBadCrc message => Sys2Proof.Machine.execChainBadCrc message s
  | .d3hotEntry => Sys2Proof.Machine.execD3hotEntry s

end Sys2Proof.Machine
end

