-- ==== Sys2Proof/Safety.lean ====
section
/-! DEFINITION. The terms in which claims about the module are stated: when a command is served, what it answers,
what it leaves alone, and which registers only show other state. -/

namespace Sys2Proof.Machine

/-! ## When a command is served -/

/-- A host access to BAR0 address `a` is served: the core runs, PCIe is up, and the block at `a` is not gated
(R405, R411, R517). -/
def Served (s : State) (a : Nat) : Prop := coreRuns s = true ∧ hostServed s = true ∧ gatedAt s a = false

/-- A host access to BAR2 is served: its units are gated by nothing. -/
def Served2 (s : State) : Prop := coreRuns s = true ∧ hostServed s = true

/-- The commands that act in every power state (R253, R456). -/
def inAnyPower : Instr → Bool
  | .tamperSource _ _ => true
  | .inputLoss => true
  | .inputReturn => true
  | .holdExpire => true
  | .railsOff => true
  | .tempSample _ _ _ => true
  | .mresetN => true
  | .mresetNRelease => true
  | .coldStart => true
  | .vbatAndCapacitorLost => true
  | _ => false

/-- The commands of the keeper port (R434): one request frame each. -/
def keeperRequestOf : Instr → Option Bytes
  | .nop r => some r
  | .getStatus r => some r
  | .getChallenge r => some r
  | .loadSeg r => some r
  | .imgWrite r => some r
  | .imgCommit r _ => some r
  | .imgDiscard r => some r
  | .zeroize r => some r
  | .alarmClear r => some r
  | .trigger r => some r
  | .takeover r => some r
  | .warmReset r => some r
  | .debugLevel r => some r
  | .noInvasive r _ => some r
  | .enrol r _ => some r
  | .release r _ => some r
  | .unlock r => some r
  | .retire r _ => some r
  | .keeperBadOpcode r => some r
  | .keeperBadFrame r => some r
  | _ => none

/-- The commands of the chain, which a warm reset does not stop (R516). -/
def ofChain : Instr → Bool
  | .enumCount _ => true
  | .enumRequest _ => true
  | .alarm _ => true
  | .cinch _ => true
  | .zeroizeMessage _ => true
  | .heartbeat _ => true
  | .chainMessageSend => true
  | .enumTimer => true
  | .orphanTimeout => true
  | .chainLinkDown => true
  | .chainLinkUp => true
  | .heartbeatTimer => true
  | .peerRecordExpire _ => true
  | .zeroizeRepeat => true
  | .chainBadCrc _ => true
  | _ => false

/-- The commands by which time moves a base on, also in a warm reset and a thermal stop (R378, R516). -/
def ofTime : Instr → Bool
  | .nsWrap _ => true
  | .secondMarker _ _ => true
  | _ => false

/-- The commands that the core reset stops. -/
def needsCore (i : Instr) : Bool :=
  !inAnyPower i && (keeperRequestOf i).isNone && !ofChain i && !ofTime i

/-- Registers whose every field follows its access type and nothing else: those of the GLB, PAT, KEY, PWR and DBG
blocks but for their operation and lockable registers (R7). -/
def plainReg (a : Nat) : Bool :=
  (decide (a < 0x4000) || (decide (0x10000 ≤ a) && decide (a < 0x20000)) ||
   (decide (0x140000 ≤ a) && decide (a < 0x180000)) || (decide (0x340000 ≤ a) && decide (a < 0x3C0000))) &&
  a != Reg.PAT_CTRL && a != Reg.PAT_BOOT && a != Reg.PWR_FW_CTRL && a != Reg.DBG_TRACE_CTRL

/-- A write of PAT_CTRL is acted on: served, not BUSY, the firmware there (R66, R430). -/
def PatFree (s : State) : Prop :=
  Served s Reg.PAT_CTRL ∧ s.bit Reg.PAT_STATUS 3 = false ∧ fwIsReady s = true

/-! ## What a command answers -/

/-- The command answers a next state: `settle` of a state `u` of which `P` holds, with the queue as it was. What
`settle` adds is stated once, in `Obligations.EveryCommandAnswersAndKeepsTheQueue`. -/
def Answers (i : Instr) (s : State) (P : State → Prop) : Prop :=
  ∃ u, exec i s = .next { settle u with pending := s.pending } ∧ P u

/-- Nothing waits to settle: no restore, no frame held for a rise, no PAUSE to send, no message to the standby, no
ALARM message, no KEYQ operation waiting for its fills, no event owed. -/
def Quiet (s : State) : Prop :=
  s.pwr.restoreDue = false ∧ s.fab.rising = [] ∧ s.sch.held = [] ∧ pauseChecks s = s ∧ s.hrn.toSend = [] ∧
  s.chn.alarmDue = false ∧ s.sec.kqWait = [] ∧ s.hif.owed = []

/-- The registers that abandoning a staged Pattern writes (R67, R70). -/
def stagedRegs : List Nat :=
  Reg.PAT_STATUS :: Reg.PAT_DIFF :: Reg.PAT_DIFF_SECT :: (List.range 12).map Reg.PAT_STG_DIG

/-- The field of register `r` that bit `n` belongs to. -/
def fieldOf (r n : Nat) : Option RegField :=
  (regFields r).find? (fun f => decide (f.lsb ≤ n) && decide (n < f.lsb + f.width))

/-! ## What a command leaves alone -/

/-- Every register but those named reads as before. -/
def RegsBut (l : List Nat) (s u : State) : Prop := ∀ a, a ∉ l → u.rd a = s.rd a

/-- Nothing but the registers named and the outputs differs. -/
def OnlyRegs (l : List Nat) (s u : State) : Prop :=
  RegsBut l s u ∧ u = { s with regs := u.regs, out := u.out }

/-- The registers of the host interface: MSI-X, HIF. An event record, a vector or a logged error changes no
others. -/
def hostIfReg (a : Nat) : Bool :=
  (decide (0x8000 ≤ a) && decide (a < 0x10000)) || (decide (0x3C0000 ≤ a) && decide (a < 0x400000))

/-- Every register outside the host interface but those named reads as before. -/
def CoreRegsBut (l : List Nat) (s u : State) : Prop := ∀ a, hostIfReg a = false → a ∉ l → u.rd a = s.rd a

/-- Nothing but registers of the host interface, the registers named, the host interface's own state and the
outputs differs. -/
def OnlyHost (l : List Nat) (s u : State) : Prop :=
  CoreRegsBut l s u ∧ u = { s with regs := u.regs, hif := u.hif, out := u.out }

/-- A Pattern operation has ended with a RESULT, and nothing else outside the host interface differs but what `l`
names: registers, and the components of Pattern and vault (R65, R66). -/
def PatEnded (code : Nat) (l : List Nat) (s u : State) : Prop :=
  u.rdF Reg.PAT_STATUS 8 8 = code ∧ u.rdF Reg.PAT_STATUS 0 3 = (if u.pat.staged.isSome then 2 else 0) ∧
  u.bit Reg.PAT_STATUS 3 = false ∧ CoreRegsBut (Reg.PAT_STATUS :: l) s u ∧
  u = { s with regs := u.regs, hif := u.hif, pat := u.pat, key := u.key, out := u.out }

/-- Island `i` holds no cell and no audit names it, and no Pattern is active, so no span can be shed. -/
def IslandIdle (i : Nat) (s : State) : Prop :=
  s.islQ i = {} ∧ (∀ a ∈ s.fab.audits, a.primary ≠ i ∧ a.partner ≠ i) ∧ s.pat.active = none

/-- Island `i` is fenced for a cause among others: its clock is stopped and its supply gated (R106, R107). -/
def Fenced (i cause : Nat) (u : State) : Prop :=
  islandState u i = 2 ∧ (causesOf u i).testBit cause = true ∧ u.rdF (Reg.CPH_ISL_STATUS i) 16 12 = 0 ∧
  u.rd (Reg.CPH_ISL_MV i) = 0

/-- A port that receives carries frames of span `n`, which runs in a mode (R338, R342). -/
def Receives (s : State) (p n : Nat) (m : SpanMode) : Prop :=
  portSpan s p = some n ∧ portReceives s p = true ∧ runMode s n = m

/-- The state in which a frame on a port of span `n` is classified: it is counted on its port, whose raw conditions are
those of its arrival (R338, R348). -/
def received (n p : Nat) (frame : Bytes) (e : RxEnd) (s : State) : State :=
  countReceived p frame e (tailIn p (arrivalRaw n p e s.fresh))

/-- No frame has entered or left the queues: at most the port's note of the frame arriving there has changed. -/
def NothingQueued (s u : State) : Prop := u.sch = { s.sch with arriving := u.sch.arriving }

/-- A frame held whole in the open direction whose verdict is due: not ended early, every cell done, none of its span
older (R135). -/
def VerdictDue (s : State) (id : Nat) : Prop :=
  s.hasFrame id = true ∧ (s.frameAt id).stomp = none ∧ (s.frameAt id).opening = true ∧ (s.frameAt id).bypass = false ∧
  (s.frameAt id).verdict = .pending ∧ (s.frameAt id).cellsLeft = 0 ∧ oldestPending s (s.frameAt id) = true

/-- An error of the host interface is logged: it counts, and it is the first error or sets OVERFLOW (R429). Beside
the host interface nothing changes. -/
def Logged (cause : Nat) (bar2 isWrite : Bool) (addr : Nat) (s u : State) : Prop :=
  u.rd Reg.HIF_ERRCNT = min (s.rd Reg.HIF_ERRCNT + 1) 0xFFFFFFFF ∧
  (s.bit Reg.HIF_ERRINFO 31 = false → u.rd Reg.HIF_ERRADDR = addr ∧
    u.rd Reg.HIF_ERRINFO = cause + 16 * b2n bar2 + 32 * b2n isWrite + 2 ^ 31) ∧
  (s.bit Reg.HIF_ERRINFO 31 = true → u.rd Reg.HIF_ERRADDR = s.rd Reg.HIF_ERRADDR ∧
    u.bit Reg.HIF_ERRINFO 30 = true ∧ u.rdF Reg.HIF_ERRINFO 0 6 = s.rdF Reg.HIF_ERRINFO 0 6) ∧
  OnlyHost [] s u

/-- A KEYQ operation in progress has ended: its code and its completion, counted unless a reset of the interface met
it (R236, R422, R424). -/
def KqEnded (d : Desc) (code : Nat) (value : Bytes) (s u : State) : Prop :=
  u.rd Reg.HIF_KQ_LAST = (d.tag + 2 ^ 16 * d.op + 2 ^ 24 * code) % 2 ^ 32 ∧ u.hif.kqRun = none ∧ u.sec.kqWait = [] ∧
  u.bit Reg.HIF_KQ_STATUS 2 = false ∧
  (s.hif.kqMute = false → kqHead u = (kqHead s + 1) % 65536 ∧
    .dmaWrite (kqCbase s + 16 * (kqHead s % kqSize s))
      (kqRecord (kqSize s) (kqHead s) d.tag d.op code (if code = 0 then value else [])) ∈ u.out)

/-- The row of the table that a descriptor is: its operation, and for KEY_QUERY its function; `ok` is whether the
record it writes or the buffer it fills takes its bytes (R235, R239, R240). -/
def keyqRow (x : DmaData) (ok : Bool) (d : Desc) : Instr :=
  match d.op with
  | 1 => .tkAccept x ok
  | 2 => .parentLoad x
  | 3 => .parentInvalidate ok
  | 4 => .saInstall x
  | 5 => .saDerive
  | 6 => .saRetire
  | 7 => .vaultCommit ok
  | 8 => .attest x ok
  | 9 => [.keyQueryIdentity ok, .keyQueryParent, .keyQueryTransport, .keyQueryStatus].getD (d.arg0 % 4) .keyQueryStatus
  | 10 => .keeperKeyRoll x ok
  | _ => .keyqBadOpcode

/-- KEYQ runs the descriptor `b` of operation `op`, which waits for no fill and passes the common checks (R548). -/
def KqRuns (s : State) (b : Bytes) (op : Nat) : Prop :=
  coreRuns s = true ∧ s.hif.kqRun = some b ∧ s.sec.kqWait = [] ∧ (descOf b).op = op ∧ kqPrecheck s (descOf b) = 0

/-- The input buffer of a descriptor can be read (R237). -/
def InputOk (d : Desc) : Prop := d.inAddr ≠ 0 ∧ d.inAddr % 8 = 0

/-- The row of the keeper port's table that a request is, by its OPCODE; `ok` is whether the record it writes can be
written (R441, R442). -/
def keeperRow (r : Bytes) (ok : Bool) : Instr :=
  match kOp r with
  | 0x00 => .nop r
  | 0x01 => .getStatus r
  | 0x02 => .getChallenge r
  | 0x03 => .loadSeg r
  | 0x10 => .imgWrite r
  | 0x11 => .imgCommit r ok
  | 0x12 => .imgDiscard r
  | 0x20 => .zeroize r
  | 0x21 => .alarmClear r
  | 0x22 => .trigger r
  | 0x23 => .takeover r
  | 0x24 => .warmReset r
  | 0x25 => .debugLevel r
  | 0x26 => .noInvasive r ok
  | 0x30 => .enrol r ok
  | 0x31 => .release r ok
  | 0x32 => .unlock r
  | 0x33 => .retire r ok
  | _ => .keeperBadOpcode r

/-- The state in which a keeper request is checked: KDO has carried the response to the one before (R435). -/
def collected (s : State) : State := s.fresh.emit (.keeper (s.kpr.response.getD kNotReady))

/-- A request of opcode `op` that passes every check, on a port that answers, and leaves `v` to act on (R438). -/
def Accepted (r : Bytes) (op : Nat) (s v : State) : Prop :=
  railsUp s = true ∧ keeperReady s = true ∧ kFrameOk r = true ∧ kOp r = op ∧ kCheck r (collected s) = (v, 0)

/-- The response stored is of this STATUS and data, under the keeper key now in force (R436, R437). -/
def Replied (r : Bytes) (status : Nat) (data : Bytes) (u : State) : Prop :=
  let body := [0x4B#8, 0x46#8, BitVec.ofNat 8 (kOp r + 0x80)] ++ beBytes 1 (1 + data.length) ++
    exactly 8 (slice r 4 8) ++ beBytes 1 status ++ data
  u.kpr.response = some (body ++ kMac u body)

/-- A harness record of `type` on a running pair, authentic and next in order (R474). -/
def InOrder (s : State) (type : Nat) (r : Bytes) : Prop :=
  coreRuns s = true ∧ s.hrn.paired = true ∧ r.length = 64 ∧ byteAt r 0 = type ∧
  recMac s (r.take 48) = slice r 48 16 ∧ beAt r 2 6 = s.hrn.seqRx + 1

/-- A good chain message of `type` from another module (R462, R464). -/
def ChainGood (s : State) (type : Nat) (m : Bytes) : Prop :=
  railsUp s = true ∧ chainOk m = true ∧ byteAt m 0 = type ∧ ownReturn s m = false

/-! ## Registers that only show other state -/

/-- The registers that `settle` keeps in agreement with what they show. -/
def mirrors : List Nat :=
  [Reg.KPR_STATUS, Reg.PWR_STATUS, Reg.KEY_STATUS, Reg.DBG_STATUS, Reg.GLB_UNIT, Reg.CPH_HEALTH, Reg.CPH_CAP,
   Reg.CLK_STATUS, Reg.CLK_OBS_STATUS]

/-- Lifecycle, debug level, power state, vault and enrolment bits, as registers show them (R442, R456, R262,
R455, R406). -/
def StatusShown (s : State) : Prop :=
  s.rdF Reg.KPR_STATUS 0 2 = lifecycleCode s.lifecycle ∧
  s.rdF Reg.KPR_STATUS 2 2 = debugCode s.kpr.debug ∧
  s.rdF Reg.KPR_STATUS 4 3 = powerCode s ∧
  s.bit Reg.KPR_STATUS 8 = s.key.noInvasive ∧
  s.bit Reg.KPR_STATUS 9 = s.kpr.lockout ∧
  s.rdF Reg.PWR_STATUS 0 3 = powerCode s ∧
  s.bit Reg.KEY_STATUS 3 = s.key.vaultOpen ∧
  s.bit Reg.KEY_STATUS 4 = (s.key.record.isSome && s.key.fuse != .blank) ∧
  s.rdF Reg.DBG_STATUS 0 2 = debugCode s.kpr.debug ∧
  s.bit Reg.DBG_STATUS 3 = s.dbg.running ∧
  s.rd Reg.GLB_UNIT = s.unit % 2 ^ 32

/-- Islands by state and the capacity they give, as registers show them (R98, R109, R507). -/
def HealthShown (s : State) : Prop :=
  s.rdF Reg.CPH_HEALTH 0 8 = healthyCount s ∧
  s.rdF Reg.CPH_HEALTH 8 8 = (islandsIn s 0).length ∧
  s.rdF Reg.CPH_HEALTH 16 8 = (islandsIn s 1).length ∧
  s.rdF Reg.CPH_HEALTH 24 8 = (islandsIn s 2).length ∧
  s.rdF Reg.CPH_CAP 0 16 = capLimit s ∧
  s.rdF Reg.CPH_CAP 16 16 = (if alignedPlan s then 800 else 1000) ∧
  s.bit Reg.CLK_STATUS 4 = alignedPlan s

/-- The invariant of every step. -/
def Mirrored (s : State) : Prop := StatusShown s ∧ HealthShown s

end Sys2Proof.Machine
end

