-- ==== Sys2Proof/Certificates/Slice0/Obligations.lean ====
section
/-! DEFINITION. The statements for the provers, by chapter of the manual. -/

open Sys2Proof Sys2Proof.Machine

/-! ## The block as a whole -/

/-- A step takes the command at the front of the queue and answers what that command answers on the state with the
rest of the queue. -/
def Obligations.StepRunsTheFrontCommand : Prop :=
  ∀ (s : State) (c : Instr) (rest : List Instr),
    step { s with pending := c :: rest } = exec c { s with pending := rest }

/-- With no command waiting, one period of the 156.25 MHz reference passes while the clocks run, and nothing happens
while they do not (the model's choice, log entry 30). -/
def Obligations.StepWithNothingWaitingIsOneTick : Prop :=
  ∀ s : State, s.pending = [] →
    ((railsUp s || s.pwr.thermal) = true →
      step s = .next { settle (tick s.fresh) with pending := [] } ∧ (tick s.fresh).refTick = s.refTick + 1) ∧
    ((railsUp s || s.pwr.thermal) = false → step s = .next s.fresh)

/-- Every command of the table answers a next state and leaves the queue as it was: none stops the module. With the
rails off, or with the core held in reset, one that needs the core has no effect and no output; with the rails off, a
keeper request and a chain message have none either. While nothing waits, what settles after a command changes only
the registers that show other state (R456, R516, R517). -/
def Obligations.EveryCommandAnswersAndKeepsTheQueue : Prop :=
  (∀ (i : Instr) (s : State),
    (∃ t, exec i s = .next t ∧ t.pending = s.pending) ∧
    (needsCore i = true → coreRuns s = false → exec i s = .next s.fresh) ∧
    (((keeperRequestOf i).isSome = true ∨ ofChain i = true) → railsUp s = false → exec i s = .next s.fresh)) ∧
  ∀ s : State, Quiet s → RegsBut mirrors s (settle s) ∧ settle s = { s with regs := (settle s).regs }

/-- Whatever a step does, the registers that show the lifecycle, the debug level, the power state, the vault, the
islands and the capacity still agree with what they show. -/
def Obligations.StepKeepsTheShownState : Prop :=
  ∀ s t : State, Mirrored s → step s = .next t → Mirrored t

/-- Right after reset: a Blank module with no Pattern, start-up finished, both host queues disabled with every pointer
at 0, every island running at 1,000 MHz, nothing logged, no command waiting; the registers that show other state agree
with it (R404, R433, R519). The state after reset, of a module from the factory with start-up finished, is the model's
choice (log entry 2). -/
def Obligations.ResetState : Prop :=
  Mirrored State.reset ∧
  State.reset.lifecycle = .blank ∧ State.reset.pat.active = none ∧
  State.reset.rdF Reg.PWR_STATUS 8 4 = 9 ∧
  State.reset.bit Reg.HIF_KQ_CTRL 0 = false ∧ State.reset.bit Reg.HIF_EQ_CTRL 0 = false ∧
  State.reset.rdF Reg.HIF_KQ_STATUS 16 16 = 0 ∧ State.reset.rd Reg.HIF_EQ_TAIL = 0 ∧
  State.reset.rd Reg.HIF_ERRINFO = 0 ∧ (islandsIn State.reset 0).length = 24 ∧
  (∀ i < 24, State.reset.rdF (Reg.CPH_ISL_STATUS i) 16 12 = 1000) ∧ State.reset.pending = []

/-! ## The host interface -/

/-- A write of a register that has no rule of its own acts on each of its fields by access type, stores the result and
changes nothing else. RW and RWS fields take a legal value and ignore a reserved one, W1C bits written 1 clear, W1S
bits written 1 set, and RO, WO, RWL and RC fields are not stored to; bits outside the field never change (R7, R12). -/
def Obligations.RegisterWriteActsByAccessType : Prop :=
  (∀ (s : State) (a : Addr) (v : Word), Served s a.toNat → a.toNat % 4 = 0 → plainReg a.toNat = true →
    Answers (.registerWrite a v) s (fun u =>
      u.rd a.toNat = (regFields a.toNat).foldl (fieldWrite v.toNat) (s.rd a.toNat) % 2 ^ 32 ∧
      OnlyRegs [a.toNat] s u)) ∧
  ∀ (v old : Nat) (f : RegField), let x := field v f.lsb f.width; let w := fieldWrite v old f;
    ((f.acc = .rw ∨ f.acc = .rws) → f.legal.ok x = true → field w f.lsb f.width = x) ∧
    ((f.acc = .rw ∨ f.acc = .rws) → f.legal.ok x = false → w = old) ∧
    (f.acc = .w1c → ∀ n < f.width, w.testBit (f.lsb + n) = (old.testBit (f.lsb + n) && !v.testBit (f.lsb + n))) ∧
    (f.acc = .w1s → ∀ n < f.width, w.testBit (f.lsb + n) = (old.testBit (f.lsb + n) || v.testBit (f.lsb + n))) ∧
    ((f.acc = .ro ∨ f.acc = .wo ∨ f.acc = .rwl ∨ f.acc = .rc) → w = old) ∧
    (∀ n, n < f.lsb ∨ f.lsb + f.width ≤ n → w.testBit n = old.testBit n)

/-- An access of a size or alignment that its region does not accept, and an access to a gated block, are logged with
their causes and change nothing else; a read answers Completer Abort. A request outside the BARs answers Unsupported
Request and changes nothing (R405, R408, R411, R429). -/
def Obligations.RefusedAccessesAreLogged : Prop :=
  ∀ (s : State) (bar2 isWrite : Bool) (a : Addr) (v : Word), Served2 s →
    (∀ n, sizeOk bar2 a.toNat n = false → a.toNat < barEnd bar2 →
      Answers (.badSizeAccess bar2 a n isWrite) s (fun u =>
        Logged (if isWrite then 3 else 4) bar2 isWrite a.toNat s u ∧
        (isWrite = false → .completerAbort ∈ u.out))) ∧
    (gatedAt s a.toNat = true →
      Answers (.gatedAccess a isWrite v) s (fun u =>
        Logged (if isWrite then 1 else 2) false isWrite a.toNat s u ∧
        (isWrite = false → .completerAbort ∈ u.out))) ∧
    (∀ r n, Answers (.unsupportedRequest r n) s (fun u => u = s.fresh.emit .unsupportedRequest))

/-- A write to the keeper mirror changes no keeper register but the alarm of R449: it is counted, its offset is
recorded, vector 4 is raised and alarm bit 9 is set. A locked register keeps its RWL fields whatever is written, and
the violation is recorded; an unlocked one takes the value, and LOCK = 1 locks it (R415, R416, R449, R546). -/
def Obligations.ProtectedRegistersKeepTheirValues : Prop :=
  ∀ (s : State) (a : Addr) (v : Word), Served s a.toNat →
    (0x300000 ≤ a.toNat → a.toNat < 0x340000 →
      Answers (.kprWrite a v) s (fun u =>
        u.rd Reg.HIF_KPR_WRITES = min (s.rd Reg.HIF_KPR_WRITES + 1) 0xFFFFFFFF ∧
        u.rd Reg.HIF_KPR_ADDR = a.toNat ∧
        (.msix 4 ∈ u.out ∨ u.bit (Reg.IRQ_PBA 0) 4 = true) ∧
        u.bit Reg.KPR_ALARM 9 = true ∧
        CoreRegsBut [Reg.KPR_ALARM] s u ∧
        u = { s with regs := u.regs, hif := u.hif, chn := u.chn, out := u.out })) ∧
    ((a.toNat = Reg.PMC_USER_EN ∨ a.toNat = Reg.PAT_BOOT) → s.bit a.toNat 31 = true →
      Answers (.rwlRegisterWrite a v) s (fun u =>
        u.rd a.toNat = s.rd a.toNat ∧ u.rd Reg.HIF_LOCK_ADDR = a.toNat ∧ u.bit Reg.HIF_LOCK_STATUS 0 = true ∧
        u.rd Reg.HIF_LOCK_VCNT = min (s.rd Reg.HIF_LOCK_VCNT + 1) 0xFFFFFFFF ∧ OnlyHost [] s u)) ∧
    ((a.toNat = Reg.PMC_USER_EN ∨ a.toNat = Reg.PAT_BOOT) → s.bit a.toNat 31 = false →
      Answers (.rwlRegisterWrite a v) s (fun u =>
        (a.toNat = Reg.PMC_USER_EN → u.rdF a.toNat 0 16 = field v.toNat 0 16 ∧ OnlyRegs [a.toNat] s u) ∧
        (a.toNat = Reg.PAT_BOOT → u.bit a.toNat 0 = v.toNat.testBit 0 ∧ RegsBut [a.toNat] s u ∧
          u = { s with regs := u.regs, key := u.key, out := u.out } ∧
          (s.key.vaultOpen = true → vaultQuiet s = false → u.key.vault.boot = field v.toNat 0 1)) ∧
        u.bit a.toNat 31 = v.toNat.testBit 31))

/-- A read of a register with RC fields returns the register and clears those fields and nothing else; beside that
only the programmable counters that count host reads can move (R7, R486). -/
def Obligations.ClearingReadReturnsThenClears : Prop :=
  ∀ (s : State) (a : Addr), Served s a.toNat → hasAcc a.toNat .rc = true →
    Answers (.counterClearingRead a) s (fun u => ∃ w, u = pmcCount 0x0D00 0xFF 1 w ∧
      w.out = [.readData [word (s.rd a.toNat)]] ∧
      (∀ n, (w.rd a.toNat).testBit n = ((s.rd a.toNat).testBit n &&
        !(regFields a.toNat).any (fun f => f.acc == .rc && decide (f.lsb ≤ n) && decide (n < f.lsb + f.width)))) ∧
      OnlyRegs [a.toNat] s w)

/-- A read of the lower half of a 64-bit counter returns it and copies the upper half into the holding register; a
read of the upper half within 1 µs of that returns the copy. A read of an even programmable counter copies its odd
partner, on BAR0 into PMC_HOLD, on an observe page into the page's own register (R150, R489, R490). -/
def Obligations.PairedReadsHoldTheOtherHalf : Prop :=
  ∀ s : State,
    (∀ (a : Addr) (h : Nat), holdFor a.toNat = some h → Served s a.toNat →
      (a.toNat % 8 = 0 →
        Answers (.holdingLowerRead a) s (fun u => ∃ w, u = pmcCount 0x0D00 0xFF 1 w ∧
          w.out = [.readData [word (s.rd a.toNat)]] ∧ w.rd h = s.rd (a.toNat + 4) ∧ RegsBut [h] s w ∧
          Tbl.get (fun _ => 0) w.hif.lastLow h = s.refTick + 1)) ∧
      (a.toNat % 8 ≠ 0 → 0 < Tbl.get (fun _ => 0) s.hif.lastLow h →
        s.refTick + 1 ≤ Tbl.get (fun _ => 0) s.hif.lastLow h + 156 →
        Answers (.holdingLowerRead a) s (fun u =>
          u = pmcCount 0x0D00 0xFF 1 (s.fresh.emit (.readData [word (s.rd h)]))))) ∧
    (∀ n : Fin 512, n.val % 2 = 0 →
      (Served s (Reg.PMC_CNT n.val) →
        Answers (.pmcEvenRead n false) s (fun u => ∃ w, u = pmcCount 0x0D00 0xFF 1 w ∧
          w.out = [.readData [word (s.rd (Reg.PMC_CNT n.val))]] ∧
          w.rd (Reg.PMC_HOLD (n.val / 32)) = s.rd (Reg.PMC_CNT (n.val + 1)) ∧
          Tbl.get (fun _ => 0) w.pmc.mark (n.val / 32) = n.val + 1 ∧ RegsBut [Reg.PMC_HOLD (n.val / 32)] s w)) ∧
      (Served2 s → s.bit Reg.PMC_USER_EN (n.val / 32) = true → s.bit Reg.CLK_ON 0 = true →
        Answers (.pmcEvenRead n true) s (fun u =>
          u.out = [.readData [word (s.rd (Reg.PMC_CNT n.val))]] ∧
          Tbl.get (fun _ => 0) u.pmc.obsHold (n.val / 32) = s.rd (Reg.PMC_CNT (n.val + 1)) ∧
          Tbl.get (fun _ => 0) u.pmc.obsMark (n.val / 32) = n.val + 1 ∧ RegsBut [] s u)))

/-- A write of a bit word acts on one bit, as its type gives. Of a register without a rule of its own it gives an RW or
RWS bit the value written where the field may hold it, clears a W1C bit written 1, and changes no other bit and nothing
else. The LOCK bit of PAT_BOOT written 1 is set. Of a register with a rule of its own it is the write of the word that holds that bit so
and every other as it stands. A bit of type RO, RC or WO, or of no field, takes none, and neither does a W1C or W1S bit
written 0 (R413). -/
def Obligations.BitWordWriteActsOnOneBit : Prop :=
  ∀ (s : State) (a : Addr) (v : Word), 0x800000 ≤ a.toNat → a.toNat < 0x1000000 →
    let r := (aliasTarget a.toNat).1; let n := (aliasTarget a.toNat).2; let b := v.toNat.testBit 0
    let only := fun (c : Bool) => Answers (.aliasWrite a v) s (fun u =>
      u.bit r n = c ∧ (∀ m, m ≠ n → u.bit r m = s.bit r m) ∧ OnlyRegs [r] s u)
    Served s r →
    (∀ f, fieldOf r n = some f → plainReg r = true →
      ((f.acc = .rw ∨ f.acc = .rws) →
        f.legal.ok (field (putBit (s.rd r) n b) f.lsb f.width) = true → only b) ∧
      (f.acc = .w1c → b = true → only false)) ∧
    (∀ f, fieldOf r n = some f →
      (f.acc = .rw ∨ f.acc = .rws ∨ f.acc = .rwl ∨
        ((f.acc = .w1c ∨ (f.acc = .w1s ∧ r ≠ Reg.PAT_BOOT)) ∧ b = true)) →
      Answers (.aliasWrite a v) s (fun u => u = writeRegister r (aliasWord r n b s) s.fresh)) ∧
    (r = Reg.PAT_BOOT → n = 31 → b = true → only true) ∧
    (∀ f, fieldOf r n = some f →
      (f.acc = .ro ∨ f.acc = .rc ∨ f.acc = .wo ∨ ((f.acc = .w1c ∨ f.acc = .w1s) ∧ b = false)) →
      Answers (.aliasWrite a v) s (fun u => u = s.fresh)) ∧
    (fieldOf r n = none → Answers (.aliasWrite a v) s (fun u => u = s.fresh))

/-- PERST#, a Function Level Reset and an exit from D3hot leave the MSI-X table, the Pending Bit Array and the HIF
registers at their reset values but for HIF_KQ_LAST, HIF_FW_RESTARTS and the status of what they do not reset, with
both queues disabled, the bucket locks released and a staged Pattern abandoned unless a cut in progress has it. Keys,
frames, queues, time and every other block stay. In D3hot the function holds everything. A firmware restart, by the
watchdog too, takes FW_READY away, disables both queues and abandons a staged Pattern in the same way; traffic, keys and
time stay. Its end starts the preferred bank, or the other where that one is not valid, gives FW_READY back, counts the
restart and logs it; with neither valid the module stays in firmware recovery (R27, R31, R67, R405, R430, R432, R515).
Engine work that waited for a bucket lock runs on the release: what it changes is not said here. -/
def Obligations.InterfaceAndFirmwareResetsKeepTheCore : Prop :=
  ∀ s : State, coreRuns s = true →
    let abandoned := fun (u : State) => (s.pat.cut = none → u.pat.staged = none ∧ u.pat.staging = none) ∧
      (s.pat.cut ≠ none → u.pat = s.pat) ∧ u.cls.locks = []
    let reset := fun (u : State) =>
      u.hif.d3hot = false ∧ u.hif.kqAccepted = 0 ∧ u.hif.eqConsumed = 0 ∧
      (s.cls.jobs = [] → u.hif.kqRun = s.hif.kqRun ∧
        (∀ a, interfaceReg a = true → a ≠ Reg.HIF_KQ_STATUS → u.rd a = regReset a % 2 ^ 32) ∧
        (∀ a, interfaceReg a = false → a ∉ stagedRegs → u.rd a = s.rd a) ∧
        u.rdF Reg.HIF_KQ_STATUS 16 16 = 0 ∧ u.bit Reg.HIF_KQ_STATUS 0 = false ∧ abandoned u ∧
        u = { s with regs := u.regs, act := u.act, hif := u.hif, cls := u.cls, pat := u.pat, out := u.out })
    let restart := fun (u : State) =>
      u.pwr.fwRestarting = true ∧
      (s.cls.jobs = [] → u.pwr = { s.pwr with fwRestarting := true } ∧ u.hif.kqRun = s.hif.kqRun ∧
        fwIsReady u = false ∧ u.bit Reg.HIF_KQ_CTRL 0 = false ∧ u.bit Reg.HIF_EQ_CTRL 0 = false ∧
        (∀ a, hostIfReg a = false → a ∉ stagedRegs → u.rd a = s.rd a) ∧
        u.rd Reg.HIF_KQ_LAST = s.rd Reg.HIF_KQ_LAST ∧ abandoned u ∧
        u = { s with regs := u.regs, hif := u.hif, cls := u.cls, pat := u.pat, pwr := u.pwr, out := u.out })
    let p := s.rdF Reg.PWR_FW_STATUS 7 1
    let starts := fun (b : Nat) => Answers .fwReady s (fun u =>
      fwIsReady u = true ∧ u.rd Reg.HIF_FW_RESTARTS = (s.rd Reg.HIF_FW_RESTARTS + 1) % 2 ^ 32 ∧
      u.rd Reg.HIF_ERRCNT = min (s.rd Reg.HIF_ERRCNT + 1) 0xFFFFFFFF ∧
      u.rd Reg.GLB_FWVER = bankVersion s b % 2 ^ 32 ∧ u.rdF Reg.PWR_FW_STATUS 6 1 = b ∧
      u.hif.fwReadyOwed = !s.bit Reg.HIF_EQ_CTRL 0 ∧
      u.pwr = { s.pwr with fwRestarting := false, fwRecovery := false } ∧
      (.msix 0 ∈ u.out ∨ u.bit (Reg.IRQ_PBA 0) 0 = true) ∧
      CoreRegsBut [Reg.GLB_FWVER, Reg.PWR_FW_STATUS] s u ∧
      u = { s with regs := u.regs, hif := u.hif, pwr := u.pwr, rng := s.rng + 1, out := u.out })
    Answers .perst s reset ∧ Answers .functionLevelReset s reset ∧
    (s.hif.d3hot = true → Answers .d3hotExit s reset) ∧
    (s.hif.d3hot = false → Answers .d3hotExit s (fun u => u = s.fresh)) ∧
    Answers .d3hotEntry s (fun u => u = { s.fresh with hif := { s.hif with d3hot := true } }) ∧
    (s.pwr.fwRestarting = false → Answers .firmwareRestart s restart ∧ Answers .watchdogExpire s restart) ∧
    (s.pwr.fwRestarting = true →
      Answers .firmwareRestart s (fun u => u = s.fresh) ∧ Answers .watchdogExpire s (fun u => u = s.fresh) ∧
      (bankValid s p = true → starts p) ∧
      (bankValid s p = false → bankValid s (1 - p) = true → starts (1 - p)) ∧
      (bankValid s p = false → bankValid s (1 - p) = false → Answers .fwReady s (fun u =>
        u.pwr = { s.pwr with fwRestarting := false, fwRecovery := true } ∧ u.rd Reg.GLB_FWVER = 0 ∧
        OnlyRegs [Reg.GLB_FWVER] { s with pwr := u.pwr } u))) ∧
    (s.pwr.fwRestarting = false → Answers .fwReady s (fun u => u = s.fresh))

/-- A doorbell that passes neither the ring nor what was written is accepted and changes nothing else; any other is
refused: it sets DB_ERR and is logged. While its queue is disabled or the firmware is away, a doorbell is ignored
(R421, R423, R425, R430). -/
def Obligations.DoorbellsMoveWithinTheRing : Prop :=
  ∀ (s : State) (v : BitVec 16) (w : Word), Served2 s →
    let fits := (v.toNat + 65536 - s.hif.kqAccepted) % 65536 ≤ (kqHead s + kqSize s + 65536 - s.hif.kqAccepted) % 65536
    let behind := (w.toNat + 2 ^ 32 - s.hif.eqConsumed) % 2 ^ 32 ≤
      (s.rd Reg.HIF_EQ_TAIL + 2 ^ 32 - s.hif.eqConsumed) % 2 ^ 32;
    (s.bit Reg.HIF_KQ_CTRL 0 = true → fwIsReady s = true →
      (fits → Answers (.keyqDoorbell v) s (fun u => u = { s.fresh with hif := { s.hif with kqAccepted := v.toNat } })) ∧
      (¬fits → Answers (.keyqDoorbell v) s (fun u => u.hif.kqAccepted = s.hif.kqAccepted ∧
        u.bit Reg.HIF_KQ_STATUS 1 = true ∧ Logged 6 true true 0 s u))) ∧
    (s.bit Reg.HIF_EQ_CTRL 0 = true → fwIsReady s = true →
      (behind → Answers (.evqDoorbell w) s (fun u => u.hif = { s.hif with eqConsumed := w.toNat } ∧
        OnlyHost [] s u ∧ u.rd Reg.HIF_EQ_TAIL = s.rd Reg.HIF_EQ_TAIL)) ∧
      (¬behind → Answers (.evqDoorbell w) s (fun u => u.hif.eqConsumed = s.hif.eqConsumed ∧
        u.bit Reg.HIF_EQ_STATUS 2 = true ∧ Logged 6 true true 4 s u))) ∧
    ((s.bit Reg.HIF_KQ_CTRL 0 = false ∨ fwIsReady s = false) →
      Answers (.keyqDoorbell v) s (fun u => u = s.fresh)) ∧
    ((s.bit Reg.HIF_EQ_CTRL 0 = false ∨ fwIsReady s = false) →
      Answers (.evqDoorbell w) s (fun u => u = s.fresh))

/-- Setting EN of a queue starts its counts at 0 with the SIZE written, if legal, and EVQ with the FW_READY record
that is owed; clearing EN stops it at once, or KEYQ at the end of the operation that runs (R423, R425, R430). That the
row named by the EN bit written acts is the model's reading (log entry 66). -/
def Obligations.QueuesStartAtZeroAndStop : Prop :=
  ∀ (s : State) (v : Word),
    (Served s Reg.HIF_KQ_CTRL → v.toNat.testBit 0 = true → s.bit Reg.HIF_KQ_CTRL 0 = false →
      Answers (.keyqEnable v) s (fun u =>
        u.bit Reg.HIF_KQ_CTRL 0 = true ∧ u.bit Reg.HIF_KQ_STATUS 0 = true ∧ kqHead u = 0 ∧ u.hif.kqAccepted = 0 ∧
        u.bit Reg.HIF_KQ_CTRL 5 = v.toNat.testBit 5 ∧
        u.rdF Reg.HIF_KQ_CTRL 1 4 = (if field v.toNat 1 4 ≤ 4 then field v.toNat 1 4 else s.rdF Reg.HIF_KQ_CTRL 1 4) ∧
        OnlyHost [] s u)) ∧
    (Served s Reg.HIF_KQ_CTRL → v.toNat.testBit 0 = false → s.bit Reg.HIF_KQ_CTRL 0 = true →
      Answers (.keyqDisable v) s (fun u =>
        u.bit Reg.HIF_KQ_CTRL 0 = false ∧ u.rdF Reg.HIF_KQ_CTRL 1 4 = s.rdF Reg.HIF_KQ_CTRL 1 4 ∧
        u.hif.kqRun = s.hif.kqRun ∧
        (s.hif.kqRun = none → u.bit Reg.HIF_KQ_STATUS 0 = false) ∧
        (s.hif.kqRun ≠ none → u.bit Reg.HIF_KQ_STATUS 0 = s.bit Reg.HIF_KQ_STATUS 0 ∧ u.hif.kqStopping = true) ∧
        OnlyHost [] s u)) ∧
    (Served s Reg.HIF_EQ_CTRL → v.toNat.testBit 0 = true → s.bit Reg.HIF_EQ_CTRL 0 = false →
      Answers (.evqEnable v) s (fun u =>
        u.bit Reg.HIF_EQ_CTRL 0 = true ∧ u.bit Reg.HIF_EQ_STATUS 0 = true ∧
        u.rd Reg.HIF_EQ_TAIL = (if s.hif.fwReadyOwed then 1 else 0) ∧ u.hif.fwReadyOwed = false ∧
        u.hif.eqConsumed = 0 ∧ u.hif.eqLostSince = 0 ∧
        u.rdF Reg.HIF_EQ_CTRL 1 4 = (if field v.toNat 1 4 ≤ 10 then field v.toNat 1 4 else s.rdF Reg.HIF_EQ_CTRL 1 4) ∧
        OnlyHost [] s u)) ∧
    (Served s Reg.HIF_EQ_CTRL → v.toNat.testBit 0 = false → s.bit Reg.HIF_EQ_CTRL 0 = true →
      Answers (.evqDisable v) s (fun u =>
        u.bit Reg.HIF_EQ_CTRL 0 = false ∧ u.bit Reg.HIF_EQ_STATUS 0 = false ∧
        u.rd Reg.HIF_EQ_TAIL = s.rd Reg.HIF_EQ_TAIL ∧ u.hif = s.hif ∧ OnlyHost [] s u))

/-- A descriptor that was read runs, and no other with it; a DMA error completes it with BAD_BUFFER and is logged. The
OVERFLOW record that is due is written first of all once two records fit. Unmasking a vector sends its pending
message; the end of a holdoff sends the vector if something was written in it; IRQ_TEST raises a vector (R236, R419 to
R421, R428, R433). -/
def Obligations.QueuesAndVectorsRun : Prop :=
  ∀ s : State, coreRuns s = true →
    (s.bit Reg.HIF_KQ_CTRL 0 = true → s.hif.kqRun = none → s.hif.kqAccepted ≠ kqHead s →
      (∀ b, Answers (.keyqDescriptorStart (.data b)) s (fun u =>
        u.hif = { s.hif with kqRun := some (exactly 64 b) } ∧ u.bit Reg.HIF_KQ_STATUS 2 = true ∧
        OnlyHost [] s u)) ∧
      Answers (.keyqDescriptorStart .error) s (fun u =>
        u.rd Reg.HIF_KQ_LAST = 3 * 2 ^ 24 ∧ u.hif.kqRun = none ∧
        (s.hif.kqMute = false → kqHead u = (kqHead s + 1) % 65536) ∧
        u.rd Reg.HIF_ERRCNT = min (s.rd Reg.HIF_ERRCNT + 1) 0xFFFFFFFF)) ∧
    (s.bit Reg.HIF_EQ_CTRL 0 = true → 0 < s.hif.eqLostSince → 2 ≤ eqRoom s →
      Answers .evqOverflowRecord s (fun u =>
        u.rd Reg.HIF_EQ_TAIL = (s.rd Reg.HIF_EQ_TAIL + 1) % 2 ^ 32 ∧ u.hif.eqLostSince = 0 ∧
        .dmaWrite (eqBase s + 32 * (s.rd Reg.HIF_EQ_TAIL % eqSize s))
          (eqRecord s (eqSize s) (s.rd Reg.HIF_EQ_TAIL) 0x0D 0 s.hif.eqLostSince 0 0 0) ∈ u.out ∧
        OnlyHost [] s u)) ∧
    (∀ v : Fin 64, Served s (Reg.IRQ_MSIX_CTRL v.val) → s.hif.msixEnable = true →
      Answers (.msixVectorUnmask v) s (fun u =>
        u.bit (Reg.IRQ_MSIX_CTRL v.val) 0 = false ∧ u.bit (Reg.IRQ_PBA (v.val / 32)) (v.val % 32) = false ∧
        (s.bit (Reg.IRQ_PBA (v.val / 32)) (v.val % 32) = true → u.out = [.msix v.val]) ∧
        (s.bit (Reg.IRQ_PBA (v.val / 32)) (v.val % 32) = false → u.out = []) ∧
        OnlyRegs [Reg.IRQ_MSIX_CTRL v.val, Reg.IRQ_PBA (v.val / 32)] s u)) ∧
    (s.hif.hold1 = true → s.hif.dirty1 = true → s.bit Reg.HIF_EQ_CTRL 5 = true →
      Answers (.interruptHoldoffExpire false) s (fun u =>
        u.hif.dirty1 = false ∧ u.hif.hold1 = (s.rd Reg.HIF_EQ_HOLDOFF != 0) ∧
        (.msix 1 ∈ u.out ∨ u.bit (Reg.IRQ_PBA 0) 1 = true) ∧ OnlyHost [] s u)) ∧
    (s.hif.hold2 = true → s.hif.dirty2 = true → s.bit Reg.HIF_KQ_CTRL 5 = true →
      Answers (.interruptHoldoffExpire true) s (fun u =>
        u.hif.dirty2 = false ∧ u.hif.hold2 = (s.rd Reg.HIF_KQ_HOLDOFF != 0) ∧
        (.msix 2 ∈ u.out ∨ u.bit (Reg.IRQ_PBA 0) 2 = true) ∧ OnlyHost [] s u)) ∧
    (∀ v : Word, Served s Reg.IRQ_TEST → v.toNat.testBit 31 = true → field v.toNat 0 6 < 40 →
      field v.toNat 0 6 ≠ 1 → field v.toNat 0 6 ≠ 2 →
      Answers (.irqTest v) s (fun u =>
        (.msix (field v.toNat 0 6) ∈ u.out ∨
          u.bit (Reg.IRQ_PBA (field v.toNat 0 6 / 32)) (field v.toNat 0 6 % 32) = true) ∧ OnlyHost [] s u))

/-! ## Patterns -/

/-- STAGE_WINDOW with legal arguments starts the fetch of the container, STAGE_SLOT_A and B the read of a vault slot;
what was staged is gone and the block is busy. A container that passes every check is then staged with RESULT 0, one
that fails leaves nothing staged and its code (R63 to R67). When PAT_REJ_INFO is written is the model's reading (log
entry 26). -/
def Obligations.StagingStartsAndEnds : Prop :=
  ∀ s : State,
    (PatFree s → s.pat.cut = none → 128 ≤ s.rd Reg.PAT_WIN_LEN → s.rd Reg.PAT_WIN_LEN ≤ 1048576 → s.rd Reg.PAT_WIN_LO % 64 = 0 →
      Answers .stageWindow s (fun u => u.pat.staging = some 1 ∧ u.pat.staged = none ∧
        u.rdF Reg.PAT_STATUS 0 3 = 1 ∧ u.bit Reg.PAT_STATUS 3 = true ∧
        u.out = [.dmaRead (s.rd Reg.PAT_WIN_LO + 2 ^ 32 * s.rd Reg.PAT_WIN_HI) (s.rd Reg.PAT_WIN_LEN)] ∧
        u = { s with regs := u.regs, pat := u.pat, out := u.out })) ∧
    (PatFree s → s.pat.cut = none →
      Answers .stageSlotA s (fun u => u.pat.staging = some 2 ∧ u.pat.staged = none ∧ u.rdF Reg.PAT_STATUS 0 3 = 1 ∧
        u = { s.fresh with regs := u.regs, pat := u.pat }) ∧
      Answers .stageSlotB s (fun u => u.pat.staging = some 3 ∧ u.pat.staged = none ∧ u.rdF Reg.PAT_STATUS 0 3 = 1 ∧
        u = { s.fresh with regs := u.regs, pat := u.pat })) ∧
    (∀ (k : Nat) (c b : Bytes) (intact : Bool) (v : Nat × Loc) (p : Option Pattern), coreRuns s = true →
      s.pat.staging = some k →
      ((k = 1 ∧ b = exactly s.pat.stagingLen c) ∨ (k ≠ 1 ∧ slotRead (k - 2) intact s = (0, b))) →
      judge { s.fresh with pat := { s.pat with staging := none } } b s.pat.scratchBad = (v, p) →
      Answers (.stagingComplete c none intact) s (fun u =>
        u.pat.staging = none ∧ u.pat.staged = (if p.isSome then p else s.pat.staged) ∧
        PatEnded (v.1 % 256) (Reg.PAT_REJ_INFO :: Reg.PAT_DIFF :: Reg.PAT_DIFF_SECT ::
          (List.range 12).map Reg.PAT_STG_DIG) s u ∧
        u.rd Reg.PAT_REJ_INFO = (v.2.1 + 2 ^ 8 * v.2.2) % 2 ^ 32 ∧ u.key = s.key)) ∧
    (∀ (k code : Nat) (c b : Bytes) (intact : Bool), coreRuns s = true → s.pat.staging = some k → k ≠ 1 →
      slotRead (k - 2) intact s = (code, b) → code ≠ 0 → code < 256 →
      Answers (.stagingComplete c none intact) s (fun u =>
        u.pat.staging = none ∧ u.pat.staged = s.pat.staged ∧ u.rdF Reg.PAT_STATUS 8 8 = code ∧
        u.rd Reg.PAT_REJ_INFO = 0 ∧ u.key = s.key ∧
        u.rd Reg.KEY_VAULT_FAULTS = (if code = 0x53 ∧ s.key.vaultOpen = true
          then min (s.rd Reg.KEY_VAULT_FAULTS + 1) 0xFFFFFFFF else s.rd Reg.KEY_VAULT_FAULTS))) ∧
    (coreRuns s = true → s.pat.staging = some 1 → ∀ (c : Bytes) (o : Nat) (intact : Bool),
      Answers (.stagingComplete c (some o) intact) s (fun u =>
        u.pat.staging = none ∧ u.pat.staged = s.pat.staged ∧ PatEnded 9 [Reg.PAT_REJ_INFO] s u ∧
        u.rd Reg.HIF_ERRCNT = min (s.rd Reg.HIF_ERRCNT + 1) 0xFFFFFFFF))

/-- DISCARD leaves nothing staged. STORE starts the write of the active Pattern to a slot, which holds it once the
write verifies and keeps what it held where it does not. RAISE_FLOOR takes the active Pattern's SERIAL as the floor,
ERASE empties a slot. OP 0 and the reserved values do nothing. While BUSY, or with the firmware away, every write of OP
is ignored and OP_IGNORED set (R12, R65, R66, R68, R430). That PAT_REJ_INFO stays is the model's
reading (log entry 26). -/
def Obligations.PatternSlotsAndFloor : Prop :=
  ∀ (s : State) (a : Pattern),
    (PatFree s → s.pat.cut = none → Answers .discard s (fun u => u.pat.staged = none ∧ u.pat.active = s.pat.active ∧
      PatEnded 0 (Reg.PAT_DIFF :: Reg.PAT_DIFF_SECT :: (List.range 12).map Reg.PAT_STG_DIG) s u)) ∧
    (PatFree s → vaultQuiet s = false → s.key.vaultOpen = true → s.pat.active = some a →
      Answers .storeA s (fun u => u.pat = { s.pat with storing := some 0 } ∧ u.rdF Reg.PAT_STATUS 0 3 = 4 ∧
        OnlyRegs [Reg.PAT_STATUS] { s with pat := u.pat } u) ∧
      Answers .storeB s (fun u => u.pat = { s.pat with storing := some 1 } ∧ u.rdF Reg.PAT_STATUS 0 3 = 4 ∧
        OnlyRegs [Reg.PAT_STATUS] { s with pat := u.pat } u) ∧
      Answers .raiseFloor s (fun u => 
        u.key = (s.putVault .floor (fun v => { v with floor := a.serial })).key ∧
        u.rd Reg.PAT_FLOOR = a.serial % 2 ^ 32 ∧ u.pat = s.pat ∧ PatEnded 0 [Reg.PAT_FLOOR] s u) ∧
      Answers .eraseA s (fun u => 
        u.key = (s.putVault (.slot 0) (fun v => { v with slotA := .empty })).key ∧ u.pat = s.pat ∧
        PatEnded 0 [Reg.PAT_SLOT_INFO 0, Reg.PAT_SLOT_INFO 1, Reg.PAT_SLOT_SERIAL 0, Reg.PAT_SLOT_SERIAL 1] s u) ∧
      Answers .eraseB s (fun u => 
        u.key = (s.putVault (.slot 1) (fun v => { v with slotB := .empty })).key ∧ u.pat = s.pat ∧
        PatEnded 0 [Reg.PAT_SLOT_INFO 0, Reg.PAT_SLOT_INFO 1, Reg.PAT_SLOT_SERIAL 0, Reg.PAT_SLOT_SERIAL 1] s u)) ∧
    (∀ i, coreRuns s = true → s.pat.storing = some i → s.key.vaultOpen = true → s.pat.active = some a →
      Answers (.storingComplete true) s (fun u =>
        (if i = 0 then u.key.vault.slotA else u.key.vault.slotB) = .full a.container a.signed ∧
        u.pat.storing = none ∧ u.rdF Reg.PAT_STATUS 8 8 = 0) ∧
      Answers (.storingComplete false) s (fun u => u.key = s.key ∧ u.pat.storing = none ∧ PatEnded 0x53 [] s u)) ∧
    (PatFree s → Answers .patNop s (fun u => u = s.fresh) ∧
      ∀ op : BitVec 4, 0xB ≤ op.toNat → Answers (.patReservedOp op) s (fun u => u = s.fresh)) ∧
    (Served s Reg.PAT_CTRL → (s.bit Reg.PAT_STATUS 3 = true ∨ fwIsReady s = false) →
      let ignored := fun (u : State) => u.bit Reg.PAT_STATUS 4 = true ∧ u.rdF Reg.PAT_STATUS 0 4 = s.rdF Reg.PAT_STATUS 0 4 ∧
        OnlyRegs [Reg.PAT_STATUS] s u
      (∀ i ∈ [Instr.stageWindow, .stageSlotA, .stageSlotB, .apply, .discard, .storeA, .storeB, .raiseFloor, .eraseA,
        .eraseB, .patNop], Answers i s ignored) ∧
      ∀ op : BitVec 4, 0xB ≤ op.toNat → Answers (.patReservedOp op) s ignored)

/-- APPLY of a staged Pattern that passes starts the cut: STATE is CUTTING, and every span of the stopped set runs as
Discard, all of them in a full cut. Once the frames of the stopped set have left, the new Pattern is loaded, and the
cut ends with RESULT 0 (R71, R72). -/
def Obligations.ApplyCutsToTheStagedPattern : Prop :=
  ∀ (s : State) (p : Pattern),
    (PatFree s → s.pat.staged = some p → applyCode s p = (0, (0, 0)) →
      Answers .apply s (fun u =>
        let full := s.rdF Reg.PAT_APPLY 0 2 == 1 || (s.rdF Reg.PAT_APPLY 0 2 != 2 && (patDiff s.pat.active p).2.testBit 31);
        ∃ v, u = syncPorts (syncSpans (followTrunks v)) ∧
          v.pat = { s.pat with cut := some { full := full, stopped := if full then 0xFFFFFFFF else (patDiff s.pat.active p).1 } } ∧
          v.rdF Reg.PAT_STATUS 0 3 = 3 ∧ v.bit Reg.PAT_STATUS 3 = true ∧
          (∀ n < 32, (full = true ∨ (patDiff s.pat.active p).1.testBit n = true) → runMode v n = .discard) ∧
          OnlyRegs [Reg.PAT_STATUS] { s with pat := v.pat } v)) ∧
    (∀ c, coreRuns s = true → s.pat.cut = some c → c.loaded = false → s.pat.staged = some p → cutDraining s = false →
      Answers .cutDrainDone s (fun u => u.pat.cut = some { c with loaded := true } ∧
        let v := cutDrop c.stopped s.fresh;
        u = { loadPattern c.full c.stopped p v.pat.stagedSource v with pat := u.pat })) ∧
    (∀ c (us : Word), coreRuns s = true → s.pat.cut = some c → c.loaded = true →
      Answers (.cutResume us) s (fun u => u.rdF Reg.PAT_STATUS 8 8 = 0 ∧ u.rd Reg.PAT_REJ_INFO = 0 ∧
        ∃ v, u = patDone 4 0 (0, 0) (trimRecompute (syncPorts (followTrunks v))) ∧ v.pat.cut = none ∧
          v.pat.staged = none ∧ v.pat.active = s.pat.active ∧ v.rd Reg.PAT_CUT_US = us.toNat))

/-! ## The cipher fabric -/

/-- A wheel slot sends the cell it picks to the end of the input of the next island that takes dispatch, whether the
cell is audited or not; then capacity above the wheel's rate that has come to a whole cell is lent in the same way. An island completes its oldest cell: a frame then has one cell less to wait for, an audited
cell waits in the output for its other result, and an island without a cell is starved. Two results that agree release
the cell as computed (R78, R87, R90, R91, R101 to R103, R493). How the spare capacity is spaced is the model's choice
(log entry 101). -/
def Obligations.CellsPassThroughTheFabric : Prop :=
  ∀ s : State, coreRuns s = true →
    (∀ (c : Cell) (lent : Bool) (i : Nat), s.fab.wheel ≠ [] →
      slotCell s (s.fab.wheel.getD s.fab.wheelPos 32) = some (c, lent) →
      (islandsAfter s.fab.lastIsland).find? (fun i => takes s i && decide ((s.islQ i).input.length < 16)) = some i →
      Answers .cellDispatch s (fun u => ∃ v, u = spareCapacity v ∧
        (v.islQ i).input = (s.islQ i).input ++ [c] ∧ v.fab.ready = takeCell c s.fab.ready ∧
        v.fab.lastIsland = i ∧ v.fab.wheelPos = (s.fab.wheelPos + 1) % 4096 ∧ v.sch = s.sch ∧ v.sec = s.sec)) ∧
    (∀ (c : Cell) (i : Nat), 190 ≤ s.fab.spare + spareRate s → lentCell s = some c → freeIsland s = some i →
      let v := spareCapacity s
      (v.islQ i).input = (s.islQ i).input ++ [c] ∧ v.fab.ready = takeCell c s.fab.ready ∧ v.fab.lastIsland = i ∧
      v.fab.spare = (s.fab.spare + spareRate s) % 190 ∧ v.sch = s.sch ∧ v.sec = s.sec) ∧
    (∀ (i : Island) (c : Cell) (rest : List Cell) (wrong : Bool), islandState s i.val = 0 →
      (s.islQ i.val).output.length < 32 → (s.islQ i.val).input = c :: rest →
      (auditOf s i.val c = none → c.trunk = false → c.waste = false → s.hasFrame c.frame = true →
        Answers (.cellComplete i wrong) s (fun u =>
          (u.islQ i.val).input = rest ∧ (u.frameAt c.frame).cellsLeft = (s.frameAt c.frame).cellsLeft - 1 ∧
          (u.frameAt c.frame).ran = (s.frameAt c.frame).ran ++ [i.val] ∧
          (wrong = false → (u.frameAt c.frame).line = (s.frameAt c.frame).line ∧
            (u.frameAt c.frame).client = (s.frameAt c.frame).client) ∧
          (∀ id, id ≠ c.frame → u.frameAt id = s.frameAt id))) ∧
      (∀ k, auditOf s i.val c = some k →
        Answers (.cellComplete i wrong) s (fun u =>
          (u.islQ i.val).input = rest ∧ (u.islQ i.val).output = (s.islQ i.val).output ++ [c] ∧
          u.fab.audits = modifyAt s.fab.audits k (fun a =>
            if c.audit then { a with second := some (cellResult c wrong s) }
            else { a with first := some (cellResult c wrong s) }) ∧ u.sch = s.sch))) ∧
    (∀ (i : Island) (wrong : Bool), islandState s i.val = 0 → (s.islQ i.val).output.length < 32 →
      (s.islQ i.val).input = [] →
      Answers (.cellComplete i wrong) s (fun u =>
        u.rd64 (Reg.PMC_ISL i.val 4) = (s.rd64 (Reg.PMC_ISL i.val 4) + 1) % 2 ^ 64 ∧
        OnlyRegs [Reg.PMC_ISL i.val 4, Reg.PMC_ISL i.val 4 + 4] s u)) ∧
    (∀ a r, s.fab.audits.find? (fun a => a.first.isSome && a.second.isSome) = some a →
      a.first = some r → a.second = some r →
      Answers .auditCompare s (fun u =>
        u.fab.audits = s.fab.audits.filter (fun b => b != a) ∧
        ∃ v, u = syncTags (cellDone a.cell a.primary r v) ∧ v.sch = s.sch ∧ v.regs = s.regs))

/-- Every cause fences: a supply out of its range, the host's bit, a failed BIST, a failed test at unparking or of a
suspect, and the third slow clock window in a row. The island stops, its supply is gated and the cause is shown (R80,
R99, R104, R106, R107). -/
def Obligations.EveryCauseFences : Prop :=
  ∀ (s : State) (i : Island), coreRuns s = true → IslandIdle i.val s →
    (islandState s i.val ≠ 1 → islandState s i.val ≠ 2 →
      Answers (.islandSupplyFault i) s (Fenced i.val 4)) ∧
    (Served s (Reg.CPH_ISL_CTRL i.val) → islandState s i.val ≠ 2 → (causesOf s i.val).testBit 5 = false →
      Answers (.hostFence i) s (fun u => Fenced i.val 5 u ∧ u.rd (Reg.CPH_ISL_CTRL i.val) = 1)) ∧
    (islandState s i.val = 3 → s.fab.unparking.contains i.val = false →
      Answers (.islandBistDone i false) s (Fenced i.val 0)) ∧
    (islandState s i.val ≠ 2 → s.fab.unparking.contains i.val = true →
      Answers (.islandUnparkDone i false) s (Fenced i.val 2)) ∧
    (islandState s i.val ≠ 2 → s.bit (Reg.CPH_ISL_STATUS i.val) 8 = true →
      Answers (.partnerKatDone i false) s (fun u => Fenced i.val 2 u ∧ u.bit (Reg.CPH_ISL_STATUS i.val) 8 = false)) ∧
    (∀ cycles, islandState s i.val ≠ 1 → islandState s i.val ≠ 2 → alignedPlan s = false → cycles < 970 →
      2 ≤ Tbl.get (fun _ => 0) s.fab.slow i.val →
      Answers (.islandClockWindow i cycles 800) s (Fenced i.val 3))

/-- An island comes back: the last cause cleared puts it to its BIST, which passed lets it run at the plan's clock, as
does the test at unparking; a suspect that passes is none. An island chosen for parking stops once it is empty. Spans
empty of frames are shed; shed spans that fit again run again after 1 s (R79, R99, R104, R107, R111, R112). -/
def Obligations.IslandsAndSpansComeBack : Prop :=
  ∀ (s : State) (i : Island), coreRuns s = true →
    (Served s (Reg.CPH_ISL_CTRL i.val) →
      (causesOf s i.val = 32 → Answers (.hostFenceClear i) s (fun u =>
        islandState u i.val = 3 ∧ causesOf u i.val = 0 ∧ u.rd (Reg.CPH_ISL_CTRL i.val) = 0)) ∧
      ((causesOf s i.val).testBit 5 = true → causesOf s i.val ≠ 32 → Answers (.hostFenceClear i) s (fun u =>
        islandState u i.val = islandState s i.val ∧ causesOf u i.val = causesOf s i.val - 32 ∧
        OnlyRegs [Reg.CPH_ISL_CTRL i.val, Reg.CPH_ISL_STATUS i.val] s u))) ∧
    (islandState s i.val = 3 → s.fab.unparking.contains i.val = false →
      Answers (.islandBistDone i true) s (fun u => islandState u i.val = 0 ∧
        u.rdF (Reg.CPH_ISL_STATUS i.val) 16 12 = (if alignedPlan s then 800 else 1000))) ∧
    (s.fab.unparking.contains i.val = true →
      Answers (.islandUnparkDone i true) s (fun u => islandState u i.val = 0 ∧
        u.fab.unparking = s.fab.unparking.filter (· != i.val) ∧
        u.rdF (Reg.CPH_ISL_STATUS i.val) 16 12 = (if alignedPlan s then 800 else 1000))) ∧
    (s.bit (Reg.CPH_ISL_STATUS i.val) 8 = true →
      Answers (.partnerKatDone i true) s (fun u => u.bit (Reg.CPH_ISL_STATUS i.val) 8 = false ∧
        islandState u i.val = islandState s i.val)) ∧
    (∀ cycles mv, islandState s i.val = 0 → 970 ≤ cycles → cycles < 4096 → mv < 1024 →
      Answers (.islandClockWindow i cycles mv) s (fun u =>
        u.rdF (Reg.CPH_ISL_STATUS i.val) 16 12 = cycles ∧ u.rd (Reg.CPH_ISL_MV i.val) = mv ∧
        islandState u i.val = 0 ∧ Tbl.get (fun _ => 0) u.fab.slow i.val = 0)) ∧
    (s.fab.parking.contains i.val = true → islandState s i.val = 0 → s.islQ i.val = {} →
      Answers (.islandPark i) s (fun u => islandState u i.val = 1 ∧ u.rdF (Reg.CPH_ISL_STATUS i.val) 16 12 = 0 ∧
        u.rd (Reg.CPH_ISL_MV i.val) = 0 ∧ u.fab.parking = s.fab.parking.filter (· != i.val))) ∧
    (∀ n ∈ s.fab.shedding, spanEmpty s n = true →
      Answers .shedComplete s (fun u => n ∈ u.fab.shed ∧ n ∉ u.fab.shedding)) ∧
    (∀ n, n ∈ restorePlan (capLimit s) (restoreOrder s) (retainedShares s) s →
      s.fab.lastShed + tickSecond ≤ s.refTick + 1 →
      Answers .spanRestore s (fun u => n ∉ u.fab.shed))

/-! ## Frame mode -/

/-- What GCM sealed under a key and an IV, it opens under the same: the text comes back and the tag checks (R128,
R139). -/
def Obligations.GcmOpensWhatItSealed : Prop :=
  ∀ key iv aad text : Bytes, (key.length = 16 ∨ key.length = 32) → iv.length = 12 →
    gcmOpen key iv aad (gcmSeal key iv aad text).1 (gcmSeal key iv aad text).2 = (text, true)

/-- A frame of a span that runs as Discard is counted and nothing enters the module, on either side. One that
classifies to an SC with a binding and is admitted enters, sealed under that binding for the span's line port; one
with a valid SecTAG of an SC and slot of the span, a PN that is not late and a class that permits its protection
enters, opened, with its verdict to come (R72, R122, R129, R139, R142, R143). -/
def Obligations.ArrivingFramesEnterOrAreCounted : Prop :=
  ∀ (s : State) (m : Port32) (n : Nat) (frame : Bytes), coreRuns s = true → 64 ≤ frame.length →
    (∀ e, isReceived e = true → Receives s m.val n .discard → isMacControl frame = false → cutStops s n = false →
      Answers (.sealFrameArrival m frame e) s (fun u => NothingQueued s u ∧
        u.rd64 (Reg.PEN_PAGE m.val 0 + 0x80) = (s.rd64 (Reg.PEN_PAGE m.val 0 + 0x80) + 1) % 2 ^ 64)) ∧
    (∀ e, isReceived e = true → Receives s (32 + m.val) n .discard → patMode s n ≠ .trunk → cutStops s n = false →
      Answers (.openFrameArrival m frame e) s (fun u => NothingQueued s u ∧
        u.rd64 (Reg.PEN_PAGE (32 + m.val) 0 + 0x80) =
          (s.rd64 (Reg.PEN_PAGE (32 + m.val) 0 + 0x80) + 1) % 2 ^ 64)) ∧
    (∀ (i : Nat) (v x : State) (b : Binding),
      Receives s m.val n .frame → isMacControl frame = false → goodEnd frame .terminate = true →
      awaitsRise s n = false → frame.length ≤ 10240 →
      sealDecision m.val n (parseFrame (sansFcs frame)) (received n m.val frame .terminate s) = (v, some i) →
      let p := parseFrame (sansFcs frame)
      let f : Frame := { span := n, inPort := m.val, cls := classOf v n p, ptp := p.ptpEvent, client := frame,
                         rxLen := frame.length, fcsOk := true, sc := some i, outs := [spanLine v n],
                         storeForward := v.bit Reg.FRM_CTRL 0 || faster v (spanLine v n) m.val };
      (bindTx i (f.cls == 7) v).2 = some b → tryAdmit f v = (x, true) →
      let r := (bindTx i (f.cls == 7) x).1;
      Answers (.sealFrameArrival m frame .terminate) s (fun u => ∃ g,
        u = learnSeal n m.val p (enterFrame (freeTag r) g r) ∧ g.pn = b.pn ∧ g.sa = some b.sa ∧
        g.outs = [spanLine v n] ∧ g.client = frame ∧ g.cellsLeft = cellsOf frame.length ∧ g.stomp = none ∧
        (g.line, g.icv) =
          let q := sealBytes (r.scAt false i) (v.saAt b.sa) b (!(classCfg r f.cls).integrityOnly) p.tags f;
          (q.line, q.icv))) ∧
    (∀ (g : SecTag) (i slot : Nat),
      Receives s (32 + m.val) n .frame → awaitsRise s n = false → frame.length ≤ 10272 → findSecTag frame = some g →
      tagValid g frame.length = true →
      let v := received n (32 + m.val) frame .terminate s;
      findRxSc v n (lookupSci g frame) = some i →
      let e := v.scAt true i;
      g.tags ≤ field (scWord e 0) 5 2 → (2 ≤ scCipher e ∨ g.pn ≠ 0) → slotOfAn v e g.an = some slot →
      let a := v.saAt (scSa e slot);
      lowestPn e a.pn ≤ recoverPn a.cipher g.pn (lowestPn e a.pn) →
      (g.e = true ∨ ∀ c, (classCfg v c).integrityOnly = true) →
      Answers (.openFrameArrival m frame .terminate) s (fun u =>
        ∃ h w, NothingQueued s w ∧
          (let y := pmcCount 0x0300 n 1 (tryAdmit h w).1;
           u = if (tryAdmit h w).2 then enterFrame (freeTag y) h y else (tryAdmit h w).1) ∧
          h.span = n ∧ h.opening = true ∧ h.verdict = .pending ∧ h.sc = some i ∧ h.slot = slot ∧
          h.pn = recoverPn a.cipher g.pn (lowestPn e a.pn) ∧ h.gen = a.gen ∧ h.sa = some (scSa e slot) ∧ h.cellsLeft = cellsOf h.client.length ∧
          h.icv = slice frame (g.at_ + g.len + secureLen g frame.length) 16))

/-- A right ICV of a frame that is not late passes it, and the lowest acceptable PN moves past it. A wrong one
discards a frame whose head has not left, counts it and records it as the last failure (R134, R135, R142, R146). -/
def Obligations.VerdictPassesOrDiscards : Prop :=
  ∀ (s : State) (tag : Fin 16384) (i : Nat), coreRuns s = true → VerdictDue s tag.val →
    let f := s.frameAt tag.val
    let e := s.scAt true i;
    f.sc = some i → f.sa = some (scSa e f.slot) →
    (f.icvOk = true → (s.saAt (scSa e f.slot)).gen = f.gen → lowestPn e (s.saAt (scSa e f.slot)).pn ≤ f.pn →
      f.outs ≠ [] → (s.saAt (scSa e f.slot)).state = .current →
      Answers (.icvVerdict tag) s (fun u => (u.frameAt tag.val).verdict = .good ∧ u.hasFrame tag.val = true ∧
        (u.saAt (scSa e f.slot)).pn = max (s.saAt (scSa e f.slot)).pn (f.pn + 1))) ∧
    (f.icvOk = false → f.heads = [] →
      Answers (.icvVerdict tag) s (fun u => u.hasFrame tag.val = false ∧
        u.rd Reg.FRM_ICVFAILS = min (s.rd Reg.FRM_ICVFAILS + 1) 0xFFFFFFFF ∧
        u.rd Reg.FRM_LAST_FAIL = (f.span + 2 ^ 5 + 2 ^ 8 * 8 + 2 ^ 31) % 2 ^ 32 ∧
        u.rd Reg.FRM_LAST_SC = i % 2 ^ 32))

/-- A decision on an idle port starts the head of the class chosen; its tail leaves with the bytes it was committed
with, and the port is idle. An early end discards a frame whose head has not left and stomps one whose head has. A
PAUSE frame on a client port that obeys flow control pauses every class, or ends the pause, a PFC frame those it names
(R95, R146, R299, R300, R317, R338). When the head of a frame has left is the model's reading (log entry 28). -/
def Obligations.FramesLeaveAndPausePorts : Prop :=
  ∀ (s : State) (p : Port64), coreRuns s = true →
    (∀ (x y : State) (c id : Nat) (f : Frame) (bytes : Bytes), (s.portAt p.val).sending = none →
      chooseClass p.val (judgeHeads p.val s.fresh) = (x, some c) → readyHead x p.val c = some (id, f) →
      portBlocked x p.val = false → commitFrame p.val f x = (y, some bytes) →
      Answers (.schedulerDecision p) s (fun u => (u.portAt p.val).sending = some id ∧
        (u.frameAt id).heads = f.heads ++ [p.val] ∧ Tbl.get (fun _ => []) (u.frameAt id).sent p.val = bytes ∧
        .held id ∉ u.queue p.val c)) ∧
    (∀ id, (s.portAt p.val).sending = some id →
      ((s.frameAt id).stomp ≠ none ∨ (s.frameAt id).verdict ≠ .pending) →
      (s.frameAt id).outs.filter (fun q => q != p.val) ≠ [] → Tbl.get (fun _ => []) s.sch.pending p.val = [] →
      Answers (.frameDepartureDone p) s (fun u => (u.portAt p.val).sending = none ∧
        (u.frameAt id).outs = (s.frameAt id).outs.filter (fun q => q != p.val) ∧
        u.out = [.frameOut p.val
          (if (s.frameAt id).stomp.isSome then stompBytes (portCfg s p.val).type (Tbl.get (fun _ => []) (s.frameAt id).sent p.val)
           else Tbl.get (fun _ => []) (s.frameAt id).sent p.val)
          (frameEnd (portCfg s p.val).type (s.frameAt id).stomp.isSome)])) ∧
    (∀ id, (s.portAt p.val).sending = some id →
      ((s.frameAt id).stomp ≠ none ∨ (s.frameAt id).verdict ≠ .pending) →
      s.hasFrame id = true → (s.frameAt id).outs = [p.val] →
      Answers (.frameDepartureDone p) s (fun u => u.hasFrame id = false)) ∧
    (∀ id, Tbl.get (fun _ => none) s.sch.arriving p.val = some id → s.hasFrame id = true →
      ((s.frameAt id).heads = [] → (s.frameAt id).bypass = false →
        Answers (.frameAbort p) s (fun u => u.hasFrame id = false ∧
          u.rd Reg.FRM_LAST_FAIL = ((s.frameAt id).span + 2 ^ 5 * b2n (s.frameAt id).opening + 2 ^ 8 * 0xC + 2 ^ 31) % 2 ^ 32)) ∧
      ((s.frameAt id).heads ≠ [] → (s.frameAt id).stomp = none →
        Answers (.frameAbort p) s (fun u => (u.frameAt id).stomp = some 0xC))) ∧
    (Tbl.get (fun _ => none) s.sch.arriving p.val = none →
      ((∀ h ∈ s.sch.held, h.port ≠ p.val) →
        Answers (.frameAbort p) s (fun u => u = penCount p.val 0x30 1 s.fresh)) ∧
      (∀ h t, dropHeld p.val (penCount p.val 0x30 1 s.fresh) = some (h, t) →
        Answers (.frameAbort p) s (fun u => u = uncountReceived p.val h.frame.length (goodEnd h.frame h.ending) t))) ∧
    (∀ (m : Port32) (n : Nat) (frame : Bytes), portSpan s m.val = some n → portReceives s m.val = true →
      runMode s n ≠ .trunk → isMacControl frame = true → goodEnd frame .terminate = true →
      ((portCfg s m.val).flow ≠ 0 → beAt frame 14 2 = 1 →
        Answers (.pauseReceived m frame) s (fun u =>
          (u.portAt m.val).paused = (if beAt frame 16 2 = 0 then 0 else 0x7F) ∧
          u.rd (Reg.SCH_PAUSE_RX m.val) = min (s.rd (Reg.SCH_PAUSE_RX m.val) + 1) 0xFFFFFFFF)) ∧
      ((portCfg s m.val).flow ≠ 0 → beAt frame 14 2 = 0x0101 →
        Answers (.pauseReceived m frame) s (fun u => ∀ c < 7, (u.portAt m.val).paused.testBit c =
          (if (beAt frame 16 2).testBit c then beAt frame (18 + 2 * c) 2 != 0 else (s.portAt m.val).paused.testBit c))))

/-- On a client port with FLOW = 0, a MAC control frame is discarded and counted in SCH_PAUSE_RX: no queue takes it
and no port sends it (R316). -/
def Obligations.MacControlFramesAreDiscardedAndCounted : Prop :=
  ∀ (s : State) (m : Port32) (n : Nat) (frame : Bytes), coreRuns s = true → portSpan s m.val = some n →
    portReceives s m.val = true → runMode s n ≠ .trunk → isMacControl frame = true → (portCfg s m.val).flow = 0 →
    ∀ e, isReceived e = true → ∀ i ∈ [Instr.macControlDiscard m frame, .sealFrameArrival m frame e],
      Answers i s (fun u => NothingQueued s u ∧ u.fab = s.fab ∧ (∀ p b e, .frameOut p b e ∉ u.out) ∧
        u.rd (Reg.SCH_PAUSE_RX m.val) = min (s.rd (Reg.SCH_PAUSE_RX m.val) + 1) 0xFFFFFFFF)

/-- While the lifecycle state is Quarantined, every span runs as Discard, whatever its mode in the Pattern: a frame
that arrives on a port of it enters no queue and leaves no port (R25). -/
def Obligations.QuarantinedSpansDiscard : Prop :=
  ∀ (s : State) (n : Nat), s.lifecycle = .quarantined → runMode s n = .discard ∧
    ∀ (m : Port32) (frame : Bytes) (e : RxEnd), coreRuns s = true →
      (portSpan s m.val = some n → isMacControl frame = false →
        Answers (.sealFrameArrival m frame e) s (fun u => NothingQueued s u ∧ u.fab = s.fab ∧
          ∀ p b e, .frameOut p b e ∉ u.out)) ∧
      (portSpan s (32 + m.val) = some n →
        Answers (.openFrameArrival m frame e) s (fun u => NothingQueued s u ∧ u.fab = s.fab ∧
          ∀ p b e, .frameOut p b e ∉ u.out))

/-! ## Trunk mode -/

/-- The header of a stitch, as sent with its bytes 8 to 63 under 0xA5, is judged good, and the receiver reads from it
the span, the slot, RDI, CINCH and SEQ that the sender put in; the mask undoes itself (R164, R165, R168). -/
def Obligations.StitchHeaderReadsAsItWasWritten : Prop :=
  (∀ h : Bytes, maskHeader (maskHeader h) = h) ∧
  ∀ (span ks seq : Nat) (rdi cinch : Bool), span < 2 ^ 16 → ks < 2 → seq < 2 ^ 48 →
    let h := stitchHeader span ks rdi cinch seq;
    headerGood (maskHeader h) = true ∧ beAt h 8 2 = span ∧ byteAt h 10 / 128 = ks ∧
    (byteAt h 10).testBit 6 = rdi ∧ (byteAt h 10).testBit 5 = cinch ∧ beAt h 12 6 = seq

/-- A client block of a trunk span enters the elastic buffer, as an error block where its sync bits are bad, or as
nothing where a full buffer can leave out an idle. The next stitch is bound to an SA, its slot, PN and CINCH in its
header, or fill is sent where the SC gives no binding. The binding registers are written. A payload held leaves at its
release but for the end of a message that may go on, and not while the client port sends something else (R152 to R154,
R162, R164, R170, R179, R182). Cells that wait for the whole stitch are the model's reading (log entry 52). -/
def Obligations.TrunkSealSideRuns : Prop :=
  ∀ (s : State) (n : SpanNo), coreRuns s = true →
    (∀ b : Block66, patMode s n.val = .trunk → (s.trkAt n.val).elastic.length < 8 →
      Answers (.clientBlockReceived n b) s (fun u =>
        u.trkAt n.val = { s.trkAt n.val with elastic := (s.trkAt n.val).elastic ++ [if syncOk b then b else errorBlock] } ∧
        (syncOk b = false → u.rd64 (Reg.FRM_TRK_PAGE n.val 0 + 0x20) =
          (s.rd64 (Reg.FRM_TRK_PAGE n.val 0 + 0x20) + 1) % 2 ^ 64))) ∧
    (patMode s n.val = .trunk → 12 ≤ (s.trkAt n.val).elastic.length →
      Answers (.clientBlockReceived n idleBlock) s (fun u => u.trk = s.trk ∧
        u.rd64 (Reg.FRM_TRK_PAGE n.val 0 + 0x18) = (s.rd64 (Reg.FRM_TRK_PAGE n.val 0 + 0x18) + 1) % 2 ^ 64)) ∧
    (∀ (v : State) (b : Binding), trunkRuns s n.val = true → patMode s n.val = .trunk →
      (s.trkAt n.val).stitch = none →
      bindTx ((s.trkAt n.val).boundTx.getD 0) true (idleDefects n.val s.fresh) = (v, some b) →
      Answers (.stitchBind n) s (fun u => ∃ x, (u.trkAt n.val).stitch = some x ∧ x.sa = b.sa ∧ x.gen = b.gen ∧ x.seq = b.pn ∧
        x.header = stitchHeader n.val b.slot (v.bit (Reg.FRM_TRK_STATUS n.val) 8)
          (v.scAt false ((s.trkAt n.val).boundTx.getD 0)).cinchStitch b.pn ∧
        x.key = (v.saAt b.sa).key ∧ x.iv = stitchIv (v.saAt b.sa).salt n.val b.pn)) ∧
    (∀ v : State, trunkRuns s n.val = true → patMode s n.val = .trunk → (s.trkAt n.val).stitch = none →
      (s.trkAt n.val).sealing = [] →
      bindTx ((s.trkAt n.val).boundTx.getD 0) true (idleDefects n.val s.fresh) = (v, none) →
      Answers (.stitchBind n) s (fun u => (u.trkAt n.val).stitch = none ∧ .fillOut n.val ∈ u.out ∧
        u.bit (Reg.FRM_TRK_STATUS n.val) 11 = true)) ∧
    (∀ (k : Fin 3) (v : Word), let a := Reg.FRM_TRK_TXSC n.val + 4 * k.val
      Served s a → (patMode s n.val = .trunk → s.bit (Reg.FRM_TRK_STATUS n.val) 7 = false) →
      Answers (.trunkBindingWrite (BitVec.ofNat 32 a) v) s (fun u =>
        u.rd a = v.toNat &&& ([0x80003FFF, 0x80007FFF, 0x1F].getD k.val 0) ∧ OnlyRegs [a] s u)) ∧
    (∀ p rest, (s.trkAt n.val).release = p :: rest →
      let blocked := (spanClients s n.val).any (portBlocked s)
      let sends := fun (l : List Output) => if blocked then [] else l;
      (p = none → Answers (.stitchRelease n) s (fun u =>
        u.out = sends (if (s.trkAt n.val).tail = [] then [.clientOut n.val none]
          else [.clientOut n.val (some (s.trkAt n.val).tail), .clientOut n.val none]) ∧
        u.trkAt n.val = { s.trkAt n.val with release := rest, tail := [] } ∧ RegsBut [] s u)) ∧
      (∀ bs, p = some bs →
        let all := (s.trkAt n.val).tail ++ bs
        let keep := if rest = [] then openMessage (tcMode s n.val) all else [];
        Answers (.stitchRelease n) s (fun u =>
          u.out = sends [.clientOut n.val (some (all.take (all.length - keep.length)))] ∧
          u.trkAt n.val = { s.trkAt n.val with release := rest, tail := keep } ∧ RegsBut [] s u)))

/-- A marker on a lane is followed, the third at one group's spacing locks the lane, and the loss of four forgets it; a
stitch word in HUNT becomes a candidate; the third good header in sequence of a candidate takes the lock, and in LOCK a
good header clears the run of bad ones, of which the fourth loses the lock. A stitch whose header is bad is replaced; one
that passes every check is delivered, its blocks wait for their release, and its slot and SEQ are shown (R161, R175,
R177 to R179). -/
def Obligations.TrunkOpenSideRuns : Prop :=
  ∀ (s : State) (n : SpanNo), coreRuns s = true →
    (∀ (l : Fin 8) (pos : Nat) (m : Bytes), patMode s n.val = .trunk → l.val < lineLanes s n.val →
      let k := Tbl.get (fun _ => ({} : LaneMark)) (s.trkAt n.val).lanes l.val
      let type := lineType s n.val;
      (m.take 8 = markerWord → Answers (.markerBlock n l pos m) s (fun u =>
        let k' := Tbl.get (fun _ => ({} : LaneMark)) (u.trkAt n.val).lanes l.val;
        k' = laneMarker type pos m k ∧
        (∀ x, k.lock = none → k.seen.find? (fun x => x.pos + groupBits type == pos && x.lane == byteAt m 8 &&
            x.lanes == byteAt m 9) = some x →
          (2 ≤ x.run → ∃ y, k'.lock = some y ∧ y.pos = pos ∧ y.group = beAt m 10 2 ∧ y.lane = byteAt m 8 ∧
            y.lanes = byteAt m 9) ∧
          (x.run < 2 → k'.lock = none)))) ∧
      Answers (.markerLockLoss n l) s (fun u =>
        Tbl.get (fun _ => ({} : LaneMark)) (u.trkAt n.val).lanes l.val = {})) ∧
    (∀ pos, rxState s n.val = 2 → (s.trkAt n.val).cands.length < 4 →
      Answers (.stitchWordMatch n pos) s (fun u =>
        (u.trkAt n.val).cands = (s.trkAt n.val).cands ++ [{ pos := pos }] ∧ rxState u n.val = 2)) ∧
    (∀ (pos : Nat) (h1 h2 : Block257) (errored : Bool) (c : Candidate), let raw := headerOf h1 h2 errored
      rxState s n.val = 2 → headerGood raw = true →
      beAt (maskHeader raw) 8 2 = (s.trkAt n.val).peerSpan →
      (s.trkAt n.val).cands.find? (fun c => c.pos + (if c.good = 0 then 0 else 1027) == pos) = some c →
      continuous c (byteAt (maskHeader raw) 10 / 128) (beAt (maskHeader raw) 12 6) = true →
      (2 ≤ c.good → Answers (.stitchHeaderCheck n pos h1 h2 errored) s (fun u => rxState u n.val = 3 ∧
        (u.trkAt n.val).cands = [] ∧ (u.trkAt n.val).header = some raw ∧
        ∃ d, (u.trkAt n.val).lock = some d ∧ d.pos = pos ∧ d.seq = beAt (maskHeader raw) 12 6)) ∧
      (c.good < 2 → Answers (.stitchHeaderCheck n pos h1 h2 errored) s (fun u => rxState u n.val = 2 ∧
        (u.trkAt n.val).cands = (s.trkAt n.val).cands.map (fun d => if d == c then
          { pos := pos, good := c.good + 1, ks := byteAt (maskHeader raw) 10 / 128, seq := beAt (maskHeader raw) 12 6 }
          else d)))) ∧
    (∀ (pos : Nat) (h1 h2 : Block257) (errored : Bool) (c : Candidate), let raw := headerOf h1 h2 errored
      let good := headerGood raw = true ∧ beAt (maskHeader raw) 8 2 = (s.trkAt n.val).peerSpan
      rxState s n.val = 3 → (s.trkAt n.val).lock = some c → pos = c.pos + 1027 →
      (good → Answers (.stitchHeaderCheck n pos h1 h2 errored) s (fun u => (u.trkAt n.val).badRun = 0 ∧
        (u.trkAt n.val).lock = some { c with pos := pos } ∧ (u.trkAt n.val).header = some raw)) ∧
      (¬good → (s.trkAt n.val).badRun < 3 → Answers (.stitchHeaderCheck n pos h1 h2 errored) s (fun u =>
        (u.trkAt n.val).badRun = (s.trkAt n.val).badRun + 1 ∧ (u.trkAt n.val).header = some raw ∧
        (u.trkAt n.val).lock = some { c with pos := pos })) ∧
      (¬good → 3 ≤ (s.trkAt n.val).badRun → Answers (.stitchHeaderCheck n pos h1 h2 errored) s (fun u =>
        rxState u n.val = 2 ∧ (u.trkAt n.val).lock = none ∧ (u.trkAt n.val).header = none ∧
        (u.trkAt n.val).release = (s.trkAt n.val).release ++ [none]))) ∧
    (∀ raw body, rxState s n.val = 3 → (s.trkAt n.val).openCells = 0 → (s.trkAt n.val).header = some raw →
      (headerGood raw = false → Answers (.stitchTagCheck n body) s (fun u =>
        (u.trkAt n.val).release = (s.trkAt n.val).release ++ [none] ∧ (u.trkAt n.val).header = none)) ∧
      (∀ sa, let h := maskHeader raw; let a := s.saAt sa; let seq := beAt h 12 6
        headerGood raw = true → beAt h 8 2 = (s.trkAt n.val).peerSpan →
        stitchSa s n.val (byteAt h 10 / 128) = some sa → a.pn ≤ seq →
        (s.trkAt n.val).openFailed = false → (s.trkAt n.val).openTag ≠ none → (s.trkAt n.val).openWrong = [] →
        (gcmOpen a.key (stitchIv a.salt (s.trkAt n.val).peerSpan seq) h (body.take 32896) (slice body 32896 16)).2 = true →
        Answers (.stitchTagCheck n body) s (fun u =>
          (u.trkAt n.val).lastSlot = some (byteAt h 10 / 128) ∧ (u.trkAt n.val).header = none ∧
          (u.trkAt n.val).tagRun = 0 ∧
          (tcMode s n.val = 0 → (u.trkAt n.val).release = (s.trkAt n.val).release ++ [some (blocksOfPayload
            (gcmOpen a.key (stitchIv a.salt (s.trkAt n.val).peerSpan seq) h (body.take 32896) (slice body 32896 16)).1)]) ∧
          u.rd (Reg.FRM_TRK_SEQ_LO n.val) = seq % 2 ^ 32 ∧
          u.rd (Reg.FRM_TRK_SEQ_HI n.val) = seq / 2 ^ 32)))

/-! ## Secure channels and hitless key change -/

/-- A commit while one is checked sets IGNORED and nothing else. Any other is checked: with a failed check nothing but
STATUS changes. CREATE takes the staged words into the entry with both slots empty, MODIFY holds them pending, DELETE
frees the entry and its slots; the check ends with its code. A write of a readback select loads the registers of that
SC or SA (R193 to R196, R221). -/
def Obligations.ChannelCommitsAreCheckedThenActedOn : Prop :=
  ∀ s : State,
    (Served s Reg.SEC_SCW_COMMIT →
    let i := s.rdF Reg.SEC_SCW_SEL 0 16
    let rx := s.bit Reg.SEC_SCW_SEL 16
    let w := stagedWords s
    let e := s.scAt rx i;
    (∀ op c, (op, c) ∈ [(0, Instr.scwCommitNoOp), (1, .scCreate), (2, .scModify), (3, .scDelete)] →
      s.rdF Reg.SEC_SCW_OP 0 2 = op →
      (s.bit Reg.SEC_SCW_STATUS 0 = true → Answers c s (fun u =>
        u.bit Reg.SEC_SCW_STATUS 1 = true ∧ OnlyRegs [Reg.SEC_SCW_STATUS] s u)) ∧
      (s.bit Reg.SEC_SCW_STATUS 0 = false → 2 ≤ secwCode s → Answers c s (fun u =>
        u.bit Reg.SEC_SCW_STATUS 0 = true ∧ u.sec = { s.sec with scwCode := secwCode s } ∧
        OnlyRegs [Reg.SEC_SCW_STATUS] { s with sec := u.sec } u))) ∧
    (s.rdF Reg.SEC_SCW_OP 0 2 = 1 → s.bit Reg.SEC_SCW_STATUS 0 = false → secwCode s = 0 →
      Answers .scCreate s (fun u =>
        u.scAt rx i = { inUse := true, words := w } ∧
        (∀ k < 2, let a := scSa { words := w } k
          u.saAt a = freshSa (s.saAt a) (some (i, rx)) ∧ (u.saAt a).state = .empty ∧ (u.saAt a).key = []) ∧
        (∀ j, j ≠ i → u.scAt rx j = s.scAt rx j) ∧ (∀ j, u.scAt (!rx) j = s.scAt (!rx) j) ∧
        u.sec.scwCode = 0 ∧ u.bit Reg.SEC_SCW_STATUS 0 = true ∧ RegsBut [Reg.SEC_SCW_STATUS] s u)) ∧
    (s.rdF Reg.SEC_SCW_OP 0 2 = 2 → s.bit Reg.SEC_SCW_STATUS 0 = false → secwCode s = 1 →
      Answers .scModify s (fun u =>
        (u.scAt rx i).pending = some w ∧ (u.scAt rx i).words = e.words ∧ (u.scAt rx i).inUse = e.inUse ∧
        (keyLen (field (w.getD 0 0) 0 2) = keyLen (nextCipher e) → u.scAt rx i = { e with pending := some w } ∧
          RegsBut [Reg.SEC_SCW_STATUS] s u ∧
          (field (w.getD 0 0) 0 2 = nextCipher e → u.sec.sa = s.sec.sa) ∧
          (∀ k < 2, e.cur ≠ some k → scSa e k ≠ scSa e (1 - k) → (s.saAt (scSa e k)).state = .ready →
            (u.saAt (scSa e k)).state = .ready ∧ (u.saAt (scSa e k)).key = (s.saAt (scSa e k)).key ∧
            (field (w.getD 0 0) 0 2 ≠ nextCipher e → (u.saAt (scSa e k)).cipher = field (w.getD 0 0) 0 2))))) ∧
    (s.rdF Reg.SEC_SCW_OP 0 2 = 3 → s.bit Reg.SEC_SCW_STATUS 0 = false → secwCode s = 0 →
      Answers .scDelete s (fun u =>
        u.scAt rx i = { deleted := true } ∧ (∀ j, j ≠ i → u.scAt rx j = s.scAt rx j) ∧
        (∀ j, u.scAt (!rx) j = s.scAt (!rx) j) ∧
        (∀ k < 2, u.saAt (scSa e k) = freshSa (s.saAt (scSa e k)) none ∧ (u.saAt (scSa e k)).key = []) ∧
        CoreRegsBut [Reg.SEC_SCW_STATUS, Reg.SEC_TXGAP (i / 32), Reg.SEC_LAST, Reg.SEC_EVT, Reg.SEC_ORPHAN_CLEARS] s u))) ∧
    (coreRuns s = true → s.bit Reg.SEC_SCW_STATUS 0 = true → Answers .scwResult s (fun u =>
      u.bit Reg.SEC_SCW_STATUS 0 = false ∧ u.rdF Reg.SEC_SCW_STATUS 8 8 = s.sec.scwCode % 256 ∧
      OnlyRegs [Reg.SEC_SCW_STATUS] s u)) ∧
    (∀ v : Word, Served s Reg.SEC_SCR_SEL →
      let e := s.scAt (v.toNat.testBit 16) (v.toNat % 65536);
      Answers (.scReadbackSelect v) s (fun u =>
        (∀ k < 8, u.rd (Reg.SEC_SCR_W k) = scWord e k % 2 ^ 32) ∧ u.rd Reg.SEC_SCR_EPOCH = e.epoch % 2 ^ 32 ∧
        (e.inUse = true → e.cur.getD 0 < 2 → u.bit Reg.SEC_SCR_STATE 0 = true ∧
          u.rdF Reg.SEC_SCR_STATE 1 1 = e.cur.getD 0 ∧ u.bit Reg.SEC_SCR_STATE 2 = hasCurrent s e ∧
          u.bit Reg.SEC_SCR_STATE 3 = nextReady s e ∧ u.bit Reg.SEC_SCR_STATE 4 = e.gap ∧
          u.bit Reg.SEC_SCR_STATE 6 = e.pending.isSome) ∧
        (e.inUse = false → u.rd Reg.SEC_SCR_STATE = 0) ∧
        OnlyRegs (Reg.SEC_SCR_SEL :: Reg.SEC_SCR_STATE :: Reg.SEC_SCR_EPOCH :: (List.range 8).map Reg.SEC_SCR_W) s u)) ∧
    (∀ v : Word, Served s Reg.SEC_SAR_SEL →
      let a := s.saAt (v.toNat % 65536);
      Answers (.saReadbackSelect v) s (fun u =>
        u.rdF Reg.SEC_SAR_STATE 0 3 = slotCode a.state ∧ u.bit Reg.SEC_SAR_STATE 3 = a.ready ∧
        u.rd Reg.SEC_SAR_EPOCH = a.epoch % 2 ^ 32 ∧ u.rd64 (Reg.SEC_SAR_PN 0) = a.pn % 2 ^ 64 ∧
        u.rd Reg.SEC_SAR_SSCI = a.ssci % 2 ^ 32 ∧
        OnlyRegs [Reg.SEC_SAR_SEL, Reg.SEC_SAR_STATE, Reg.SEC_SAR_EPOCH, Reg.SEC_SAR_PN 0, Reg.SEC_SAR_PN 0 + 4,
          Reg.SEC_SAR_MARK_LO, Reg.SEC_SAR_MARK_HI, Reg.SEC_SAR_SSCI] s u))

/-- A trigger of a transmit SC whose next slot is READY waits for a binding and changes nothing else; without a READY
slot the SC enters key gap, which is counted and shown, but a PN_SOFT is only reported and a host trigger refused. A
cinch instant triggers every SC with CINCH_EN (R201 to R203, R217). -/
def Obligations.TriggersEndTheEpoch : Prop :=
  ∀ (s : State) (i : TxSc), coreRuns s = true →
    let e := s.scAt false i.val
    let ended := fun u : State => u = s.fresh.setSc false i.val { e with trigger := true, cinch := false }
    let gapped := fun u : State => (u.scAt false i.val).trigger = true ∧ (u.scAt false i.val).gap = true ∧
      u.bit (Reg.SEC_TXGAP (i.val / 32)) (i.val % 32) = true ∧
      u.rd Reg.SEC_GAP_ENTRIES = min (s.rd Reg.SEC_GAP_ENTRIES + 1) 0xFFFFFFFF ∧
      (s.bit Reg.KPR_GAP 0 = true → u.sec.sa = s.sec.sa);
    (e.inUse = true → e.trigger = false → s.sec.isolated = false →
      ((nextReady s e = true →
        (e.cur.isSome = true → field (scWord e 6) 0 24 ≠ 0 → field (scWord e 6) 0 24 * 65536 ≤ e.count →
          Answers (.epochCountExpire i) s ended) ∧
        (e.cur.isSome = true → field (scWord e 7) 0 20 ≠ 0 → Answers (.epochTimeExpire i) s ended) ∧
        (∀ sa, curSa s i.val = some sa → (pnLimits (s.saAt sa).cipher (scTrunk s e)).1 ≤ (s.saAt sa).pn →
          Answers (.pnSoft i) s ended) ∧
        (∀ v : Word, Served s Reg.SEC_EPOCH_CMD → v.toNat.testBit 31 = true → v.toNat % 16384 = i.val →
          Answers (.epochHostTrigger v) s (fun u => u =
            (s.fresh.wr Reg.SEC_EPOCH_STATUS 0).setSc false i.val { e with trigger := true, cinch := false }))) ∧
      (nextReady s e = false → e.gap = false →
        (e.cur.isSome = true → field (scWord e 6) 0 24 ≠ 0 → field (scWord e 6) 0 24 * 65536 ≤ e.count →
          Answers (.epochCountExpire i) s gapped) ∧
        (e.cur.isSome = true → field (scWord e 7) 0 20 ≠ 0 → Answers (.epochTimeExpire i) s gapped) ∧
        (∀ sa, curSa s i.val = some sa → (pnLimits (s.saAt sa).cipher (scTrunk s e)).1 ≤ (s.saAt sa).pn →
          Answers (.pnSoft i) s (fun u => u.bit Reg.SEC_EVT 5 = true ∧
            OnlyHost [Reg.SEC_LAST, Reg.SEC_EVT] s u)) ∧
        (∀ v : Word, Served s Reg.SEC_EPOCH_CMD → v.toNat.testBit 31 = true → v.toNat % 16384 = i.val →
          Answers (.epochHostTrigger v) s (fun u => u = s.fresh.wr Reg.SEC_EPOCH_STATUS 1))))) ∧
    (e.inUse = false → ∀ v : Word, Served s Reg.SEC_EPOCH_CMD → v.toNat.testBit 31 = true → v.toNat % 16384 = i.val →
      Answers (.epochHostTrigger v) s (fun u => u = s.fresh.wr Reg.SEC_EPOCH_STATUS 2)) ∧
    (∀ t rest, s.sec.cinchAt = t :: rest →
      Answers .cinchInstant s (fun u => u.sec.cinchAt = rest ∧
        (e.inUse = true → (scWord e 0).testBit 8 = true → e.cur.isSome = true → e.trigger = false →
          (u.scAt false i.val).trigger = true ∧ (u.scAt false i.val).cinch = true) ∧
        ((e.inUse = false ∨ (scWord e 0).testBit 8 = false ∨ e.cur.isSome = false ∨ e.trigger = true) →
          u.scAt false i.val = e)))

/-- At the first binding after a trigger the SC moves to its READY slot in one step: that slot is CURRENT with its
epoch, the trigger and any key gap are over, and the old slot drains while frames bound to it are in the module, or is
emptied (R205, R206). -/
def Obligations.BindingSwitchesToTheReadySlot : Prop :=
  ∀ (s : State) (i : Nat) (class7 : Bool), let e := s.scAt false i
    let new := scSa e (nextSlot e);
    e.inUse = true → e.trigger = true → nextReady s e = true → s.sec.isolated = false →
    (∀ c, e.cur = some c → scSa e c ≠ new) →
    let u := txSwitch i s;
    bindTx i class7 s = bindTx i class7 u ∧
    (u.saAt new).state = .current ∧ (u.saAt new).key = (s.saAt new).key ∧
    (u.scAt false i).cur = some (nextSlot e) ∧ (u.scAt false i).epoch = (s.saAt new).epoch ∧
    (u.scAt false i).trigger = false ∧ (u.scAt false i).gap = false ∧ (u.scAt false i).count = 0 ∧
    (∀ c, e.cur = some c → (s.saAt (scSa e c)).state = .current →
      ((s.saAt (scSa e c)).bound ≠ 0 → u.saAt (scSa e c) = { s.saAt (scSa e c) with state := .draining }) ∧
      ((s.saAt (scSa e c)).bound = 0 → (u.saAt (scSa e c)).key = []))

/-- The key sequencer takes up the oldest fill with its delivered or derived key and its MARK; the slot is READY once
its MARK is journalled and acknowledged, with its first PN. A standby keeps the MARK its partner sent. A MARK write that
ends stands in the slot and in the vault, and a receive SA whose NEXT_PN is further on starts the next (R198, R199, R210,
R212 to R214). -/
def Obligations.SlotsFillAndMarksAreJournalled : Prop :=
  ∀ s : State, coreRuns s = true →
    let first := fun (f : FillReq) => if pairState s = 3 then max (s.saAt f.sa).mark f.resume else f.resume;
    (∀ f rest, s.sec.filling = none → s.sec.fills = f :: rest → s.bit Reg.KEY_STATUS 2 = false →
      s.key.drbgDown = false → s.key.zeroizing = none → vaultQuiet s = false →
      Answers .slotFillStart s (fun u => u.sec.filling = some f ∧ u.sec.fills = rest ∧
        (u.saAt f.sa).mark = first f ∧ (u.saAt f.sa).state = (s.saAt f.sa).state ∧
        (∀ d, f.delivered = some d → (u.saAt f.sa).key = d.1 ∧ (u.saAt f.sa).salt = d.2.1 ∧
          (u.saAt f.sa).ssci = d.2.2 ∧ u.rd Reg.SEC_DERIVES = s.rd Reg.SEC_DERIVES) ∧
        (f.delivered = none →
          ((u.saAt f.sa).key, (u.saAt f.sa).salt) = deriveSa (s.parentAt (s.saAt f.sa).parent).key
            (scSci (s.scAt f.rx f.sc)) f.epoch (s.saAt f.sa).cipher ∧
          u.rd Reg.SEC_DERIVES = min (s.rd Reg.SEC_DERIVES + 1) 0xFFFFFFFF) ∧
        (s.key.vaultOpen = true → journalledMark u f.sa = first f))) ∧
    (∀ f, s.sec.filling = some f →
      (needsAck s = true → Tbl.get (fun _ => 0) s.hrn.ackedMark f.sa ≤ f.resume →
        Answers .slotFillDone s (fun u => u = s.fresh)) ∧
      (f.rx = true → (s.scAt true f.sc).cur = none → needsAck s = false →
        Answers .slotFillDone s (fun u => u.sec.filling = none ∧
          u.saAt f.sa = { s.saAt f.sa with state := .ready, ready := true, pn := max 1 (f.resume * 2 ^ 24) })) ∧
      (f.rx = false → f.makeCurrent = true → (s.scAt false f.sc).cur = none → needsAck s = false →
        scSa (s.scAt false f.sc) (slotOf (s.scAt false f.sc) f.sa) = f.sa →
        Answers .slotFillDone s (fun u => (u.saAt f.sa).state = .current ∧ (u.saAt f.sa).ready = true ∧
          (u.saAt f.sa).pn = (if f.resume = 0 then 1 else f.resume * 2 ^ 24) ∧
          (u.scAt false f.sc).cur = some (slotOf (s.scAt false f.sc) f.sa)))) ∧
    (∀ (sa : SaNo) b, (s.saAt sa.val).journalling = some b →
      Answers (.markJournalDone sa) s (fun u =>
        let a := s.saAt sa.val
        let next := a.owner.any Prod.snd && decide (b < a.pn / 2 ^ 24) && !vaultQuiet s
        u.saAt sa.val = { a with mark := b, journalling := if next then some (a.pn / 2 ^ 24) else none } ∧
        (s.key.vaultOpen = true → journalledMark u sa.val = b) ∧
        (s.key.vaultOpen = false → u.key = s.key) ∧ RegsBut [] s u))

/-- Keys end: past PN_HARD and at the end of an orphan's grace a transmit SA is emptied and its epoch ends, an
orphaned receive SA is emptied, an OLD receive slot at the end of its overlap, and the slot of an SC in key gap at the
end of its hold (R205, R207, R211, R217, R218, R220). What the hold limit does is the model's reading (log entry 29). -/
def Obligations.ExpiredKeysAreCleared : Prop :=
  ∀ s : State, coreRuns s = true →
    let cleared := fun (sa : Nat) (u : State) => (u.saAt sa).key = [] ∧ (u.saAt sa).ready = false ∧
      ((u.saAt sa).state = .empty ∨ (u.saAt sa).state = .filling);
    (∀ (i : TxSc) sa, curSa s i.val = some sa → (s.scAt false i.val).inUse = true →
      (pnLimits (s.saAt sa).cipher (scTrunk s (s.scAt false i.val))).2 < (s.saAt sa).pn →
      Answers (.pnHard i) s (fun u => cleared sa u ∧ (u.scAt false i.val).trigger = true)) ∧
    (∀ (sa : SaNo) i rx, (s.saAt sa.val).owner = some (i, rx) → (s.saAt sa.val).orphan = true →
      ((s.saAt sa.val).state = .current ∨ (s.saAt sa.val).state = .old) →
      Answers (.orphanGraceExpire sa) s (fun u => cleared sa.val u ∧ (u.saAt sa.val).orphan = false ∧
        (rx = true → u.rd Reg.SEC_ORPHAN_CLEARS = min (s.rd Reg.SEC_ORPHAN_CLEARS + 1) 0xFFFFFFFF))) ∧
    (∀ (i : RxSc) slot, slot < 2 → (s.scAt true i.val).inUse = true →
      (s.saAt (scSa (s.scAt true i.val) slot)).state = .old →
      Answers (.overlapExpire i) s (fun u => cleared (scSa (s.scAt true i.val) slot) u ∧ u.bit Reg.SEC_EVT 2 = true)) ∧
    (∀ (i : TxSc) c, (s.scAt false i.val).gap = true → (s.scAt false i.val).cur = some c →
      (s.saAt (scSa (s.scAt false i.val) c)).state = .current →
      Answers (.holdLimitExpire i) s (fun u => cleared (scSa (s.scAt false i.val) c) u ∧
        (u.scAt false i.val).cur = none ∧ (u.scAt false i.val).gap = true)) ∧
    (∀ i : TxSc, (s.scAt false i.val).gap = false → Answers (.holdLimitExpire i) s (fun u => u = s.fresh))

/-! ## The key store -/

/-- The common checks come first, in the order of their codes: the operation that fails one completes with that code
and changes nothing else (R240, R241, R548). The row is the one that the descriptor's OP names; an undefined OP is
KEYQ_BAD_OPCODE, the constructor keyqBadOpcode. -/
def Obligations.KeyqChecksComeFirst : Prop :=
  ∀ (s : State) (b : Bytes) (x : DmaData) (ok : Bool), coreRuns s = true → s.hif.kqRun = some b →
    s.sec.kqWait = [] →
    (kqPrecheck s (descOf b) ≠ 0 →
      Answers (keyqRow x ok (descOf b)) s (fun u =>
        KqEnded (descOf b) (kqPrecheck s (descOf b)) [] s u ∧ OnlyHost [] s u)) ∧
    ((descOf b).op = 0 ∨ 10 < (descOf b).op →
      Answers .keyqBadOpcode s (fun u => KqEnded (descOf b) 1 [] s u ∧ OnlyHost [] s u))

/-- TK_ACCEPT and PARENT_LOAD that pass every check put the key into its slot, PARENT_INVALIDATE clears the parent and
orphans its SAs, and VAULT_COMMIT makes the parents one new generation, or nothing where its write fails; each
completes. Where the record of TK_FLOOR or the tombstone of a parent cannot be written the code is VAULT_FAULT (R220,
R230, R231, R240, R242 to R244). -/
def Obligations.TransportKeysAndParents : Prop :=
  ∀ (s : State) (b : Bytes) (x : Bytes), let d := descOf b;
    (KqRuns s b 1 → InputOk d → let r := exactly d.inLen x
      tkCode s d r = 0 →
      Answers (.tkAccept (.data x) false) s (fun u => tkFloor u = tkFloor s ∧ u.hif.kqRun = none ∧
        u.rd Reg.HIF_KQ_LAST = (d.tag + 2 ^ 16 * d.op + 2 ^ 24 * 0x50) % 2 ^ 32) ∧
      Answers (.tkAccept (.data x) true) s (fun u =>
        let slot := byteAt r 8
        let seq := leAt r 0x10 8;
        Tbl.get (fun _ => []) u.key.transport slot =
          hybridKey (slice r 0x18 32) (slice r 0x38 97) (slice r 0xA0 1568)
            ([0x4D#8, 0x59#8, 0x54#8, 0x4B#8] ++ beBytes 4 s.unit ++ beBytes 1 slot ++ beBytes 8 seq) ∧
        tkFloor u = seq ∧ (∀ k, k ≠ slot → Tbl.get (fun _ => []) u.key.transport k = Tbl.get (fun _ => []) s.key.transport k) ∧
        u.rd Reg.HIF_KQ_LAST = (d.tag + 2 ^ 16 * d.op) % 2 ^ 32 ∧ u.hif.kqRun = none ∧ u.sec = s.sec)) ∧
    (KqRuns s b 2 → (s.parentAt (d.arg0 % 4096)).valid = false →
      let v := unwrapInput d (.data x) (field d.arg0 16 4) 48 0x50 0 (d.arg0 % 4096) none s.fresh;
      v.code = 0 →
      Answers (.parentLoad (.data x)) s (fun u =>
        u.parentAt (d.arg0 % 4096) = { valid := true, id := beAt v.plain 4 4, key := slice v.plain 8 32 } ∧
        u.bit (Reg.KEY_PARENT_VALID (d.arg0 % 4096 / 32)) (d.arg0 % 4096 % 32) = true ∧
        (∀ k, k ≠ d.arg0 % 4096 → u.parentAt k = s.parentAt k) ∧
        u.rd Reg.HIF_KQ_LAST = (d.tag + 2 ^ 16 * d.op) % 2 ^ 32 ∧ u.hif.kqRun = none)) ∧
    (∀ ok, KqRuns s b 3 → (s.parentAt (d.arg0 % 4096)).valid = true → vaultQuiet s = false →
      Answers (.parentInvalidate ok) s (fun u =>
        u.parentAt (d.arg0 % 4096) = {} ∧
        u.bit (Reg.KEY_PARENT_VALID (d.arg0 % 4096 / 32)) (d.arg0 % 4096 % 32) = false ∧
        (∀ sa, (s.saAt sa).derived = true → (s.saAt sa).parent = d.arg0 % 4096 →
          (u.saAt sa).orphan = true ∨ (u.saAt sa).state = .empty) ∧
        (s.key.vaultOpen = true → ok = true →
          Tbl.get (fun _ => ({} : Parent)) u.key.vault.parents (d.arg0 % 4096) = {}) ∧
        u.rd Reg.HIF_KQ_LAST = (d.tag + 2 ^ 16 * d.op +
          (if s.key.vaultOpen = true ∧ ok = false then 2 ^ 24 * 0x50 else 0)) % 2 ^ 32 ∧ u.hif.kqRun = none)) ∧
    (KqRuns s b 7 →
      (s.key.vaultOpen = false → Answers (.vaultCommit true) s (fun u => KqEnded d 0x51 [] s u ∧ OnlyHost [] s u)) ∧
      (s.key.vaultOpen = true → vaultQuiet s = false →
        Answers (.vaultCommit false) s (fun u => KqEnded d 0x50 [] s u ∧ OnlyHost [] s u) ∧
        Answers (.vaultCommit true) s (fun u => KqEnded d 0 (leBytes 8 (s.key.vault.gen + 1)) s u ∧
          u.key.vault.gen = s.key.vault.gen + 1 ∧ u.rd Reg.KEY_VAULT_GEN = (s.key.vault.gen + 1) % 2 ^ 32 ∧
          u.key.vault.parents = s.key.parents.map (fun e => (e.1, { e.2 with committed := true })) ∧
          u.sec = s.sec)))

/-- SA_INSTALL and SA_DERIVE that pass every check ask for the fill of their slot, which is FILLING, and wait for it;
SA_DERIVE on an SC without a current SA asks for the next epoch's too. SA_RETIRE clears the OLD slot of a receive SC or the READY one of a transmit SC, and refuses any other (R197, R200,
R236, R238). -/
def Obligations.KeyqDeliversAndRetiresSas : Prop :=
  ∀ (s : State) (b : Bytes) (x : Bytes), let d := descOf b
    let i := d.arg0 % 65536
    let rx := d.arg0.testBit 16
    let e := s.scAt rx i
    let sa := scSa e d.arg1;
    (KqRuns s b 4 → e.inUse = true → scDerived e = false → (s.saAt sa).state = .empty → epochOk s e d.arg1 = true →
      (unwrapInput d (.data x) (field d.arg0 20 4) (32 + keyLen (nextCipher e)) 0x53 (b2n rx) i (some d.arg1)
        s.fresh).code = 0 →
      Answers (.saInstall (.data x)) s (fun u =>
        (u.saAt sa).state = .filling ∧ (u.saAt sa).epoch = d.arg1 ∧ u.sec.kqWait = [sa] ∧ u.hif.kqRun = some b ∧
        u.sec.fills.length = s.sec.fills.length + 1)) ∧
    (KqRuns s b 5 → e.inUse = true → scDerived e = true → hasCurrent s e = false → e.pending = none →
      (s.parentAt (scParent e)).valid = true → (s.saAt sa).state = .empty →
      (s.saAt (scSa e (d.arg1 + 1))).state = .empty → scSa e (d.arg1 + 1) ≠ sa →
      e.epoch ≤ d.arg1 → d.arg1 < 0xFFFFFFFF →
      Answers .saDerive s (fun u =>
        (u.saAt sa).state = .filling ∧ (u.saAt sa).epoch = d.arg1 ∧ (u.saAt sa).derived = true ∧
        (u.saAt (scSa e (d.arg1 + 1))).state = .filling ∧ (u.saAt (scSa e (d.arg1 + 1))).epoch = d.arg1 + 1 ∧
        u.sec.kqWait = [sa, scSa e (d.arg1 + 1)] ∧ u.hif.kqRun = some b ∧ RegsBut [] s u)) ∧
    (KqRuns s b 5 → e.inUse = true → scDerived e = true → hasCurrent s e = true → (s.parentAt (scParent e)).valid = true →
      (s.saAt sa).state = .empty → d.arg1 = e.epoch + 1 →
      Answers .saDerive s (fun u =>
        (u.saAt sa).state = .filling ∧ (u.saAt sa).epoch = d.arg1 ∧ (u.saAt sa).derived = true ∧
        u.sec.kqWait = [sa] ∧ u.hif.kqRun = some b ∧ RegsBut [] s u)) ∧
    (KqRuns s b 6 → e.inUse = true →
      ((rx = true ∧ (s.saAt sa).state = .old) ∨ (rx = false ∧ (s.saAt sa).state = .ready) →
        Answers .saRetire s (fun u => (u.saAt sa).key = [] ∧ (u.saAt sa).ready = false ∧
          u.rd Reg.HIF_KQ_LAST = (d.tag + 2 ^ 16 * d.op) % 2 ^ 32 ∧ u.hif.kqRun = none)) ∧
      (¬((rx = true ∧ (s.saAt sa).state = .old) ∨ (rx = false ∧ (s.saAt sa).state = .ready)) →
        Answers .saRetire s (fun u => KqEnded d 0x44 [] s u ∧ OnlyHost [] s u)))

/-- ATTEST writes a statement whose body begins with what the module is, and completes. KEY_QUERY completes with the
value of its function. An output buffer that takes nothing is BAD_BUFFER. KEEPER_KEY_ROLL to a higher generation replaces
the keeper key, unless the record cannot be written; to any other it is refused (R239, R240, R252, R259). -/
def Obligations.KeyqAttestsQueriesAndRolls : Prop :=
  ∀ (s : State) (b : Bytes) (x : Bytes), let d := descOf b;
    (KqRuns s b 8 → InputOk d → d.inLen = 32 → kqOutOk d 5000 = true →
      Answers (.attest (.data x) false) s (fun u => u.hif.kqRun = none ∧
        u.rd Reg.HIF_KQ_LAST = (d.tag + 2 ^ 16 * d.op + 2 ^ 24 * 3) % 2 ^ 32) ∧
      Answers (.attest (.data x) true) s (fun u =>
        u.rd Reg.HIF_KQ_LAST = (d.tag + 2 ^ 16 * d.op) % 2 ^ 32 ∧ u.hif.kqRun = none ∧
        ∃ st : Bytes, .dmaWrite d.outAddr st ∈ u.out ∧ st.take 272 = attestBody s (exactly 32 x))) ∧
    (KqRuns s b 9 →
      (d.arg0 = 0 → kqOutOk d 4353 = true →
       Answers (.keyQueryIdentity false) s (fun u => u.hif.kqRun = none ∧
        u.rd Reg.HIF_KQ_LAST = (d.tag + 2 ^ 16 * d.op + 2 ^ 24 * 3) % 2 ^ 32) ∧
       Answers (.keyQueryIdentity true) s (fun u =>
        u.rd Reg.HIF_KQ_LAST = (d.tag + 2 ^ 16 * d.op) % 2 ^ 32 ∧ u.hif.kqRun = none ∧
        .dmaWrite d.outAddr identityPublic ∈ u.out ∧ u.sec = s.sec)) ∧
      (d.arg0 = 1 → Answers .keyQueryParent s (fun u => OnlyHost [] s u ∧
        KqEnded d 0 (leBytes 8 (let p := s.parentAt d.arg1
          let n := (s.sec.sa.filter (fun e => e.2.derived && e.2.parent == d.arg1 && e.2.state != .empty)).length;
          b2n p.valid + 2 * b2n p.committed + 2 ^ 16 * (n % 65536) + 2 ^ 32 * p.id)) s u)) ∧
      (d.arg0 = 2 → Answers .keyQueryTransport s (fun u => OnlyHost [] s u ∧
        KqEnded d 0 (leBytes 8 (s.rd Reg.KEY_TK_VALID + 2 ^ 16 * (tkFloor s % 2 ^ 48))) s u)) ∧
      (d.arg0 = 3 → Answers .keyQueryStatus s (fun u => OnlyHost [] s u ∧
        KqEnded d 0 (leBytes 8 (b2n (s.bit Reg.KEY_STATUS 2) + 2 * b2n (s.bit Reg.KEY_STATUS 1) +
          2 ^ 16 * s.key.vault.gen)) s u))) ∧
    (KqRuns s b 10 →
      let v := unwrapInput d (.data x) (field d.arg0 16 4) 48 0x4B 0 0 (some d.arg1) s.fresh;
      v.code = 0 → ∀ r, s.key.record = some r →
      (r.keyGen < d.arg1 → Answers (.keeperKeyRoll (.data x) true) s (fun u =>
        u.key.record = some { r with keeperKey := slice v.plain 8 32, keyGen := d.arg1 } ∧
        u.key.keeperCopy = slice v.plain 8 32 ∧ u.key.recordOld = some r ∧
        u.rd Reg.HIF_KQ_LAST = (d.tag + 2 ^ 16 * d.op) % 2 ^ 32 ∧ u.sec = s.sec) ∧
        Answers (.keeperKeyRoll (.data x) false) s (fun u => KqEnded d 0x50 [] s u ∧ u.key = s.key)) ∧
      (d.arg1 ≤ r.keyGen → ∀ ok, Answers (.keeperKeyRoll (.data x) ok) s (fun u => KqEnded d 0x60 [] s u ∧ u.key = s.key)))

/-- A source that zeroizes clears every key, parent, transport key and the vault at once, opens the vault no more,
runs every span as Discard and is recorded; one that does not raises its alarm; a repeat of a present source does
nothing. Once the clearing is done the record is made and the DRBG is to be instantiated again (R254 to R257, R114). -/
def Obligations.ZeroizeClearsEveryKey : Prop :=
  ∀ (s : State) (src : Fin 11),
    (s.pwr.mode = .on ∨ s.pwr.mode = .hold → s.bit Reg.KEY_TAMPER src.val = false →
      (zeroizes (s.rd Reg.KPR_TAMPER_RESP) src.val = true → s.key.zeroizing = none →
        Answers (.tamperSource src true) s (fun u =>
          u.key.zeroizing = some (2 ^ src.val) ∧ u.rd Reg.KEY_ZSRC = 2 ^ src.val ∧
          u.bit Reg.KEY_TAMPER src.val = true ∧ u.key.vaultOpen = false ∧ u.key.vault = {} ∧ u.key.parents = [] ∧
          u.key.transport = [] ∧ u.key.keeperCopy = [] ∧ u.key.permD = [] ∧ u.key.permM = [] ∧ u.evr.dramKey = [] ∧
          u.key.drbgDown = true ∧ u.hrn.key = [] ∧ (∀ i, (u.saAt i).key = []) ∧
          (∀ rx i, (u.scAt rx i).inUse = false) ∧ (s.pat.cut = none → u.pat.staged = none) ∧
          (∀ n, runMode u n = .discard))) ∧
      (zeroizes (s.rd Reg.KPR_TAMPER_RESP) src.val = false →
        Answers (.tamperSource src true) s (fun u =>
          u.bit Reg.KEY_TAMPER src.val = true ∧ u.bit Reg.KEY_ALARM src.val = true ∧
          u.bit Reg.KPR_ALARM src.val = true ∧ u.key = s.key ∧ u.sec = s.sec ∧
          CoreRegsBut [Reg.KEY_TAMPER, Reg.KEY_ALARM, Reg.KEY_EVT, Reg.KPR_ALARM] s u))) ∧
    (s.pwr.mode ≠ .off → s.pwr.mode ≠ .battery → s.pwr.mode ≠ .stopping → s.bit Reg.KEY_TAMPER src.val = true →
      Answers (.tamperSource src true) s (fun u => u = s.fresh.setBit Reg.KEY_TAMPER src.val true)) ∧
    (s.pwr.mode ≠ .off → s.pwr.mode ≠ .battery → s.pwr.mode ≠ .stopping →
      Answers (.tamperSource src false) s (fun u => u = s.fresh.setBit Reg.KEY_TAMPER src.val false)) ∧
    (∀ m r, coreRuns s = true → s.key.zeroizing = some m → s.key.fuse = .enrolled → s.key.record = some r →
      s.key.retireDue = false → s.key.invasiveDue = false → s.pwr.warmHeld = none →
      Answers .zeroizeClearDone s (fun u =>
        u.key.zeroizing = none ∧ u.bit Reg.KEY_STATUS 5 = true ∧ u.lifecycle = .quarantined ∧
        u.key.record = some { r with quarantined := true, zcount := r.zcount + 1, zsrc := m } ∧
        u.rd Reg.KEY_ZCOUNT = (r.zcount + 1) % 2 ^ 32 ∧ u.rd Reg.KEY_ZTIME = s.rd (Reg.TB_NS 0) ∧
        u.rd Reg.KEY_ZSRC = m % 2 ^ 32 ∧ u.bit Reg.KEY_EVT 0 = true ∧
        (.msix 5 ∈ u.out ∨ u.bit (Reg.IRQ_PBA 0) 5 = true)))

/-- A failed test of the DRBG is shown, counted and an alarm; a retry that passes ends it, with a new instantiation,
as does the one after a zeroize, which draws both permutation keys and, of two halves that differ, the DRAM key. The
re-mask engine draws a new mask for its next word, and the identity keys go when no operation uses them (R227, R228,
R246, R247, R256, R382). -/
def Obligations.RandomBitsAndMasks : Prop :=
  ∀ s : State, coreRuns s = true →
    Answers .drbgTestFail s (fun u => u.bit Reg.KEY_STATUS 2 = true ∧
      u.rd Reg.KEY_DRBG_FAILS = min (s.rd Reg.KEY_DRBG_FAILS + 1) 0xFFFFFFFF ∧ u.bit Reg.KEY_EVT 2 = true ∧
      u.bit Reg.KPR_ALARM 7 = true ∧ u.key = s.key ∧
      CoreRegsBut [Reg.KEY_STATUS, Reg.KEY_DRBG_FAILS, Reg.KEY_EVT, Reg.KPR_ALARM] s u) ∧
    (s.bit Reg.KEY_STATUS 2 = true → s.kpr.challengeDue = false →
      Answers (.drbgRetry true) s (fun u => u.bit Reg.KEY_STATUS 2 = false ∧
        u.key = { s.key with drbgDraw := s.rng + 1 } ∧ u.rng = s.rng + 1 ∧ RegsBut [Reg.KEY_STATUS] s u) ∧
      Answers (.drbgRetry false) s (fun u => u = s.fresh)) ∧
    (s.key.drbgDown = true → s.key.zeroizing = none →
      Answers .drbgReinstantiated s (fun u =>
        let bytes := fun (draw n : Nat) => (List.range n).map (fun j => Config.drbgByte draw j)
        let k := bytes (s.rng + 3) 64;
        u.key.drbgDown = false ∧ u.key.drbgDraw = s.rng + 1 ∧ u.key.permD = bytes (s.rng + 1) 16 ∧
        u.key.permM = bytes (s.rng + 2) 16 ∧ (k.take 32 ≠ k.drop 32 → u.evr.dramKey = k))) ∧
    (s.bit Reg.KEY_STATUS 0 = true → drbgOff s = false → s.key.zeroizing = none → s.bit Reg.KEY_STATUS 1 = true →
      s.key.remaskPos + 1 ≠ bankWords →
      Answers .remaskWord s (fun u =>
        u.key = { s.key with remaskPos := s.key.remaskPos + 1, masks := u.key.masks } ∧ u.rng = s.rng + 1 ∧
        (∀ w, Tbl.get (fun _ => (0 : BitVec 64)) u.key.masks w = Tbl.get (fun _ => 0) s.key.masks w ^^^
          (if w = s.key.remaskPos then BitVec.ofNat 64 (leNat (s.drbg 8)) else 0)) ∧ RegsBut [] s u)) ∧
    ((∀ b, s.hif.kqRun = some b → usesIdentity (descOf b) = false) →
      Answers .identityKeyExpire s (fun u => u = s.fresh.setBit Reg.KEY_STATUS 6 false)) ∧
    (∀ b, s.hif.kqRun = some b → usesIdentity (descOf b) = true →
      Answers .identityKeyExpire s (fun u => u = s.fresh))

/-! ## Classification -/

/-- The host commands of the classifier. A command while one runs sets IGNORED and nothing else; each other starts
with the result it will complete with, and acts on the table as its code says, at once where the engine is free, no
learn request stands before it and no bucket of it is locked; its completion shows the result, ends BUSY and raises
vector 3, after LOOKUP with the entry found in DATA (R276, R281, R283, R287, R288). -/
def Obligations.ClassifierCommandsActAndComplete : Prop :=
  ∀ s : State, let d := cmdData s
    let ready := s.cls.relocated = [] ∧ s.cls.learnQ = [] ∧ s.cls.jobs = [] ∧ keyLocked s (eKey d) = false
    let runs := fun (c : ClsCmd) (u : State) => u.cls.cmd = some c ∧ u.bit Reg.CLS_CMD_STATUS 0 = true;
    (Served s Reg.CLS_CMD → clsBusy s = true →
      ∀ c, (c ∈ [Instr.lookup, .insert, .update, .delete, .ageSweep, .flushSpan, .prefixInsert, .prefixDelete] ∨
        ∃ k : BitVec 4, c = .clsBadCode k ∧ (k.toNat = 0 ∨ 9 ≤ k.toNat)) →
      Answers c s (fun u => u.bit Reg.CLS_CMD_STATUS 1 = true ∧ OnlyRegs [Reg.CLS_CMD_STATUS] s u)) ∧
    (Served s Reg.CLS_CMD → clsBusy s = false →
      Answers .lookup s (fun u => u.cls.peers = s.cls.peers ∧
        let hit := if badKey s d false then none else findPeer s (eKey d);
        runs { code := 1, result := if badKey s d false then 4 else if hit.isSome then 0 else 1,
               out := (hit.map placeOut).getD 0, data := (hit.map s.peerAt).getD [] } u) ∧
      (∀ i,
        let e := mkEntry (byteAt d 0) (eLp d) (eVid d) (eMac d) (eStamp d) (eTarget d) 0xFFFF (s.rd (Reg.TB_NS 0)) 0
          (slice d 24 40);
        badKey s d true = false → badTarget s d = false → findPeer s (eKey d) = none → ready →
        validCount s < clsLimit s → freePlace s (peerBuckets s (eKey e)).1 = some i →
        Answers .insert s (fun u => u.peerAt i = e ∧ (∀ j, j ≠ i → u.peerAt j = s.peerAt j) ∧
          runs { code := 2, out := placeOut i } u)) ∧
      (badKey s d true = true → Answers .insert s (fun u => u.cls.peers = s.cls.peers ∧ runs { code := 2, result := 4 } u)) ∧
      (badKey s d true = false → badTarget s d = false →
        (∀ j ∈ s.cls.jobs, jobReady s j = false) → jobReady s ⟨.command, s.cls.learnQ.length⟩ = false →
        Answers .insert s (fun u => u.cls.peers = s.cls.peers ∧
          u.cls.jobs = s.cls.jobs ++ [⟨.command, s.cls.learnQ.length⟩] ∧ runs { code := 2, done := false } u)) ∧
      (∀ i, badKey s d true = false → badTarget s d = false → findPeer s (eKey d) = some i → ready →
        Answers .insert s (fun u => u.cls.peers = s.cls.peers ∧ runs { code := 2, result := 2 } u) ∧
        Answers .update s (fun u => (∀ j, j ≠ i → u.peerAt j = s.peerAt j) ∧
          u.peerAt i = mkEntry (byteAt d 0) (eLp d) (eVid d) (eMac d) (eStamp d) (eTarget d) (leAt (s.peerAt i) 14 2)
            (leAt (s.peerAt i) 16 4) (leAt (s.peerAt i) 20 4) (slice d 24 40) ∧
          runs { code := 3, out := placeOut i } u)) ∧
      (∀ i, badKey s d false = false → findPeer s (eKey d) = some i → ready →
        Answers .delete s (fun u => u.peerAt i = zeros 64 ∧ (∀ j, j ≠ i → u.peerAt j = s.peerAt j) ∧
          runs { code := 4 } u)) ∧
      (badKey s d false = false → findPeer s (eKey d) = none → ready →
        Answers .delete s (fun u => u.cls.peers = s.cls.peers ∧ runs { code := 4, result := 1 } u)) ∧
      (let a := s.rd (Reg.CLS_CMD_ARG 1);
        (spanArgOk s = true → (a = 0 ∨ 16 ≤ a ∧ a ≤ 1000000) →
          Answers .ageSweep s (runs { code := 5, bucket := some 0, done := false })) ∧
        (spanArgOk s = true → a < 2 → Answers .flushSpan s (runs { code := 6, bucket := some 0, done := false })) ∧
        (spanArgOk s = false → Answers .ageSweep s (runs { code := 5, result := 9 }) ∧
          Answers .flushSpan s (runs { code := 6, result := 9 }))) ∧
      (let e := prefixArgs s;
        (prefixBad s = true → Answers .prefixInsert s (fun u => u.cls.prefixes = s.cls.prefixes ∧
          runs { code := 7, result := 7 } u)) ∧
        (∀ i, prefixBad s = false → findPrefix s e.key e.mask = some i → Answers .prefixInsert s (fun u =>
          Tbl.get (fun _ => none) u.cls.prefixes i = some e ∧ runs { code := 7, out := i } u)) ∧
        (prefixBad s = false → findPrefix s e.key e.mask = none → s.cls.prefixes.length < 32768 →
          Answers .prefixInsert s (fun u => ∃ i, Tbl.get (fun _ => none) u.cls.prefixes i = some e ∧
            runs { code := 7, out := i } u)) ∧
        (∀ i, findPrefix s e.key e.mask = some i → Answers .prefixDelete s (fun u =>
          Tbl.get (fun _ => none) u.cls.prefixes i = none ∧ runs { code := 8, out := i } u)) ∧
        (findPrefix s e.key e.mask = none → Answers .prefixDelete s (fun u =>
          u.cls.prefixes = s.cls.prefixes ∧ runs { code := 8, result := 1 } u))) ∧
      (∀ k : BitVec 4, (k.toNat = 0 ∨ 9 ≤ k.toNat) →
        Answers (.clsBadCode k) s (runs { code := k.toNat, result := 8 }))) ∧
    (∀ c, coreRuns s = true → s.cls.cmd = some c → c.done = true →
      Answers .clsCmdComplete s (fun u => u.cls.cmd = none ∧ u.bit Reg.CLS_CMD_STATUS 0 = false ∧
        u.rdF Reg.CLS_CMD_STATUS 8 8 = c.result % 256 ∧ u.rd Reg.CLS_CMD_OUT = c.out % 2 ^ 32 ∧
        (.msix 3 ∈ u.out ∨ u.bit (Reg.IRQ_PBA 0) 3 = true) ∧ u.cls.peers = s.cls.peers ∧
        (c.code = 1 → c.result = 0 → c.data.length = 64 → cmdData u = c.data)))

/-- The learn engine commits the oldest request: a new station gets an entry, a known one a new STAMP; one that moved
is CONTESTED within its hold-down and moves after it; a STATIC entry stays. The ager and a walk remove the entries of
a bucket that are due and no others; the visit to a locked bucket waits for it. The original of a relocated entry is
cleared. CLS_AGE takes a legal age and refuses any other (R281 to R285, R287, R290). -/
def Obligations.StationsAreLearnedAndAged : Prop :=
  ∀ s : State, coreRuns s = true →
    (∀ r rest, s.cls.relocated = [] → s.cls.jobs = [] → s.cls.learnQ = r :: rest → reqLocked s r = false →
      let now := s.rd Reg.CLS_AGE_NOW
      let ns := s.rd (Reg.TB_NS 0)
      let fresh := mkEntry (1 + 2 * b2n r.client) r.port r.vid r.mac now r.target r.rxsc ns 0 (zeros 40);
      (∀ i, findPeer s (peerKey r.port r.vid r.mac) = none → validCount s < clsLimit s →
        freePlace s (peerBuckets s (eKey fresh)).1 = some i →
        Answers .learnCommit s (fun u => u.peerAt i = fresh ∧ (∀ j, j ≠ i → u.peerAt j = s.peerAt j) ∧
          u.cls.learnQ = rest ∧ u.rd Reg.CLS_LEARNS = min (s.rd Reg.CLS_LEARNS + 1) 0xFFFFFFFF)) ∧
      (∀ i, findPeer s (peerKey r.port r.vid r.mac) = some i →
        let e := s.peerAt i
        let same := eFlag e 1 = r.client ∧ eTarget e = r.target;
        (eFlag e 2 = true → ¬same → Answers .learnCommit s (fun u => u.cls.peers = s.cls.peers ∧ u.cls.learnQ = rest ∧
          u.rd Reg.CLS_STATIC_HITS = min (s.rd Reg.CLS_STATIC_HITS + 1) 0xFFFFFFFF)) ∧
        (eFlag e 2 = false → same → Answers .learnCommit s (fun u => u.peerAt i = splice e 10 (leBytes 2 now) ∧
          u.cls.learnQ = rest ∧ ∀ j, j ≠ i → u.peerAt j = s.peerAt j)) ∧
        (eFlag e 2 = false → ¬same → holdDown s e = true → Answers .learnCommit s (fun u =>
          u.peerAt i = splice e 0 (leBytes 1 (byteAt e 0 ||| 8)) ∧ u.cls.learnQ = rest ∧
          u.rd Reg.CLS_CONFLICTS = min (s.rd Reg.CLS_CONFLICTS + 1) 0xFFFFFFFF)) ∧
        (eFlag e 2 = false → ¬same → holdDown s e = false → Answers .learnCommit s (fun u =>
          u.peerAt i = mkEntry (1 + 2 * b2n r.client) r.port r.vid r.mac now r.target r.rxsc ns
            (min (leAt e 20 4 + 1) 0xFFFFFFFF) (slice e 24 40) ∧ u.cls.learnQ = rest ∧
          u.rd Reg.CLS_MOVES = min (s.rd Reg.CLS_MOVES + 1) 0xFFFFFFFF)))) ∧
    (∀ b, s.cls.jobs = [] → s.evr.rebuilding = false →
      (hostLocked s b = false → s.cls.relocated = [] → s.cls.learnQ = [] →
        Answers (.agerVisit b) s (fun u =>
          (∀ i, u.peerAt i = if i / 8 = b ∧ eFlag (s.peerAt i) 0 = true ∧ expired s (ageTime s) (s.peerAt i) = true
            then zeros 64 else s.peerAt i) ∧
          u.rd Reg.CLS_AGED = min (s.rd Reg.CLS_AGED + (bucketPlaces s b (expired s (ageTime s))).length) 0xFFFFFFFF)) ∧
      (hostLocked s b = true → Answers (.agerVisit b) s (fun u =>
        u = { s.fresh with cls := { s.cls with jobs := [⟨.visit b, s.cls.learnQ.length⟩] } }))) ∧
    (∀ c b, s.cls.cmd = some c → c.bucket = some b → s.cls.relocated = [] → hostLocked s b = false →
      let arg := s.rd (Reg.CLS_CMD_ARG 1)
      let gone := fun e : Bytes =>
        ((bitsOf 32 (s.rd (Reg.CLS_CMD_ARG 0))).map (fun n => (spanCfg s n).line)).contains (eLp e) &&
        (if c.code = 5 then expired s (if arg = 0 then ageTime s else arg) e else arg.testBit 0 || !eFlag e 2);
      Answers .sweepBucket s (fun u =>
        (∀ i, u.peerAt i = if i / 8 = b ∧ eFlag (s.peerAt i) 0 = true ∧ gone (s.peerAt i) = true
          then zeros 64 else s.peerAt i) ∧
        u.cls.cmd = some { c with out := c.out + (bucketPlaces s b gone).length,
                                  bucket := if b + 1 = clsBuckets s then none else some (b + 1),
                                  done := decide (b + 1 = clsBuckets s) })) ∧
    (∀ m rest, s.cls.relocated = m :: rest → s.cls.cmd = none → s.cls.learnQ = [] → s.cls.jobs = [] →
      Answers .relocateClear s (fun u => u.peerAt m.1 = zeros 64 ∧ u.cls.relocated = rest ∧
        ∀ j, j ≠ m.1 → u.peerAt j = s.peerAt j)) ∧
    (∀ v : Word, Served s Reg.CLS_AGE → let a := v.toNat % 2 ^ 20
      (16 ≤ a → a ≤ 1000000 → Answers (.clsAgeWrite v) s (fun u => u.rd Reg.CLS_AGE = a ∧ OnlyRegs [Reg.CLS_AGE] s u)) ∧
      ((a < 16 ∨ 1000000 < a) → Answers (.clsAgeWrite v) s (fun u => u.bit Reg.CLS_STATUS 1 = true ∧
        OnlyRegs [Reg.CLS_STATUS] s u)))

/-- The compact bucket window. A read of a free lock word takes the lock with a shadow of the bucket; a write of a
word under the lock goes to the shadow, without it is a violation; a commit puts a shadow that passes into the bucket
with the next VERSION and drops one that does not; ABORT and the time limit drop it. With the full layout the lock
word reads as all ones. CLSP makes the shadows of CLS_PORT active, and a write to a table window is a violation (R289,
R290, R292). -/
def Obligations.BucketWindowWorksUnderItsLock : Prop :=
  ∀ (s : State) (b : Nat), Served2 s →
    (clsLayout s ≠ 0 → Answers (.bucketLockRead b) s (fun u => u = s.fresh.emit (.readData [0xFFFFFFFF#32]))) ∧
    (clsLayout s = 0 → b < clsBuckets s →
      (hostLocked s b = true → Answers (.bucketLockRead b) s (fun u => u = s.fresh.emit (.readData [word (lockWord s b)]))) ∧
      (hostLocked s b = false → engineHolds s b = true →
        Answers (.bucketLockRead b) s (fun u => u = s.fresh.emit (.readData [word (lockWord s b)]))) ∧
      (hostLocked s b = false → engineHolds s b = false → Answers (.bucketLockRead b) s (fun u => u.out = [.readData [word (lockWord s b)]] ∧
        Tbl.get (fun _ => none) u.cls.locks b = some s.refTick ∧
        Tbl.get (fun _ => none) u.cls.shadows b = some (bucketBytes s b) ∧ u.cls.peers = s.cls.peers ∧ RegsBut [] s u))) ∧
    (∀ (a : Addr) (w : Word), 0x2000000 ≤ a.toNat → a.toNat < 0x4000000 → a.toNat % 4 = 0 → clsLayout s = 0 →
      let o := a.toNat - 0x2000000 + s.rdF Reg.CLS_WIN_PAGE 0 2 * 2 ^ 25;
      (∀ sh, Tbl.get (fun _ => none) s.cls.shadows (o / 512) = some sh →
        Answers (.bucketEntryWrite a [w]) s (fun u =>
          Tbl.get (fun _ => none) u.cls.shadows (o / 512) = some (splice sh (o % 512) (leBytes 4 w.toNat)) ∧
          u.cls.peers = s.cls.peers ∧ RegsBut [] s u)) ∧
      (Tbl.get (fun _ => none) s.cls.shadows (o / 512) = none →
        Answers (.bucketEntryWrite a [w]) s (fun u =>
          u.rd Reg.CLS_WIN_VIOL = min (s.rd Reg.CLS_WIN_VIOL + 1) 0xFFFFFFFF ∧ u.bit Reg.CLS_EVT 4 = true ∧
          OnlyHost [Reg.CLS_WIN_VIOL, Reg.CLS_EVT] s u))) ∧
    (∀ sh, clsLayout s = 0 → hostLocked s b = true → s.cls.relocated = [] → s.cls.jobs = [] →
      Tbl.get (fun _ => none) s.cls.shadows b = some sh →
      (shadowBad s b sh = false → sh = bucketBytes s b → Answers (.bucketCommit b) s (fun u =>
        hostLocked u b = false ∧ u.cls.peers = s.cls.peers ∧ u.cls.versions = s.cls.versions ∧ RegsBut [] s u)) ∧
      (shadowBad s b sh = false → sh ≠ bucketBytes s b →
        Answers (.bucketCommit b) s (fun u => hostLocked u b = false ∧
          (∀ k < 8, u.peerAt (8 * b + k) = slice sh (64 * k) 64) ∧ (∀ i, i / 8 ≠ b → u.peerAt i = s.peerAt i) ∧
          Tbl.get (fun _ => 0) u.cls.versions b = (Tbl.get (fun _ => 0) s.cls.versions b + 1) % 65536)) ∧
      (shadowBad s b sh = true →
        Answers (.bucketCommit b) s (fun u => hostLocked u b = false ∧ u.cls.peers = s.cls.peers ∧
          u.rd Reg.CLS_WIN_VIOL = min (s.rd Reg.CLS_WIN_VIOL + 1) 0xFFFFFFFF)) ∧
      Answers (.bucketAbort b) s (fun u => hostLocked u b = false ∧ u.cls.peers = s.cls.peers ∧
        Tbl.get (fun _ => none) u.cls.shadows b = none ∧ RegsBut [] s u)) ∧
    (∀ t, s.cls.jobs = [] → (b, some t) ∈ s.cls.locks → (∀ b' t', (b', some t') ∈ s.cls.locks → b' ≠ b → t < t') →
      (∀ t', (b, some t') ∈ s.cls.locks → t' = t) →
      Answers .bucketLockTimeout s (fun u => hostLocked u b = false ∧ u.cls.peers = s.cls.peers ∧
        u.rd Reg.CLS_WIN_VIOL = min (s.rd Reg.CLS_WIN_VIOL + 1) 0xFFFFFFFF)) ∧
    (Served s Reg.CLS_PORT_COMMIT → Answers .clspCommit s (fun u =>
      (∀ m < 32, u.actv (Reg.CLS_PORT m) = s.rd (Reg.CLS_PORT m)) ∧ u = { s.fresh with act := u.act })) ∧
    (∀ (a : Addr) (v : Word), 0x400000 ≤ a.toNat → a.toNat < 0x800000 → Served s a.toNat →
      Answers (.tableWindowWrite a v) s (fun u =>
        u.rd Reg.CLS_WIN_VIOL = min (s.rd Reg.CLS_WIN_VIOL + 1) 0xFFFFFFFF ∧ u.bit Reg.CLS_EVT 4 = true ∧
        OnlyHost [Reg.CLS_WIN_VIOL, Reg.CLS_EVT] s u))

/-! ## Scheduling -/

/-- Gate lists, buckets and weights. A cycle starts at entry 0, under the pending list if there is one; the next entry
opens after it. A commit holds a list that passes as pending; an access of GATES acts on the entry at IDX and moves
IDX on. A commit of shapers and weights applies to an idle port at once and to a busy one at its frame boundary. A
service mode empties or fills the buckets, and tokens accrue up to the depth (R304, R307, R309, R310, R320). -/
def Obligations.GatesShapersAndWeights : Prop :=
  ∀ (s : State) (p : Port32), coreRuns s = true →
    let ps := s.portAt (32 + p.val)
    let len := cycleLen ps.cycleStart (gateMark s ps) ps.list;
    (ps.gatesOn = true →
      (ps.pending = none → Answers (.gateCycleStart p) s (fun u => u.portAt (32 + p.val) =
        { ps with entry := 0, entryStart := (ps.cycleStart + len) % 2 ^ 32, cycleStart := (ps.cycleStart + len) % 2 ^ 32 })) ∧
      (∀ l, ps.pending = some l → Answers (.gateCycleStart p) s (fun u => (u.portAt (32 + p.val)).list = l ∧
        (u.portAt (32 + p.val)).pending = none ∧ (u.portAt (32 + p.val)).entry = 0 ∧ u.bit Reg.SCH_EVT 0 = true)) ∧
      (ps.entry + 1 < ps.list.entries.length → Answers (.gateEntryChange p) s (fun u =>
        u.portAt (32 + p.val) = { ps with
          entry := ps.entry + 1, entryStart := (ps.entryStart + (ps.list.entries.getD ps.entry {}).dur) % 2 ^ 32 } ∧
        RegsBut [Reg.SCH_GSTAT p.val] s u))) ∧
    (ps.gatesOn = false → Answers (.gateCycleStart p) s (fun u => u = s.fresh)) ∧
    (Served s Reg.SCH_GCL_COMMIT →
      let qs := s.portAt (32 + gclPort s);
      (qs.pending.isSome = true → Answers .gateListCommit s (fun u => u.bit Reg.SCH_GCL_STATUS 1 = true ∧
        OnlyRegs [Reg.SCH_GCL_STATUS] s u)) ∧
      (qs.pending = none → gclCode s ≠ 0 → Answers .gateListCommit s (fun u =>
        u.rdF Reg.SCH_GCL_STATUS 8 8 = gclCode s ∧ OnlyRegs [Reg.SCH_GCL_STATUS] s u)) ∧
      (qs.pending = none → gclCode s = 0 → Answers .gateListCommit s (fun u =>
        u.portAt (32 + gclPort s) =
          { qs with pending := some { qs.shadow with entries := qs.shadow.entries.take qs.shadowCount } }))) ∧
    (let qs := s.portAt (32 + gclPort s)
      let idx := s.rdF Reg.SCH_GCL_SEL 16 10;
      Served s Reg.SCH_GCL_GATES →
      (∀ v : Word, qs.pending = none → s.bit Reg.SCH_GCL_SEL 31 = false →
        Answers (.gateEntryAccess (some v)) s (fun u =>
          ((u.portAt (32 + gclPort s)).shadow.entries.getD idx {}) =
            { qs.shadow.entries.getD idx {} with gates := v.toNat % 256 } ∧
          u.rdF Reg.SCH_GCL_SEL 16 10 = (idx + 1) % 1024)) ∧
      Answers (.gateEntryAccess none) s (fun u => ∃ w, u = pmcCount 0x0D00 0xFF 1 w ∧ w.sch = s.sch ∧
        w.out = [.readData [word (s.rd Reg.SCH_GCL_GATES)]] ∧ w.rdF Reg.SCH_GCL_SEL 16 10 = (idx + 1) % 1024)) ∧
    (Served s (Reg.SCH_PCOMMIT p.val) →
      (schpCode s p.val ≠ 0 → Answers (.schpCommit p) s (fun u =>
        u.rdF (Reg.SCH_PSTATUS p.val) 8 8 = schpCode s p.val ∧ OnlyRegs [Reg.SCH_PSTATUS p.val] s u)) ∧
      (schpCode s p.val = 0 → ps.sending = none → Answers (.schpCommit p) s (fun u => ∀ c < 7,
        u.actv (Reg.SCH_WEIGHT p.val c) = s.rd (Reg.SCH_WEIGHT p.val c) ∧
        u.actv (Reg.SCH_SHP_RATE p.val c) = s.rd (Reg.SCH_SHP_RATE p.val c) ∧
        u.actv (Reg.SCH_SHP_DEPTH p.val c) = s.rd (Reg.SCH_SHP_DEPTH p.val c))) ∧
      (schpCode s p.val = 0 → ps.sending ≠ none → Answers (.schpCommit p) s (fun u =>
        u.bit (Reg.SCH_PSTATUS p.val) 0 = true ∧ u.act = s.act ∧ RegsBut [Reg.SCH_PSTATUS p.val] s u))) ∧
    (Served s (Reg.SCH_CCOMMIT p.val) →
      let bad := (List.range 7).any (fun c => weightBad (s.rd (Reg.SCH_CQW p.val c)));
      (bad = true → Answers (.schcCommit p) s (fun u => u.rdF (Reg.SCH_CSTATUS p.val) 8 8 = 3 ∧
        OnlyRegs [Reg.SCH_CSTATUS p.val] s u)) ∧
      (bad = false → (s.portAt p.val).sending = none → Answers (.schcCommit p) s (fun u =>
        u.bit (Reg.SCH_CSTATUS p.val) 0 = false ∧
        ∀ c < 7, u.actv (Reg.SCH_CQW p.val c) = s.rd (Reg.SCH_CQW p.val c)))) ∧
    (∀ v : Word, Served s (Reg.SCH_SVC p.val) → Answers (.serviceModeWrite p v) s (fun u =>
      u.rd (Reg.SCH_SVC p.val) = v.toNat % 8 ∧
      (v.toNat % 4 ≠ 0 → ∀ c < 7, u.rd (Reg.SCH_TOK p.val c) =
        (if v.toNat.testBit 2 then (bucketOf s p.val c).2.1 else 0)) ∧
      (v.toNat % 4 = 0 → OnlyRegs [Reg.SCH_SVC p.val] s u))) ∧
    (∀ c : Fin 8, let b := bucketOf s p.val c.val;
      (b.2.2 = true → Answers (.tokenAccrue p c) s (fun u =>
        u.rd (Reg.SCH_TOK p.val c.val) = unsignedOf 32 (min (8 * b.2.1 : Int) (ps.tokens.getD c.val 0 + b.1) / 8) ∧
        RegsBut [Reg.SCH_TOK p.val c.val] s u)) ∧
      (b.2.2 = false → Answers (.tokenAccrue p c) s (fun u => u = s.fresh)))

/-- A frame spilled gives up its tag and keeps its place, or finds no room and stays, counted once; the first spilled
frame comes back under a new tag. A pause
in force toward a client is sent again, but not by a port that is disabled or in test; one received ends. A sample enters every queue's record; LS_SEL shows the
record it names and LS_CLR clears it (R311 to R314, R317, R318). -/
def Obligations.SpillPauseAndSamples : Prop :=
  ∀ (s : State) (p : Port32) (c : Fin 8), coreRuns s = true →
    (∀ id, spillDue s (32 + p.val) (s.queue (32 + p.val) c.val) 0 false = some id →
      spillRoom s (outLen (s.frameAt id)) = true →
      Answers (.spillWriteDone p c) s (fun u => u.hasFrame id = false ∧
        u.queue (32 + p.val) c.val =
          (s.queue (32 + p.val) c.val).map (fun e => if e = .held id then .spilled (s.frameAt id) else e) ∧
        u.rd Reg.SCH_SPILL_FRAMES = min (s.rd Reg.SCH_SPILL_FRAMES + 1) 0xFFFFFFFF)) ∧
    (∀ id, spillDue s (32 + p.val) (s.queue (32 + p.val) c.val) 0 false = some id →
      spillRoom s (outLen (s.frameAt id)) = false →
      Answers (.spillWriteDone p c) s (fun u => (u.frameAt id).denied = true ∧ u.sch.queues = s.sch.queues ∧
        u.rd Reg.SCH_SPILL_DENIED = min (s.rd Reg.SCH_SPILL_DENIED + 1) 0xFFFFFFFF)) ∧
    (∀ pre f post, s.queue (32 + p.val) c.val = pre ++ .spilled f :: post → hasSpilled pre = false →
      tagAvailable s false = true → 2 * onDie s (32 + p.val) c.val < spillTh s (32 + p.val) →
      (spillMoved s).2 + outLen f ≤ spillLimit s →
      Answers (.spillReadback p c) s (fun u => u.frameAt (freeTag s) = f ∧
        (f ≠ {} → u.hasFrame (freeTag s) = true) ∧
        u.queue (32 + p.val) c.val = pre ++ .held (freeTag s) :: post)) ∧
    (∀ m : Port32, let blocked := (portTest s m.val || !s.bit (Reg.PEN_EN m.val) 0) = true;
      (¬blocked → Answers (.pauseRepeat m) s (fun u => u.sch.ports = s.sch.ports ∧
        u.rd (Reg.SCH_PAUSE_TX m.val) =
          min (s.rd (Reg.SCH_PAUSE_TX m.val) + (bitsOf 7 (s.portAt m.val).pausing).length) 0xFFFFFFFF)) ∧
      (blocked → Answers (.pauseRepeat m) s (fun u => u = s.fresh))) ∧
    (∀ m : Port32, Answers (.pauseExpire m) s (fun u =>
      u = s.fresh.setPort m.val { s.portAt m.val with paused := 0 })) ∧
    (s.bit Reg.SCH_LS_CTRL 31 = true → s.bit Reg.CLK_ON 3 = true →
      Answers .queueSample s (fun u => (∀ k < 512, Tbl.get (fun _ => {}) u.sch.samples k =
        addSample (s.rdF Reg.SCH_LS_BIN 0 4) (sampleOf s (k / 8) (k % 8)) (Tbl.get (fun _ => {}) s.sch.samples k)) ∧
        u = { s.fresh with sch := { s.sch with samples := u.sch.samples } })) ∧
    ((s.bit Reg.SCH_LS_CTRL 31 = false ∨ s.bit Reg.CLK_ON 3 = false) →
      Answers .queueSample s (fun u => u = s.fresh)) ∧
    (∀ v : Word, Served s Reg.SCH_LS_SEL → let r := Tbl.get (fun _ => ({} : SampleRec)) s.sch.samples (lsKey v.toNat)
      Answers (.lsSelect v) s (fun u => u.rd Reg.SCH_LS_SEL = v.toNat % 512 ∧
        u.rd (Reg.SCH_LS_REC 0) = r.depthMin % 2 ^ 32 ∧ u.rd (Reg.SCH_LS_REC 1) = r.depthMax % 2 ^ 32 ∧
        u.rd (Reg.SCH_LS_REC 5) = r.delayLast % 2 ^ 32 ∧
        (∀ i < 16, u.rd (Reg.SCH_LS_HIST i) = r.bins.getD i 0 % 2 ^ 32) ∧
        OnlyRegs (Reg.SCH_LS_SEL :: (List.range 6).map Reg.SCH_LS_REC ++ (List.range 16).map Reg.SCH_LS_HIST) s u)) ∧
    (Served s Reg.SCH_LS_CLR → Answers .lsClear s (fun u =>
      Tbl.get (fun _ => {}) u.sch.samples (lsKey (s.rd Reg.SCH_LS_SEL)) = ({} : SampleRec) ∧ RegsBut [] s u))

/-! ## Ports and serial lanes -/

/-- A defect that exists on an enabled port of a span, not suppressed and with its raw condition there, is declared:
it clears the defects that it suppresses, is noted and raises the span's vector unless it is masked. A suppressed one
is not declared. Its clearing takes the defect and its raw condition away. A port that is disabled loses its defects
and its link; a group of defect-integration values waits for the marker; auto-negotiation sends the base page and gives
the link (R324, R325, R339 to R347). -/
def Obligations.DefectsAreDeclaredAndCleared : Prop :=
  ∀ (s : State) (p : Port64), coreRuns s = true →
    (∀ (d : Fin 12) n, portSpan s p.val = some n → n < 32 → s.bit (Reg.PEN_EN p.val) 0 = true →
      (defectExists s p.val d.val = true → s.bit (Reg.PEN_DEF p.val) d.val = false →
        isSuppressed s p.val d.val = false →
        (rawTracked s p.val d.val = true → s.bit (Reg.PEN_DEF_RAW p.val) d.val = true) →
        Answers (.defectDeclare p d) s (fun u =>
          u.bit (Reg.PEN_DEF p.val) d.val = true ∧ u.bit (Reg.PEN_DEF_RAW p.val) d.val = true ∧
          u.bit (Reg.PEN_DEF_EVT p.val) d.val = true ∧
          (∀ e ∈ suppressed d.val, u.bit (Reg.PEN_DEF p.val) e = false) ∧
          (∀ e, e ≠ d.val → e ∉ suppressed d.val → u.bit (Reg.PEN_DEF p.val) e = s.bit (Reg.PEN_DEF p.val) e) ∧
          (s.bit (Reg.PEN_DEF_MASK p.val) d.val = false →
            (.msix (8 + n) ∈ u.out ∨ u.bit (Reg.IRQ_PBA ((8 + n) / 32)) ((8 + n) % 32) = true)))) ∧
      (s.bit (Reg.PEN_DEF p.val) d.val = true → (d.val = 0 → portFailed s p.val = false) →
        (rawTracked s p.val d.val = true → s.bit (Reg.PEN_DEF_RAW p.val) d.val = false) →
        Answers (.defectClear p d) s (fun u =>
          u.bit (Reg.PEN_DEF p.val) d.val = false ∧ u.bit (Reg.PEN_DEF_RAW p.val) d.val = false ∧
          u.bit (Reg.PEN_DEF_EVT p.val) d.val = true ∧
          (∀ e, e ≠ d.val → u.bit (Reg.PEN_DEF p.val) e = s.bit (Reg.PEN_DEF p.val) e)))) ∧
    (∀ d : Fin 12, (isSuppressed s p.val d.val = true ∨ defectExists s p.val d.val = false ∨
        s.bit (Reg.PEN_DEF p.val) d.val = true) →
      Answers (.defectDeclare p d) s (fun u => u = s.fresh)) ∧
    (∀ d : Fin 12, s.bit (Reg.PEN_DEF p.val) d.val = false →
      Answers (.defectClear p d) s (fun u => u = s.fresh)) ∧
    (∀ v : Word, Served s (Reg.PEN_EN p.val) →
      Answers (.portEnableWrite p v) s (fun u =>
        u.rd (Reg.PEN_EN p.val) = v.toNat % 2 ∧
        (s.bit (Reg.PEN_EN p.val) 0 = v.toNat.testBit 0 → OnlyRegs [Reg.PEN_EN p.val] s u) ∧
        (s.bit (Reg.PEN_EN p.val) 0 = true → v.toNat.testBit 0 = false → (portSpan s p.val).isSome = true →
          (∀ d < 12, u.bit (Reg.PEN_DEF p.val) d = false) ∧ u.rd (Reg.PEN_DEF_RAW p.val) = 0 ∧
          u.bit (Reg.PEN_PSTAT p.val) 0 = false ∧ u.bit (Reg.PEN_PSTAT p.val) 4 = false) ∧
        (s.bit (Reg.PEN_EN p.val) 0 = false → v.toNat.testBit 0 = true → (portSpan s p.val).isSome = true →
          u.bit (Reg.PEN_DEF_RAW p.val) 0 =
            (portLanes (portCfg s p.val) p.val).any (fun l => s.bit (Reg.LANE_STATUS l) 9)))) ∧
    (Served s Reg.PEN_INTEG_COMMIT →
      Answers .dintCommit s (fun u => u.bit Reg.PEN_INTEG_STATUS 0 = true ∧ u.act = s.act ∧
        (∀ side < 2, ∀ d < 12, (Reg.PEN_INTEG side d, s.rd (Reg.PEN_INTEG side d)) ∈ u.lan.dint) ∧
        u.lan = { s.lan with dint := u.lan.dint } ∧ OnlyRegs [Reg.PEN_INTEG_STATUS] { s with lan := u.lan } u)) ∧
    ((portCfg s p.val).type = 1 → s.bit (Reg.PEN_EN p.val) 0 = true → (portSpan s p.val).isSome = true →
      Answers (.anegComplete p) s (fun u => u.bit (Reg.PEN_PSTAT p.val) 4 = true ∧
        .basePage p.val (basePage s p.val) ∈ u.out ∧
        (declared s p.val [0, 1, 2, 3, 4] = false → u.bit (Reg.PEN_PSTAT p.val) 0 = true))) ∧
    ((portCfg s p.val).type ≠ 1 → Answers (.anegComplete p) s (fun u => u = s.fresh))

/-- Legal transmit taps are taken, others set FFE_ERR and change nothing. A CDR that locks starts adaptation with zero
taps. A good guard window counts toward the eight that let a lane go on adapting, a bad one freezes it. The checker
locks, and counts what it saw when it loses lock; its counts start at 0 with it; a pattern that starts or stops, an
injected error and a rate of errors leave (R325 to R329, R334 to R337). -/
def Obligations.LanesAdaptAndTest : Prop :=
  ∀ (s : State) (l : Fin 72), coreRuns s = true →
    let st := Reg.LANE_STATUS l.val;
    (∀ v : Word, Served s (Reg.LANE_TXFFE l.val) →
      let legal := field v.toNat 0 5 ≤ 16 ∧ field v.toNat 8 5 ≤ 24 ∧ field v.toNat 16 4 ≤ 12 ∧
        field v.toNat 0 5 + field v.toNat 8 5 ≤ 32;
      (legal → Answers (.txffeWrite l v) s (fun u => OnlyRegs [Reg.LANE_TXFFE l.val] s u ∧
        u.rd (Reg.LANE_TXFFE l.val) =
          field v.toNat 0 5 + 2 ^ 8 * field v.toNat 8 5 + 2 ^ 16 * field v.toNat 16 4)) ∧
      (¬legal → Answers (.txffeWrite l v) s (fun u => u.bit st 8 = true ∧ OnlyRegs [st] s u))) ∧
    (∀ k : Lane,
      (lanePowered s k.val = true → Answers (.cdrLock k) s (fun u =>
        u.bit (Reg.LANE_STATUS k.val) 0 = true ∧ u.bit (Reg.LANE_STATUS k.val) 1 = true ∧
        (k.val ≠ 72 → u.rdF (Reg.LANE_STATUS k.val) 2 2 = b2n (s.bit (Reg.LANE_CTRL k.val) 2) ∧
          u.rdF (Reg.LANE_STATUS k.val) 4 4 = 0 ∧
          ∀ j < 12, u.rd (Reg.LANE_DFE k.val j) =
            (if s.bit (Reg.LANE_CTRL k.val) 2 then 0 else s.rd (Reg.LANE_DFE k.val j))) ∧
        OnlyRegs (Reg.LANE_STATUS k.val :: (List.range 12).map (Reg.LANE_DFE k.val)) s u)) ∧
      (lanePowered s k.val = false → Answers (.cdrLock k) s (fun u => u = s.fresh))) ∧
    (∀ (density minPop : BitVec 10) (good : Bool), lanePowered s l.val = true → s.bit st 1 = true →
      let fine := (good && windowAllows (lanePam4 s l.val) density.toNat minPop.toNat) = true;
      Answers (.guardWindow l density minPop good) s (fun u =>
        u.rd (Reg.LANE_GUARD l.val) = density.toNat + 2 ^ 16 * (if lanePam4 s l.val then minPop.toNat else 0) ∧
        (s.rdF st 2 2 = 0 → OnlyRegs [Reg.LANE_GUARD l.val] s u) ∧
        (s.rdF st 2 2 ≠ 0 → fine →
          u.rdF st 4 4 = min 8 (s.rdF st 4 4 + 1) ∧ u.rd (Reg.LANE_FREEZES l.val) = s.rd (Reg.LANE_FREEZES l.val) ∧
          u.rdF st 2 2 = (if 7 ≤ s.rdF st 4 4 then 2 else s.rdF st 2 2)) ∧
        (s.rdF st 2 2 ≠ 0 → ¬fine → u.rdF st 4 4 = 0 ∧ u.rdF st 2 2 = 3 ∧
          u.rd (Reg.LANE_FREEZES l.val) = (if s.rdF st 2 2 = 3 then s.rd (Reg.LANE_FREEZES l.val)
            else min (s.rd (Reg.LANE_FREEZES l.val) + 1) 0xFFFFFFFF)))) ∧
    (s.bit (Reg.LANE_PRBS l.val) 12 = true → s.bit Reg.CLK_ON 2 = true →
      Answers (.prbsLock l) s (fun u => u.bit st 10 = true ∧ OnlyRegs [st] s u)) ∧
    ((s.bit (Reg.LANE_PRBS l.val) 12 = false ∨ s.bit Reg.CLK_ON 2 = false) →
      Answers (.prbsLock l) s (fun u => u = s.fresh)) ∧
    (∀ errors bits, s.bit st 10 = true → s.bit Reg.CLK_ON 2 = true →
      Answers (.prbsLoss l errors bits) s (fun u =>
        u.rd64 (Reg.LANE_PRBS_CNT l.val 0) = (s.rd64 (Reg.LANE_PRBS_CNT l.val 0) + errors) % 2 ^ 64 ∧
        u.rd64 (Reg.LANE_PRBS_CNT l.val 2) = (s.rd64 (Reg.LANE_PRBS_CNT l.val 2) + bits) % 2 ^ 64 ∧
        u.bit st 10 = false ∧ u.bit st 11 = true)) ∧
    (∀ (v : Word) (report : List LineReport), Served s (Reg.LANE_PRBS l.val) → let a := Reg.LANE_PRBS l.val;
      Answers (.lanePrbsWrite l v report) s (fun u =>
        u.bit a 4 = v.toNat.testBit 4 ∧ u.bit a 12 = v.toNat.testBit 12 ∧
        u.rdF a 0 4 = (if patternOk s l.val (field v.toNat 0 4) then field v.toNat 0 4 else s.rdF a 0 4) ∧
        u.rdF a 8 4 = (if patternOk s l.val (field v.toNat 8 4) then field v.toNat 8 4 else s.rdF a 8 4) ∧
        (v.toNat.testBit 12 = false → u.bit st 10 = false) ∧
        (v.toNat.testBit 12 = true → s.bit a 12 = false →
          u.rd64 (Reg.LANE_PRBS_CNT l.val 0) = 0 ∧ u.rd64 (Reg.LANE_PRBS_CNT l.val 2) = 0) ∧
        (lanePattern u l.val ≠ lanePattern s l.val → .pattern l.val (lanePattern u l.val) ∈ u.out))) ∧
    (∀ v : Word, Served s (Reg.LANE_INJ l.val) →
      Answers (.errorInject l v) s (fun u => let a := Reg.LANE_INJ l.val
        let turned := if injectingRate u l.val = injectingRate s l.val then []
          else [Output.injectRate l.val (injectingRate u l.val)];
        u.rdF a 0 2 = field v.toNat 0 2 ∧ OnlyRegs [a] s u ∧
        u.rdF a 16 5 = (if 10 ≤ field v.toNat 16 5 ∧ field v.toNat 16 5 ≤ 30 then field v.toNat 16 5
          else s.rdF a 16 5) ∧
        u.out = turned ++ (if v.toNat.testBit 2 = false then [] else if field v.toNat 0 2 = 1 then [.injected l.val 1]
          else if field v.toNat 0 2 = 2 then [.injected l.val (u.rdF a 8 8)] else [])))

/-- The harness lanes train in steps: the clock locks, a word goes out for each that comes (the model's reading, log
entry 119), words are recognised upright or inverted, a step that does not
end in time fails with its cause, and training starts again after a failure. A harness that was up goes down with its
key, counts it and trains again, at the host's word too; the active of a pair is then ISOLATED (R331 to R333, R351,
R480). -/
def Obligations.HarnessLanesTrain : Prop :=
  ∀ s : State, coreRuns s = true →
    let down := fun (cause : Nat) (u : State) => u.hrn.up = false ∧ u.hrn.key = [] ∧ u.hrn.paired = false ∧
      u.rd Reg.LANE_HRN_DOWNS = min (s.rd Reg.LANE_HRN_DOWNS + 1) 0xFFFFFFFF ∧
      u.rdF Reg.CHN_HRN_STATUS 8 3 = cause ∧ (harnessOn s = true → hrnState u = 1) ∧
      (pairState s = 2 → pairState u = 5)
    -- a lane whose pattern generator runs sends no training word
    let gen := fun (k : Fin 8) => (lanePattern s (64 + k.val)).isSome
    -- the count of the next word that lane k sends, and how many with RX_DONE it has sent, after one more word
    let sent := fun (k : Fin 8) => if gen k then ((trainAt s k.val).sent, (trainAt s k.val).doneSent)
      else (((trainAt s k.val).sent + 1) % 128, if s.lan.deskewed then (trainAt s k.val).doneSent + 1 else 0);
    (hrnState s = 1 → Answers .hckLock s (fun u => hrnState u = 2 ∧ u.bit (Reg.LANE_STATUS 72) 0 = true ∧
      u.bit (Reg.LANE_STATUS 72) 1 = true ∧ OnlyRegs [Reg.LANE_STATUS 72, Reg.LANE_HRN_STATUS] s u)) ∧
    (hrnState s ≠ 1 → Answers .hckLock s (fun u => u = s.fresh)) ∧
    (∀ (k : Fin 8) (j count : Nat) (done inverted : Bool) (w : BitVec 64), (hrnState s = 2 ∨ hrnState s = 3) →
      j < 16 → count < 128 →
      w.toNat = (if inverted then 2 ^ 64 - 1 - trainWord j done count else trainWord j done count) →
      Answers (.trainingWord k w) s (fun u => let t := trainAt s k.val;
        (gen k = false → .training k.val (trainWord k.val s.lan.deskewed t.sent) ∈ u.out) ∧
        trainAt u k.val =
          { run := if 0 < t.run ∧ t.flipped = inverted ∧ t.lane = j then t.run + 1 else 1, lane := j, flipped := inverted,
            count := count, done := if done then t.done + 1 else 0, sent := (sent k).1, doneSent := (sent k).2 })) ∧
    (∀ (k : Fin 8) (w : BitVec 64), (hrnState s = 2 ∨ hrnState s = 3) →
      w.toNat / 2 ^ 16 ≠ 0x5AC3960FE13C → w.toNat / 2 ^ 16 ≠ 2 ^ 48 - 1 - 0x5AC3960FE13C →
      Answers (.trainingWord k w) s (fun u => trainAt u k.val = { sent := (sent k).1, doneSent := (sent k).2 } ∧
        u.regs = s.regs)) ∧
    (∀ c, (hrnState s, c) ∈ [(1, 1), (2, 2), (3, 4)] →
      Answers .trainingTimeout s (fun u => hrnState u = 0 ∧ u.rdF Reg.LANE_HRN_STATUS 16 3 = c ∧
        u.lan = { s.lan with failed := true } ∧ OnlyRegs [Reg.LANE_HRN_STATUS] { s with lan := u.lan } u)) ∧
    ((hrnState s = 0 ∨ hrnState s = 4) → Answers .trainingTimeout s (fun u => u = s.fresh)) ∧
    (s.lan.failed = true → harnessOn s = true →
      Answers .trainingRestart s (fun u => hrnState u = 1 ∧ u.lan.failed = false ∧
        u.rd Reg.LANE_HRN_TRAINS = min (s.rd Reg.LANE_HRN_TRAINS + 1) 0xFFFFFFFF ∧
        ∀ k : Fin 8, gen k = false → .training k.val (trainWord k.val false 0) ∈ u.out)) ∧
    (s.lan.failed = false → Answers .trainingRestart s (fun u => u = s.fresh)) ∧
    ((hrnState s = 4 ∨ s.hrn.up = true) → hrnRole s ≠ 0 →
      Answers (.harnessDown .clock) s (down 1) ∧ Answers (.harnessDown .signal) s (down 1) ∧
      Answers (.harnessDown .link) s (down 2) ∧
      Answers (.harnessDown .prbs) s (fun u => u.hrn.up = false ∧ u.hrn.key = [])) ∧
    (∀ c, hrnState s ≠ 4 → s.hrn.up = false → Answers (.harnessDown c) s (fun u => u = s.fresh)) ∧
    (Served s Reg.LANE_HRN_CTRL →
      (s.hrn.up = true → hrnRole s ≠ 0 → Answers .harnessRetrain s (down 2)) ∧
      (s.hrn.up = false → harnessOn s = true → Answers .harnessRetrain s (fun u => hrnState u = 1 ∧
        u.rd Reg.LANE_HRN_TRAINS = min (s.rd Reg.LANE_HRN_TRAINS + 1) 0xFFFFFFFF)))

/-! ## Time -/

/-- The clock runs to the next wrap of a base, which counts WRAP on, and on TB0 leaves a WRAP record; or to its next
marker, which moves M by a second and counts TB_SECBASE, and on TB0 takes the latch, and on its base raises 1PPS_OUT
and realigns the wave on F10M_OUT; the wave starts and stops with TIM_F10M_CTRL.EN and with its base.
Every tick counts every enabled base by its increment. The writes of the marker and the seconds, a capture, the end of
a pulse and the time-of-day messages act; a base that is off ignores all of these (R353 to R357, R364 to R367, R392).
That a wave keeps time with its base between markers, over steps, is the model's reading (log entry 42).
That these two commands pass the ticks up to their instant is the model's choice (log entry 40). -/
def Obligations.TimeRunsToItsInstants : Prop :=
  ∀ (s : State) (b : Base),
    ((railsUp s || s.pwr.thermal) = true → baseOn s b.val = true → (s.baseAt b.val).fifths < 5 →
      (let k := ticksToWrap s b.val;
        Answers (.nsWrap b) s (fun u => u.refTick = s.refTick + k ∧
          baseCount u b.val = (baseCount s b.val + k * baseInc s b.val) % countSpan ∧
          u.rd (Reg.TB_WRAP b.val) = (s.rd (Reg.TB_WRAP b.val) + 1) % 65536 ∧
          (b.val = 0 → s.evr.accepted < 50000 → ∃ r ∈ u.evr.queue, recordType r.bytes = 1 ∧ leAt r.bytes 6 2 = u.rd (Reg.TB_WRAP 0)))) ∧
      (let k := ticksToMarker s b.val; let m := s.rd (Reg.TB_SECMARK b.val);
        ∀ report, Answers (.secondMarker b report) s (fun u => u.refTick = s.refTick + k ∧
          baseCount u b.val = (baseCount s b.val + k * baseInc s b.val) % countSpan ∧
          u.rd (Reg.TB_SECMARK b.val) = (m + 1000000000) % 2 ^ 32 ∧ tbSec u b.val = (tbSec s b.val + 1) % 2 ^ 48 ∧
          (b.val = 0 → u.rd Reg.PEN_LATCH_NS = m ∧
            u.rd Reg.PEN_LATCH_SEQ = (s.rd Reg.PEN_LATCH_SEQ + 1) % 2 ^ 32) ∧
          ((s.tim.f10m.map Prod.fst) = some b.val → u.tim.f10m = some (b.val, f10mPhase u b.val)) ∧
          (b.val = ppsBase s → s.bit Reg.TIM_PPS_CTRL 0 = true →
            u.tim.ppsOut = true ∧ .pin "1PPS_OUT" true ∈ u.out)))) ∧
    ((railsUp s || s.pwr.thermal) = true → baseOn s b.val = false →
      Answers (.nsWrap b) s (fun u => u = s.fresh) ∧
      ∀ report, Answers (.secondMarker b report) s (fun u => u = lineReports report s.fresh)) ∧
    (∀ v : Word, f10mBase s = b.val → Served s Reg.TIM_F10M_CTRL →
      Answers (.registerWrite (BitVec.ofNat 32 Reg.TIM_F10M_CTRL) v) s (fun u =>
        ((v.toNat.testBit 0 = false ∨ baseOn s b.val = false) → u.tim.f10m = none) ∧
        (v.toNat.testBit 0 = true → baseOn s b.val = true → u.tim.f10m =
          (if (s.tim.f10m.map Prod.fst) = some b.val then s.tim.f10m else some (b.val, f10mPhase s b.val))) ∧
        (u.tim.f10m ≠ s.tim.f10m → .f10m u.tim.f10m ∈ u.out))) ∧
    (coreRuns s = true →
      (s.tim.ppsOut = true → Answers .ppsOutFall s (fun u => u.out = [.pin "1PPS_OUT" false] ∧
        u = { s with tim := { s.tim with ppsOut := false }, out := u.out })) ∧
      (∀ sec wrap ns, s.tim.todDue = some (sec, wrap, ns) → s.bit Reg.TIM_TOD_CTRL 0 = true →
        Answers .todTxSend s (fun u => u.out = [.tod (todMessage sec wrap ns (todFlags s))] ∧
          u = { s with tim := { s.tim with todDue := none }, out := u.out })) ∧
      (∀ m : Bytes, let x := s.baseAt (todRxBase s); let sec := beAt m 3 6
        let inTime := todOk m = true ∧ x.markTick ≠ 0 ∧ s.refTick + 1 - x.markTick ≤ 140625000;
        s.bit Reg.TIM_TOD_CTRL 2 = true → todRxBase s < 4 → baseOn s (todRxBase s) = true →
        (inTime → sec = x.markSec → Answers (.todRxMessage m) s (fun u => u = s.fresh)) ∧
        (inTime → sec ≠ x.markSec → Answers (.todRxMessage m) s (fun u =>
          tbSec u (todRxBase s) = (tbSec s (todRxBase s) + 2 ^ 48 + sec - x.markSec) % 2 ^ 48 ∧
          u.rd Reg.TIM_TOD_SET = min (s.rd Reg.TIM_TOD_SET + 1) 0xFFFFFFFF ∧ u.bit Reg.TIM_EVT 5 = true)) ∧
        (¬inTime → Answers (.todRxMessage m) s (fun u =>
          u.rd Reg.TIM_TOD_BAD = min (s.rd Reg.TIM_TOD_BAD + 1) 0xFFFFFFFF ∧ u.bit Reg.TIM_EVT 6 = true ∧
          OnlyHost [Reg.TIM_TOD_BAD, Reg.TIM_EVT, Reg.TIM_LAST] s u)))) ∧
    (∀ v : Word, Served s (Reg.TB_SECMARK b.val) →
      (baseOn s b.val = false → ∀ c ∈ [Instr.secmarkWrite b v, .secbaseWrite b v, .tbStep b v, .tbSet b v,
          .offsetSample b v, .fadjWrite b v, .servoCtrlWrite b v],
        Answers c s (fun u => u = s.fresh)) ∧
      (baseOn s b.val = true →
        (let ahead := (v.toNat + 2 ^ 32 - s.rd (Reg.TB_NS b.val)) % 2 ^ 32 < 2 ^ 31;
          (ahead → Answers (.secmarkWrite b v) s (fun u => u.rd (Reg.TB_SECMARK b.val) = v.toNat ∧
            OnlyRegs [Reg.TB_SECMARK b.val] s u)) ∧
          (¬ahead → Answers (.secmarkWrite b v) s (fun u =>
            u.rd Reg.TIM_MARK_REJ = min (s.rd Reg.TIM_MARK_REJ + 1) 0xFFFFFFFF ∧ u.bit Reg.TIM_EVT 8 = true ∧
            OnlyHost [Reg.TIM_MARK_REJ, Reg.TIM_EVT, Reg.TIM_LAST] s u))) ∧
        (∀ lo < 2 ^ 32, (s.baseAt b.val).secLo.getD (s.rd (Reg.TB_SECBASE_LO b.val)) = lo →
          Answers (.secbaseWrite b v) s (fun u =>
            tbSec u b.val = lo + 2 ^ 32 * (v.toNat % 2 ^ 16) ∧ (u.baseAt b.val).secLo = none ∧
            RegsBut [Reg.TB_SECBASE_LO b.val, Reg.TB_SECBASE_HI b.val] s u)))) ∧
    (Served s Reg.TIM_CAPTURE → Answers .timeCapture s (fun u =>
      (∀ b < 4, u.rd (Reg.TIM_CAP_NS b) = s.rd (Reg.TB_NS b) ∧ u.rd (Reg.TIM_CAP_FRAC b) = s.rd (Reg.TB_FRAC b) ∧
        u.rd (Reg.TIM_CAP_WRAP b) = s.rd (Reg.TB_WRAP b)) ∧ u.bit Reg.TIM_CAP_STATUS 0 = true))

/-- A step moves a base's count by what is written, or to it, and moves M by the whole seconds that keep it ahead by
at most one, TB_SECBASE with it; the step is shown and an event tells of it. A sample of the offset is recorded and
ends holdover, then steps or steers a base whose servo runs, FADJ within 500 ppm. Holdover keeps the integral. FADJ
and the servo take legal values; a lost F10M_IN shows until it is back (R358 to R363). How the servo rounds is left
free (log entry 21), and what STEPPED shows is the model's reading (log entry 41). -/
def Obligations.BasesAreSteppedAndSteered : Prop :=
  ∀ (s : State) (b : Base), coreRuns s = true → baseOn s b.val = true →
    let tb := Reg.TB_STATUS b.val
    let second : Int := 1000000000 * (nsUnit : Int)
    -- how far M lies ahead of the whole count
    let ahead : Int := (((s.rd (Reg.TB_SECMARK b.val) + 2 ^ 32 - s.rd (Reg.TB_NS b.val)) % 2 ^ 32 * nsUnit : Nat) : Int) -
      ((baseCount s b.val % nsUnit : Nat) : Int)
    let stepped := fun (new : Int) (u : State) =>
      (baseCount u b.val : Int) = new % (countSpan : Int) ∧ u.bit tb 4 = true ∧ u.bit Reg.TIM_EVT 0 = true ∧
      ∃ k : Int, 0 < ahead + k * second - (new - (baseCount s b.val : Int)) ∧
        ahead + k * second - (new - (baseCount s b.val : Int)) ≤ second ∧
        (u.rd (Reg.TB_SECMARK b.val) : Int) = ((s.rd (Reg.TB_SECMARK b.val) : Int) + k * 1000000000) % 2 ^ 32 ∧
        (tbSec u b.val : Int) = ((tbSec s b.val : Int) + k) % 2 ^ 48 ∧
        (0 < k → u.bit Reg.TIM_EVT 1 = true ∧
          u.rd Reg.TIM_MARK_SKIP = min (s.rd Reg.TIM_MARK_SKIP + k.toNat) 0xFFFFFFFF);
    (∀ v : Word, Served s (Reg.TB_STEP b.val) →
      Answers (.tbStep b v) s (stepped ((baseCount s b.val : Int) + signedOf 32 v.toNat * (nsUnit : Int))) ∧
      Answers (.tbSet b v) s (fun u => u.rdF (Reg.TB_SET_CTRL b.val) 0 16 = v.toNat % 65536 ∧
        (v.toNat.testBit 31 = true →
          stepped (((v.toNat % 65536 * 2 ^ 32 + s.rd (Reg.TB_SET_NS b.val)) * nsUnit : Nat) : Int) u) ∧
        (v.toNat.testBit 31 = false → OnlyRegs [Reg.TB_SET_CTRL b.val] s u)) ∧
      (s.bit tb 4 = true → Answers (.offsetSample b v) s (fun u =>
        u.rd Reg.TIM_OFFSET_IGN = min (s.rd Reg.TIM_OFFSET_IGN + 1) 0xFFFFFFFF ∧ OnlyRegs [Reg.TIM_OFFSET_IGN] s u)) ∧
      (s.bit tb 4 = false → baseSrc s b.val ≠ 1 → Answers (.offsetSample b v) s (fun u => u = s.fresh)) ∧
      (s.bit tb 4 = false → baseSrc s b.val = 1 → Answers (.offsetSample b v) s (fun u =>
        let th := signedOf 32 v.toNat; let limit := s.rdF (Reg.TB_STEP_TH b.val) 0 23 * 256;
        (v.toNat ≠ 2 ^ 31 → u.rd (Reg.TB_LAST_OFFSET b.val) = v.toNat) ∧ u.bit tb 3 = false ∧
        (u.baseAt b.val).lastSample = s.refTick + 1 ∧
        (s.bit (Reg.TB_SERVO b.val) 0 = false → RegsBut [Reg.TB_LAST_OFFSET b.val, tb] s u) ∧
        (s.bit (Reg.TB_SERVO b.val) 0 = true →
          (s.bit (Reg.TB_SERVO b.val) 1 = true → limit < th.natAbs →
            stepped ((baseCount s b.val : Int) - th * (2 ^ 24 * 5)) u) ∧
          ((s.bit (Reg.TB_SERVO b.val) 1 = false ∨ th.natAbs ≤ limit) →
            (signedOf 32 (u.rd (Reg.TB_FADJ b.val))).natAbs ≤ 2147483 ∧
            RegsBut [Reg.TB_LAST_OFFSET b.val, tb, Reg.TB_FADJ b.val] s u)))) ∧
      ((signedOf 32 v.toNat).natAbs ≤ 2147483 → Answers (.fadjWrite b v) s (fun u =>
        u.rd (Reg.TB_FADJ b.val) = v.toNat ∧ (u.baseAt b.val).integral = signedOf 32 v.toNat * 2 ^ 24 ∧
        RegsBut [Reg.TB_FADJ b.val] s u)) ∧
      (2147483 < (signedOf 32 v.toNat).natAbs → Answers (.fadjWrite b v) s (fun u => u = s.fresh)) ∧
      Answers (.servoCtrlWrite b v) s (fun u => u.rd (Reg.TB_SERVO b.val) = v.toNat % 4 ∧
        RegsBut [Reg.TB_SERVO b.val] s u ∧
        (v.toNat.testBit 0 = true → s.bit (Reg.TB_SERVO b.val) 0 = false →
          (u.baseAt b.val).integral = signedOf 32 (s.rd (Reg.TB_FADJ b.val)) * 2 ^ 24))) ∧
    (baseSrc s b.val = 2 → (s.baseAt b.val).stepTick ≠ s.refTick + 1 →
      Answers .ppsInEdge s (fun u => u.tim.ppsIn = s.refTick + 1 ∧ (u.baseAt b.val).lastSample = s.refTick + 1 ∧
        (u.baseAt b.val).misses = 0 ∧ u.bit tb 3 = false ∧
        (let m := s.rd (Reg.TB_SECMARK b.val); let t := s.rd (Reg.TB_NS b.val)
          let th := signedOf 32 ((t + 2 ^ 33 - m - s.rd (Reg.TB_PPS_DELAY b.val)) % 2 ^ 32);
          (m + 2 ^ 32 - t) % 2 ^ 32 < 500000000 → th.natAbs < 2 ^ 23 →
          u.rd (Reg.TB_LAST_OFFSET b.val) = unsignedOf 32 (th * 256)))) ∧
    (baseSrc s b.val = 2 → Answers .ppsMiss s (fun u => u.bit Reg.TIM_EVT 3 = true ∧
      u.baseAt b.val = { s.baseAt b.val with misses := (s.baseAt b.val).misses + 1 } ∧
      OnlyHost [Reg.TIM_PPS_MISS, Reg.TIM_EVT, Reg.TIM_LAST] { s with tim := u.tim } u)) ∧
    ((baseSrc s b.val = 1 ∨ (baseSrc s b.val = 2 ∧ s.rdF (Reg.TB_HOLD_S b.val) 0 8 ≤ (s.baseAt b.val).misses)) →
      s.bit tb 3 = false → Answers (.holdoverEntry b) s (fun u => u.bit tb 3 = true ∧ u.bit Reg.TIM_EVT 2 = true ∧
        (s.bit (Reg.TB_SERVO b.val) 0 = false → u.rd (Reg.TB_FADJ b.val) = s.rd (Reg.TB_FADJ b.val)) ∧
        (s.bit (Reg.TB_SERVO b.val) 0 = true → ∀ f : Int, f.natAbs ≤ 2147483 →
          (s.baseAt b.val).integral = f * 2 ^ 24 → u.rd (Reg.TB_FADJ b.val) = unsignedOf 32 f) ∧
        u.tim = s.tim)) ∧
    (baseFref s b.val = true → s.bit tb 5 = false → Answers (.frefLost b) s (fun u =>
      u.bit tb 5 = true ∧ u.bit Reg.TIM_EVT 4 = true ∧ OnlyHost [tb, Reg.TIM_EVT, Reg.TIM_LAST] s u)) ∧
    Answers (.frefRestored b) s (fun u => u.bit tb 5 = false ∧ OnlyRegs [tb] s u)

/-! ## Evidence and DRAM -/

/-- The ring writer stores the oldest record in the next slot and extends the hash chain over it, with a checkpoint
after record 0 and every 2^20th; a START or GAP record that is due comes first. A record that may not be written is
lost and counted; one that needs random bits waits for them. A trigger arms the ring, which freezes with a checkpoint once its post-trigger records are written,
and a release lets it run again (R390 to R399). What a GAP record carries is the model's reading (log entry 46). -/
def Obligations.EvidenceRingRecords : Prop :=
  ∀ s : State, coreRuns s = true →
    let r := s.rd64 (Reg.EVR_NEXT 0)
    let c := s.rd64 (Reg.EVR_CAP 0)
    let slot := fun (u : State) (k : Nat) => Tbl.get (fun _ => []) u.evr.records (k % c);
    (∀ q rest, s.evr.queue = q :: rest → s.evr.startDue = none →
      (s.bit Reg.EVR_CTRL 0 = true → s.evr.rebuilding = false → (evrState s = 1 ∨ (evrState s = 2 ∧ 0 < s.evr.postLeft)) →
        s.evr.gapDue = false → bitsAwaited s = false → r + 1 < 2 ^ 64 →
        Answers .evidenceRecordWrite s (fun u => u.evr.queue = rest ∧ slot u r = q.bytes ∧
          u.evr.hash = sha384 (s.evr.hash ++ q.bytes) ∧ u.rd64 (Reg.EVR_NEXT 0) = r + 1 ∧
          u.rd64 (Reg.EVR_OLDEST 0) = r + 1 - c ∧ (evrState s = 2 → u.evr.postLeft = s.evr.postLeft - 1) ∧
          u.evr.ckptCount = s.evr.ckptCount + (if r = 0 ∨ (r + 1) % 2 ^ 20 = 0 then 1 else 0))) ∧
      (s.bit Reg.EVR_CTRL 0 = true → s.evr.rebuilding = false → evrState s = 1 → s.evr.gapDue = true →
        bitsAwaited s = false → r + 2 < 2 ^ 64 → 2 ≤ c →
        Answers .evidenceRecordWrite s (fun u => u.evr.queue = rest ∧ recordType (slot u r) = 3 ∧
          slot u (r + 1) = q.bytes ∧ u.rd64 (Reg.EVR_NEXT 0) = r + 2 ∧ u.evr.gapDue = false ∧ u.evr.lostFrames = 0)) ∧
      (s.evr.rebuilding = false → (evrState s = 3 ∨ (s.bit Reg.EVR_CTRL 0 = false ∧ evrState s ≠ 0)) →
        Answers .evidenceRecordWrite s (fun u => u.evr.queue = rest ∧ u.evr.records = s.evr.records ∧
          u.evr.gapDue = true ∧ u.evr.lostFrames = s.evr.lostFrames + (if recordType q.bytes = 0 then 1 else 0) ∧
          u.rd Reg.EVR_LOST = min (s.rd Reg.EVR_LOST + 1) 0xFFFFFFFF ∧ u.bit Reg.EVR_EVT 2 = true)) ∧
      (s.bit Reg.EVR_CTRL 0 = true → s.evr.rebuilding = false → (evrState s = 1 ∨ evrState s = 2) →
        (postDone s || bitsAwaited s) = true → Answers .evidenceRecordWrite s (fun u => u = s.fresh)) ∧
      ((s.evr.rebuilding = true ∨ evrState s = 0) → Answers .evidenceRecordWrite s (fun u =>
        u = { s.fresh with evr := { s.evr with queue := rest } }))) ∧
    (s.evr.queue = [] → s.evr.startDue = none → Answers .evidenceRecordWrite s (fun u => u = s.fresh)) ∧
    (∀ reason < 8, s.evr.queue = [] → s.evr.startDue = some reason → s.bit Reg.EVR_CTRL 0 = true →
      s.evr.rebuilding = false → r + 1 < 2 ^ 64 →
      (drbgOff s = false → Answers .evidenceRecordWrite s (fun u => u.evr.startDue = none ∧
        u.rd64 (Reg.EVR_NEXT 0) = r + 1 ∧ recordType (slot u r) = 2 ∧
        u.evr.hash = sha384 (sha384 (mcEv ++ s.drbg 16) ++ slot u r))) ∧
      (drbgOff s = true → Answers .evidenceRecordWrite s (fun u => u = s.fresh))) ∧
    (∀ src i, (src, i) ∈ [(0, Instr.trigIn), (2, .evrTrig)] → (src = 2 → Served s Reg.EVR_CTRL) →
      (triggerEnabled s src = true → evrState s = 1 → Answers i s (fun u =>
        u.rd Reg.EVR_STATUS = 2 + 4 * src ∧ u.rd64 (Reg.EVR_TRIG_REC 0) = r ∧ u.evr.postLeft = s.rd Reg.EVR_POST ∧
        OnlyRegs [Reg.EVR_STATUS, Reg.EVR_TRIG_REC 0, Reg.EVR_TRIG_REC 0 + 4] { s with evr := u.evr } u)) ∧
      (triggerEnabled s src = true → 2 ≤ evrState s → Answers i s (fun u =>
        u.rd Reg.EVR_TRIG_IGN = min (s.rd Reg.EVR_TRIG_IGN + 1) 0xFFFFFFFF ∧ OnlyRegs [Reg.EVR_TRIG_IGN] s u)) ∧
      ((triggerEnabled s src = false ∨ evrState s = 0) → Answers i s (fun u => u = s.fresh))) ∧
    (evrState s = 2 → s.evr.postLeft = 0 → s.evr.rebuilding = false → drbgOff s = false →
      Answers .freeze s (fun u => evrState u = 3 ∧ u.bit Reg.EVR_EVT 0 = true ∧
        u.evr.ckptCount = s.evr.ckptCount + 1 ∧ u.evr.records = s.evr.records ∧ u.evr.hash = s.evr.hash ∧
        (Tbl.get (fun _ => []) u.evr.ckpts (s.evr.ckptCount % ckptSlots)).take (ckptBody true s).length = ckptBody true s ∧
        (.msix 7 ∈ u.out ∨ u.bit (Reg.IRQ_PBA 0) 7 = true))) ∧
    ((evrState s ≠ 2 ∨ s.evr.postLeft ≠ 0 ∨ s.evr.rebuilding = true ∨ drbgOff s = true) →
      Answers .freeze s (fun u => u = s.fresh)) ∧
    (Served s Reg.EVR_CTRL →
      (evrState s = 3 → Answers .evrRelease s (fun u => evrState u = 1 ∧ u.evr = { s.evr with gapDue := true } ∧
        OnlyRegs [Reg.EVR_STATUS] { s with evr := u.evr } u)) ∧
      (evrState s ≠ 3 → Answers .evrRelease s (fun u => u = s.fresh)))

/-- A readout that names items not held, or none, ends at once; any other runs, and ends with the items it copied,
with DMA_ERR, or with UE where a burst could not be read. A scrub read counts what it found: an uncorrectable one ends
what its partition held there, and enough of them fence the channel, as the host can. The rebuilt map starts with an
empty peer table and ring, and with no staged Pattern but one that a cut was handed (R384 to R387, R400). What a readout
holds while there is no DRAM key is left open. -/
def Obligations.ReadoutsScrubsAndFences : Prop :=
  ∀ s : State, coreRuns s = true →
    (∀ v : Word, Served s Reg.EVR_RD_CMD → s.evr.readout = none → v.toNat.testBit 31 = true →
      let kind := v.toNat % 2; let first := s.rd64 (Reg.EVR_RD_FIRST 0); let n := s.rd Reg.EVR_RD_COUNT
      let bad := n = 0 ∨ rdMax kind < n ∨ rdAddr s % 64 ≠ 0
      let gone := first < (rdRange s kind).1 ∨ (rdRange s kind).2 < first + n;
      (bad → Answers (.evrReadout v) s (fun u => u.rd Reg.EVR_RD_STATUS = 2 ^ 8 * 5 ∧ u.rd Reg.EVR_RD_DONE = 0 ∧
        u.evr.readout = none ∧ (.msix 7 ∈ u.out ∨ u.bit (Reg.IRQ_PBA 0) 7 = true))) ∧
      (¬bad → gone → Answers (.evrReadout v) s (fun u => u.rd Reg.EVR_RD_STATUS = 2 ^ 8 * 1 ∧
        u.rd Reg.EVR_RD_DONE = 0 ∧ u.evr.readout = none)) ∧
      (¬bad → ¬gone → Answers (.evrReadout v) s (fun u => u.rd Reg.EVR_RD_STATUS = 1 ∧
        u.evr.readout = some (kind, first, n) ∧
        u.evr.copied = rdBytesOf s kind first n ∧
        (s.evr.dramKey ≠ [] → u.evr.copied = (List.range n).flatMap (fun i => rdItem s kind (first + i)))))) ∧
    (∀ kind first n, s.evr.readout = some (kind, first, n) →
      Answers (.readoutComplete false) s (fun u => u.rd Reg.EVR_RD_STATUS = 2 ^ 8 * 4 ∧ u.rd Reg.EVR_RD_DONE = 0 ∧
        u.evr = { s.evr with readout := none, copied := [] } ∧
        OnlyHost [Reg.EVR_RD_STATUS, Reg.EVR_RD_DONE] { s with evr := u.evr } u) ∧
      ((rdRange s kind).1 ≤ first → first + n ≤ (rdRange s kind).2 →
        Answers (.readoutComplete true) s (fun u =>
          u.rd Reg.EVR_RD_STATUS = 2 ^ 8 * (if rdBad s kind first n then 3 else 0) ∧ u.rd Reg.EVR_RD_DONE = n % 2 ^ 32 ∧
          .dmaWrite (rdAddr s) (rdBytesOf s kind first n) ∈ u.out)) ∧
      (first < (rdRange s kind).1 → Answers (.readoutComplete true) s (fun u =>
        u.rd Reg.EVR_RD_STATUS = 2 ^ 8 * 2 ∧ u.evr.readout = none))) ∧
    (∀ ok, s.evr.readout = none → Answers (.readoutComplete ok) s (fun u => u = s.fresh)) ∧
    (∀ (k : Channel) (part : Fin 5) (item : Nat), s.bit (Reg.EVR_CH_STATUS k.val) 0 = false →
      Answers (.patrolScrub k part item .clean) s (fun u => u = s.fresh) ∧
      Answers (.patrolScrub k part item .corrected) s (fun u =>
        u.rd (Reg.EVR_CH_CE k.val) = min (s.rd (Reg.EVR_CH_CE k.val) + 1) 0xFFFFFFFF ∧
        OnlyRegs [Reg.EVR_CH_CE k.val] s u) ∧
      Answers (.patrolScrub k part item .uncorrectable) s (fun u =>
        u.rd (Reg.EVR_CH_UE k.val) = min (s.rd (Reg.EVR_CH_UE k.val) + 1) 0xFFFFFFFF ∧
        (part.val = 0 → (s.cls.learnQ = [] ∨ s.cls.jobs = []) → ∀ j < 8, u.peerAt (item * 8 + j) = zeros 64) ∧
        (part.val = 3 → item ∈ u.evr.badSlots) ∧
        (s.rdF Reg.EVR_CH_UE_TH 0 16 ≤ 1 → u.bit (Reg.EVR_CH_STATUS k.val) 0 = true ∧
          u.bit (Reg.EVR_CH_STATUS k.val) 2 = true ∧ u.evr.rebuilding = true))) ∧
    (∀ (k : Channel) part item o, s.bit (Reg.EVR_CH_STATUS k.val) 0 = true →
      Answers (.patrolScrub k part item o) s (fun u => u = s.fresh)) ∧
    (∀ v : Word, Served s Reg.EVR_CH_FENCE → Answers (.channelFenceWrite v) s (fun u =>
      u.rd Reg.EVR_CH_FENCE = (s.rd Reg.EVR_CH_FENCE ||| v.toNat) % 256 ∧
      ∀ k < 8, (v.toNat.testBit k = true → u.bit (Reg.EVR_CH_STATUS k) 0 = true ∧ u.bit (Reg.EVR_CH_STATUS k) 3 = true ∧
          (s.bit (Reg.EVR_CH_STATUS k) 0 = false → u.evr.rebuilding = true ∧ u.cls.learnQ = [])) ∧
        (v.toNat.testBit k = false → u.rd (Reg.EVR_CH_STATUS k) = s.rd (Reg.EVR_CH_STATUS k)))) ∧
    (s.evr.rebuilding = true → Answers .addressMapRebuilt s (fun u =>
      u.evr.rebuilding = false ∧ (s.cls.cmd = none → ∀ i, u.peerAt i = zeros 64) ∧ u.cls.learnQ = [] ∧
      (s.pat.cut = none → u.pat.staged = none) ∧ u.evr.queue = [] ∧
      evrState u = (if ringCap (u.rd (Reg.EVR_PART 3)) = 0 then 0 else 1) ∧
      (s.bit Reg.EVR_CTRL 0 = false → u.evr.records = []))) ∧
    (s.evr.rebuilding = false → Answers .addressMapRebuilt s (fun u => u = s.fresh))

/-! ## The keeper port -/

/-- The checks of a request come in their order and each answers its status: a bad frame; a lockout, a wrong CMAC,
which is counted and at the sixteenth in a row locks the port out, and a SEQ not above the last, which is counted;
then an undefined opcode, one not permitted and a bad length, with SEQ consumed. While the port is not ready only the
not-ready frame comes. A NOP collects the last response (R435 to R441). The row is the one that OPCODE names; an
undefined OPCODE is KEEPER_BAD_OPCODE, the constructor keeperBadOpcode, which answers BAD_OPCODE whenever the checks
before pass. That check 1 comes before the NOP, and that a late refusal consumes KSEQ, is the model's reading (log
entry 73). -/
def Obligations.KeeperChecksComeInOrder : Prop :=
  ∀ (s : State) (r : Bytes) (ok : Bool), railsUp s = true →
    let op := kOp r
    let late := if !kDefined op then 0x20 else if !kPermitted s op then 0x21
      else if !kLenOk op (byteAt r 3) then 0x22 else 0x00
    let authentic := slice r (12 + byteAt r 3) 16 = kMac s (r.take (12 + byteAt r 3))
    let refused := fun (code : Nat) (u : State) => Replied r code [] u ∧
      .keeper (s.kpr.response.getD kNotReady) ∈ u.out ∧ u.lifecycle = s.lifecycle ∧ u.sec = s.sec ∧
      u.kpr.staged = s.kpr.staged ∧ u.kpr.buffer = s.kpr.buffer ∧ u.key.vault = s.key.vault
    let same := fun (u : State) => u = { collected s with kpr := { s.kpr with response := u.kpr.response } };
    (keeperReady s = false →
      (kFrameOk r = true → Answers (keeperRow r ok) s (fun u => u = s.fresh.emit (.keeper kNotReady))) ∧
      (kFrameOk r = false → Answers (.keeperBadFrame r) s (fun u => u = s.fresh.emit (.keeper kNotReady)))) ∧
    (keeperReady s = true → kFrameOk r = false →
      Answers (.keeperBadFrame r) s (fun u => refused 0x10 u ∧ same u)) ∧
    (keeperReady s = true → kFrameOk r = true → op = 0 → Answers (.nop r) s (fun u => u = collected s)) ∧
    (keeperReady s = true → kFrameOk r = true → kDefined op = false →
      (kAuthenticated s op = true → s.kpr.lockout = false ∧ authentic ∧ ∃ e, s.key.record = some e ∧ e.kseq < kSeq r) →
      Answers (.keeperBadOpcode r) s (refused 0x20)) ∧
    (keeperReady s = true → kFrameOk r = true → kAuthenticated s op = false → late ≠ 0 →
      Answers (keeperRow r ok) s (fun u => refused late u ∧ same u)) ∧
    (keeperReady s = true → kFrameOk r = true → kAuthenticated s op = true →
      (s.kpr.lockout = true → Answers (keeperRow r ok) s (fun u => refused 0x13 u ∧ same u)) ∧
      (s.kpr.lockout = false → ¬authentic → Answers (keeperRow r ok) s (fun u => refused 0x11 u ∧
        u.rd Reg.KPR_AUTH_FAILS = (s.rd Reg.KPR_AUTH_FAILS + 1) % 2 ^ 32 ∧ u.key = s.key ∧
        (s.kpr.authRun + 1 < 16 → u.kpr.authRun = s.kpr.authRun + 1 ∧ RegsBut [Reg.KPR_AUTH_FAILS] s u) ∧
        (16 ≤ s.kpr.authRun + 1 → u.kpr.authRun = 0 ∧ u.kpr.lockout = true ∧ u.bit Reg.KPR_ALARM 8 = true))) ∧
      (s.kpr.lockout = false → authentic → ∀ e, s.key.record = some e →
        (kSeq r ≤ e.kseq → Answers (keeperRow r ok) s (fun u => refused 0x12 u ∧
          u.rd Reg.KPR_REPLAYS = (s.rd Reg.KPR_REPLAYS + 1) % 2 ^ 32 ∧ u.key = s.key ∧
          RegsBut [Reg.KPR_REPLAYS] s u)) ∧
        (e.kseq < kSeq r → late ≠ 0 → Answers (keeperRow r ok) s (fun u => refused late u ∧
          u.key = { s.key with
            record := some { e with kseq := kSeq r }, recordOld := some e, recordCtr := s.key.recordCtr + 1 } ∧
          RegsBut [Reg.KPR_SEQ 0, Reg.KPR_SEQ 1] s u))))

/-- A request that passes its checks acts and answers: status, challenge, segments, the staged image and its commit,
alarms, triggers, takeover, warm reset, debug levels, enrolment and the tokens, each as its row says; what cannot be
written to the record or the fuses is a RECORD_FAULT (R441 to R459). That RETIRE then has zeroized already is the model's
reading (log entry 122). -/
def Obligations.KeeperRequestsAct : Prop :=
  ∀ (r : Bytes) (s v : State), let p := kPayload r
    let kept := fun (u : State) => u = { v with kpr := { v.kpr with response := u.kpr.response } }
    -- the challenge that a package must carry: none does while a new one is owed
    let c := if v.kpr.challengeDue then [] else challenge v
    -- the challenge has served: a new one is drawn, or owed while the DRBG gives no bits
    let anew := fun (u : State) => (drbgOff v = false → challenge u = exactly 32 (v.drbg 32)) ∧
      u.kpr.challengeDue = drbgOff v;
    (Accepted r 0x01 s v → Answers (.getStatus r) s (fun u => kept u ∧ Replied r 0 (beBytes 4 (v.rd Reg.KPR_STATUS) ++
      beBytes 4 (v.rd Reg.KPR_ALARM) ++ beBytes 4 (v.rd Reg.KEY_TAMPER) ++ beBytes 4 (v.rd Reg.KEY_ZCOUNT) ++
      beBytes 4 (v.rd Reg.KPR_GEN)) u)) ∧
    (Accepted r 0x02 s v → Answers (.getChallenge r) s (fun u => kept u ∧ Replied r 0 (challenge v) u)) ∧
    (Accepted r 0x03 s v → let o := beAt p 0 2; let d := p.drop 2;
      (o + d.length ≤ 16384 → Answers (.loadSeg r) s (fun u => Replied r 0 [] u ∧ u.regs = v.regs ∧
        u.kpr = { v.kpr with response := u.kpr.response,
                             buffer := splice (padTo (o + d.length) (if o = 0 then [] else v.kpr.buffer)) o d })) ∧
      (16384 < o + d.length → Answers (.loadSeg r) s (fun u => Replied r 0x22 [] u ∧ kept u))) ∧
    (Accepted r 0x10 s v → let o := beAt p 0 2; let n := (p.length - 2) / 4
      let inside := o % 4 = 0 ∧ 0x100 ≤ o ∧ o + 4 * n ≤ 0x600;
      (inside → Answers (.imgWrite r) s (fun u => Replied r 0 [] u ∧
        (∀ i < n, stagedWord u (kprBase + o + 4 * i) = beAt p (2 + 4 * i) 4) ∧
        (∀ k ∈ imageOffsets, (∀ i < n, k ≠ o + 4 * i) →
          stagedWord u (kprBase + k) = stagedWord v (kprBase + k)) ∧
        (∀ k ∈ imageOffsets, u.rd (kprBase + k) = v.rd (kprBase + k)) ∧ u.key = v.key)) ∧
      (¬inside → Answers (.imgWrite r) s (fun u => Replied r 0x22 [] u ∧ kept u))) ∧
    (Accepted r 0x11 s v →
      (∀ ok, imageStaged v = false → Answers (.imgCommit r ok) s (fun u => Replied r 0x23 [] u ∧ kept u)) ∧
      (∀ ok, imageStaged v = true → imageLegal v = false → Answers (.imgCommit r ok) s (fun u =>
        Replied r 0x22 [] u ∧ kept u)) ∧
      (imageStaged v = true → imageLegal v = true → Answers (.imgCommit r false) s (fun u =>
        Replied r 0x37 [] u ∧ kept u)) ∧
      (imageStaged v = true → imageLegal v = true → Answers (.imgCommit r true) s (fun u =>
        (∀ k ∈ imageOffsets, u.rd (kprBase + k) = stagedWord v (kprBase + k)) ∧ u.kpr.staged = [] ∧
        (∀ e, v.key.record = some e → ∃ e', u.key.record = some e' ∧ e'.imageGen = e.imageGen + 1 ∧ e'.kseq = e.kseq) ∧
        Replied r 0 (beBytes 4 (u.rd Reg.KPR_GEN)) u))) ∧
    (Accepted r 0x12 s v → Answers (.imgDiscard r) s (fun u => Replied r 0 [] u ∧ u.kpr.staged = [] ∧ u.key = v.key ∧
      (∀ k ∈ imageOffsets, u.rd (kprBase + k) = v.rd (kprBase + k)))) ∧
    (Accepted r 0x20 s v → v.key.zeroizing = none → Answers (.zeroize r) s (fun u => Replied r 0 [] u ∧
      u.key.zeroizing = some (2 ^ 7) ∧ u.key.vaultOpen = false ∧ u.key.parents = [] ∧ (∀ i, (u.saAt i).key = []))) ∧
    (Accepted r 0x21 s v → let old := v.rd Reg.KPR_ALARM; let mask := beAt p 0 2 % 4096
      let new := (old &&& (4095 ^^^ mask)) ||| (old &&& mask &&& alarmPresent v);
      Answers (.alarmClear r) s (fun u => Replied r 0 (beBytes 4 new) u ∧ u.rd Reg.KPR_ALARM = new % 2 ^ 32 ∧
        RegsBut [Reg.KPR_ALARM] v u ∧ (old ≠ 0 → new = 0 → .pin "KALARM_N" true ∈ u.out))) ∧
    (Accepted r 0x22 s v → Answers (.trigger r) s (fun u => Replied r 0 [] u ∧
      (v.bit Reg.KPR_TRIG_ROUTE 1 = true → evrState v = 1 → evrState u = 2 ∧
        u.rd64 (Reg.EVR_TRIG_REC 0) = v.rd64 (Reg.EVR_NEXT 0)) ∧
      (v.bit Reg.KPR_TRIG_ROUTE 1 = false → kept u))) ∧
    (Accepted r 0x23 s v →
      (takeoverCode 0 v = 0 → Answers (.takeover r) s (fun u => Replied r 0 [] u ∧ u.hrn.takeover.isSome = true)) ∧
      (takeoverCode 0 v ≠ 0 → Answers (.takeover r) s (fun u => Replied r 0x21 [] u ∧ kept u))) ∧
    (Accepted r 0x24 s v → Answers (.warmReset r) s (fun u => Replied r 0 [] u ∧
      u.pwr = { v.pwr with keeperReset := true } ∧ u.regs = v.regs)) ∧
    (coreRuns s = true →
      (s.pwr.keeperReset = true → s.pwr.warm = none → (s.pwr.mode = .on ∨ s.pwr.mode = .hold) →
        (s.key.zeroizing = none → Answers .keeperResetDelayExpire s (fun u =>
          u.pwr = { s.pwr with keeperReset := false, warm := some .draining, warmCause := 3 })) ∧
        (s.key.zeroizing ≠ none → s.pwr.warmHeld = none → Answers .keeperResetDelayExpire s (fun u =>
          u = { s.fresh with pwr := { s.pwr with keeperReset := false, warmHeld := some 3 } }))) ∧
      (s.pwr.keeperReset = false → Answers .keeperResetDelayExpire s (fun u => u = s.fresh)) ∧
      Answers .lockoutExpire s (fun u => u.kpr = { s.kpr with lockout := false } ∧ u.bit Reg.KPR_STATUS 9 = false) ∧
      (∀ x : Word, Served s Reg.DBG_TRACE_CTRL →
        (s.kpr.debug ≠ .closed → x.toNat.testBit 31 = true → Answers (.traceStart x) s (fun u =>
          u.dbg = { records := [], running := true } ∧ u.rd Reg.DBG_TRACE_COUNT = 0 ∧ u.bit Reg.DBG_STATUS 3 = true)) ∧
        (s.kpr.debug = .closed → Answers (.traceStart x) s (fun u => u = s.fresh)))) ∧
    (Accepted r 0x25 s v → let l := byteAt p 0;
      let code := if 2 < l then 0x22 else if l = 2 then (if v.lifecycle != .blank then 0x21 else if v.key.noInvasive then 0x35
        else 0) else if v.kpr.debug = .invasive then 0x21 else if l = 1 then
          (if v.lifecycle == .blank || v.bit Reg.KPR_OBSERVE 0 then 0 else 0x21) else 0;
      (code ≠ 0 → Answers (.debugLevel r) s (fun u => Replied r code [] u ∧ kept u)) ∧
      (code = 0 → Answers (.debugLevel r) s (fun u => Replied r 0 [] u ∧
        u.kpr.debug = (if l = 2 then .invasive else if l = 1 then .observe else .closed) ∧
        (l = 2 → v.kpr.debug ≠ .invasive → u.key.zeroizing.isSome = true)))) ∧
    (Accepted r 0x26 s v →
      Answers (.noInvasive r true) s (fun u => Replied r 0 [] u ∧ u.key = { v.key with noInvasive := true } ∧
        u.bit Reg.KPR_STATUS 8 = true) ∧
      Answers (.noInvasive r false) s (fun u => Replied r 0x37 [] u ∧ kept u)) ∧
    (∀ ok, Accepted r 0x30 s v → let b := package v; let code := enrolCode v ok b c;
      (enrolForm b = false → Answers (.enrol r ok) s (fun u => Replied r 0x30 [] u ∧ u.kpr.buffer = [] ∧
        challenge u = challenge v ∧ u.key = v.key)) ∧
      (enrolForm b = true → code ≠ 0 → Answers (.enrol r ok) s (fun u => Replied r code [] u ∧ u.kpr.buffer = [] ∧
        anew u ∧ u.key = v.key)) ∧
      (enrolForm b = true → code = 0 → Answers (.enrol r ok) s (fun u => Replied r 0 (beBytes 4 (beAt b 4 4)) u ∧
        u.lifecycle = .operational ∧ u.unit = beAt b 4 4 ∧ u.kpr.buffer = [] ∧ u.key.vaultOpen = true ∧
        u.key.vault.slotA = .empty ∧ u.key.vault.gen = 0 ∧
        ∃ e k, u.key.record = some e ∧ enrolKey b c (enrolGen v) = some k ∧ e.keeperKey = k ∧ e.keyGen = enrolGen v))) ∧
    (∀ op ∈ [0x31, 0x32, 0x33], ∀ ok, Accepted r op s v → let b := package v;
      (tokenForm (op - 0x30) b = false → Answers (keeperRow r ok) s (fun u => Replied r 0x30 [] u ∧ u.key = v.key ∧
        u.kpr.buffer = [])) ∧
      (tokenForm (op - 0x30) b = true → tokenCode v b c ≠ 0 → Answers (keeperRow r ok) s (fun u =>
        Replied r (tokenCode v b c) [] u ∧ u.key = v.key ∧ u.kpr.buffer = [] ∧ anew u))) ∧
    (let good := fun (type : Nat) => tokenForm type (package v) = true ∧ tokenCode v (package v) c = 0;
      (∀ ok, Accepted r 0x31 s v → good 1 →
        (tamperPresent v = true → Answers (.release r ok) s (fun u => Replied r 0x34 [] u ∧ u.key = v.key)) ∧
        (tamperPresent v = false → (drbgOff v = true ∨ ok = false) → Answers (.release r ok) s (fun u =>
          Replied r 0x37 [] u ∧ u.key = v.key)) ∧
        (tamperPresent v = false → drbgOff v = false → ok = true → Answers (.release r ok) s (fun u => Replied r 0 [] u ∧
          u.lifecycle = .operational ∧ u.key.vaultOpen = true ∧ u.key.vault.slotA = .empty))) ∧
      (Accepted r 0x32 s v → good 2 →
        (v.key.noInvasive = true → Answers (.unlock r) s (fun u => Replied r 0x35 [] u ∧ u.key = v.key)) ∧
        (v.key.noInvasive = false → Answers (.unlock r) s (fun u => Replied r 0 [] u ∧ u.kpr.debug = .invasive ∧
          (v.kpr.debug ≠ .invasive → u.key.zeroizing.isSome = true)))) ∧
      (∀ ok, Accepted r 0x33 s v → good 3 → Answers (.retire r ok) s (fun u =>
        Replied r (if ok then 0 else 0x37) [] u ∧ u.key.retireDue = (ok || v.key.retireDue) ∧
        u.key.zeroizing.isSome = true ∧ (v.key.zeroizing = none → u.key.vaultOpen = false))))

/-! ## Supply, resets and start-up -/

/-- Loss of input puts the module in Hold and ends a staged Pattern, its return takes it back and counts a dip; 20 ms without it is an orderly
stop, counted in the record, which closes admission and ends a reset and a cut; the rails then go off and the core is
reset, its pins high. The vault outlasts all of it but the loss of VBAT. Return of input is a cold reset. Two samples at 125 °C stop
the module, one at 100 °C starts it again; HOT has 5 °C of hysteresis; the supply meter's report is shown (R67, R253,
R456, R457, R500, R502, R503, R505, R516). What a thermal stop keeps is the model's reading (log entry 84), as is which
VBAT is shown as good (log entry 124). -/
def Obligations.SupplyStopsAndStarts : Prop :=
  ∀ s : State, let step := fun (u : State) => u.rdF Reg.PWR_STATUS 8 4
    let stopped := fun (thermal : Bool) (u : State) => u.pwr.mode = .stopping ∧ u.pwr.thermal = thermal ∧
      u.pwr.warm = none ∧ u.pwr.warmHeld = none ∧ u.pat.cut = none ∧ u.pat.staged = none ∧
      (∀ n < 32, runMode u n = .discard) ∧ (∀ e, s.key.record = some e → ∃ e', u.key.record = some e' ∧
        e'.stops = (e.stops + 1) % 2 ^ 32 ∧ u.rd Reg.PWR_STOPS = e'.stops);
    Answers .inputLoss s (fun u => u.bit Reg.PWR_STATUS 3 = false ∧ RegsBut (mirrors ++ stagedRegs) s u ∧
      (s.pat.cut = none → u.pat.staged = none) ∧
      u.pwr = { s.pwr with inputPresent := false, mode := if s.pwr.mode = .on then .hold else s.pwr.mode }) ∧
    Answers .inputReturn s (fun u => u.bit Reg.PWR_STATUS 3 = true ∧
      u.pwr = { s.pwr with inputPresent := true, mode := if s.pwr.mode = .hold then .on else s.pwr.mode } ∧
      (s.pwr.mode = .hold → u.rd Reg.PWR_DIPS = min (s.rd Reg.PWR_DIPS + 1) 0xFFFFFFFF ∧ u.bit Reg.PWR_EVT 0 = true) ∧
      (s.pwr.mode ≠ .hold → RegsBut [Reg.PWR_STATUS] s u)) ∧
    (s.pwr.mode = .hold → Answers .holdExpire s (stopped false)) ∧
    (s.pwr.mode ≠ .hold → Answers .holdExpire s (fun u => u = s.fresh)) ∧
    (s.pwr.mode = .stopping → s.key.zeroizing = none → Answers .railsOff s (fun u =>
      u.pwr.mode = .battery ∧ u.pwr.afterStop = s.pwr.inputPresent ∧ u.sec = {} ∧ u.sch = {} ∧ u.key.parents = [] ∧
      .pin "TROX_ACT_N" true ∈ u.out ∧ (s.rdF Reg.KPR_ALARM 0 12 ≠ 0 → .pin "KALARM_N" true ∈ u.out) ∧
      (pairActive (pairState s) = true → .pin "HRN_ACTIVE_N" true ∈ u.out) ∧
      u.key.vaultOpen = s.key.vaultOpen ∧ u.key.vault = s.key.vault ∧ u.key.record = s.key.record ∧
      (s.pwr.thermal = false → ∀ a, keptReg a = false → a ∉ mirrors → a ≠ Reg.HIF_STATUS →
        u.rd a = regReset a % 2 ^ 32))) ∧
    (s.pwr.mode ≠ .stopping → Answers .railsOff s (fun u => u = s.fresh)) ∧
    (s.pwr.mode = .battery → Answers .vbatAndCapacitorLost s (fun u => u.pwr.mode = .off ∧ u.key.vaultOpen = false ∧
      u.key.vault = {} ∧ u.key.record = s.key.record ∧ u.bit Reg.PWR_STATUS 6 = false)) ∧
    (s.pwr.mode ≠ .battery → Answers .vbatAndCapacitorLost s (fun u => u = s.fresh)) ∧
    (railsUp s = false → s.pwr.thermal = false → Answers .coldStart s (fun u => u.pwr.mode = .on ∧
      u.pwr.inputPresent = true ∧ u.rd Reg.PWR_LAST_RESET = (if s.pwr.afterStop then 1 else 0) ∧ step u = 1 ∧
      u.key = s.key)) ∧
    (railsUp s = false → s.pwr.thermal = true → Answers .coldStart s (fun u =>
      u.pwr = { s.pwr with inputPresent := true } ∧ RegsBut [Reg.PWR_STATUS] s u)) ∧
    (railsUp s = true → Answers .coldStart s (fun u => u = s.fresh)) ∧
    (∀ (die plate : BitVec 12) (supply : Option SupplyReading), let d := quarterDeg die.toNat; let hot : Int := 4 * s.rdF Reg.PWR_THR 0 8;
      (railsUp s = true → Answers (.tempSample die plate supply) s (fun u =>
        (∀ x, supply = some x → u.rd Reg.PWR_IN_V = x.decivolts.toNat ∧ u.rd Reg.PWR_IN_MW = x.milliwatts.toNat ∧
          u.rd Reg.PWR_IN_HZ = x.decihertz.toNat ∧ u.rd Reg.PWR_VBAT = x.vbat.toNat ∧
          u.bit Reg.PWR_STATUS 4 = (x.decihertz != 0)) ∧
        u.rd Reg.PWR_TEMP = die.toNat + 2 ^ 16 * plate.toNat ∧ u.pwr.overTemp = decide (500 ≤ d) ∧
        (hot ≤ d → u.bit Reg.PWR_STATUS 5 = true) ∧ (d ≤ hot - 20 → u.bit Reg.PWR_STATUS 5 = false) ∧
        (hot - 20 < d → d < hot → u.bit Reg.PWR_STATUS 5 = s.bit Reg.PWR_STATUS 5) ∧
        (500 ≤ d → s.pwr.overTemp = true → (s.pwr.mode = .on ∨ s.pwr.mode = .hold) → stopped true u) ∧
        ((d < 500 ∨ s.pwr.overTemp = false) → u.pwr.mode = s.pwr.mode ∧ u.key = s.key))) ∧
      (railsUp s = false → s.pwr.thermal = true → d ≤ 400 → Answers (.tempSample die plate supply) s (fun u =>
        u.pwr.thermal = false ∧ (s.pwr.inputPresent = true → u.pwr.mode = .on ∧ u.rd Reg.PWR_LAST_RESET = 5 ∧
          step u = 1) ∧ (s.pwr.inputPresent = false → u.pwr.mode = s.pwr.mode ∧ u.regs = s.regs))) ∧
      (railsUp s = false → (s.pwr.thermal = false ∨ 400 < d) →
        Answers (.tempSample die plate supply) s (fun u => u = s.fresh)))

/-- MRESET_N starts a warm reset, which a running zeroize holds back and a reset under way absorbs. Once what must
finish has finished, the core is reset: the bases run on, PAT_BOOT keeps its lock, vault and record stay, and start-up
begins at step 3, held while MRESET_N is low. Each step of start-up is followed by the next: the head strap, firmware of
the preferred bank, the enrolment record, whose other copy serves where one fails its tag, the tests, which fence what fails, and at step 9 FW_READY (R378, R516 to R520). That step 9 completes while a
restore waits is the model's reading (log entry 83). -/
def Obligations.ResetsAndStartUp : Prop :=
  ∀ s : State, let step := fun (u : State) => u.rdF Reg.PWR_STATUS 8 4
    let idle := s.pwr.warm = none ∧ (s.pwr.mode = .on ∨ s.pwr.mode = .hold);
    (idle → s.key.zeroizing = none → Answers .mresetN s (fun u => u.pat.staged = none ∧ u.pat.cut = none ∧
      u.pwr = { s.pwr with mresetLow := true, warm := some .draining, warmCause := 2 } ∧
      ∀ n < 32, runMode u n = .discard)) ∧
    (idle → s.key.zeroizing ≠ none → s.pwr.warmHeld = none → Answers .mresetN s (fun u =>
      u = { s.fresh with pwr := { s.pwr with mresetLow := true, warmHeld := some 2 } })) ∧
    (s.pwr.warm ≠ none → Answers .mresetN s (fun u => u = { s.fresh with pwr := { s.pwr with mresetLow := true } })) ∧
    Answers .mresetNRelease s (fun u => u = { s.fresh with pwr := { s.pwr with
      mresetLow := false, warm := if s.pwr.warm = some .asserted then none else s.pwr.warm } }) ∧
    (coreRuns s = true →
      (s.pwr.warm = some .draining → warmDraining s = false → Answers .warmResetDrained s (fun u =>
        u.rd Reg.PWR_LAST_RESET = s.pwr.warmCause % 2 ^ 32 ∧ step u = 3 ∧ u.sec = {} ∧ u.sch = {} ∧ u.key.parents = [] ∧
        u.key.vaultOpen = s.key.vaultOpen ∧ u.key.vault = s.key.vault ∧ u.key.record = s.key.record ∧
        u.bit Reg.PAT_BOOT 31 = s.bit Reg.PAT_BOOT 31 ∧
        (s.rdF Reg.KPR_ALARM 0 12 ≠ 0 → .pin "KALARM_N" true ∈ u.out) ∧
        u.pwr.warm = (if s.pwr.mresetLow then some .asserted else none) ∧
        (∀ b < 4, u.rd (Reg.TB_NS b) = s.rd (Reg.TB_NS b) ∧ u.rd (Reg.TB_WRAP b) = s.rd (Reg.TB_WRAP b) ∧
          u.rd (Reg.TB_SECBASE_LO b) = s.rd (Reg.TB_SECBASE_LO b)) ∧
        (∀ a, keptReg a = false → warmTimReg a = false → a ∉ mirrors → a ≠ Reg.HIF_STATUS → a ≠ Reg.PAT_BOOT →
          u.rd a = regReset a % 2 ^ 32))) ∧
      ((s.pwr.warm ≠ some .draining ∨ warmDraining s = true) → Answers .warmResetDrained s (fun u => u = s.fresh)) ∧
      (∀ r : StartupReport, s.pwr.warm = none → s.pwr.mode ≠ .stopping →
        (step s < 8 → Answers (.startupStep r) s (fun u => step u = step s + 1)) ∧
        (step s = 2 → Answers (.startupStep r) s (fun u => u.chn.headStrap = r.head ∧
          .pin "TROX_ACT_N" false ∈ u.out)) ∧
        (step s = 3 → r.ok = true → bankValid s (s.rdF Reg.PWR_FW_STATUS 7 1) = true →
          Answers (.startupStep r) s (fun u => bankRunning u = s.rdF Reg.PWR_FW_STATUS 7 1 ∧
            u.rd Reg.GLB_FWVER = bankVersion s (s.rdF Reg.PWR_FW_STATUS 7 1) % 2 ^ 32 ∧ u.key.drbgDown = false ∧
            u.pwr.fwRecovery = false)) ∧
        (step s = 3 → r.ok = false → Answers (.startupStep r) s (fun u =>
          u.rd Reg.GLB_FWVER = 0 ∧ u.pwr.fwRecovery = true)) ∧
        (step s = 4 → Answers (.startupStep r) s (fun u => u.key.record =
          (if r.vaultFails.getLsbD 6 then (if r.vaultFails.getLsbD 7 then none else s.key.recordOld)
            else s.key.record))) ∧
        (step s = 5 → Answers (.startupStep r) s (fun u => ∀ i < 24,
          (r.islandFails.getLsbD i = true → islandState u i = 2 ∧ (causesOf u i).testBit 0 = true) ∧
          (r.islandFails.getLsbD i = false → islandState u i = 0))) ∧
        (step s = 8 → r.ok = true → s.key.batterySources = 0 →
          (s.lifecycle = .operational → s.key.vaultOpen = true) → Answers (.startupStep r) s (fun u => step u = 9 ∧
            u.bit Reg.HIF_STATUS 16 = !s.pwr.fwRecovery ∧ u.lifecycle = s.lifecycle ∧ u.key.vaultOpen = s.key.vaultOpen)) ∧
        (9 ≤ step s → Answers (.startupStep r) s (fun u => u = s.fresh))) ∧
      (∀ r : StartupReport, (s.pwr.warm = some .draining ∨ s.pwr.mode = .stopping) →
        Answers (.startupStep r) s (fun u => u = s.fresh)))

/-- Loss of the reference is seen, after 10 ms stops every span, and its return lets them run. A clock fault or ALIGN
moves the module to the aligned plan, at 800 MHz and 720 mV; there a loss of the root's or a PLL's lock is a warm reset. Gates open
at once and close when their unit is idle; CLKOBS restarts low. A bank operation answers with a result: an image goes
to the bank not running, which can be preferred and started; the floor rises to the running version (R79, R507 to
R515). When CLK_STATUS.ROOT_LOCK is set is the model's reading (log entry 81). -/
def Obligations.ClocksAndFirmware : Prop :=
  ∀ s : State, coreRuns s = true →
    let same := fun (i : Instr) => Answers i s (fun u => u = s.fresh)
    let aligned := fun (src : Nat) (u : State) => u.bit Reg.CLK_STATUS 0 = true ∧ u.rdF Reg.CLK_STATUS 1 2 = src ∧
      ∀ i < 24, (islandState s i = 0 ∨ islandState s i = 3) →
        islandState u i ≠ 1 → u.rdF (Reg.CPH_ISL_STATUS i) 16 12 = 800 ∧ u.rd (Reg.CPH_ISL_MV i) = 720
    let busy := s.bit Reg.PWR_FW_STATUS 0
    let other := 1 - bankRunning s
    let done := fun (code : Nat) (u : State) => u.rdF Reg.PWR_FW_STATUS 1 3 = code ∧ u.bit Reg.PWR_FW_STATUS 0 = false ∧
      u.pwr.fwInstalling = false ∧ u.bit Reg.PWR_EVT 7 = true ∧
      OnlyHost [Reg.PWR_FW_STATUS, Reg.PWR_EVT] { s with pwr := u.pwr } u;
    (s.bit Reg.CLK_STATUS 3 = false →
      Answers .refLost s (fun u => u.bit Reg.CLK_STATUS 3 = true ∧ u.bit Reg.PWR_EVT 4 = true ∧
        OnlyHost [Reg.CLK_STATUS, Reg.PWR_EVT] s u) ∧ same .refLossExtended ∧ same .refBack) ∧
    (s.bit Reg.CLK_STATUS 3 = true → same .refLost ∧
      Answers .refLossExtended s (fun u => u.bit Reg.CLK_STATUS 5 = true ∧ ∀ n < 32, runMode u n = .discard) ∧
      Answers .refBack s (fun u => u.bit Reg.CLK_STATUS 3 = false ∧ u.bit Reg.CLK_STATUS 5 = false ∧
        u.bit Reg.PWR_EVT 5 = true)) ∧
    (alignedPlan s = false →
      (∀ d, Answers (.clockFault (.pllLock d)) s (fun u => aligned 1 u ∧ u.bit Reg.PWR_EVT 3 = true ∧
        u.rd Reg.CLK_FAULT_INFO = (1 + 16 * d.toNat + 2 ^ 31) % 2 ^ 32)) ∧
      (∀ i, clockPair s.pwr.clockFences = some i → Answers (.clockFault .islands) s (fun u => aligned 1 u ∧
        u.bit Reg.PWR_EVT 3 = true ∧ u.rd Reg.CLK_FAULT_INFO = (2 + 16 * i + 2 ^ 31) % 2 ^ 32)) ∧
      (clockPair s.pwr.clockFences = none → same (.clockFault .islands)) ∧
      (Served s Reg.CLK_CTRL → Answers .align s (fun u => aligned 2 u ∧ u.bit Reg.CLK_CTRL 0 = true)) ∧
      same .rootLockLoss) ∧
    (alignedPlan s = true → same (.clockFault .islands) ∧ (Served s Reg.CLK_CTRL → same .align) ∧
      ((s.pwr.mode = .on ∨ s.pwr.mode = .hold) → s.pwr.warm = none → s.key.zeroizing = none →
        ∀ i, (i = .rootLockLoss ∨ ∃ d, i = .clockFault (.pllLock d)) →
          Answers i s (fun u => u.pwr = { s.pwr with warm := some .draining, warmCause := 4 }))) ∧
    (∀ v : Word, Served s Reg.CLK_EN → Answers (.clkEnWrite v) s (fun u => u.rd Reg.CLK_EN = v.toNat % 32 ∧
      u.rd Reg.CLK_ON = s.rd Reg.CLK_ON ||| v.toNat % 32 ∧ u.pwr = { s.pwr with
        closing := (bitsOf 5 (s.rd Reg.CLK_ON)).filter (fun b => !(v.toNat % 32).testBit b) })) ∧
    (∀ (k : Fin 5) (late : Bool),
      (k.val ∈ s.pwr.closing → Answers (.gateClose k late) s (fun u => u.bit Reg.CLK_ON k.val = false ∧
        u.pwr = { s.pwr with closing := s.pwr.closing.filter (· != k.val) } ∧
        (late = true → u.bit Reg.PWR_EVT 6 = true ∧
          u.rd Reg.CLK_GATE_ABORTS = min (s.rd Reg.CLK_GATE_ABORTS + 1) 0xFFFFFFFF))) ∧
      (k.val ∉ s.pwr.closing → same (.gateClose k late))) ∧
    (∀ (a : Addr) (v : Word), Served s a.toNat →
      (a.toNat = Reg.CLK_OBS_SEL → Answers (.clkobsSelect a v) s (fun u => .pin "CLKOBS" false ∈ u.out ∧
        u.bit Reg.CLK_OBS_SEL 31 = v.toNat.testBit 31 ∧ u.rdF Reg.CLK_OBS_SEL 0 8 =
          (if obsLegal (field v.toNat 0 8) then field v.toNat 0 8 else s.rdF Reg.CLK_OBS_SEL 0 8))) ∧
      (a.toNat = Reg.CLK_OBS_DIV → Answers (.clkobsSelect a v) s (fun u => .pin "CLKOBS" false ∈ u.out ∧
        u.rd Reg.CLK_OBS_DIV = v.toNat % 65536)) ∧
      (a.toNat ≠ Reg.CLK_OBS_SEL → a.toNat ≠ Reg.CLK_OBS_DIV → same (.clkobsSelect a v))) ∧
    (Served s Reg.PWR_FW_CTRL →
      (busy = true → same .install ∧ same .prefer ∧ same .restart ∧ same .fwRaiseFloor) ∧
      (busy = false → let len := s.rdF Reg.PWR_FW_LEN 0 25;
        (len = 0 ∨ 2 ^ 24 < len → Answers .install s (done 3)) ∧
        (len ≠ 0 → len ≤ 2 ^ 24 → Answers .install s (fun u => u.bit Reg.PWR_FW_STATUS 0 = true ∧
          bankValid u other = false ∧ u.pwr = { s.pwr with fwInstalling := true } ∧
          .dmaRead (s.rd Reg.PWR_FW_ADDR_LO + 2 ^ 32 * s.rd Reg.PWR_FW_ADDR_HI) len ∈ u.out)) ∧
        (bankValid s other = true → Answers .prefer s (fun u => done 0 u ∧ u.rdF Reg.PWR_FW_STATUS 7 1 = other)) ∧
        (bankValid s other = false → Answers .prefer s (fun u => done 5 u ∧
          u.rdF Reg.PWR_FW_STATUS 7 1 = s.rdF Reg.PWR_FW_STATUS 7 1)) ∧
        (s.pwr.fwRestarting = false → Answers .restart s (fun u => u.rdF Reg.PWR_FW_STATUS 1 3 = 0 ∧
          fwIsReady u = false ∧ u.pwr.fwRestarting = true)) ∧
        Answers .fwRaiseFloor s (fun u => done 0 u ∧ u.pwr.fwFloor = bankVersion s (bankRunning s) ∧
          bankValid u other = (bankValid s other && decide (bankVersion s (bankRunning s) ≤ bankVersion s other))))) ∧
    (s.pwr.fwInstalling = false → ∀ x, same (.installDone x)) ∧
    (s.pwr.fwInstalling = true →
      Answers (.installDone .dmaError) s (fun u => done 4 u ∧
        u.rd Reg.HIF_ERRCNT = min (s.rd Reg.HIF_ERRCNT + 1) 0xFFFFFFFF) ∧
      (∀ b v, Answers (.installDone (.image b false v)) s (done 1)) ∧
      (∀ b v, v.toNat < s.pwr.fwFloor → Answers (.installDone (.image b true v)) s (done 2)) ∧
      (∀ b v, s.pwr.fwFloor ≤ v.toNat → Answers (.installDone (.image b true v)) s (fun u => done 0 u ∧
        bankValid u other = true ∧ bankVersion u other = v.toNat ∧
        (if other = 0 then u.pwr.fwDigestA else u.pwr.fwDigestB) = sha384 b)))

/-! ## The chain -/

/-- A chain message with a wrong CRC is dropped and counted, the module's own is not forwarded, any other goes on one
hop further. A count gives a joined module its position and goes on one higher; at the head it gives the size of the
ring, or shows a second head. A request makes the head count. Alarms and heartbeats fill the peer records, a cinch is
recorded and scheduled, a ZEROIZE zeroizes where the image accepts it. The most urgent message leaves first. Loss of
the link or of counts is Orphan Chain (R462 to R471). -/
def Obligations.ChainMessagesAct : Prop :=
  ∀ (s : State) (m : Bytes), railsUp s = true →
    let same := fun (i : Instr) => Answers i s (fun u => u = s.fresh)
    let passed := fun (i : Instr) => Answers i s (fun u => u = forward m s.fresh)
    let rows := [Instr.enumCount m, .enumRequest m, .alarm m, .cinch m, .zeroizeMessage m, .heartbeat m]
    let hop := fun (x : Bytes) => withCrc (splice x 1 (beBytes 1 (byteAt m 1 + 1)))
    let c := byteAt m 9
    let p := byteAt m 2
    let queued := fun (x : Bytes) (u : State) => u.chn.sendQ = s.chn.sendQ ++ [(chainPrio (byteAt x 0), x)];
    (chainOk m = false → ∀ i ∈ Instr.chainBadCrc m :: rows, Answers i s (fun u =>
      u.rd Reg.CHN_CRC_ERR = min (s.rd Reg.CHN_CRC_ERR + 1) 0xFFFFFFFF ∧ OnlyRegs [Reg.CHN_CRC_ERR] s u)) ∧
    (chainOk m = true → same (.chainBadCrc m) ∧ (isHead s = false → ownReturn s m = true → ∀ i ∈ rows, same i)) ∧
    (chainOk m = true → byteAt m 0 = 1 → byteAt m 8 = 0 → isHead s = true →
      Answers (.enumCount m) s (fun u => u.chn.sendQ = s.chn.sendQ ∧
        (65536 ≤ s.chn.gen ∨ (1 ≤ beAt m 10 2 ∧ beAt m 10 2 ≤ s.chn.gen) →
          u.rdF Reg.CHN_STATUS 16 7 = (c - 1) % 128 ∧ u.bit Reg.CHN_STATUS 9 = false) ∧
        (s.chn.gen < 65536 → (beAt m 10 2 = 0 ∨ s.chn.gen < beAt m 10 2) → u.bit Reg.CHN_STATUS 10 = true))) ∧
    (ChainGood s 1 m → byteAt m 8 = 0 → isHead s = false →
      (joined s = false → passed (.enumCount m)) ∧
      (joined s = true → c ≤ 63 → Answers (.enumCount m) s (fun u => u.rdF Reg.CHN_STATUS 0 6 = c ∧
        u.bit Reg.CHN_STATUS 6 = true ∧ u.bit Reg.CHN_STATUS 7 = false ∧ u.bit Reg.CHN_STATUS 11 = false ∧
        u.rd Reg.CHN_GEN = beAt m 10 2 ∧
        (byteAt m 1 < 63 → queued (hop (splice (m.take 16) 9 (beBytes 1 (c + 1)))) u))) ∧
      (joined s = true → 64 ≤ c → Answers (.enumCount m) s (fun u => u.bit Reg.CHN_STATUS 6 = false ∧
        u.bit Reg.CHN_STATUS 11 = true ∧ u.bit Reg.CHN_STATUS 7 = false ∧
        (byteAt m 1 < 63 → queued (hop (m.take 16)) u)))) ∧
    (ChainGood s 1 m → byteAt m 8 = 1 →
      (isHead s = false → passed (.enumRequest m)) ∧
      (isHead s = true → Answers (.enumRequest m) s (fun u => u.chn.gen = s.chn.gen + 1 ∧
        (2, ownMessage s 1 ([0#8, 1#8] ++ beBytes 2 (s.chn.gen + 1))) ∈ u.chn.sendQ))) ∧
    (∀ i type life alarm pair, (i, type, life, alarm, pair) ∈ [(Instr.alarm m, 2, byteAt m 12, beAt m 8 4,
        if s.bit (Reg.CHN_PEER_ID p) 31 then s.rdF (Reg.CHN_PEER_INFO p) 16 3 else 0),
        (.heartbeat m, 5, byteAt m 8, beAt m 10 4, byteAt m 9)] → ChainGood s type m →
      (p < 64 → Answers i s (fun u => u.rd (Reg.CHN_PEER_ID p) = beAt m 4 4 % 2 ^ 18 + 2 ^ 20 * (life % 4) + 2 ^ 31 ∧
        u.rd (Reg.CHN_PEER_INFO p) = alarm % 4096 + 2 ^ 16 * (pair % 8))) ∧
      (64 ≤ p → passed i)) ∧
    (ChainGood s 3 m →
      (s.bit Reg.CHN_STATUS 7 = true → passed (.cinch m)) ∧
      (s.bit Reg.CHN_STATUS 7 = false → Answers (.cinch m) s (fun u => u.rd Reg.CHN_CINCH_RX = beAt m 8 4 ∧
        u.chn.cinchRxId = beAt m 12 2 ∧ u.bit Reg.CHN_EVT 6 = true ∧
        ((cflags s).testBit 1 = false → u.sec = s.sec) ∧
        ((cflags s).testBit 1 = true → (beAt m 8 4 + 2 ^ 32 - s.rd (Reg.TB_NS (cinchBase s))) % 2 ^ 32 < 2 ^ 31 →
          u.sec = { s.sec with cinchAt := s.sec.cinchAt ++ [beAt m 8 4] })))) ∧
    (ChainGood s 4 m → let z := beAt m 10 2;
      (s.bit Reg.KPR_ZFANOUT 1 = true → zeroizeSeen s p (beAt m 4 4) z = true → passed (.zeroizeMessage m)) ∧
      (s.bit Reg.KPR_ZFANOUT 1 = true → zeroizeSeen s p (beAt m 4 4) z = false → Answers (.zeroizeMessage m) s (fun u =>
        u.rd Reg.CHN_ZRX = min (s.rd Reg.CHN_ZRX + 1) 0xFFFFFFFF ∧ ∃ k, u.key.zeroizing = some k ∧ k.testBit 8 = true)) ∧
      (s.bit Reg.KPR_ZFANOUT 1 = false → p < 64 → Answers (.zeroizeMessage m) s (fun u => u.key = s.key ∧
        u.rdF (Reg.CHN_PEER_ID p) 0 18 = beAt m 4 4 % 2 ^ 18 ∧ u.bit (Reg.CHN_PEER_ID p) 31 = true))) ∧
    (s.chn.sendQ = [] → same .chainMessageSend) ∧
    (∀ pre e post, s.chn.sendQ = pre ++ e :: post → (∀ x ∈ pre, e.1 < x.1) → (∀ x ∈ post, e.1 ≤ x.1) →
      Answers .chainMessageSend s (fun u =>
        u = { s.fresh with chn := { s.chn with sendQ := pre ++ post }, out := [.chain e.2] })) ∧
    (isHead s = false → same .enumTimer) ∧
    (isHead s = true → Answers .enumTimer s (fun u => u.chn.gen = s.chn.gen + 1 ∧
      queued (ownMessage s 1 ([0#8, 1#8] ++ beBytes 2 (s.chn.gen + 1))) u)) ∧
    (let lost := fun (u : State) => (isHead s = true → u.bit Reg.CHN_STATUS 9 = true) ∧
        (isHead s = false → joined s = true → u.bit Reg.CHN_STATUS 7 = true) ∧ u.chn = s.chn;
      Answers .orphanTimeout s (fun u => lost u ∧ OnlyHost [Reg.CHN_STATUS, Reg.CHN_EVT] s u) ∧
      (s.bit Reg.CHN_STATUS 12 = true → Answers .chainLinkDown s (fun u => lost u ∧ u.bit Reg.CHN_STATUS 12 = false ∧
        u.rd Reg.CHN_SYNC_LOSS = min (s.rd Reg.CHN_SYNC_LOSS + 1) 0xFFFFFFFF))) ∧
    (s.bit Reg.CHN_STATUS 12 = false → same .chainLinkDown ∧ Answers .chainLinkUp s (fun u =>
      u.bit Reg.CHN_STATUS 12 = true ∧ (joined s = true → queued (ownMessage s 1 [1#8]) u) ∧
      (joined s = false → u.chn = s.chn))) ∧
    (s.bit Reg.CHN_STATUS 12 = true → same .chainLinkUp) ∧
    (joined s = true → (cflags s).testBit 3 = true → Answers .heartbeatTimer s (queued (ownMessage s 5
      ([BitVec.ofNat 8 (lifecycleCode s.lifecycle), BitVec.ofNat 8 (pairState s)] ++ beBytes 4 (s.rd Reg.KPR_ALARM))))) ∧
    ((joined s = false ∨ (cflags s).testBit 3 = false) → same .heartbeatTimer) ∧
    (∀ q : Fin 64, Answers (.peerRecordExpire q) s (fun u => u.bit (Reg.CHN_PEER_ID q.val) 31 = false ∧
      OnlyRegs [Reg.CHN_PEER_ID q.val] { s with chn := u.chn } u ∧ u.chn.sendQ = s.chn.sendQ)) ∧
    (∀ x k, s.chn.zrepeat = some (x, k) → Answers .zeroizeRepeat s (fun u => queued x u ∧
      u.chn.zrepeat = (if k ≤ 1 then none else some (x, k - 1)))) ∧
    (s.chn.zrepeat = none → same .zeroizeRepeat) ∧
    (Served s Reg.CHN_CINCH_CMD → let t := s.rd Reg.CHN_CINCH_NS; let id := (s.chn.cinchId + 1) % 65536
      let code := if joined s = false ∨ s.bit Reg.CHN_STATUS 6 = false then 1 else if s.bit Reg.CHN_STATUS 7 then 2
        else if (cflags s).testBit 1 then 0 else 3;
      (code ≠ 0 → Answers .cinchCommand s (fun u => u.rdF Reg.CHN_CINCH_STATUS 0 2 = code ∧
        OnlyRegs [Reg.CHN_CINCH_STATUS] s u)) ∧
      (code = 0 → (t + 2 ^ 32 - s.rd (Reg.TB_NS (cinchBase s))) % 2 ^ 32 < 2 ^ 31 → Answers .cinchCommand s (fun u =>
        u.rd Reg.CHN_CINCH_STATUS = 2 ^ 16 * id ∧ u.chn.cinchId = id ∧
        queued (ownMessage s 3 (beBytes 4 t ++ beBytes 2 id)) u ∧ u.sec.cinchAt = s.sec.cinchAt ++ [t])))

/-! ## The harness -/

/-- A record with a wrong CMAC is dropped and counted, and the sixteenth in a row takes the harness down, as a record
sent eight times does; one out of order is dropped. A standby applies what the active mirrors and acknowledges a MARK;
an active asked for a takeover gives way and answers. A good HELLO pairs the modules in the roles their claims give, once the
module has a key and a nonce. A
takeover completes once its journal write has, a host's only where the pair is fit for it; a WAIT that times out is
SOLO (R472 to R480). The places of the payload fields are the model's choice (log entry 22), and ROLE decides between
two ACTIVE claims by its reading (log entry 68). -/
def Obligations.HarnessRecordsAct : Prop :=
  ∀ (s : State) (r : Bytes), coreRuns s = true →
    let same := fun (i : Instr) => Answers i s (fun u => u = s.fresh)
    let rows := [(2, Instr.ack r), (0x10, .scRecord r), (0x11, .epochRecord r), (0x12, .markRecord r), (0x13, .snapEnd r),
      (0x20, .learnRecord r), (0x21, .gateRecord r), (0x30, .takeoverRecord r), (0x31, .takeoverAck r)]
    let taken := { s.fresh with hrn := { s.hrn with authRun := 0, seqRx := s.hrn.seqRx + 1 } }
    let p := slice r 8 40
    let rx := byteAt p 2 == 1
    let i := beAt p 0 2
    let down := fun (cause : Nat) (u : State) => u.hrn.up = false ∧ u.hrn.paired = false ∧ u.hrn.key = [] ∧
      u.hrn.unacked = [] ∧ u.rdF Reg.CHN_HRN_STATUS 8 3 = cause;
    (∀ type row, (type, row) ∈ rows → s.hrn.paired = true → r.length = 64 → byteAt r 0 = type →
      (recMac s (r.take 48) ≠ slice r 48 16 →
        (s.hrn.authRun + 1 < 16 → Answers row s (fun u => u.hrn = { s.hrn with authRun := s.hrn.authRun + 1 } ∧
          u.rd Reg.CHN_HRN_AUTH_FAILS = min (s.rd Reg.CHN_HRN_AUTH_FAILS + 1) 0xFFFFFFFF ∧
          OnlyRegs [Reg.CHN_HRN_AUTH_FAILS] { s with hrn := u.hrn } u)) ∧
        (16 ≤ s.hrn.authRun + 1 → hrnRole s ≠ 0 → Answers row s (down 3))) ∧
      (recMac s (r.take 48) = slice r 48 16 → beAt r 2 6 ≠ s.hrn.seqRx + 1 → Answers row s (fun u =>
        u = { s.fresh with hrn := { s.hrn with authRun := 0 } }))) ∧
    (∀ type row, (type, row) ∈ rows → (s.hrn.paired = false ∨ r.length ≠ 64 ∨ byteAt r 0 ≠ type) → same row) ∧
    (InOrder s 2 r → let n := beAt p 0 6;
      Answers (.ack r) s (fun u => u.hrn.unacked = s.hrn.unacked.filter (fun x => decide (n < x.1)) ∧
        u.hrn.seqRx = s.hrn.seqRx + 1 ∧
        ∀ x ∈ s.hrn.unacked, x.1 ≤ n → ∀ a k, x.2.2.2 = some (a, k) → k + 1 ≤ Tbl.get (fun _ => 0) u.hrn.ackedMark a)) ∧
    (∀ type row, (type, row) ∈ rows → 0x10 ≤ type → type ≤ 0x21 → InOrder s type r → pairState s ≠ 3 →
      Answers row s (fun u => u = taken)) ∧
    (pairState s = 3 →
      (InOrder s 0x10 r → let w := (List.range 8).map (fun k => beAt p (3 + 4 * k) 4);
        ((s.scAt rx i).inUse = false → w.all (· == 0) = false → Answers (.scRecord r) s (fun u =>
          (u.scAt rx i).inUse = true ∧ (u.scAt rx i).words = w)) ∧
        ((s.scAt rx i).inUse = true → w.all (· == 0) = true → Answers (.scRecord r) s (fun u =>
          (u.scAt rx i).inUse = false)) ∧
        ((s.scAt rx i).inUse = true → w.all (· == 0) = false →
          keyLen (field (w.getD 0 0) 0 2) = keyLen (nextCipher (s.scAt rx i)) → Answers (.scRecord r) s (fun u =>
            (u.scAt rx i).pending = some w))) ∧
      (InOrder s 0x11 r → (s.scAt rx i).inUse = true → Answers (.epochRecord r) s (fun u =>
        (u.scAt rx i).epoch = beAt p 3 4 ∧ (u.scAt rx i).cur = some (byteAt p 7 % 2) ∧ (u.scAt rx i).started = true ∧
        (u.scAt rx i).pending = none)) ∧
      (InOrder s 0x12 r → Answers (.markRecord r) s (fun u => (u.saAt i).mark = beAt p 2 5 ∧
        (s.key.vaultOpen = true → journalledMark u i = beAt p 2 5) ∧ u.hrn.ackSent = s.hrn.seqRx + 1 ∧ u.out.length = 1)) ∧
      (InOrder s 0x13 r → Answers (.snapEnd r) s (fun u => u.bit Reg.CHN_HRN_STATUS 3 = true ∧
        OnlyRegs [Reg.CHN_HRN_STATUS] taken u)) ∧
      (InOrder s 0x20 r → let e := exactly 64 (slice p 1 16);
        ∀ j, findPeer s (eKey e) = some j → engineFree s = true → s.cls.jobs = [] → s.cls.learnQ = [] →
          keyLocked s (eKey e) = false → Answers (.learnRecord r) s (fun u => u.peerAt j = (if byteAt p 0 = 2 then zeros 64 else e))) ∧
      (InOrder s 0x21 r → let q := 32 + byteAt p 0 % 32;
        ((s.portAt q).gatesOn = true → Answers (.gateRecord r) s (fun u =>
          (u.portAt q).entry = beAt p 3 2 ∧ (u.portAt q).cycleStart = beAt p 5 4)) ∧
        ((s.portAt q).gatesOn = false → Answers (.gateRecord r) s (fun u => u = taken)))) ∧
    (InOrder s 0x30 r →
      (pairState s = 2 → Answers (.takeoverRecord r) s (fun u => pairState u = 3 ∧ claim u = 2 ∧ u.hrn.gaveUp = true ∧
        ∃ x, .harness x ∈ u.out ∧ byteAt x 0 = 0x31)) ∧
      (pairState s ≠ 2 → Answers (.takeoverRecord r) s (fun u => u = taken))) ∧
    (InOrder s 0x31 r →
      (∀ t, s.hrn.takeover = some (.asked, t) → Answers (.takeoverAck r) s (fun u =>
        u = { taken with hrn := { taken.hrn with takeover := some (.journalling, t) } })) ∧
      ((∀ t, s.hrn.takeover ≠ some (.asked, t)) → Answers (.takeoverAck r) s (fun u => u = taken))) ∧
    (let good := beAt p 0 4 = hrnPeer s ∧ beAt p 4 4 = s.unit ∧ byteAt p 8 ≠ hrnRole s ∧ byteAt p 9 = 1 ∧
        s.lifecycle = .operational
      let isHello := s.hrn.up = true ∧ r.length = 64 ∧ byteAt r 0 = 1;
      (¬isHello → same (.hello r)) ∧
      (isHello → ¬good → Answers (.hello r) s (fun u => u.rdF Reg.CHN_HRN_STATUS 8 3 = 4 ∧
        OnlyRegs [Reg.CHN_HRN_STATUS] s u)) ∧
      (isHello → good → s.hrn.key = [] → hrnKey s = [] → same (.hello r)) ∧
      (isHello → good → s.hrn.key ≠ [] → s.hrn.nonce = [] → same (.hello r)) ∧
      (isHello → good → s.hrn.key ≠ [] → s.hrn.nonce ≠ [] → Answers (.hello r) s (fun u => u.hrn.paired = true ∧
        u.hrn.peerNonce = slice p 11 16 ∧ u.hrn.seqTx = 0 ∧ u.hrn.seqRx = 0 ∧ u.rdF Reg.CHN_HRN_STATUS 8 3 = 0 ∧
        pairState u = if becomesActive s (byteAt p 10) then 2 else 3))) ∧
    (s.hrn.up = true → s.hrn.paired = false →
      (s.hrn.nonce ≠ [] → Answers .helloRetry s (fun u =>
        ∃ x, u = s.fresh.emit (.harness x) ∧ byteAt x 0 = 1 ∧ x.length = 64)) ∧
      (s.hrn.nonce = [] → drbgOff s = true → same .helloRetry) ∧
      (s.hrn.nonce = [] → drbgOff s = false → Answers .helloRetry s (fun u => u.hrn.nonce = s.drbg 16 ∧
        u.regs = s.regs))) ∧
    ((s.hrn.up = false ∨ s.hrn.paired = true) → same .helloRetry) ∧
    (s.hrn.paired = true → s.hrn.ackSent ≠ s.hrn.seqRx → Answers .ackTimer s (fun u =>
      u.hrn.ackSent = s.hrn.seqRx ∧ u.hrn.seqTx = s.hrn.seqTx + 1 ∧ u.regs = s.regs ∧
      ∃ x, u.out = [.harness x] ∧ byteAt x 0 = 2)) ∧
    ((s.hrn.paired = false ∨ s.hrn.ackSent = s.hrn.seqRx) → same .ackTimer) ∧
    (s.hrn.unacked = [] → same .harnessRetransmit) ∧
    (∀ h t, s.hrn.unacked = h :: t →
      (h.2.2.1 < 8 → Answers .harnessRetransmit s (fun u => u.out = (h :: t).map (fun x => .harness x.2.1) ∧
        u.rd Reg.CHN_HRN_RETX = min (s.rd Reg.CHN_HRN_RETX + (t.length + 1)) 0xFFFFFFFF ∧
        u.hrn = { s.hrn with unacked := (h :: t).map (fun x => (x.1, x.2.1, x.2.2.1 + 1, x.2.2.2)) })) ∧
      (8 ≤ h.2.2.1 → hrnRole s ≠ 0 → Answers .harnessRetransmit s (down 2))) ∧
    (∀ t, s.hrn.takeover = some (.journalling, t) → Answers .takeoverJournalDone s (fun u => u.hrn.takeover = none ∧
      pairState u = (if s.hrn.paired then 2 else 4) ∧
      u.rd Reg.CHN_HRN_LAST_US = min 65535 ((s.refTick - t) * 4 / 625) ∧
      u.rd Reg.CHN_HRN_TAKEOVERS = min (s.rd Reg.CHN_HRN_TAKEOVERS + 1) 0xFFFFFFFF)) ∧
    ((∀ t, s.hrn.takeover ≠ some (.journalling, t)) → same .takeoverJournalDone) ∧
    (Served s Reg.CHN_HRN_CMD → Answers .hostTakeover s (fun u =>
      u.rdF Reg.CHN_HRN_CODE 0 3 = takeoverCode 1 s ∧ (takeoverCode 1 s = 0 → u.hrn.takeover.isSome = true) ∧
      (takeoverCode 1 s ≠ 0 → OnlyRegs [Reg.CHN_HRN_CODE] s u))) ∧
    (let due := pairState s = 1 ∧ s.hrn.paired = false ∧ (claim s = 1 ∨ (claim s = 0 ∧ hrnRole s = 1));
      (due → Answers .soloTimeout s (fun u => pairState u = 4 ∧ claim u = 1)) ∧ (¬due → same .soloTimeout))
end

