-- ==== Sys2Proof/Laws/Bits.lean ====
section
/-! SUPPORT. Bit fields: what is read of a field after one is replaced. -/

namespace Sys2Proof.Machine

theorem field_lt (v lsb len : Nat) : field v lsb len < 2 ^ len := Nat.mod_lt _ (Nat.two_pow_pos len)

theorem field_eq (v lsb len : Nat) : field v lsb len = v / 2 ^ lsb % 2 ^ len := by
  simp [field, Nat.shiftRight_eq_div_pow]

/-- A number is what lies below a field, the field, and what lies above it. -/
theorem split_field (v lsb len : Nat) :
    v = v % 2 ^ lsb + field v lsb len * 2 ^ lsb + v / 2 ^ (lsb + len) * 2 ^ (lsb + len) := by
  have h₁ := Nat.mod_add_div v (2 ^ lsb)
  have h₂ := Nat.mod_add_div (v / 2 ^ lsb) (2 ^ len)
  rw [Nat.div_div_eq_div_mul, ← Nat.pow_add] at h₂
  rw [field_eq]
  calc v = v % 2 ^ lsb + 2 ^ lsb * (v / 2 ^ lsb) := h₁.symm
    _ = v % 2 ^ lsb + 2 ^ lsb * (v / 2 ^ lsb % 2 ^ len + 2 ^ len * (v / 2 ^ (lsb + len))) := by rw [h₂]
    _ = _ := by rw [Nat.pow_add]; ring

/-- A replaced field: what lay below, the new field, what lay above. -/
theorem putField_eq (v lsb len x : Nat) :
    putField v lsb len x = v % 2 ^ lsb + x % 2 ^ len * 2 ^ lsb + v / 2 ^ (lsb + len) * 2 ^ (lsb + len) := by
  have h := split_field v lsb len
  have hv : v - field v lsb len * 2 ^ lsb = v % 2 ^ lsb + v / 2 ^ (lsb + len) * 2 ^ (lsb + len) := by omega
  rw [putField, hv]
  omega

theorem putField_div (v lsb len x : Nat) :
    putField v lsb len x / 2 ^ lsb = x % 2 ^ len + v / 2 ^ (lsb + len) * 2 ^ len := by
  have h : putField v lsb len x = v % 2 ^ lsb + 2 ^ lsb * (x % 2 ^ len + v / 2 ^ (lsb + len) * 2 ^ len) := by
    rw [putField_eq, Nat.pow_add]; ring
  rw [h, Nat.add_mul_div_left _ _ (Nat.two_pow_pos lsb), Nat.div_eq_of_lt (Nat.mod_lt _ (Nat.two_pow_pos lsb)),
    Nat.zero_add]

/-- The field just written reads as the value, cut to the field. -/
@[simp] theorem field_putField_same (v lsb len x : Nat) : field (putField v lsb len x) lsb len = x % 2 ^ len := by
  rw [field_eq, putField_div, Nat.add_mul_mod_self_right, Nat.mod_mod]

theorem putField_mod_low (v lsb len x : Nat) : putField v lsb len x % 2 ^ lsb = v % 2 ^ lsb := by
  have h : putField v lsb len x = v % 2 ^ lsb + 2 ^ lsb * (x % 2 ^ len + v / 2 ^ (lsb + len) * 2 ^ len) := by
    rw [putField_eq, Nat.pow_add]; ring
  rw [h, Nat.add_mul_mod_self_left, Nat.mod_mod]

/-- A field that lies wholly below is unchanged. -/
theorem field_putField_below (v lsb len x : Nat) {l n : Nat} (h : l + n ≤ lsb) :
    field (putField v lsb len x) l n = field v l n := by
  have key : ∀ w, field w l n = field (w % 2 ^ lsb) l n := by
    intro w
    apply Nat.eq_of_testBit_eq
    intro i
    by_cases hi : i < n
    · have : l + i < lsb := by omega
      simp [field, Nat.testBit_shiftRight, Nat.testBit_mod_two_pow, hi, this]
    · simp [field, Nat.testBit_mod_two_pow, hi]
  rw [key, putField_mod_low, ← key]

theorem putField_div_high (v lsb len x : Nat) : putField v lsb len x / 2 ^ (lsb + len) = v / 2 ^ (lsb + len) := by
  rw [Nat.pow_add, ← Nat.div_div_eq_div_mul, putField_div, Nat.add_mul_div_right _ _ (Nat.two_pow_pos len),
    Nat.div_eq_of_lt (Nat.mod_lt _ (Nat.two_pow_pos len)), Nat.zero_add, Nat.pow_add]

/-- A field that lies wholly above is unchanged. -/
theorem field_putField_above (v lsb len x : Nat) {l n : Nat} (h : lsb + len ≤ l) :
    field (putField v lsb len x) l n = field v l n := by
  obtain ⟨d, rfl⟩ := Nat.exists_eq_add_of_le h
  rw [field_eq, field_eq, Nat.pow_add, ← Nat.div_div_eq_div_mul, ← Nat.div_div_eq_div_mul, putField_div_high]

/-- A register word stays one when a field of it is replaced. -/
theorem putField_lt {v lsb len x w : Nat} (hv : v < 2 ^ w) (h : lsb + len ≤ w) : putField v lsb len x < 2 ^ w := by
  rcases Nat.exists_eq_add_of_le h with ⟨d, rfl⟩
  have h₁ : v / 2 ^ (lsb + len) < 2 ^ d := by
    rw [Nat.div_lt_iff_lt_mul (Nat.two_pow_pos _), Nat.mul_comm, ← Nat.pow_add]; exact hv
  have h₂ : putField v lsb len x / 2 ^ (lsb + len) < 2 ^ d := by rw [putField_div_high]; exact h₁
  rw [Nat.div_lt_iff_lt_mul (Nat.two_pow_pos _), Nat.mul_comm, ← Nat.pow_add] at h₂
  exact h₂

/-- A bit is a field of width one. -/
theorem testBit_eq_field (v n : Nat) : v.testBit n = decide (field v n 1 = 1) := by
  simp [Nat.testBit, field, Nat.and_comm 1, Nat.and_one_is_mod]

end Sys2Proof.Machine
end

