-- ==== Sys2Proof/Laws/Cipher.lean ====
section
/-! SUPPORT. AES deciphers what it enciphered, KW unwraps what was wrapped, and a CMAC has sixteen bytes. -/

namespace Sys2Proof.Machine

/-! ## The field of AES -/

/-- A product is linear in its second factor. -/
theorem gmulN_xor (n : Nat) (a x y : Byte) : gmulN n a (x ^^^ y) = gmulN n a x ^^^ gmulN n a y := by
  induction n generalizing a x y with
  | zero => simp [gmulN]
  | succ n ih =>
    have e : (if (x ^^^ y).getLsbD 0 then a else 0) = (if x.getLsbD 0 then a else 0) ^^^ (if y.getLsbD 0 then a else 0) := by
      rw [BitVec.getLsbD_xor]
      cases x.getLsbD 0 <;> cases y.getLsbD 0 <;> simp
    simp only [gmulN, e, BitVec.ushiftRight_xor_distrib, ih]
    ac_rfl

theorem gmul_xor (a x y : Byte) : gmul a (x ^^^ y) = gmul a x ^^^ gmul a y := gmulN_xor 8 a x y

/-- What holds of every byte, shown of each. -/
theorem byte_all {P : Byte → Prop} (h : ∀ i : Fin 256, P (BitVec.ofFin i)) (x : Byte) : P x := h x.toFin

theorem invSubByte_subByte (x : Byte) : invSubByte (subByte x) = x :=
  byte_all (P := fun x => invSubByte (subByte x) = x) (by decide +kernel) x

theorem inverse_same (x : Byte) : gmul 14 (gmul 2 x) ^^^ gmul 11 (gmul 1 x) ^^^ gmul 13 (gmul 1 x) ^^^ gmul 9 (gmul 3 x) = x :=
  byte_all (P := fun x => gmul 14 (gmul 2 x) ^^^ gmul 11 (gmul 1 x) ^^^ gmul 13 (gmul 1 x) ^^^ gmul 9 (gmul 3 x) = x)
    (by decide +kernel) x
theorem inverse_next (x : Byte) : gmul 14 (gmul 3 x) ^^^ gmul 11 (gmul 2 x) ^^^ gmul 13 (gmul 1 x) ^^^ gmul 9 (gmul 1 x) = 0 :=
  byte_all (P := fun x => gmul 14 (gmul 3 x) ^^^ gmul 11 (gmul 2 x) ^^^ gmul 13 (gmul 1 x) ^^^ gmul 9 (gmul 1 x) = 0)
    (by decide +kernel) x
theorem inverse_opposite (x : Byte) : gmul 14 (gmul 1 x) ^^^ gmul 11 (gmul 3 x) ^^^ gmul 13 (gmul 2 x) ^^^ gmul 9 (gmul 1 x) = 0 :=
  byte_all (P := fun x => gmul 14 (gmul 1 x) ^^^ gmul 11 (gmul 3 x) ^^^ gmul 13 (gmul 2 x) ^^^ gmul 9 (gmul 1 x) = 0)
    (by decide +kernel) x
theorem inverse_last (x : Byte) : gmul 14 (gmul 1 x) ^^^ gmul 11 (gmul 1 x) ^^^ gmul 13 (gmul 3 x) ^^^ gmul 9 (gmul 2 x) = 0 :=
  byte_all (P := fun x => gmul 14 (gmul 1 x) ^^^ gmul 11 (gmul 1 x) ^^^ gmul 13 (gmul 3 x) ^^^ gmul 9 (gmul 2 x) = 0)
    (by decide +kernel) x

/-- One byte of a column after both products: the four factors of each byte are gathered. -/
theorem unmix (w x y z : Byte) :
    gmul 14 (gmul 2 w ^^^ gmul 3 x ^^^ gmul 1 y ^^^ gmul 1 z) ^^^ gmul 11 (gmul 2 x ^^^ gmul 3 y ^^^ gmul 1 z ^^^ gmul 1 w) ^^^
    gmul 13 (gmul 2 y ^^^ gmul 3 z ^^^ gmul 1 w ^^^ gmul 1 x) ^^^ gmul 9 (gmul 2 z ^^^ gmul 3 w ^^^ gmul 1 x ^^^ gmul 1 y) = w := by
  simp only [gmul_xor]
  have e : ∀ w₁ w₂ w₃ w₄ x₁ x₂ x₃ x₄ y₁ y₂ y₃ y₄ z₁ z₂ z₃ z₄ : Byte,
      (w₁ ^^^ x₁ ^^^ y₁ ^^^ z₁) ^^^ (x₂ ^^^ y₂ ^^^ z₂ ^^^ w₂) ^^^ (y₃ ^^^ z₃ ^^^ w₃ ^^^ x₃) ^^^ (z₄ ^^^ w₄ ^^^ x₄ ^^^ y₄) =
      (w₁ ^^^ w₂ ^^^ w₃ ^^^ w₄) ^^^ (x₁ ^^^ x₂ ^^^ x₃ ^^^ x₄) ^^^ (y₁ ^^^ y₂ ^^^ y₃ ^^^ y₄) ^^^ (z₁ ^^^ z₂ ^^^ z₃ ^^^ z₄) := by
    intros; ac_rfl
  rw [e, inverse_same, inverse_next, inverse_opposite, inverse_last]
  simp

/-! ## Blocks -/

theorem block_cases {s : Bytes} (h : s.length = 16) : ∃ a b c d e f g i j k l m n o p q : Byte,
    s = [a, b, c, d, e, f, g, i, j, k, l, m, n, o, p, q] := by
  match s, h with
  | [a, b, c, d, e, f, g, i, j, k, l, m, n, o, p, q], _ => exact ⟨a, b, c, d, e, f, g, i, j, k, l, m, n, o, p, q, rfl⟩

theorem mixWith_inverse {s : Bytes} (h : s.length = 16) : mixWith 14 11 13 9 (mixWith 2 3 1 1 s) = s := by
  obtain ⟨a, b, c, d, e, f, g, i, j, k, l, m, n, o, p, q, rfl⟩ := block_cases h
  simp [mixWith, columns, mixColumn, List.range, List.range.loop]
  and_intros <;> exact unmix _ _ _ _

theorem invShiftRows_shiftRows {s : Bytes} (h : s.length = 16) : invShiftRows (shiftRows s) = s := by
  obtain ⟨a, b, c, d, e, f, g, i, j, k, l, m, n, o, p, q, rfl⟩ := block_cases h
  rfl

@[simp] theorem shiftRows_length (s : Bytes) : (shiftRows s).length = 16 := by simp [shiftRows]
@[simp] theorem invShiftRows_length (s : Bytes) : (invShiftRows s).length = 16 := by simp [invShiftRows]

theorem mixWith_length {s : Bytes} (a b c d : Byte) : (mixWith a b c d s).length = 16 := by
  simp [mixWith, columns, mixColumn]

@[simp] theorem xorBytes_length (a b : Bytes) : (xorBytes a b).length = min a.length b.length := by simp [xorBytes]

theorem xorBytes_cancel {a b : Bytes} (h : a.length = b.length) : xorBytes (xorBytes a b) b = a := by
  induction a generalizing b with
  | nil => cases b <;> simp_all [xorBytes]
  | cons x a ih =>
    cases b with
    | nil => simp at h
    | cons y b =>
      have := ih (b := b) (by simpa using h)
      simp_all [xorBytes]

/-- The first half of a round is undone. -/
theorem unsub {s : Bytes} (h : s.length = 16) : (invShiftRows (shiftRows (s.map subByte))).map invSubByte = s := by
  rw [invShiftRows_shiftRows (by simpa using h), List.map_map]
  simp [Function.comp_def, invSubByte_subByte]

theorem aesInvRounds_append (l : List Bytes) (k x : Bytes) (h : l ≠ []) :
    aesInvRounds (l ++ [k]) x = xorBytes ((invShiftRows (mixWith 14 11 13 9 (aesInvRounds l x))).map invSubByte) k := by
  induction l generalizing x with
  | nil => exact absurd rfl h
  | cons a l ih =>
    cases l with
    | nil => rfl
    | cons b l => exact ih _ (by simp)

theorem aesRounds_undone (ks : List Bytes) (k₀ s : Bytes) (hs : s.length = 16) (h₀ : k₀.length = 16)
    (h : ∀ k ∈ ks, k.length = 16) (hn : ks ≠ []) :
    aesInvRounds (k₀ :: ks.dropLast).reverse (xorBytes (aesRounds ks (xorBytes s k₀)) (ks.getLast hn)) = s := by
  induction ks generalizing k₀ s with
  | nil => exact absurd rfl hn
  | cons k ks ih =>
    have hk := h k (by simp)
    have hx : (xorBytes s k₀).length = 16 := by simp [hs, h₀]
    cases ks with
    | nil =>
      have e : xorBytes (xorBytes (shiftRows ((xorBytes s k₀).map subByte)) k) k = shiftRows ((xorBytes s k₀).map subByte) :=
        xorBytes_cancel (by simp [hk])
      simp only [aesRounds, List.dropLast, List.reverse_cons, List.reverse_nil, List.nil_append, List.getLast_singleton,
        aesInvRounds, e]
      rw [unsub hx, xorBytes_cancel (by simp [hs, h₀])]
    | cons k' ks =>
      have hm := mixWith_length (s := shiftRows ((xorBytes s k₀).map subByte)) 2 3 1 1
      have e := ih k (mixWith 2 3 1 1 (shiftRows ((xorBytes s k₀).map subByte))) hm hk
        (fun x hx => h x (List.mem_cons_of_mem _ hx)) (by simp)
      rw [List.dropLast_cons_cons, List.reverse_cons, aesInvRounds_append _ _ _ (by simp), List.getLast_cons (by simp)]
      simp only [aesRounds]
      rw [e, mixWith_inverse (by simp), unsub hx, xorBytes_cancel (by simp [hs, h₀])]

/-- AES deciphers what it enciphered. -/
theorem aesDecrypt_aesEncrypt {key blk : Bytes} (hk : ∀ k ∈ roundKeys key, k.length = 16)
    (hn : 2 ≤ (roundKeys key).length) (hb : blk.length = 16) : aesDecrypt key (aesEncrypt key blk) = blk := by
  unfold aesDecrypt aesEncrypt
  match hr : roundKeys key with
  | [] => simp [hr] at hn
  | [_] => simp [hr] at hn
  | k₀ :: k :: ks =>
    rw [hr] at hk
    have hne : k :: ks ≠ [] := by simp
    have e := aesRounds_undone (k :: ks) k₀ blk hb (hk k₀ (by simp)) (fun x hx => hk x (List.mem_cons_of_mem _ hx)) hne
    have d : (k₀ :: k :: ks).reverse = (k :: ks).getLast hne :: (k₀ :: (k :: ks).dropLast).reverse := by
      conv_lhs => rw [← List.dropLast_append_getLast hne]
      simp
    simp only [d]
    exact e

theorem aesRounds_length (ks : List Bytes) (s : Bytes) (h : ∀ k ∈ ks, k.length = 16) (hn : ks ≠ []) :
    (aesRounds ks s).length = 16 := by
  induction ks generalizing s with
  | nil => exact absurd rfl hn
  | cons k ks ih =>
    cases ks with
    | nil => simp [aesRounds, h k (by simp)]
    | cons k' ks => exact ih _ (fun x hx => h x (List.mem_cons_of_mem _ hx)) (by simp)

theorem aesEncrypt_length {key : Bytes} (blk : Bytes) (hk : ∀ k ∈ roundKeys key, k.length = 16)
    (hn : 2 ≤ (roundKeys key).length) : (aesEncrypt key blk).length = 16 := by
  unfold aesEncrypt
  match hr : roundKeys key with
  | [] => simp [hr] at hn
  | [_] => simp [hr] at hn
  | k₀ :: k :: ks => exact aesRounds_length _ _ (fun x hx => hk x (by rw [hr]; exact List.mem_cons_of_mem _ hx)) (by simp)

/-! ## CMAC -/

theorem cmacChain_length {key : Bytes} (hk : ∀ k ∈ roundKeys key, k.length = 16) (hn : 2 ≤ (roundKeys key).length)
    (l : List Bytes) (x : Bytes) (h : l ≠ []) : (cmacChain key l x).length = 16 := by
  induction l generalizing x with
  | nil => exact absurd rfl h
  | cons b l ih =>
    cases l with
    | nil => exact aesEncrypt_length _ hk hn
    | cons c l => exact ih _ (by simp)

/-- A CMAC has sixteen bytes. -/
theorem cmac_length {key : Bytes} (hk : ∀ k ∈ roundKeys key, k.length = 16) (hn : 2 ≤ (roundKeys key).length)
    (msg : Bytes) : (cmac key msg).length = 16 := cmacChain_length hk hn _ _ (by simp)

/-! ## Key wrapping -/

/-- One pass of KW wrapping over semiblocks 1 to `i`, `n` in all. -/
def kwWrapPass (kek : Bytes) (n j : Nat) : Nat → Bytes × List Bytes → Bytes × List Bytes
  | 0, x => x
  | i + 1, x =>
    let r := kwWrapPass kek n j i x
    let b := aesEncrypt kek (r.1 ++ r.2.getD i [])
    (xorBytes (b.take 8) (beBytes 8 (n * j + (i + 1))), r.2.set i (b.drop 8))

/-- Passes 0 to `j` − 1. -/
def kwWrapPasses (kek : Bytes) (n : Nat) : Nat → Bytes × List Bytes → Bytes × List Bytes
  | 0, x => x
  | j + 1, x => kwWrapPass kek n j n (kwWrapPasses kek n j x)

/-- KW-AE of SP 800-38F with the default ICV. -/
def kwWrap (kek p : Bytes) : Bytes :=
  let n := p.length / 8
  let r := kwWrapPasses kek n 6 (List.replicate 8 0xA6, semiblocks n p)
  r.1 ++ r.2.flatten

/-- A pass works on eight bytes and semiblocks of eight. -/
def Semi (n : Nat) (x : Bytes × List Bytes) : Prop := x.1.length = 8 ∧ x.2.length = n ∧ ∀ b ∈ x.2, b.length = 8

@[simp] theorem leBytes_length (n v : Nat) : (leBytes n v).length = n := by
  induction n generalizing v with
  | zero => rfl
  | succ n ih => simp [leBytes, ih]

@[simp] theorem beBytes_length (n v : Nat) : (beBytes n v).length = n := by simp [beBytes]

theorem kwWrapPass_semi {kek : Bytes} (hk : ∀ k ∈ roundKeys kek, k.length = 16) (hn : 2 ≤ (roundKeys kek).length)
    {n j : Nat} {x : Bytes × List Bytes} (h : Semi n x) (i : Nat) : Semi n (kwWrapPass kek n j i x) := by
  induction i with
  | zero => exact h
  | succ i ih =>
    have e := aesEncrypt_length ((kwWrapPass kek n j i x).1 ++ (kwWrapPass kek n j i x).2.getD i []) hk hn
    refine ⟨by simp [kwWrapPass, e, -List.getD_eq_getElem?_getD], by simp [kwWrapPass, ih.2.1], ?_⟩
    intro b hb
    rcases List.mem_or_eq_of_mem_set hb with hb | rfl
    · exact ih.2.2 b hb
    · simp [e, -List.getD_eq_getElem?_getD]

theorem kwPass_undoes {kek : Bytes} (hk : ∀ k ∈ roundKeys kek, k.length = 16) (hn : 2 ≤ (roundKeys kek).length)
    {n j : Nat} {x : Bytes × List Bytes} (h : Semi n x) {i : Nat} (hi : i ≤ n) :
    kwPass kek n j i (kwWrapPass kek n j i x).1 (kwWrapPass kek n j i x).2 = x := by
  induction i with
  | zero => rfl
  | succ i ih =>
    have hs := kwWrapPass_semi hk hn (j := j) h i
    have hl : i < (kwWrapPass kek n j i x).2.length := by rw [hs.2.1]; omega
    have hg : (kwWrapPass kek n j i x).2.getD i [] = (kwWrapPass kek n j i x).2[i] := List.getD_eq_getElem _ _ hl
    have hb : ((kwWrapPass kek n j i x).1 ++ (kwWrapPass kek n j i x).2.getD i []).length = 16 := by
      rw [hg, List.length_append, hs.1, hs.2.2 _ (List.getElem_mem hl)]
    have he := aesEncrypt_length ((kwWrapPass kek n j i x).1 ++ (kwWrapPass kek n j i x).2.getD i []) hk hn
    have hd := aesDecrypt_aesEncrypt hk hn hb
    simp only [kwPass, kwWrapPass]
    generalize aesEncrypt kek ((kwWrapPass kek n j i x).1 ++ (kwWrapPass kek n j i x).2.getD i []) = b at he hd ⊢
    have hset : ((kwWrapPass kek n j i x).2.set i (b.drop 8)).getD i [] = b.drop 8 := by
      rw [List.getD_eq_getElem _ _ (by simpa using hl), List.getElem_set_self]
    rw [xorBytes_cancel (by simp [he]), hset, List.take_append_drop, hd, hg, List.set_set,
      List.take_left' hs.1, List.drop_left' hs.1, List.set_getElem_self]
    exact ih (by omega)

theorem kwWrapPasses_semi {kek : Bytes} (hk : ∀ k ∈ roundKeys kek, k.length = 16) (hn : 2 ≤ (roundKeys kek).length)
    {n : Nat} {x : Bytes × List Bytes} (h : Semi n x) (j : Nat) : Semi n (kwWrapPasses kek n j x) := by
  induction j with
  | zero => exact h
  | succ j ih => exact kwWrapPass_semi hk hn ih n

theorem kwPasses_undo {kek : Bytes} (hk : ∀ k ∈ roundKeys kek, k.length = 16) (hn : 2 ≤ (roundKeys kek).length)
    {n : Nat} {x : Bytes × List Bytes} (h : Semi n x) (j : Nat) :
    kwPasses kek n j (kwWrapPasses kek n j x).1 (kwWrapPasses kek n j x).2 = x := by
  induction j with
  | zero => rfl
  | succ j ih =>
    simp only [kwPasses, kwWrapPasses]
    rw [kwPass_undoes hk hn (kwWrapPasses_semi hk hn h j) (Nat.le_refl n)]
    exact ih

theorem semiblocks_flatten (l : List Bytes) (h : ∀ b ∈ l, b.length = 8) : semiblocks l.length l.flatten = l := by
  induction l with
  | nil => rfl
  | cons b l ih =>
    have hb := h b (by simp)
    simp only [List.length_cons, semiblocks, List.flatten_cons]
    rw [List.take_left' hb, List.drop_left' hb, ih (fun c hc => h c (List.mem_cons_of_mem _ hc))]

theorem semiblocks_semi (n : Nat) (p : Bytes) (h : p.length = 8 * n) :
    (semiblocks n p).length = n ∧ (∀ b ∈ semiblocks n p, b.length = 8) ∧ (semiblocks n p).flatten = p := by
  induction n generalizing p with
  | zero => simp [semiblocks, List.length_eq_zero_iff.mp (by simpa using h)]
  | succ n ih =>
    obtain ⟨h₁, h₂, h₃⟩ := ih (p.drop 8) (by simp; omega)
    refine ⟨by simp [semiblocks, h₁], ?_, by simp [semiblocks, h₃]⟩
    intro b hb
    rcases List.mem_cons.mp hb with rfl | hb
    · simp; omega
    · exact h₂ b hb

theorem flatten_length (l : List Bytes) (h : ∀ b ∈ l, b.length = 8) : l.flatten.length = 8 * l.length := by
  induction l with
  | nil => rfl
  | cons b l ih =>
    rw [List.flatten_cons, List.length_append, h b (by simp), ih (fun c hc => h c (List.mem_cons_of_mem _ hc)),
      List.length_cons]
    omega

/-- A wrapping is of eight bytes more than what it wraps. -/
theorem kwWrap_length {kek p : Bytes} {n : Nat} (hk : ∀ k ∈ roundKeys kek, k.length = 16)
    (hn : 2 ≤ (roundKeys kek).length) (h : p.length = 8 * n) : (kwWrap kek p).length = 8 * n + 8 := by
  have hd : p.length / 8 = n := by omega
  obtain ⟨h₁, h₂, _⟩ := semiblocks_semi n p h
  have hs := kwWrapPasses_semi hk hn (x := (List.replicate 8 0xA6, semiblocks n p)) ⟨by simp, h₁, h₂⟩ 6
  simp only [kwWrap, hd]
  rw [List.length_append, hs.1, flatten_length _ hs.2.2, hs.2.1]
  omega

/-- KW unwraps what was wrapped. -/
theorem kwUnwrap_kwWrap {kek p : Bytes} {n : Nat} (hk : ∀ k ∈ roundKeys kek, k.length = 16)
    (hn : 2 ≤ (roundKeys kek).length) (h : p.length = 8 * n) : kwUnwrap kek (kwWrap kek p) = some p := by
  have hl := kwWrap_length hk hn h
  have hd : p.length / 8 = n := by omega
  obtain ⟨h₁, h₂, h₃⟩ := semiblocks_semi n p h
  have hx : Semi n (List.replicate 8 0xA6, semiblocks n p) := ⟨by simp, h₁, h₂⟩
  have hs := kwWrapPasses_semi hk hn hx 6
  have hc : (kwWrap kek p).length / 8 - 1 = n := by omega
  have ht : (kwWrap kek p).take 8 = (kwWrapPasses kek n 6 (List.replicate 8 0xA6, semiblocks n p)).1 := by
    simp only [kwWrap, hd]; exact List.take_left' hs.1
  have hr : semiblocks n ((kwWrap kek p).drop 8) = (kwWrapPasses kek n 6 (List.replicate 8 0xA6, semiblocks n p)).2 := by
    simp only [kwWrap, hd]
    rw [List.drop_left' hs.1]
    have e := semiblocks_flatten _ hs.2.2
    rwa [hs.2.1] at e
  simp only [kwUnwrap, hc, ht, hr, kwPasses_undo hk hn hx 6]
  rw [h₃]
  rfl

end Sys2Proof.Machine
end

