-- ==== Sys2Proof/Laws/Tbl.lean ====
section
/-! SUPPORT. Sparse tables: what is read after a write, and that a write keeps the canonical form. -/

namespace Sys2Proof.Machine

variable {α : Type}

theorem Tbl.find_erase_same (t : Tbl α) (n : Nat) : Tbl.find (Tbl.erase t n) n = none := by
  induction t with
  | nil => rfl
  | cons e t ih =>
    obtain ⟨k, v⟩ := e
    by_cases h : k = n <;> simp [Tbl.erase, Tbl.find, h, ih]

theorem Tbl.find_erase_ne (t : Tbl α) {n m : Nat} (h : m ≠ n) :
    Tbl.find (Tbl.erase t n) m = Tbl.find t m := by
  induction t with
  | nil => rfl
  | cons e t ih =>
    obtain ⟨k, v⟩ := e
    by_cases hk : k = n
    · subst hk
      simp [Tbl.erase, Tbl.find, Ne.symm h, ih]
    · simp only [Tbl.erase, Tbl.find, hk, if_false, ih]

theorem Tbl.find_put_same (t : Tbl α) (n : Nat) (v : α) : Tbl.find (Tbl.put t n v) n = some v := by
  induction t with
  | nil => simp [Tbl.put, Tbl.find]
  | cons e t ih =>
    obtain ⟨k, w⟩ := e
    by_cases h₁ : n < k
    · simp [Tbl.put, Tbl.find, h₁]
    · by_cases h₂ : n = k
      · simp [Tbl.put, Tbl.find, h₂]
      · simp [Tbl.put, Tbl.find, h₁, h₂, Ne.symm h₂, ih]

theorem Tbl.find_put_ne (t : Tbl α) {n m : Nat} (v : α) (h : m ≠ n) :
    Tbl.find (Tbl.put t n v) m = Tbl.find t m := by
  induction t with
  | nil => simp [Tbl.put, Tbl.find, Ne.symm h]
  | cons e t ih =>
    obtain ⟨k, w⟩ := e
    by_cases h₁ : n < k
    · simp [Tbl.put, Tbl.find, h₁, Ne.symm h]
    · by_cases h₂ : n = k
      · subst h₂
        simp [Tbl.put, Tbl.find, Ne.symm h]
      · simp only [Tbl.put, Tbl.find, h₁, h₂, if_false, ih]

/-- The key just written reads as the value written. -/
@[simp] theorem Tbl.get_set_same [DecidableEq α] (d : Nat → α) (t : Tbl α) (n : Nat) (v : α) :
    Tbl.get d (Tbl.set d t n v) n = v := by
  by_cases h : v = d n
  · simp [Tbl.get, Tbl.set, h, Tbl.find_erase_same]
  · simp [Tbl.get, Tbl.set, h, Tbl.find_put_same]

/-- Every other key reads as before. -/
theorem Tbl.get_set_ne [DecidableEq α] (d : Nat → α) (t : Tbl α) {n m : Nat} (v : α) (h : m ≠ n) :
    Tbl.get d (Tbl.set d t n v) m = Tbl.get d t m := by
  by_cases hv : v = d n
  · simp [Tbl.get, Tbl.set, hv, Tbl.find_erase_ne t h]
  · simp [Tbl.get, Tbl.set, hv, Tbl.find_put_ne t v h]

/-- What any key reads as after a write. -/
theorem Tbl.get_set [DecidableEq α] (d : Nat → α) (t : Tbl α) (n m : Nat) (v : α) :
    Tbl.get d (Tbl.set d t n v) m = if m = n then v else Tbl.get d t m := by
  by_cases h : m = n
  · simp [h]
  · simp [h, Tbl.get_set_ne d t v h]

/-- An empty table reads as its default. -/
@[simp] theorem Tbl.get_nil (d : Nat → α) (n : Nat) : Tbl.get d [] n = d n := rfl

/-! ## The canonical form -/

theorem Tbl.sortedAbove_mono {t : Tbl α} {a b : Nat} (h : a ≤ b) (ht : Tbl.sortedAbove (some b) t = true) :
    Tbl.sortedAbove (some a) t = true := by
  cases t with
  | nil => rfl
  | cons e t =>
    obtain ⟨k, v⟩ := e
    simp only [Tbl.sortedAbove, Bool.and_eq_true, decide_eq_true_eq] at ht ⊢
    exact ⟨by omega, ht.2⟩

theorem Tbl.sortedAbove_none {t : Tbl α} {b : Nat} (ht : Tbl.sortedAbove (some b) t = true) :
    Tbl.sortedAbove none t = true := by
  cases t with
  | nil => rfl
  | cons e t =>
    obtain ⟨k, v⟩ := e
    simp only [Tbl.sortedAbove, Bool.and_eq_true] at ht ⊢
    exact ht.2

theorem Tbl.sortedAbove_erase {t : Tbl α} {b n : Nat} (ht : Tbl.sortedAbove (some b) t = true) :
    Tbl.sortedAbove (some b) (Tbl.erase t n) = true := by
  induction t generalizing b with
  | nil => rfl
  | cons e t ih =>
    obtain ⟨k, v⟩ := e
    simp only [Tbl.sortedAbove, Bool.and_eq_true, decide_eq_true_eq] at ht
    by_cases h : k = n
    · simp only [Tbl.erase, h, if_true]
      exact ih (Tbl.sortedAbove_mono (by omega) ht.2)
    · simp only [Tbl.erase, h, if_false, Tbl.sortedAbove, Bool.and_eq_true, decide_eq_true_eq]
      exact ⟨ht.1, ih ht.2⟩

theorem Tbl.sortedAbove_put {t : Tbl α} {b n : Nat} {v : α} (hb : b < n)
    (ht : Tbl.sortedAbove (some b) t = true) : Tbl.sortedAbove (some b) (Tbl.put t n v) = true := by
  induction t generalizing b with
  | nil => simp [Tbl.put, Tbl.sortedAbove, hb]
  | cons e t ih =>
    obtain ⟨k, w⟩ := e
    simp only [Tbl.sortedAbove, Bool.and_eq_true, decide_eq_true_eq] at ht
    by_cases h₁ : n < k
    · simp only [Tbl.put, h₁, if_true, Tbl.sortedAbove, Bool.and_eq_true, decide_eq_true_eq]
      exact ⟨hb, trivial, ht.2⟩
    · by_cases h₂ : n = k
      · simp only [Tbl.put, h₂, Nat.lt_irrefl, if_true, if_false, Tbl.sortedAbove, Bool.and_eq_true,
          decide_eq_true_eq]
        exact ⟨by omega, ht.2⟩
      · simp only [Tbl.put, h₁, h₂, if_false, Tbl.sortedAbove, Bool.and_eq_true, decide_eq_true_eq]
        exact ⟨ht.1, ih (by omega) ht.2⟩

theorem Tbl.sortedAbove_head {t : Tbl α} {k : Nat} {v : α}
    (h : Tbl.sortedAbove none ((k, v) :: t) = true) : Tbl.sortedAbove (some k) t = true := h

theorem Tbl.sorted_erase {t : Tbl α} {n : Nat} (ht : Tbl.sortedAbove none t = true) :
    Tbl.sortedAbove none (Tbl.erase t n) = true := by
  cases t with
  | nil => rfl
  | cons e t =>
    obtain ⟨k, v⟩ := e
    have hk := Tbl.sortedAbove_head ht
    by_cases h : k = n
    · simp only [Tbl.erase, h, if_true]
      exact Tbl.sortedAbove_none (Tbl.sortedAbove_erase hk)
    · simp only [Tbl.erase, h, if_false, Tbl.sortedAbove]
      exact Tbl.sortedAbove_erase hk

theorem Tbl.sorted_put {t : Tbl α} {n : Nat} {v : α} (ht : Tbl.sortedAbove none t = true) :
    Tbl.sortedAbove none (Tbl.put t n v) = true := by
  cases t with
  | nil => rfl
  | cons e t =>
    obtain ⟨k, w⟩ := e
    have hk := Tbl.sortedAbove_head ht
    by_cases h₁ : n < k
    · simp only [Tbl.put, h₁, if_true, Tbl.sortedAbove, Bool.and_eq_true, decide_eq_true_eq]
      exact ⟨trivial, hk⟩
    · by_cases h₂ : n = k
      · simp only [Tbl.put, h₂, Nat.lt_irrefl, if_true, if_false, Tbl.sortedAbove]
        exact hk
      · simp only [Tbl.put, h₁, h₂, if_false, Tbl.sortedAbove]
        exact Tbl.sortedAbove_put (by omega) hk

theorem Tbl.mem_erase {t : Tbl α} {n : Nat} {e : Nat × α} (h : e ∈ Tbl.erase t n) : e ∈ t := by
  induction t with
  | nil => cases h
  | cons a t ih =>
    obtain ⟨k, v⟩ := a
    by_cases hk : k = n
    · simp only [Tbl.erase, hk, if_true] at h
      exact List.mem_cons_of_mem _ (ih h)
    · simp only [Tbl.erase, hk, if_false, List.mem_cons] at h ⊢
      exact h.imp id ih

theorem Tbl.mem_put {t : Tbl α} {n : Nat} {v : α} {e : Nat × α} (h : e ∈ Tbl.put t n v) :
    e = (n, v) ∨ e ∈ t := by
  induction t with
  | nil => simpa [Tbl.put] using h
  | cons a t ih =>
    obtain ⟨k, w⟩ := a
    by_cases h₁ : n < k
    · simpa [Tbl.put, h₁] using h
    · by_cases h₂ : n = k
      · simp only [Tbl.put, h₂, Nat.lt_irrefl, if_true, if_false, List.mem_cons] at h
        rcases h with h | h
        · exact .inl (by rw [h₂]; exact h)
        · exact .inr (List.mem_cons_of_mem _ h)
      · simp only [Tbl.put, h₁, h₂, if_false, List.mem_cons] at h ⊢
        rcases h with h | h
        · exact .inr (.inl h)
        · exact (ih h).imp id .inr

/-- A write keeps the canonical form. -/
theorem Tbl.wf_set [DecidableEq α] (d : Nat → α) (t : Tbl α) (n : Nat) (v : α) (h : Tbl.wf d t = true) :
    Tbl.wf d (Tbl.set d t n v) = true := by
  simp only [Tbl.wf, Bool.and_eq_true, List.all_eq_true, decide_eq_true_eq] at h ⊢
  by_cases hv : v = d n
  · simp only [Tbl.set, hv, if_true]
    exact ⟨Tbl.sorted_erase h.1, fun e he => h.2 e (Tbl.mem_erase he)⟩
  · simp only [Tbl.set, hv, if_false]
    refine ⟨Tbl.sorted_put h.1, fun e he => ?_⟩
    rcases Tbl.mem_put he with rfl | he
    · exact hv
    · exact h.2 e he

/-- So does a change of the present value. -/
theorem Tbl.wf_modify [DecidableEq α] (d : Nat → α) (t : Tbl α) (n : Nat) (f : α → α)
    (h : Tbl.wf d t = true) : Tbl.wf d (Tbl.modify d t n f) = true :=
  Tbl.wf_set d t n _ h

end Sys2Proof.Machine
end

