-- ==== Sys2Proof/Laws/Regs.lean ====
section
/-! SUPPORT. Registers: what each reads as after a write of one. -/

namespace Sys2Proof.Machine

variable (s : State)

theorem State.rd_lt (a : Nat) : s.rd a < 2 ^ 32 := (Tbl.get regDflt s.regs a).isLt

/-- The register just stored reads as the value, cut to 32 bits. -/
@[simp] theorem State.rd_wr_same (a v : Nat) : (s.wr a v).rd a = v % 2 ^ 32 := by
  simp [State.rd, State.wr, word]

theorem State.rd_wr_ne {a b : Nat} (v : Nat) (h : b ≠ a) : (s.wr a v).rd b = s.rd b := by
  simp [State.rd, State.wr, Tbl.get_set_ne _ _ _ h]

/-- Any register after one is stored. -/
theorem State.rd_wr (a b v : Nat) : (s.wr a v).rd b = if b = a then v % 2 ^ 32 else s.rd b := by
  by_cases h : b = a
  · subst h; simp
  · simp [h, State.rd_wr_ne s v h]

@[simp] theorem State.rd_wrAct (a b v : Nat) : (s.wrAct a v).rd b = s.rd b := rfl
@[simp] theorem State.rd_emit (o : Output) (a : Nat) : (s.emit o).rd a = s.rd a := rfl
@[simp] theorem State.rd_fresh (a : Nat) : s.fresh.rd a = s.rd a := rfl
@[simp] theorem State.rd_drawn (a : Nat) : s.drawn.rd a = s.rd a := rfl
@[simp] theorem State.actv_wr (a b v : Nat) : (s.wr a v).actv b = s.actv b := rfl
@[simp] theorem State.actv_fresh (a : Nat) : s.fresh.actv a = s.actv a := rfl

theorem State.actv_wrAct (a b v : Nat) : (s.wrAct a v).actv b = if b = a then v % 2 ^ 32 else s.actv b := by
  by_cases h : b = a
  · subst h; simp [State.actv, State.wrAct, word]
  · simp [State.actv, State.wrAct, Tbl.get_set_ne _ _ _ h, h]

theorem State.rd_wrF (a b l n v : Nat) (h : l + n ≤ 32) :
    (s.wrF a l n v).rd b = if b = a then putField (s.rd a) l n v else s.rd b := by
  rw [State.wrF, State.rd_wr, Nat.mod_eq_of_lt (putField_lt (s.rd_lt a) h)]

theorem State.rd_wrF_ne {a b : Nat} (l n v : Nat) (h : b ≠ a) : (s.wrF a l n v).rd b = s.rd b :=
  State.rd_wr_ne s _ h

theorem State.rd_setBit_ne {a b : Nat} (n : Nat) (x : Bool) (h : b ≠ a) : (s.setBit a n x).rd b = s.rd b :=
  State.rd_wr_ne s _ h

/-- The field just written. -/
theorem State.rdF_wrF_same (a l n v : Nat) (h : l + n ≤ 32) : (s.wrF a l n v).rdF a l n = v % 2 ^ n := by
  rw [State.rdF, State.rd_wrF s a a l n v h, if_pos rfl, field_putField_same]

/-- Another field of the same register. -/
theorem State.rdF_wrF_off (a l n v : Nat) {l' n' : Nat} (h : l + n ≤ 32) (hd : l' + n' ≤ l ∨ l + n ≤ l') :
    (s.wrF a l n v).rdF a l' n' = s.rdF a l' n' := by
  rw [State.rdF, State.rd_wrF s a a l n v h, if_pos rfl]
  exact hd.elim (field_putField_below _ _ _ _) (field_putField_above _ _ _ _)

theorem State.rdF_wr_ne {a b : Nat} (v l n : Nat) (h : b ≠ a) : (s.wr a v).rdF b l n = s.rdF b l n := by
  rw [State.rdF, State.rd_wr_ne s v h, State.rdF]

theorem State.rdF_wrF_ne {a b : Nat} (l n v l' n' : Nat) (h : b ≠ a) :
    (s.wrF a l n v).rdF b l' n' = s.rdF b l' n' := State.rdF_wr_ne s _ _ _ h

theorem State.bit_eq (a n : Nat) : s.bit a n = decide (s.rdF a n 1 = 1) := testBit_eq_field _ _

/-- The bit just set or cleared. -/
theorem State.bit_setBit_same (a n : Nat) (x : Bool) (h : n < 32) : (s.setBit a n x).bit a n = x := by
  rw [State.bit_eq, State.setBit, State.rdF_wrF_same s a n 1 _ (by omega)]
  cases x <;> simp [b2n]

/-- Another bit of the same register. -/
theorem State.bit_setBit_off (a n m : Nat) (x : Bool) (h : n < 32) (hd : m ≠ n) :
    (s.setBit a n x).bit a m = s.bit a m := by
  rw [State.bit_eq, State.bit_eq, State.setBit, State.rdF_wrF_off s a n 1 _ (by omega) (by omega)]

theorem State.bit_setBit_ne {a b : Nat} (n m : Nat) (x : Bool) (h : b ≠ a) :
    (s.setBit a n x).bit b m = s.bit b m := by
  rw [State.bit, State.rd_setBit_ne s n x h, State.bit]

theorem State.bit_wr_ne {a b : Nat} (v n : Nat) (h : b ≠ a) : (s.wr a v).bit b n = s.bit b n := by
  rw [State.bit, State.rd_wr_ne s v h, State.bit]

/-- A counter counts and stays at its last value. -/
theorem State.rd_bump_same (a n : Nat) : (s.bump a n).rd a = min (s.rd a + n) 0xFFFFFFFF := by
  rw [State.bump, State.rd_wr_same, satInc]
  omega

theorem State.rd_bump_ne {a b : Nat} (n : Nat) (h : b ≠ a) : (s.bump a n).rd b = s.rd b :=
  State.rd_wr_ne s _ h

end Sys2Proof.Machine
end

