-- ==== Sys2Proof/Laws/State.lean ====
section
/-! SUPPORT. State: what each named update leaves of every field. One lemma per field per update, all by rfl. -/

namespace Sys2Proof.Machine

variable (s : State)

/-! ### State.wr -/

@[simp] theorem State.wr_act (a v : Nat) : (s.wr a v).act = s.act := rfl
@[simp] theorem State.wr_hif (a v : Nat) : (s.wr a v).hif = s.hif := rfl
@[simp] theorem State.wr_pmc (a v : Nat) : (s.wr a v).pmc = s.pmc := rfl
@[simp] theorem State.wr_evr (a v : Nat) : (s.wr a v).evr = s.evr := rfl
@[simp] theorem State.wr_pwr (a v : Nat) : (s.wr a v).pwr = s.pwr := rfl
@[simp] theorem State.wr_key (a v : Nat) : (s.wr a v).key = s.key := rfl
@[simp] theorem State.wr_sec (a v : Nat) : (s.wr a v).sec = s.sec := rfl
@[simp] theorem State.wr_kpr (a v : Nat) : (s.wr a v).kpr = s.kpr := rfl
@[simp] theorem State.wr_pat (a v : Nat) : (s.wr a v).pat = s.pat := rfl
@[simp] theorem State.wr_fab (a v : Nat) : (s.wr a v).fab = s.fab := rfl
@[simp] theorem State.wr_sch (a v : Nat) : (s.wr a v).sch = s.sch := rfl
@[simp] theorem State.wr_trk (a v : Nat) : (s.wr a v).trk = s.trk := rfl
@[simp] theorem State.wr_cls (a v : Nat) : (s.wr a v).cls = s.cls := rfl
@[simp] theorem State.wr_lan (a v : Nat) : (s.wr a v).lan = s.lan := rfl
@[simp] theorem State.wr_tim (a v : Nat) : (s.wr a v).tim = s.tim := rfl
@[simp] theorem State.wr_chn (a v : Nat) : (s.wr a v).chn = s.chn := rfl
@[simp] theorem State.wr_hrn (a v : Nat) : (s.wr a v).hrn = s.hrn := rfl
@[simp] theorem State.wr_dbg (a v : Nat) : (s.wr a v).dbg = s.dbg := rfl
@[simp] theorem State.wr_refTick (a v : Nat) : (s.wr a v).refTick = s.refTick := rfl
@[simp] theorem State.wr_rng (a v : Nat) : (s.wr a v).rng = s.rng := rfl
@[simp] theorem State.wr_out (a v : Nat) : (s.wr a v).out = s.out := rfl
@[simp] theorem State.wr_pending (a v : Nat) : (s.wr a v).pending = s.pending := rfl

/-! ### State.wrF -/

@[simp] theorem State.wrF_act (a l n v : Nat) : (s.wrF a l n v).act = s.act := rfl
@[simp] theorem State.wrF_hif (a l n v : Nat) : (s.wrF a l n v).hif = s.hif := rfl
@[simp] theorem State.wrF_pmc (a l n v : Nat) : (s.wrF a l n v).pmc = s.pmc := rfl
@[simp] theorem State.wrF_evr (a l n v : Nat) : (s.wrF a l n v).evr = s.evr := rfl
@[simp] theorem State.wrF_pwr (a l n v : Nat) : (s.wrF a l n v).pwr = s.pwr := rfl
@[simp] theorem State.wrF_key (a l n v : Nat) : (s.wrF a l n v).key = s.key := rfl
@[simp] theorem State.wrF_sec (a l n v : Nat) : (s.wrF a l n v).sec = s.sec := rfl
@[simp] theorem State.wrF_kpr (a l n v : Nat) : (s.wrF a l n v).kpr = s.kpr := rfl
@[simp] theorem State.wrF_pat (a l n v : Nat) : (s.wrF a l n v).pat = s.pat := rfl
@[simp] theorem State.wrF_fab (a l n v : Nat) : (s.wrF a l n v).fab = s.fab := rfl
@[simp] theorem State.wrF_sch (a l n v : Nat) : (s.wrF a l n v).sch = s.sch := rfl
@[simp] theorem State.wrF_trk (a l n v : Nat) : (s.wrF a l n v).trk = s.trk := rfl
@[simp] theorem State.wrF_cls (a l n v : Nat) : (s.wrF a l n v).cls = s.cls := rfl
@[simp] theorem State.wrF_lan (a l n v : Nat) : (s.wrF a l n v).lan = s.lan := rfl
@[simp] theorem State.wrF_tim (a l n v : Nat) : (s.wrF a l n v).tim = s.tim := rfl
@[simp] theorem State.wrF_chn (a l n v : Nat) : (s.wrF a l n v).chn = s.chn := rfl
@[simp] theorem State.wrF_hrn (a l n v : Nat) : (s.wrF a l n v).hrn = s.hrn := rfl
@[simp] theorem State.wrF_dbg (a l n v : Nat) : (s.wrF a l n v).dbg = s.dbg := rfl
@[simp] theorem State.wrF_refTick (a l n v : Nat) : (s.wrF a l n v).refTick = s.refTick := rfl
@[simp] theorem State.wrF_rng (a l n v : Nat) : (s.wrF a l n v).rng = s.rng := rfl
@[simp] theorem State.wrF_out (a l n v : Nat) : (s.wrF a l n v).out = s.out := rfl
@[simp] theorem State.wrF_pending (a l n v : Nat) : (s.wrF a l n v).pending = s.pending := rfl

/-! ### State.setBit -/

@[simp] theorem State.setBit_act (a n : Nat) (b : Bool) : (s.setBit a n b).act = s.act := rfl
@[simp] theorem State.setBit_hif (a n : Nat) (b : Bool) : (s.setBit a n b).hif = s.hif := rfl
@[simp] theorem State.setBit_pmc (a n : Nat) (b : Bool) : (s.setBit a n b).pmc = s.pmc := rfl
@[simp] theorem State.setBit_evr (a n : Nat) (b : Bool) : (s.setBit a n b).evr = s.evr := rfl
@[simp] theorem State.setBit_pwr (a n : Nat) (b : Bool) : (s.setBit a n b).pwr = s.pwr := rfl
@[simp] theorem State.setBit_key (a n : Nat) (b : Bool) : (s.setBit a n b).key = s.key := rfl
@[simp] theorem State.setBit_sec (a n : Nat) (b : Bool) : (s.setBit a n b).sec = s.sec := rfl
@[simp] theorem State.setBit_kpr (a n : Nat) (b : Bool) : (s.setBit a n b).kpr = s.kpr := rfl
@[simp] theorem State.setBit_pat (a n : Nat) (b : Bool) : (s.setBit a n b).pat = s.pat := rfl
@[simp] theorem State.setBit_fab (a n : Nat) (b : Bool) : (s.setBit a n b).fab = s.fab := rfl
@[simp] theorem State.setBit_sch (a n : Nat) (b : Bool) : (s.setBit a n b).sch = s.sch := rfl
@[simp] theorem State.setBit_trk (a n : Nat) (b : Bool) : (s.setBit a n b).trk = s.trk := rfl
@[simp] theorem State.setBit_cls (a n : Nat) (b : Bool) : (s.setBit a n b).cls = s.cls := rfl
@[simp] theorem State.setBit_lan (a n : Nat) (b : Bool) : (s.setBit a n b).lan = s.lan := rfl
@[simp] theorem State.setBit_tim (a n : Nat) (b : Bool) : (s.setBit a n b).tim = s.tim := rfl
@[simp] theorem State.setBit_chn (a n : Nat) (b : Bool) : (s.setBit a n b).chn = s.chn := rfl
@[simp] theorem State.setBit_hrn (a n : Nat) (b : Bool) : (s.setBit a n b).hrn = s.hrn := rfl
@[simp] theorem State.setBit_dbg (a n : Nat) (b : Bool) : (s.setBit a n b).dbg = s.dbg := rfl
@[simp] theorem State.setBit_refTick (a n : Nat) (b : Bool) : (s.setBit a n b).refTick = s.refTick := rfl
@[simp] theorem State.setBit_rng (a n : Nat) (b : Bool) : (s.setBit a n b).rng = s.rng := rfl
@[simp] theorem State.setBit_out (a n : Nat) (b : Bool) : (s.setBit a n b).out = s.out := rfl
@[simp] theorem State.setBit_pending (a n : Nat) (b : Bool) : (s.setBit a n b).pending = s.pending := rfl

/-! ### State.bump -/

@[simp] theorem State.bump_act (a n : Nat) : (s.bump a n).act = s.act := rfl
@[simp] theorem State.bump_hif (a n : Nat) : (s.bump a n).hif = s.hif := rfl
@[simp] theorem State.bump_pmc (a n : Nat) : (s.bump a n).pmc = s.pmc := rfl
@[simp] theorem State.bump_evr (a n : Nat) : (s.bump a n).evr = s.evr := rfl
@[simp] theorem State.bump_pwr (a n : Nat) : (s.bump a n).pwr = s.pwr := rfl
@[simp] theorem State.bump_key (a n : Nat) : (s.bump a n).key = s.key := rfl
@[simp] theorem State.bump_sec (a n : Nat) : (s.bump a n).sec = s.sec := rfl
@[simp] theorem State.bump_kpr (a n : Nat) : (s.bump a n).kpr = s.kpr := rfl
@[simp] theorem State.bump_pat (a n : Nat) : (s.bump a n).pat = s.pat := rfl
@[simp] theorem State.bump_fab (a n : Nat) : (s.bump a n).fab = s.fab := rfl
@[simp] theorem State.bump_sch (a n : Nat) : (s.bump a n).sch = s.sch := rfl
@[simp] theorem State.bump_trk (a n : Nat) : (s.bump a n).trk = s.trk := rfl
@[simp] theorem State.bump_cls (a n : Nat) : (s.bump a n).cls = s.cls := rfl
@[simp] theorem State.bump_lan (a n : Nat) : (s.bump a n).lan = s.lan := rfl
@[simp] theorem State.bump_tim (a n : Nat) : (s.bump a n).tim = s.tim := rfl
@[simp] theorem State.bump_chn (a n : Nat) : (s.bump a n).chn = s.chn := rfl
@[simp] theorem State.bump_hrn (a n : Nat) : (s.bump a n).hrn = s.hrn := rfl
@[simp] theorem State.bump_dbg (a n : Nat) : (s.bump a n).dbg = s.dbg := rfl
@[simp] theorem State.bump_refTick (a n : Nat) : (s.bump a n).refTick = s.refTick := rfl
@[simp] theorem State.bump_rng (a n : Nat) : (s.bump a n).rng = s.rng := rfl
@[simp] theorem State.bump_out (a n : Nat) : (s.bump a n).out = s.out := rfl
@[simp] theorem State.bump_pending (a n : Nat) : (s.bump a n).pending = s.pending := rfl

/-! ### State.wr64 -/

@[simp] theorem State.wr64_act (a v : Nat) : (s.wr64 a v).act = s.act := rfl
@[simp] theorem State.wr64_hif (a v : Nat) : (s.wr64 a v).hif = s.hif := rfl
@[simp] theorem State.wr64_pmc (a v : Nat) : (s.wr64 a v).pmc = s.pmc := rfl
@[simp] theorem State.wr64_evr (a v : Nat) : (s.wr64 a v).evr = s.evr := rfl
@[simp] theorem State.wr64_pwr (a v : Nat) : (s.wr64 a v).pwr = s.pwr := rfl
@[simp] theorem State.wr64_key (a v : Nat) : (s.wr64 a v).key = s.key := rfl
@[simp] theorem State.wr64_sec (a v : Nat) : (s.wr64 a v).sec = s.sec := rfl
@[simp] theorem State.wr64_kpr (a v : Nat) : (s.wr64 a v).kpr = s.kpr := rfl
@[simp] theorem State.wr64_pat (a v : Nat) : (s.wr64 a v).pat = s.pat := rfl
@[simp] theorem State.wr64_fab (a v : Nat) : (s.wr64 a v).fab = s.fab := rfl
@[simp] theorem State.wr64_sch (a v : Nat) : (s.wr64 a v).sch = s.sch := rfl
@[simp] theorem State.wr64_trk (a v : Nat) : (s.wr64 a v).trk = s.trk := rfl
@[simp] theorem State.wr64_cls (a v : Nat) : (s.wr64 a v).cls = s.cls := rfl
@[simp] theorem State.wr64_lan (a v : Nat) : (s.wr64 a v).lan = s.lan := rfl
@[simp] theorem State.wr64_tim (a v : Nat) : (s.wr64 a v).tim = s.tim := rfl
@[simp] theorem State.wr64_chn (a v : Nat) : (s.wr64 a v).chn = s.chn := rfl
@[simp] theorem State.wr64_hrn (a v : Nat) : (s.wr64 a v).hrn = s.hrn := rfl
@[simp] theorem State.wr64_dbg (a v : Nat) : (s.wr64 a v).dbg = s.dbg := rfl
@[simp] theorem State.wr64_refTick (a v : Nat) : (s.wr64 a v).refTick = s.refTick := rfl
@[simp] theorem State.wr64_rng (a v : Nat) : (s.wr64 a v).rng = s.rng := rfl
@[simp] theorem State.wr64_out (a v : Nat) : (s.wr64 a v).out = s.out := rfl
@[simp] theorem State.wr64_pending (a v : Nat) : (s.wr64 a v).pending = s.pending := rfl

/-! ### State.wrAct -/

@[simp] theorem State.wrAct_regs (a v : Nat) : (s.wrAct a v).regs = s.regs := rfl
@[simp] theorem State.wrAct_hif (a v : Nat) : (s.wrAct a v).hif = s.hif := rfl
@[simp] theorem State.wrAct_pmc (a v : Nat) : (s.wrAct a v).pmc = s.pmc := rfl
@[simp] theorem State.wrAct_evr (a v : Nat) : (s.wrAct a v).evr = s.evr := rfl
@[simp] theorem State.wrAct_pwr (a v : Nat) : (s.wrAct a v).pwr = s.pwr := rfl
@[simp] theorem State.wrAct_key (a v : Nat) : (s.wrAct a v).key = s.key := rfl
@[simp] theorem State.wrAct_sec (a v : Nat) : (s.wrAct a v).sec = s.sec := rfl
@[simp] theorem State.wrAct_kpr (a v : Nat) : (s.wrAct a v).kpr = s.kpr := rfl
@[simp] theorem State.wrAct_pat (a v : Nat) : (s.wrAct a v).pat = s.pat := rfl
@[simp] theorem State.wrAct_fab (a v : Nat) : (s.wrAct a v).fab = s.fab := rfl
@[simp] theorem State.wrAct_sch (a v : Nat) : (s.wrAct a v).sch = s.sch := rfl
@[simp] theorem State.wrAct_trk (a v : Nat) : (s.wrAct a v).trk = s.trk := rfl
@[simp] theorem State.wrAct_cls (a v : Nat) : (s.wrAct a v).cls = s.cls := rfl
@[simp] theorem State.wrAct_lan (a v : Nat) : (s.wrAct a v).lan = s.lan := rfl
@[simp] theorem State.wrAct_tim (a v : Nat) : (s.wrAct a v).tim = s.tim := rfl
@[simp] theorem State.wrAct_chn (a v : Nat) : (s.wrAct a v).chn = s.chn := rfl
@[simp] theorem State.wrAct_hrn (a v : Nat) : (s.wrAct a v).hrn = s.hrn := rfl
@[simp] theorem State.wrAct_dbg (a v : Nat) : (s.wrAct a v).dbg = s.dbg := rfl
@[simp] theorem State.wrAct_refTick (a v : Nat) : (s.wrAct a v).refTick = s.refTick := rfl
@[simp] theorem State.wrAct_rng (a v : Nat) : (s.wrAct a v).rng = s.rng := rfl
@[simp] theorem State.wrAct_out (a v : Nat) : (s.wrAct a v).out = s.out := rfl
@[simp] theorem State.wrAct_pending (a v : Nat) : (s.wrAct a v).pending = s.pending := rfl

/-! ### State.emit -/

@[simp] theorem State.emit_regs (o : Output) : (s.emit o).regs = s.regs := rfl
@[simp] theorem State.emit_act (o : Output) : (s.emit o).act = s.act := rfl
@[simp] theorem State.emit_hif (o : Output) : (s.emit o).hif = s.hif := rfl
@[simp] theorem State.emit_pmc (o : Output) : (s.emit o).pmc = s.pmc := rfl
@[simp] theorem State.emit_evr (o : Output) : (s.emit o).evr = s.evr := rfl
@[simp] theorem State.emit_pwr (o : Output) : (s.emit o).pwr = s.pwr := rfl
@[simp] theorem State.emit_key (o : Output) : (s.emit o).key = s.key := rfl
@[simp] theorem State.emit_sec (o : Output) : (s.emit o).sec = s.sec := rfl
@[simp] theorem State.emit_kpr (o : Output) : (s.emit o).kpr = s.kpr := rfl
@[simp] theorem State.emit_pat (o : Output) : (s.emit o).pat = s.pat := rfl
@[simp] theorem State.emit_fab (o : Output) : (s.emit o).fab = s.fab := rfl
@[simp] theorem State.emit_sch (o : Output) : (s.emit o).sch = s.sch := rfl
@[simp] theorem State.emit_trk (o : Output) : (s.emit o).trk = s.trk := rfl
@[simp] theorem State.emit_cls (o : Output) : (s.emit o).cls = s.cls := rfl
@[simp] theorem State.emit_lan (o : Output) : (s.emit o).lan = s.lan := rfl
@[simp] theorem State.emit_tim (o : Output) : (s.emit o).tim = s.tim := rfl
@[simp] theorem State.emit_chn (o : Output) : (s.emit o).chn = s.chn := rfl
@[simp] theorem State.emit_hrn (o : Output) : (s.emit o).hrn = s.hrn := rfl
@[simp] theorem State.emit_dbg (o : Output) : (s.emit o).dbg = s.dbg := rfl
@[simp] theorem State.emit_refTick (o : Output) : (s.emit o).refTick = s.refTick := rfl
@[simp] theorem State.emit_rng (o : Output) : (s.emit o).rng = s.rng := rfl
@[simp] theorem State.emit_pending (o : Output) : (s.emit o).pending = s.pending := rfl

/-! ### State.fresh -/

@[simp] theorem State.fresh_regs : (s.fresh).regs = s.regs := rfl
@[simp] theorem State.fresh_act : (s.fresh).act = s.act := rfl
@[simp] theorem State.fresh_hif : (s.fresh).hif = s.hif := rfl
@[simp] theorem State.fresh_pmc : (s.fresh).pmc = s.pmc := rfl
@[simp] theorem State.fresh_evr : (s.fresh).evr = s.evr := rfl
@[simp] theorem State.fresh_pwr : (s.fresh).pwr = s.pwr := rfl
@[simp] theorem State.fresh_key : (s.fresh).key = s.key := rfl
@[simp] theorem State.fresh_sec : (s.fresh).sec = s.sec := rfl
@[simp] theorem State.fresh_kpr : (s.fresh).kpr = s.kpr := rfl
@[simp] theorem State.fresh_pat : (s.fresh).pat = s.pat := rfl
@[simp] theorem State.fresh_fab : (s.fresh).fab = s.fab := rfl
@[simp] theorem State.fresh_sch : (s.fresh).sch = s.sch := rfl
@[simp] theorem State.fresh_trk : (s.fresh).trk = s.trk := rfl
@[simp] theorem State.fresh_cls : (s.fresh).cls = s.cls := rfl
@[simp] theorem State.fresh_lan : (s.fresh).lan = s.lan := rfl
@[simp] theorem State.fresh_tim : (s.fresh).tim = s.tim := rfl
@[simp] theorem State.fresh_chn : (s.fresh).chn = s.chn := rfl
@[simp] theorem State.fresh_hrn : (s.fresh).hrn = s.hrn := rfl
@[simp] theorem State.fresh_dbg : (s.fresh).dbg = s.dbg := rfl
@[simp] theorem State.fresh_refTick : (s.fresh).refTick = s.refTick := rfl
@[simp] theorem State.fresh_rng : (s.fresh).rng = s.rng := rfl
@[simp] theorem State.fresh_pending : (s.fresh).pending = s.pending := rfl

/-! ### State.drawn -/

@[simp] theorem State.drawn_regs : (s.drawn).regs = s.regs := rfl
@[simp] theorem State.drawn_act : (s.drawn).act = s.act := rfl
@[simp] theorem State.drawn_hif : (s.drawn).hif = s.hif := rfl
@[simp] theorem State.drawn_pmc : (s.drawn).pmc = s.pmc := rfl
@[simp] theorem State.drawn_evr : (s.drawn).evr = s.evr := rfl
@[simp] theorem State.drawn_pwr : (s.drawn).pwr = s.pwr := rfl
@[simp] theorem State.drawn_key : (s.drawn).key = s.key := rfl
@[simp] theorem State.drawn_sec : (s.drawn).sec = s.sec := rfl
@[simp] theorem State.drawn_kpr : (s.drawn).kpr = s.kpr := rfl
@[simp] theorem State.drawn_pat : (s.drawn).pat = s.pat := rfl
@[simp] theorem State.drawn_fab : (s.drawn).fab = s.fab := rfl
@[simp] theorem State.drawn_sch : (s.drawn).sch = s.sch := rfl
@[simp] theorem State.drawn_trk : (s.drawn).trk = s.trk := rfl
@[simp] theorem State.drawn_cls : (s.drawn).cls = s.cls := rfl
@[simp] theorem State.drawn_lan : (s.drawn).lan = s.lan := rfl
@[simp] theorem State.drawn_tim : (s.drawn).tim = s.tim := rfl
@[simp] theorem State.drawn_chn : (s.drawn).chn = s.chn := rfl
@[simp] theorem State.drawn_hrn : (s.drawn).hrn = s.hrn := rfl
@[simp] theorem State.drawn_dbg : (s.drawn).dbg = s.dbg := rfl
@[simp] theorem State.drawn_refTick : (s.drawn).refTick = s.refTick := rfl
@[simp] theorem State.drawn_out : (s.drawn).out = s.out := rfl
@[simp] theorem State.drawn_pending : (s.drawn).pending = s.pending := rfl

@[simp] theorem State.fresh_out : s.fresh.out = [] := rfl
@[simp] theorem State.emit_out (o : Output) : (s.emit o).out = s.out ++ [o] := rfl
@[simp] theorem State.drawn_rng : s.drawn.rng = s.rng + 1 := rfl

end Sys2Proof.Machine
end

