-- ==== Sys2Proof/Laws/Run.lean ====
section
/-! SUPPORT. The four shapes of a meaning: when it runs and when it leaves everything but the outputs. -/

namespace Sys2Proof.Machine

variable {f : State → State} {s : State}

theorem powered_run (h : coreRuns s = true) :
    powered f s = .next { settle (f s.fresh) with pending := s.pending } := by
  simp [powered, finish, h]

theorem powered_idle (h : coreRuns s = false) : powered f s = .next s.fresh := by
  simp [powered, finish, h, State.fresh]

theorem onRails_run (h : railsUp s = true) :
    onRails f s = .next { settle (f s.fresh) with pending := s.pending } := by
  simp [onRails, finish, h]

theorem onRails_idle (h : railsUp s = false) : onRails f s = .next s.fresh := by
  simp [onRails, finish, h, State.fresh]

theorem clocked_run (h : (railsUp s || s.pwr.thermal) = true) :
    clocked f s = .next { settle (f s.fresh) with pending := s.pending } := by
  simp [clocked, finish, h]

theorem clocked_idle (h : (railsUp s || s.pwr.thermal) = false) : clocked f s = .next s.fresh := by
  simp [clocked, finish, h, State.fresh]

theorem anyTime_run : anyTime f s = .next { settle (f s.fresh) with pending := s.pending } := rfl

@[simp] theorem coreRuns_fresh : coreRuns s.fresh = coreRuns s := rfl
@[simp] theorem railsUp_fresh : railsUp s.fresh = railsUp s := rfl
@[simp] theorem hostServed_fresh : hostServed s.fresh = hostServed s := rfl
@[simp] theorem gatedAt_fresh (a : Nat) : gatedAt s.fresh a = gatedAt s a := rfl

theorem hostWrite_served {a : Nat} (h : hostServed s = true) (g : gatedAt s a = false) :
    hostWrite a f s = f s := by simp [hostWrite, h, g]

theorem hostWrite_unserved {a : Nat} (h : hostServed s = false) : hostWrite a f s = s := by
  simp [hostWrite, h]

theorem hostWrite_gated {a : Nat} (h : hostServed s = true) (g : gatedAt s a = true) :
    hostWrite a f s = logError 1 false true a s := by simp [hostWrite, h, g]

theorem hostWrite2_served (h : hostServed s = true) : hostWrite2 f s = f s := by simp [hostWrite2, h]

/-- A command of the core answers what its effect leaves. -/
theorem answers_powered {i : Instr} {P : State → Prop} (h : coreRuns s = true) (e : exec i s = powered f s)
    (p : P (f s.fresh)) : Answers i s P := ⟨_, by rw [e, powered_run h], p⟩

theorem answers_onRails {i : Instr} {P : State → Prop} (h : railsUp s = true) (e : exec i s = onRails f s)
    (p : P (f s.fresh)) : Answers i s P := ⟨_, by rw [e, onRails_run h], p⟩

theorem answers_clocked {i : Instr} {P : State → Prop} (h : (railsUp s || s.pwr.thermal) = true)
    (e : exec i s = clocked f s) (p : P (f s.fresh)) : Answers i s P := ⟨_, by rw [e, clocked_run h], p⟩

theorem answers_anyTime {i : Instr} {P : State → Prop} (e : exec i s = anyTime f s) (p : P (f s.fresh)) :
    Answers i s P := ⟨_, by rw [e, anyTime_run], p⟩

/-- A served host write answers what its register's rule leaves. -/
theorem answers_hostWrite {i : Instr} {P : State → Prop} {a : Nat} (h : Served s a)
    (e : exec i s = powered (hostWrite a f) s) (p : P (f s.fresh)) : Answers i s P := by
  refine answers_powered h.1 e ?_
  rw [hostWrite_served (by simpa using h.2.1) (by simpa using h.2.2)]
  exact p

theorem answers_hostWrite2 {i : Instr} {P : State → Prop} (h : Served2 s)
    (e : exec i s = powered (hostWrite2 f) s) (p : P (f s.fresh)) : Answers i s P := by
  refine answers_powered h.1 e ?_
  rw [hostWrite2_served (by simpa using h.2)]
  exact p

end Sys2Proof.Machine
end

