-- ==== Sys2Proof/Laws/Mirrors.lean ====
section
/-! SUPPORT. The registers that show other state: what `syncStatus`, `syncHealth` and `syncObs` write and what
they leave. -/

namespace Sys2Proof.Machine

variable (s : State)

/-! ## A state that differs in its registers only -/

/-- `t` is `s` but for its registers. -/
def RegsDiffer (s t : State) : Prop := ∃ r, t = { s with regs := r }

theorem RegsDiffer.eq {s t : State} (h : RegsDiffer s t) : t = { s with regs := t.regs } := by
  obtain ⟨r, rfl⟩ := h; rfl

theorem RegsDiffer.trans {s t u : State} (h : RegsDiffer s t) (k : RegsDiffer t u) : RegsDiffer s u := by
  obtain ⟨r, rfl⟩ := h; obtain ⟨q, rfl⟩ := k; exact ⟨q, rfl⟩

theorem RegsDiffer.refl (s : State) : RegsDiffer s s := ⟨s.regs, rfl⟩

theorem regsDiffer_wr (a v : Nat) : RegsDiffer s (s.wr a v) := ⟨_, rfl⟩

theorem regsDiffer_wrF (a l n v : Nat) : RegsDiffer s (s.wrF a l n v) := ⟨_, rfl⟩

theorem regsDiffer_setBit (a n : Nat) (b : Bool) : RegsDiffer s (s.setBit a n b) := ⟨_, rfl⟩

theorem regsDiffer_bump (a n : Nat) : RegsDiffer s (s.bump a n) := ⟨_, rfl⟩

/-! ## What each writes -/

/-- The registers of `syncStatus`. -/
def statusRegs : List Nat :=
  [Reg.KPR_STATUS, Reg.PWR_STATUS, Reg.KEY_STATUS, Reg.DBG_STATUS, Reg.GLB_UNIT]

theorem syncStatus_rd {a : Nat} (h : a ∉ statusRegs) : (syncStatus s).rd a = s.rd a := by
  simp only [statusRegs, List.mem_cons, List.not_mem_nil, or_false, not_or] at h
  obtain ⟨h₁, h₂, h₃, h₄, h₅⟩ := h
  simp [syncStatus, State.rd_wr, State.wrF, State.setBit, h₁, h₂, h₃, h₄, h₅]

theorem syncStatus_rest : RegsDiffer s (syncStatus s) := by
  unfold syncStatus
  exact (regsDiffer_wr ..).trans <| (regsDiffer_wrF ..).trans <| (regsDiffer_setBit ..).trans <|
    (regsDiffer_setBit ..).trans <| (regsDiffer_wrF ..).trans <| (regsDiffer_setBit ..).trans (regsDiffer_wr ..)

theorem syncHealth_rd {a : Nat} (h : a ∉ Reg.CLK_STATUS :: Reg.CPH_HEALTH :: Reg.CPH_CAP :: statusRegs) :
    (syncHealth s).rd a = s.rd a := by
  simp only [List.mem_cons, not_or] at h
  obtain ⟨h₁, h₂, h₃, h₄⟩ := h
  simp [syncHealth, syncStatus_rd _ h₄, State.rd_wr, State.wrF, State.setBit, h₁, h₂, h₃]

theorem syncHealth_rest : RegsDiffer s (syncHealth s) := by
  unfold syncHealth
  exact (regsDiffer_setBit ..).trans <| (regsDiffer_wr ..).trans <| (regsDiffer_wr ..).trans (syncStatus_rest _)

theorem syncObs_rd {a : Nat} (h : a ≠ Reg.CLK_OBS_STATUS) : (syncObs s).rd a = s.rd a :=
  State.rd_wr_ne _ _ h

theorem syncObs_rest : RegsDiffer s (syncObs s) := ⟨_, rfl⟩

/-! ## What they show depends on no mirror -/

/-- Two states that agree on what `syncStatus` and `syncHealth` show. -/
structure SameShown (s t : State) : Prop where
  key : t.key = s.key
  kpr : t.kpr = s.kpr
  pwr : t.pwr = s.pwr
  fab : t.fab = s.fab
  dbg : t.dbg = s.dbg
  isl : ∀ i, t.rd (Reg.CPH_ISL_STATUS i) = s.rd (Reg.CPH_ISL_STATUS i)
  plan : alignedPlan t = alignedPlan s

variable {s} {t : State}

theorem SameShown.lifecycle (h : SameShown s t) : t.lifecycle = s.lifecycle := by
  simp [State.lifecycle, h.key]

theorem SameShown.unit (h : SameShown s t) : t.unit = s.unit := by simp [State.unit, h.key]

theorem SameShown.powerCode (h : SameShown s t) : powerCode t = powerCode s := by
  simp [Machine.powerCode, h.pwr, State.rdF, h.isl]

theorem SameShown.islandsIn (h : SameShown s t) (n : Nat) : islandsIn t n = islandsIn s n := by
  simp [Machine.islandsIn, islandState, State.rdF, h.isl]

theorem SameShown.healthyCount (h : SameShown s t) : healthyCount t = healthyCount s := by
  simp [Machine.healthyCount, h.islandsIn, h.fab]

theorem SameShown.capLimit (h : SameShown s t) : capLimit t = capLimit s := by
  simp [Machine.capLimit, h.healthyCount, h.plan]

/-- Writing a register that is no island status nor CLK_STATUS keeps what is shown. -/
theorem sameShown_wr {a v : Nat} (h : ∀ i, Reg.CPH_ISL_STATUS i ≠ a) (hc : a ≠ Reg.CLK_STATUS) :
    SameShown s (s.wr a v) where
  key := rfl
  kpr := rfl
  pwr := rfl
  fab := rfl
  dbg := rfl
  isl i := State.rd_wr_ne s v (h i)
  plan := State.bit_wr_ne s v 0 (Ne.symm hc)

end Sys2Proof.Machine
end

