-- ==== Sys2Proof/Machine/KeyBank.lean ====
section
/-! DEFINITION. What the key store's two banks hold word by word, and what the journal MRAM holds: the sealed records of
the vault and the two sealed copies of the enrolment record (R245 to R247, R250, R251). -/

namespace Sys2Proof.Machine

/-! ## The key store's words (R245, R246) -/

/-- The 48 bytes of an SA record: key, salt, SSCI. -/
def saRecord (a : SaEntry) : Bytes := exactly 32 a.key ++ exactly 12 a.salt ++ beBytes 4 a.ssci

/-- The identity region while the identity keys are loaded. -/
def identityRegion (s : State) : Bytes :=
  if s.bit Reg.KEY_STATUS 6 then attestEc ++ attestMldsa ++ exchangeEc ++ exchangeKem else []

/-- Word `k` of a run of bytes, zero beyond its end. -/
def wordOf (bs : Bytes) (k : Nat) : BitVec 64 := BitVec.ofNat 64 (leAt bs (8 * k) 8)

/-- The logical word v at address `a`, by region. -/
def logicalWord (s : State) (a : Nat) : BitVec 64 :=
  if a < parentWord 0 then wordOf (saRecord (s.saAt (a / 6))) (a % 6)
  else if a < transportWord 0 then wordOf (s.parentAt ((a - parentWord 0) / 4)).key ((a - parentWord 0) % 4)
  else if a < identityWord then
    wordOf (Tbl.get (fun _ => []) s.key.transport ((a - transportWord 0) / 4)) ((a - transportWord 0) % 4)
  else if a < keeperWord then wordOf (identityRegion s) (a - identityWord)
  else wordOf s.key.keeperCopy (a - keeperWord)

/-- The mask m of the logical word at address `a`. -/
def maskWord (s : State) (a : Nat) : BitVec 64 := Tbl.get (fun _ => 0) s.key.masks a

/-- Word `d` of the data bank: D[π_D(a)] = v XOR m. -/
def dataBank (s : State) (d : Fin 524288) : BitVec 64 :=
  let a := ((Config.addressOf s.key.permD).symm d).val
  logicalWord s a ^^^ maskWord s a

/-- Word `d` of the mask bank: M[π_M(a)] = m. -/
def maskBank (s : State) (d : Fin 524288) : BitVec 64 := maskWord s ((Config.addressOf s.key.permM).symm d).val

/-- What a read of the logical word at address `a` returns: both banks at its permuted addresses. -/
def readWord (s : State) (a : Fin 524288) : BitVec 64 :=
  dataBank s (Config.addressOf s.key.permD a) ^^^ maskBank s (Config.addressOf s.key.permM a)

/-! ## The vault in the journal MRAM (R250) -/

/-- The contents of a vault record before it is sealed. -/
def vaultBytes (v : Vault) : VaultRecord → Bytes
  | .parents => leBytes 4 v.gen ++ v.parents.flatMap (fun e =>
      if e.2.valid then leBytes 2 e.1 ++ leBytes 4 e.2.id ++ exactly 32 e.2.key else [])
  | .slot i =>
    match if i = 0 then v.slotA else v.slotB with
    | .full c signed => leBytes 1 (1 + 2 * b2n signed) ++ c
    | _ => leBytes 1 0
  | .floor => leBytes 4 v.floor ++ leBytes 1 v.boot
  | .image => v.image.flatMap (fun e => leBytes 4 e.1 ++ leBytes 4 e.2.toNat)
  | .claim => leBytes 1 v.claim
  | .harness => leBytes 4 v.hrnCtrl ++ leBytes 4 v.hrnWait
  | .sc rx i =>
    match Tbl.get (fun _ => none) (if rx then v.rx else v.tx) i with
    | some j => j.words.flatMap (leBytes 4) ++ leBytes 4 j.epoch ++ leBytes 1 (b2n j.started)
    | none => []
  | .mark sa => leBytes 8 (Tbl.get (fun _ => 0) v.marks sa)

/-- A sealed record: IV, ciphertext and tag. -/
structure Sealed where
  iv : Bytes
  text : Bytes
  tag : Bytes
deriving DecidableEq, Repr

/-- Seals `plain` under an AES-256 key with the 96-bit IV of a record counter. -/
def sealRecord (key : Bytes) (counter : Nat) (plain : Bytes) : Sealed :=
  let iv := beBytes 12 counter
  let r := gcmSeal key iv [] plain
  ⟨iv, r.1, r.2⟩

/-- A record of the vault as the MRAM holds it, once it has been written. -/
def vaultSealed (s : State) (r : VaultRecord) : Option Sealed :=
  let n := Tbl.get (fun _ => 0) s.key.vault.ivs r.code
  if s.key.vaultOpen && decide (0 < n) then some (sealRecord s.key.vaultKey n (vaultBytes s.key.vault r)) else none

/-! ## The enrolment record in the journal MRAM (R251) -/

/-- The contents of the enrolment record before it is sealed. -/
def recordBytes (r : EnrolRecord) : Bytes :=
  leBytes 4 r.unit ++ exactly 48 r.kaHash ++ exactly 32 r.keeperKey ++ leBytes 4 r.keyGen ++ leBytes 4 r.zcount ++
  leBytes 4 r.zsrc ++ leBytes 8 r.tkFloor ++ leBytes 1 (b2n r.quarantined) ++ leBytes 8 r.kseq ++
  leBytes 4 r.imageGen ++ leBytes 4 r.stops ++ r.image.flatMap (fun e => leBytes 4 e.1 ++ leBytes 4 e.2.toNat)

/-- The two copies with their counters, the newer first. -/
def recordSealed (s : State) : List (Nat × Sealed) :=
  let one := fun (n : Nat) (r : Option EnrolRecord) => match r with
    | some r => [(n, sealRecord enrolSealKey n (recordBytes r))]
    | none => []
  one s.key.recordCtr s.key.record ++ one (s.key.recordCtr - 1) s.key.recordOld

end Sys2Proof.Machine
end

