-- ==== Sys2Proof/WellFormed.lean ====
section
/-! DEFINITION. Which commands are well formed: their operands name something of the kind the row speaks of.
A command that is not well formed still has its effect on the state (most often none): its meaning makes the
same checks. -/

namespace Sys2Proof

/-- The address of a word of the registers of BAR0 (R406). -/
def registerAddr (a : Addr) : Bool := decide (a.toNat < 0x400000) && a.toNat % 4 == 0

/-- The address of a bit word (R413). -/
def bitWordAddr (a : Addr) : Bool :=
  decide (0x800000 ≤ a.toNat) && decide (a.toNat < 0x1000000) && a.toNat % 4 == 0

/-- A keeper request frame of an opcode, as R436 lays it out: KMAGIC, the opcode, LEN up to 232, complete. -/
def keeperFrame (op : Nat) (r : Bytes) : Bool :=
  r.take 2 == [0x4B#8, 0x46#8] && (r.getD 2 0).toNat == op && decide ((r.getD 3 0).toNat ≤ 232) &&
  r.length == 28 + (r.getD 3 0).toNat

/-- A chain message of a type: 20 bytes (R462). -/
def chainFrame (type : Nat) (m : Bytes) : Bool := m.length == 20 && (m.getD 0 0).toNat == type

/-- A received frame: at least one byte, as a port's receiver hands it over. -/
def someFrame (f : Bytes) : Bool := !f.isEmpty

/-- How a received frame ended: one that the line reports not received names why (R338). -/
def someEnd : RxEnd → Bool
  | .notReceived raw => raw != 0
  | _ => true

/-- A burst of whole words at a naturally aligned place within one 64-byte block (R408). -/
def burst (a : Addr) (ws : List Word) : Bool :=
  !ws.isEmpty && a.toNat % 4 == 0 && decide (a.toNat % 64 + 4 * ws.length ≤ 64)

/-- The check of one command's operands. Commands that are not named take any operands. -/
def Instr.wellFormed : Instr → Bool
  | .registerWrite a _ => registerAddr a
  | .counterClearingRead a => registerAddr a
  | .holdingLowerRead a => registerAddr a && a.toNat % 8 == 0
  | .pmcEvenRead n _ => n.val % 2 == 0
  | .aliasWrite a _ => bitWordAddr a
  | .rwlRegisterWrite a _ => registerAddr a
  | .kprWrite a _ => registerAddr a && decide (0x300000 ≤ a.toNat) && decide (a.toNat < 0x340000)
  | .badSizeAccess _ _ n _ => decide (0 < n)
  | .gatedAccess a _ _ => registerAddr a
  | .patReservedOp op => decide (0xB ≤ op.toNat)
  | .sealFrameArrival _ f e => someFrame f && someEnd e
  | .openFrameArrival _ f e => someFrame f && someEnd e
  | .pauseReceived _ f => someFrame f
  | .macControlDiscard _ f => someFrame f
  | .markerBlock _ _ _ m => m.length == 32
  | .trunkBindingWrite a _ => registerAddr a
  | .agerVisit b => decide (b < 0x80000)
  | .clsBadCode c => c == 0 || decide (9 ≤ c.toNat)
  | .bucketLockRead b => decide (b < 0x40000)
  | .bucketEntryWrite a ws => decide (0x2000000 ≤ a.toNat) && decide (a.toNat < 0x4000000) && burst a ws
  | .bucketCommit b => decide (b < 0x40000)
  | .bucketAbort b => decide (b < 0x40000)
  | .tableWindowWrite a _ => decide (0x400000 ≤ a.toNat) && decide (a.toNat < 0x800000)
  | .traceStart v => v.getLsbD 31
  | .keyqEnable c => c.getLsbD 0
  | .keyqDisable c => !c.getLsbD 0
  | .evqEnable c => c.getLsbD 0
  | .evqDisable c => !c.getLsbD 0
  | .nop r => keeperFrame 0x00 r
  | .getStatus r => keeperFrame 0x01 r
  | .getChallenge r => keeperFrame 0x02 r
  | .loadSeg r => keeperFrame 0x03 r
  | .imgWrite r => keeperFrame 0x10 r
  | .imgCommit r _ => keeperFrame 0x11 r
  | .imgDiscard r => keeperFrame 0x12 r
  | .zeroize r => keeperFrame 0x20 r
  | .alarmClear r => keeperFrame 0x21 r
  | .trigger r => keeperFrame 0x22 r
  | .takeover r => keeperFrame 0x23 r
  | .warmReset r => keeperFrame 0x24 r
  | .debugLevel r => keeperFrame 0x25 r
  | .noInvasive r _ => keeperFrame 0x26 r
  | .enrol r _ => keeperFrame 0x30 r
  | .release r _ => keeperFrame 0x31 r
  | .unlock r => keeperFrame 0x32 r
  | .retire r _ => keeperFrame 0x33 r
  | .enumCount m => chainFrame 1 m
  | .enumRequest m => chainFrame 1 m
  | .alarm m => chainFrame 2 m
  | .cinch m => chainFrame 3 m
  | .zeroizeMessage m => chainFrame 4 m
  | .heartbeat m => chainFrame 5 m
  | _ => true

end Sys2Proof
end

