-- ==== Sys2Proof/Tests/Slice0.lean ====
section
/-! SUPPORT. The smoke test of `Instr.wellFormed`, and for each statement with hypotheses a witness: concrete states and
operands that meet them, clause by clause, at the bounds of their ranges. -/

namespace Sys2Proof.Tests
open Sys2Proof.Machine
set_option Elab.async false

/-! ## Well-formed commands -/

theorem test_wellFormed_refuses : ([
    .registerWrite 2#32 0#32, .registerWrite 0x400000#32 0#32, .counterClearingRead 1#32, .holdingLowerRead 4#32,
    .holdingLowerRead 0x400000#32, .pmcEvenRead 1 false, .aliasWrite 0x7FFFFC#32 0#32, .aliasWrite 0x1000000#32 0#32,
    .rwlRegisterWrite 3#32 0#32, .kprWrite 0x2FFFFC#32 0#32, .kprWrite 0x340000#32 0#32, .badSizeAccess false 0#32 0 true,
    .gatedAccess 0x400000#32 true 0#32, .patReservedOp 0xA#4, .sealFrameArrival 0 [] .terminate,
    .openFrameArrival 0 [1#8] (.notReceived 0), .pauseReceived 0 [], .macControlDiscard 0 [], .markerBlock 0 0 0 (zeros 31),
    .trunkBindingWrite 1#32 0#32, .agerVisit 0x80000, .clsBadCode 1#4, .clsBadCode 8#4, .bucketLockRead 0x40000,
    .bucketEntryWrite 0x1FFFFFC#32 [0#32], .bucketEntryWrite 0x2000000#32 [], .bucketEntryWrite 0x200003C#32 [0#32, 0#32],
    .bucketCommit 0x40000, .bucketAbort 0x40000, .tableWindowWrite 0x800000#32 0#32, .traceStart 0x7FFFFFFF#32,
    .keyqEnable 0#32, .keyqDisable 1#32, .evqEnable 2#32, .evqDisable 3#32, .nop [], .getStatus (zeros 28), .getChallenge [],
    .loadSeg [], .imgWrite [], .imgCommit [] true, .imgDiscard [], .zeroize [], .alarmClear [], .trigger [], .takeover [],
    .warmReset [], .debugLevel [], .noInvasive [] true, .enrol [] true, .release [] true, .unlock [], .retire [] true,
    .enumCount (zeros 20), .enumRequest [1#8], .alarm (zeros 20), .cinch [], .zeroizeMessage [], .heartbeat []
    ] : List Instr).all (fun i => !i.wellFormed) = true := by decide +kernel

/-- A keeper request of an opcode without a payload, its SEQ and CMAC zero. -/
def bareRequest (op : Nat) : Bytes := [0x4B#8, 0x46#8, BitVec.ofNat 8 op, 0#8] ++ zeros 24

theorem test_wellFormed_accepts : ([
    .registerWrite 0x3FFFFC#32 0#32, .holdingLowerRead 8#32, .pmcEvenRead 510 true, .aliasWrite 0x800000#32 0#32,
    .aliasWrite 0xFFFFFC#32 0#32, .kprWrite 0x300000#32 0#32, .badSizeAccess true 1#32 1 true, .patReservedOp 0xB#4,
    .sealFrameArrival 0 [1#8] .errorMarker, .openFrameArrival 0 [1#8] (.notReceived 1), .markerBlock 0 0 0 (zeros 32),
    .agerVisit 0x7FFFF, .clsBadCode 0#4, .clsBadCode 9#4, .bucketLockRead 0x3FFFF, .bucketEntryWrite 0x2000000#32
    [0#32], .bucketEntryWrite 0x2000038#32 [0#32, 0#32], .tableWindowWrite 0x400000#32 0#32, .traceStart 0x80000000#32,
    .keyqEnable 1#32, .keyqDisable 0#32, .nop (bareRequest 0), .retire (bareRequest 0x33) false,
    .enumCount (1#8 :: zeros 19), .heartbeat (5#8 :: zeros 19), .lookup, .perst
    ] : List Instr).all Instr.wellFormed = true := by decide +kernel

/-! ## States -/

/-- A state with registers stored. -/
def withRegs (s : State) (l : List (Nat × Nat)) : State := l.foldl (fun t e => t.wr e.1 e.2) s

/-- Reset with registers stored. -/
def regs (l : List (Nat × Nat)) : State := withRegs State.reset l

/-- A state whose power state and warm reset are given. -/
def power (m : PowerMode) (w : Option WarmPhase) (s : State) : State := { s with pwr := { s.pwr with mode := m, warm := w } }

/-- An enrolment record. -/
def record : EnrolRecord :=
  { unit := 0x2A, kaHash := zeros 48, keeperKey := zeros 32, keyGen := 1, image := [], zcount := 0, zsrc := 0,
    tkFloor := 0, quarantined := false, kseq := 7, imageGen := 0, stops := 3 }

/-- Client ports 0 and 1, line ports 0 and 1: 100GBASE-R. -/
def ports : List PortCfg :=
  [{ type := 5 }, { type := 5, first := 1, flow := 1 }] ++ List.replicate 30 ({} : PortCfg) ++
  [{ type := 5 }, { type := 5, first := 1 }] ++ List.replicate 30 ({} : PortCfg)

/-- A Pattern of two spans: 0 in a mode, 1 a trunk. -/
def pattern (m : SpanMode) : Pattern :=
  { container := [1#8], digest := [if m = .frame then 1#8 else 2#8], signed := true, lifecycles := 15, serial := 5, ports := ports,
    spans := [{ mode := some m, line := 0, clients := 1, units := 100 }, { mode := some .trunk, line := 1, clients := 2, units := 100 }],
    shares := [85, 85], memSize := [16, 1, 1, 1, 1], fenceOrder := [0, 1], layout := 0, ageDefault := 300, learnMask := 3,
    defaultClass := 0, classes := List.replicate 8 {}, rules := [], sched := List.replicate 32 {},
    bases := [{ enabled := true }], ppsTb := 0, todTxTb := 0, f10mTb := 0, todRxTb := 0, stampTb := [0], tcMode := [0],
    ksMode := 0, ksPeriod := 0, plan := 0, trim := true, cflags := 0, cinchTb := 0, heartbeatMs := 100, role := 1,
    mirror := 3, peerUnit := 0x2B, order := [0, 1] }

/-- An Operational module with an open vault. -/
def enrolled (s : State) : State :=
  { s with key := { s.key with fuse := .enrolled, record := some record, vaultOpen := true } }

/-- An Operational module that carries frames: its ports enabled. -/
def running (m : SpanMode) (s : State) : State :=
  withRegs { enrolled s with pat := { s.pat with active := some (pattern m) } }
    [(Reg.PEN_EN 0, 1), (Reg.PEN_EN 1, 1), (Reg.PEN_EN 32, 1), (Reg.PEN_EN 33, 1),
     (Reg.PEN_PSTAT 0, 1), (Reg.PEN_PSTAT 1, 1), (Reg.PEN_PSTAT 32, 1), (Reg.PEN_PSTAT 33, 1)]

/-- A module that carries frames in Frame mode. -/
def live (l : List (Nat × Nat) := []) : State := withRegs (running .frame State.reset) l

/-- Changes of one component of a state. -/
def onPat (f : PatState → PatState) (s : State) : State := { s with pat := f s.pat }
def onPwr (f : PwrState → PwrState) (s : State) : State := { s with pwr := f s.pwr }
def onKey (f : KeyState → KeyState) (s : State) : State := { s with key := f s.key }
def onHif (f : HostIf → HostIf) (s : State) : State := { s with hif := f s.hif }
def onFab (f : FabState → FabState) (s : State) : State := { s with fab := f s.fab }
def onSch (f : SchState → SchState) (s : State) : State := { s with sch := f s.sch }
def onSec (f : SecState → SecState) (s : State) : State := { s with sec := f s.sec }
def onCls (f : ClsState → ClsState) (s : State) : State := { s with cls := f s.cls }
def onEvr (f : EvrState → EvrState) (s : State) : State := { s with evr := f s.evr }
def onLan (f : LaneState → LaneState) (s : State) : State := { s with lan := f s.lan }
def onTim (f : TimState → TimState) (s : State) : State := { s with tim := f s.tim }
def onChn (f : ChnState → ChnState) (s : State) : State := { s with chn := f s.chn }
def onHrn (f : HrnState → HrnState) (s : State) : State := { s with hrn := f s.hrn }
def onKpr (f : KprState → KprState) (s : State) : State := { s with kpr := f s.kpr }
def onPattern (f : Pattern → Pattern) (s : State) : State := { s with pat := { s.pat with active := s.pat.active.map f } }

/-! ## The block as a whole -/

theorem witness_StepWithNothingWaitingIsOneTick :
    State.reset.pending = [] ∧ (railsUp State.reset || State.reset.pwr.thermal) = true ∧
    (let s := power .off none State.reset
     s.pending = [] ∧ (railsUp s || s.pwr.thermal) = false) := by decide +kernel

/-- A port without flow control sends no PAUSE. -/
theorem pauseChecks_noFlow {s : State} (h : ∀ m, (portCfg s m).flow = 0) : pauseChecks s = s := by
  have e : ∀ m, pauseCheck m s = s := by intro m; unfold pauseCheck; simp [h]
  have f : ∀ l : List Nat, l.foldl (fun s m => pauseCheck m s) s = s := by
    intro l; induction l with
    | nil => rfl
    | cons a l ih => simp [e, ih]
  exact f _

theorem witness_EveryCommandAnswersAndKeepsTheQueue :
    (needsCore .discard = true ∧ coreRuns (power .on (some .asserted) State.reset) = false) ∧
    ((keeperRequestOf (.nop [])).isSome = true ∧ ofChain .enumTimer = true ∧ railsUp (power .battery none State.reset) = false) ∧
    Quiet State.reset := by
  refine ⟨?_, ?_, rfl, rfl, rfl, pauseChecks_noFlow (fun _ => rfl), rfl, rfl, rfl, rfl⟩ <;> decide +kernel

theorem witness_StepKeepsTheShownState :
    Mirrored (settle live) ∧ ∃ t, step (settle live) = .next t := by
  refine ⟨?_, ?_⟩
  · unfold Mirrored StatusShown HealthShown; decide +kernel
  · have h : (settle live).pending = [] := by decide +kernel
    simp only [step, h]
    exact ⟨_, rfl⟩

/-! ## The host interface -/

theorem witness_RegisterWriteActsByAccessType :
    (∀ a ∈ [0x10, Reg.KEY_EVT, Reg.PAT_APPLY], Served State.reset a ∧ a % 4 = 0 ∧ plainReg a = true) ∧
    (∃ f ∈ regFields 0x10, f.acc = .rw ∧ f.legal.ok (field 0xFFFFFFFF f.lsb f.width) = true) ∧
    (∃ f ∈ regFields Reg.PAT_APPLY, f.acc = .rw ∧ f.legal.ok (field 3 f.lsb f.width) = false) ∧
    (∃ f ∈ regFields Reg.KEY_EVT, f.acc = .w1c ∧ 6 < f.width) ∧
    (∃ f ∈ regFields Reg.PAT_BOOT, f.acc = .w1s ∧ 0 < f.width) ∧
    (∃ f ∈ regFields Reg.PAT_STATUS, f.acc = .ro ∧ 31 ≥ f.lsb + f.width) := by
  unfold Served; decide +kernel

theorem witness_RefusedAccessesAreLogged :
    Served2 State.reset ∧
    (sizeOk false 0x3FFFFC 2 = false ∧ 0x3FFFFC < barEnd false) ∧
    (sizeOk true 0x10 16 = false ∧ 0x10 < barEnd true) ∧
    gatedAt (regs [(Reg.CLK_ON, 0)]) 0x280000 = true ∧ Served2 (regs [(Reg.CLK_ON, 0)]) := by
  unfold Served2; decide +kernel

theorem witness_ProtectedRegistersKeepTheirValues :
    (∀ a ∈ [0x300000, 0x33FFFC], Served live a ∧ 0x300000 ≤ a ∧ a < 0x340000) ∧
    (∀ a ∈ [Reg.PMC_USER_EN, Reg.PAT_BOOT],
      (Served (live [(Reg.CLK_ON, 1), (a, 2 ^ 31)]) a ∧ (live [(Reg.CLK_ON, 1), (a, 2 ^ 31)]).bit a 31 = true) ∧
      (Served (live [(Reg.CLK_ON, 1)]) a ∧ (live [(Reg.CLK_ON, 1)]).bit a 31 = false)) ∧
    live.key.vaultOpen = true ∧ vaultQuiet live = false := by
  unfold Served; decide +kernel

theorem witness_ClearingReadReturnsThenClears :
    ∀ a ∈ [0x4018, 0x1002C], Served live a ∧ hasAcc a .rc = true := by
  unfold Served; decide +kernel

theorem witness_PairedReadsHoldTheOtherHalf :
    (Served live 0x21000 ∧ (holdFor 0x21000).isSome = true ∧ 0x21000 % 8 = 0) ∧
    (∀ h, holdFor 0x21000 = some h →
      let s := onHif (fun x => { x with lastLow := [(h, 1)] }) { live with refTick := 156 }
      0x21004 % 8 ≠ 0 ∧ holdFor 0x21004 = some h ∧ 0 < Tbl.get (fun _ => 0) s.hif.lastLow h ∧
      s.refTick + 1 ≤ Tbl.get (fun _ => 0) s.hif.lastLow h + 156) ∧
    (Served (live [(Reg.CLK_ON, 1)]) (Reg.PMC_CNT 510)) ∧
    (let s := live [(Reg.PMC_USER_EN, 0x8000), (Reg.CLK_ON, 1)]
     Served2 s ∧ s.bit Reg.PMC_USER_EN (510 / 32) = true ∧ s.bit Reg.CLK_ON 0 = true) := by
  unfold Served Served2; decide +kernel

/-- The address of bit `n` of register `r` in the bit-word region. -/
def bitWord (r n : Nat) : Nat := 0x800000 + 4 * (8 * (r + n / 8) + n % 8)

theorem witness_BitWordWriteActsOnOneBit :
    (∀ e ∈ [(0x10, 31), (Reg.PAT_STATUS, 4), (Reg.PAT_BOOT, 31), (Reg.PAT_STATUS, 0), (0x3F0, 2)],
      aliasTarget (bitWord e.1 e.2) = e ∧ 0x800000 ≤ bitWord e.1 e.2 ∧ bitWord e.1 e.2 < 0x1000000 ∧ Served live e.1) ∧
    ((fieldOf 0x10 31).map (fun f => (f.acc, f.legal.ok (field (putBit 0 31 true) f.lsb f.width))) = some (.rw, true) ∧
      plainReg 0x10 = true) ∧
    ((fieldOf Reg.PAT_STATUS 4).map (fun f => f.acc) = some .w1c ∧ plainReg Reg.PAT_STATUS = true) ∧
    (fieldOf Reg.PAT_STATUS 0).map (fun f => f.acc) = some .ro ∧
    (fieldOf 0x4018 0).map (fun f => f.acc) = some .rc ∧ fieldOf 0x3F0 2 = none := by
  unfold Served; decide +kernel

/-- A module whose host interface is in use, in D3hot. -/
def inUse : State :=
  onHif (fun _ => { d3hot := true, kqAccepted := 6, eqConsumed := 3 })
    (live [(Reg.HIF_KQ_CTRL, 0x21), (Reg.HIF_EQ_CTRL, 0x21), (Reg.HIF_KQ_STATUS, 0x50001), (Reg.HIF_EQ_TAIL, 9)])

/-- A cut is under way. -/
def cutting (full loaded : Bool) (s : State) : State :=
  onPat (fun p => { p with staged := some (pattern .trunk), cut := some { full := full, stopped := 1, loaded := loaded } }) s

/-- The firmware restarts, its banks as PWR_FW_STATUS shows them. -/
def restarting (st : Nat) : State := onPwr (fun p => { p with fwRestarting := true }) (live [(Reg.PWR_FW_STATUS, st)])

theorem witness_InterfaceAndFirmwareResetsKeepTheCore :
    (coreRuns inUse = true ∧ inUse.hif.d3hot = true ∧ inUse.pat.cut = none ∧ inUse.cls.jobs = [] ∧ inUse.pwr.fwRestarting = false) ∧
    (coreRuns (cutting true false inUse) = true ∧ (cutting true false inUse).pat.cut ≠ none) ∧
    (coreRuns live = true ∧ live.hif.d3hot = false) ∧
    (∀ st ∈ [0x10, 0xB0], bankValid (restarting st) ((restarting st).rdF Reg.PWR_FW_STATUS 7 1) = true) ∧
    (∀ st ∈ [0x20, 0x90], bankValid (restarting st) ((restarting st).rdF Reg.PWR_FW_STATUS 7 1) = false ∧
      bankValid (restarting st) (1 - (restarting st).rdF Reg.PWR_FW_STATUS 7 1) = true) ∧
    (∀ b < 2, bankValid (restarting 0) b = false) ∧ coreRuns (restarting 0) = true ∧ (restarting 0).pwr.fwRestarting = true := by
  decide +kernel

theorem witness_DoorbellsMoveWithinTheRing :
    (let s := onHif (fun x => { x with kqAccepted := 5 }) (live [(Reg.HIF_KQ_CTRL, 1), (Reg.HIF_EQ_CTRL, 1), (Reg.HIF_EQ_TAIL, 7)])
     Served2 s ∧ s.bit Reg.HIF_KQ_CTRL 0 = true ∧ s.bit Reg.HIF_EQ_CTRL 0 = true ∧ fwIsReady s = true ∧
     (let room := fun v => (v + 65536 - s.hif.kqAccepted) % 65536 ≤
        (kqHead s + kqSize s + 65536 - s.hif.kqAccepted) % 65536
      room (kqSize s) ∧ ¬room (kqSize s + 1) ∧ ¬room 4) ∧
     (let behind := fun w => (w + 2 ^ 32 - s.hif.eqConsumed) % 2 ^ 32 ≤
        (s.rd Reg.HIF_EQ_TAIL + 2 ^ 32 - s.hif.eqConsumed) % 2 ^ 32
      behind 7 ∧ ¬behind 8)) ∧
    (Served2 live ∧ live.bit Reg.HIF_KQ_CTRL 0 = false ∧ live.bit Reg.HIF_EQ_CTRL 0 = false) ∧
    fwIsReady (live [(Reg.HIF_STATUS, 0)]) = false := by
  unfold Served2; decide +kernel

theorem witness_QueuesStartAtZeroAndStop :
    (Served live Reg.HIF_KQ_CTRL ∧ Nat.testBit 0x3F 0 = true ∧ live.bit Reg.HIF_KQ_CTRL 0 = false ∧
      Served live Reg.HIF_EQ_CTRL ∧ live.bit Reg.HIF_EQ_CTRL 0 = false) ∧
    (let s := live [(Reg.HIF_KQ_CTRL, 1), (Reg.HIF_EQ_CTRL, 1)]
     Served s Reg.HIF_KQ_CTRL ∧ Nat.testBit 0xFFFFFFFE 0 = false ∧ s.bit Reg.HIF_KQ_CTRL 0 = true ∧ s.hif.kqRun = none ∧
     Served s Reg.HIF_EQ_CTRL ∧ s.bit Reg.HIF_EQ_CTRL 0 = true ∧
     (onHif (fun x => { x with kqRun := some [] }) s).hif.kqRun ≠ none) := by
  unfold Served; decide +kernel

theorem witness_QueuesAndVectorsRun :
    (let s := onHif (fun x => { x with kqAccepted := 1, eqLostSince := 1, hold1 := true, dirty1 := true, hold2 := true, dirty2 := true })
        (live [(Reg.HIF_KQ_CTRL, 0x21), (Reg.HIF_EQ_CTRL, 0x21)])
     coreRuns s = true ∧ s.bit Reg.HIF_KQ_CTRL 0 = true ∧ s.hif.kqRun = none ∧ s.hif.kqAccepted ≠ kqHead s ∧
     s.hif.kqMute = false ∧ s.bit Reg.HIF_EQ_CTRL 0 = true ∧ 0 < s.hif.eqLostSince ∧ 2 ≤ eqRoom s ∧
     s.hif.hold1 = true ∧ s.hif.dirty1 = true ∧ s.bit Reg.HIF_EQ_CTRL 5 = true ∧
     s.hif.hold2 = true ∧ s.hif.dirty2 = true ∧ s.bit Reg.HIF_KQ_CTRL 5 = true) ∧
    (let s := live [(Reg.IRQ_PBA 1, 2 ^ 31)]
     Served s (Reg.IRQ_MSIX_CTRL 63) ∧ s.hif.msixEnable = true ∧ s.bit (Reg.IRQ_PBA 1) 31 = true ∧
     s.bit (Reg.IRQ_PBA 0) 0 = false) ∧
    (∀ v ∈ [0x80000000, 0x80000027], Served live Reg.IRQ_TEST ∧ v.testBit 31 = true ∧ field v 0 6 < 40 ∧
      field v 0 6 ≠ 1 ∧ field v 0 6 ≠ 2) := by
  unfold Served; decide +kernel

/-! ## Patterns -/

theorem witness_StagingStartsAndEnds :
    (∀ e ∈ [(128, 0), (1048576, 64)], let s := live [(Reg.PAT_WIN_LEN, e.1), (Reg.PAT_WIN_LO, e.2)]
      PatFree s ∧ s.pat.cut = none ∧ 128 ≤ s.rd Reg.PAT_WIN_LEN ∧ s.rd Reg.PAT_WIN_LEN ≤ 1048576 ∧
      s.rd Reg.PAT_WIN_LO % 64 = 0) ∧
    (let s := onPat (fun p => { p with staging := some 1, stagingLen := 128 }) live
     coreRuns s = true ∧ s.pat.staging = some 1 ∧ zeros 128 = exactly s.pat.stagingLen (zeros 128) ∧
     (judge { s.fresh with pat := { s.pat with staging := none } } (zeros 128) s.pat.scratchBad).1.1 ≠ 0) ∧
    (let s := onKey (fun k => { k with vault := { k.vault with slotA := .full (zeros 200) true } })
        (onPat (fun p => { p with staging := some 2 }) live)
     s.pat.staging = some 2 ∧ (slotRead 0 true s).1 = 0) ∧
    (∀ v ∈ [VaultSlot.empty, .broken],
      let s := onKey (fun k => { k with vault := { k.vault with slotB := v } }) (onPat (fun p => { p with staging := some 3 }) live)
      coreRuns s = true ∧ s.pat.staging = some 3 ∧ (slotRead 1 true s).1 ≠ 0 ∧ (slotRead 1 true s).1 < 256) := by
  unfold PatFree Served; decide +kernel

theorem witness_PatternSlotsAndFloor :
    (PatFree live ∧ live.pat.cut = none ∧ vaultQuiet live = false ∧ live.key.vaultOpen = true ∧
      live.pat.active = some (pattern .frame)) ∧
    (∀ i < 2, let s := onPat (fun p => { p with storing := some i }) live
      coreRuns s = true ∧ s.pat.storing = some i ∧ s.key.vaultOpen = true ∧ s.pat.active = some (pattern .frame)) ∧
    (Served (live [(Reg.PAT_STATUS, 8)]) Reg.PAT_CTRL ∧ (live [(Reg.PAT_STATUS, 8)]).bit Reg.PAT_STATUS 3 = true) ∧
    (Served (live [(Reg.HIF_STATUS, 0)]) Reg.PAT_CTRL ∧ fwIsReady (live [(Reg.HIF_STATUS, 0)]) = false) := by
  unfold PatFree Served; decide +kernel

theorem witness_ApplyCutsToTheStagedPattern :
    (let s := onPat (fun p => { p with staged := some (pattern .bypass) }) (live [(Reg.PAT_APPLY, 1)])
     PatFree s ∧ s.pat.staged = some (pattern .bypass) ∧ applyCode s (pattern .bypass) = (0, (0, 0))) ∧
    (let s := cutting false false live
     coreRuns s = true ∧ s.pat.cut = some { full := false, stopped := 1 } ∧ s.pat.staged = some (pattern .trunk) ∧
     cutDraining s = false) ∧
    (let s := cutting true true live
     coreRuns s = true ∧ s.pat.cut = some { full := true, stopped := 1, loaded := true }) := by
  unfold PatFree Served; decide +kernel

/-! ## The cipher fabric -/

/-- A cell of the frame of tag 4, and a module with that frame in the fabric. -/
def cell : Cell := { frame := 4, index := 0, span := 0 }
def withCell (f : FabState → FabState) : State :=
  onFab f (onSch (fun x => { x with frames := [(4, { span := 0, cellsLeft := 1, outs := [32], line := [1#8] })] }) live)

/-- The audit of that cell on islands 0 and 1. -/
def audit (r : Option CellResult) : Audit := { cell := cell, primary := 0, partner := 1, first := r, second := r }

theorem witness_CellsPassThroughTheFabric :
    (let s := withCell (fun f => { f with wheel := List.replicate 4 0, ready := [cell] })
     coreRuns s = true ∧ s.fab.wheel ≠ [] ∧ slotCell s (s.fab.wheel.getD s.fab.wheelPos 32) = some (cell, false) ∧
     (islandsAfter s.fab.lastIsland).find? (fun i => takes s i && decide ((s.islQ i).input.length < 16)) = some 0) ∧
    (let s := withCell (fun f => { f with wheel := List.replicate 4 0, ready := [cell], spare := 189 })
     190 ≤ s.fab.spare + spareRate s ∧ lentCell s = some cell ∧ freeIsland s = some 0) ∧
    (let s := withCell (fun f => { f with islands := [(23, { input := [cell] })] })
     islandState s 23 = 0 ∧ (s.islQ 23).output.length < 32 ∧ (s.islQ 23).input = cell :: [] ∧ auditOf s 23 cell = none ∧
     cell.trunk = false ∧ cell.waste = false ∧ s.hasFrame cell.frame = true) ∧
    (let s := withCell (fun f => { f with islands := [(0, { input := [cell] })], audits := [audit none] })
     (s.islQ 0).input = cell :: [] ∧ auditOf s 0 cell = some 0) ∧
    ((live.islQ 0).input = [] ∧ islandState live 0 = 0) ∧
    (let s := withCell (fun f => { f with audits := [audit (some .right)] })
     s.fab.audits.find? (fun a => a.first.isSome && a.second.isSome) = some (audit (some .right)) ∧
     (audit (some .right)).first = some .right ∧ (audit (some .right)).second = some .right) := by
  decide +kernel

/-- The state register of an island holds a word. -/
def island (i w : Nat) : State := regs [(Reg.CPH_ISL_STATUS i, w)]

theorem witness_EveryCauseFences :
    (coreRuns State.reset = true ∧ IslandIdle 23 State.reset ∧ islandState State.reset 23 = 0 ∧
      Served State.reset (Reg.CPH_ISL_CTRL 23) ∧ (causesOf State.reset 23).testBit 5 = false) ∧
    (IslandIdle 0 (island 0 3) ∧ islandState (island 0 3) 0 = 3 ∧ (island 0 3).fab.unparking.contains 0 = false) ∧
    (let s := onFab (fun f => { f with unparking := [0] }) (island 0 3)
     IslandIdle 0 s ∧ islandState s 0 ≠ 2 ∧ s.fab.unparking.contains 0 = true) ∧
    (IslandIdle 0 (island 0 0x100) ∧ islandState (island 0 0x100) 0 ≠ 2 ∧ (island 0 0x100).bit (Reg.CPH_ISL_STATUS 0) 8 = true) ∧
    (let s := onFab (fun f => { f with slow := [(0, 2)] }) State.reset
     IslandIdle 0 s ∧ islandState s 0 = 0 ∧ alignedPlan s = false ∧ 969 < 970 ∧ 2 ≤ Tbl.get (fun _ => 0) s.fab.slow 0) := by
  unfold IslandIdle Served; decide +kernel

theorem witness_IslandsAndSpansComeBack :
    (Served (island 0 0x82) (Reg.CPH_ISL_CTRL 0) ∧ causesOf (island 0 0x82) 0 = 32) ∧
    ((causesOf (island 0 0x86) 0).testBit 5 = true ∧ causesOf (island 0 0x86) 0 ≠ 32) ∧
    (islandState (island 0 3) 0 = 3 ∧ (island 0 3).fab.unparking.contains 0 = false) ∧
    (onFab (fun f => { f with unparking := [23] }) (island 23 1)).fab.unparking.contains 23 = true ∧
    (island 0 0x100).bit (Reg.CPH_ISL_STATUS 0) 8 = true ∧
    (islandState State.reset 0 = 0 ∧ (970 ≤ 970 ∧ 4095 < 4096 ∧ 1023 < 1024)) ∧
    (let s := onFab (fun f => { f with parking := [0] }) State.reset
     s.fab.parking.contains 0 = true ∧ islandState s 0 = 0 ∧ s.islQ 0 = {}) ∧
    (let s := onFab (fun f => { f with shedding := [1] }) live
     1 ∈ s.fab.shedding ∧ spanEmpty s 1 = true) ∧
    (let s := onFab (fun f => { f with shed := [1], shedOrder := [1] }) { live with refTick := tickSecond }
     1 ∈ restorePlan (capLimit s) (restoreOrder s) (retainedShares s) s ∧ s.fab.lastShed + tickSecond ≤ s.refTick + 1) := by
  unfold Served; decide +kernel

/-! ## Frame mode -/

theorem witness_GcmOpensWhatItSealed :
    ((zeros 16).length = 16 ∧ (zeros 12).length = 12) ∧ (zeros 32).length = 32 := by decide +kernel

/-- Frames: of the least length, of MAC control with an opcode and its first word, and secured as the SC below would
have it. -/
def frame64 : Bytes := withFcs ([2#8,0,0,0,0,1, 2,0,0,0,0,2, 8,0] ++ zeros 46)
def macFrame (op a : Nat) : Bytes :=
  withFcs (padTo 60 ([1#8,0x80,0xC2,0,0,1, 2,0,0,0,0,2, 0x88,0x08] ++ beBytes 2 op ++ beBytes 2 a))
def secured : Bytes :=
  withFcs ([2#8,0,0,0,0,1, 2,0,0,0,0,2, 0x88,0xE5, 0x2C,0x10] ++ beBytes 4 5 ++ beBytes 8 0x0A ++ zeros 32)

/-- An SC of span 0 with one current SA each way, and a module that seals and opens under it. -/
def sc0 : ScEntry := { inUse := true, words := [0x20, 0x0A, 0, 0, 0, 2 ^ 16, 0, 0], cur := some 0, started := true }
def sa0 : SaEntry := { owner := some (0, false), state := .current, ready := true, pn := 1, key := zeros 16, cipher := 0 }
def sealing (l : List (Nat × Nat) := []) : State :=
  onSec (fun _ => { tx := [(0, sc0)], rx := [(0, sc0)], sa := [(0, sa0)] })
    { live l with act := [(Reg.CLS_PORT 0, 1#32), (Reg.SCH_WEIGHT 0 0, 64), (Reg.SCH_CQW 0 0, 64)] }

/-- The frame that `frame64` becomes in the seal direction of span 0. -/
def sealed64 (v : State) (i : Nat) : Frame :=
  let p := parseFrame (sansFcs frame64)
  { span := 0, inPort := 0, cls := classOf v 0 p, ptp := p.ptpEvent, client := frame64, rxLen := frame64.length,
    fcsOk := true, sc := some i, outs := [spanLine v 0],
    storeForward := v.bit Reg.FRM_CTRL 0 || faster v (spanLine v 0) 0 }

theorem witness_ArrivingFramesEnterOrAreCounted :
    (let s := running .discard State.reset
     coreRuns s = true ∧ 64 ≤ frame64.length ∧ isReceived .terminate = true ∧ isMacControl frame64 = false ∧
     Receives s 0 0 .discard ∧ Receives s 32 0 .discard ∧ patMode s 0 ≠ .trunk ∧ cutStops s 0 = false) ∧
    (let s := sealing
     let d := sealDecision 0 0 (parseFrame (sansFcs frame64)) (received 0 0 frame64 .terminate s)
     Receives s 0 0 .frame ∧ goodEnd frame64 .terminate = true ∧ awaitsRise s 0 = false ∧ frame64.length ≤ 10240 ∧
     d.2 = some 0 ∧ (bindTx 0 ((sealed64 d.1 0).cls == 7) d.1).2.isSome = true ∧
     (tryAdmit (sealed64 d.1 0) d.1).2 = true) ∧
    (let s := sealing
     let v := received 0 32 secured .terminate s
     Receives s 32 0 .frame ∧ 64 ≤ secured.length ∧ awaitsRise s 0 = false ∧ secured.length ≤ 10272 ∧
     (findSecTag secured).any (fun g => decide (tagValid g secured.length = true ∧
       findRxSc v 0 (lookupSci g secured) = some 0 ∧ g.tags ≤ field (scWord (v.scAt true 0) 0) 5 2 ∧ g.pn ≠ 0 ∧
       slotOfAn v (v.scAt true 0) g.an = some 0 ∧
       lowestPn (v.scAt true 0) 1 ≤ recoverPn 0 g.pn (lowestPn (v.scAt true 0) 1) ∧ g.e = true)) = true) := by
  unfold Receives
  refine ⟨?_, ?_, ?_, ?_, ?_, ?_, ?_⟩ <;> decide +kernel

/-- A module that holds the frame of tag 3 in the open direction, its verdict due. -/
def judged (ok : Bool) : State :=
  let f : Frame := { opening := true, sc := some 0, sa := some 0, pn := 5, verdict := .pending, outs := [0], icvOk := ok,
                     inPort := 32, client := frame64 }
  onSch (fun x => { x with frames := [(3, f)] }) sealing

theorem witness_VerdictPassesOrDiscards :
    (coreRuns (judged true) = true ∧ VerdictDue (judged true) 3 ∧ ((judged true).frameAt 3).sc = some 0 ∧
      ((judged true).frameAt 3).sa = some (scSa ((judged true).scAt true 0) 0) ∧ ((judged true).frameAt 3).icvOk = true ∧
      (let e := (judged true).scAt true 0
       ((judged true).saAt (scSa e 0)).gen = ((judged true).frameAt 3).gen ∧ lowestPn e ((judged true).saAt (scSa e 0)).pn ≤ 5 ∧
       ((judged true).saAt (scSa e 0)).state = .current) ∧ ((judged true).frameAt 3).outs ≠ []) ∧
    (VerdictDue (judged false) 3 ∧ ((judged false).frameAt 3).icvOk = false ∧ ((judged false).frameAt 3).heads = []) := by
  unfold VerdictDue; decide +kernel

/-- A frame held for output port 32, and a module with frames and port states given. -/
def out32 : Frame := { span := 0, inPort := 0, client := frame64, line := frame64, outs := [32], rxLen := 64 }
def holding (f : Frame) (g : SchState → SchState := id) : State := onSch (fun x => g { x with frames := [(3, f)] }) sealing

theorem witness_FramesLeaveAndPausePorts :
    (let s := holding { out32 with outs := [0] } (fun x => { x with queues := [(0, [.held 3])] })
     let c := chooseClass 0 (judgeHeads 0 s.fresh)
     coreRuns s = true ∧ (s.portAt 0).sending = none ∧ c.2 = some 0 ∧ (readyHead c.1 0 0).map Prod.fst = some 3 ∧
     portBlocked c.1 0 = false ∧ (commitFrame 0 (c.1.frameAt 3) c.1).2.isSome = true) ∧
    (∀ st ∈ [none, some 0xA],
      let s := holding { out32 with heads := [32], sent := [(32, frame64)], outs := [32, 0], stomp := st }
        (fun x => { x with ports := [(32, { sending := some 3 })] })
      (s.portAt 32).sending = some 3 ∧ (s.frameAt 3).verdict ≠ .pending ∧ (s.frameAt 3).outs.filter (fun q => q != 32) ≠ [] ∧
      Tbl.get (fun _ => []) s.sch.pending 32 = []) ∧
    (let s := holding { out32 with heads := [32] } (fun x => { x with ports := [(32, { sending := some 3 })] })
     (s.portAt 32).sending = some 3 ∧ s.hasFrame 3 = true ∧ (s.frameAt 3).outs = [32]) ∧
    (let s := holding out32 (fun x => { x with arriving := [(0, some 3)] })
     Tbl.get (fun _ => none) s.sch.arriving 0 = some 3 ∧ s.hasFrame 3 = true ∧ (s.frameAt 3).heads = [] ∧
     (s.frameAt 3).bypass = false) ∧
    (let s := holding { out32 with heads := [32] } (fun x => { x with arriving := [(0, some 3)] })
     (s.frameAt 3).heads ≠ [] ∧ (s.frameAt 3).stomp = none) ∧
    (Tbl.get (fun _ => none) sealing.sch.arriving 0 = none ∧ ∀ h ∈ sealing.sch.held, h.port ≠ 0) ∧
    (let s := onSch (fun x => { x with held := [⟨false, 0, frame64, .terminate, 0, 0, []⟩] }) sealing
     (dropHeld 0 (penCount 0 0x30 1 s.fresh)).isSome = true) ∧
    (let s := onPattern (fun p => { p with spans := [{ mode := some .frame, line := 0, clients := 3, units := 100 }] }) sealing
     portSpan s 1 = some 0 ∧ portReceives s 1 = true ∧ runMode s 0 ≠ .trunk ∧ (portCfg s 1).flow ≠ 0 ∧
     ∀ e ∈ [(1, 0), (1, 0xFFFF), (0x0101, 5)], isMacControl (macFrame e.1 e.2) = true ∧
       goodEnd (macFrame e.1 e.2) .terminate = true ∧ beAt (macFrame e.1 e.2) 14 2 = e.1) := by
  decide +kernel

theorem witness_MacControlFramesAreDiscardedAndCounted :
    coreRuns live = true ∧ portSpan live 0 = some 0 ∧ portReceives live 0 = true ∧ runMode live 0 ≠ .trunk ∧
    isMacControl (macFrame 1 0) = true ∧ (portCfg live 0).flow = 0 ∧ isReceived .terminate = true := by decide +kernel

theorem witness_QuarantinedSpansDiscard :
    let s := onKey (fun k => { k with record := some { record with quarantined := true } }) live
    s.lifecycle = .quarantined ∧ coreRuns s = true ∧ portSpan s 0 = some 0 ∧ isMacControl frame64 = false ∧
    portSpan s 32 = some 0 := by decide +kernel

/-! ## Trunk mode -/

theorem witness_StitchHeaderReadsAsItWasWritten : 65535 < 2 ^ 16 ∧ 1 < 2 ∧ 2 ^ 48 - 1 < 2 ^ 48 := by decide

/-- Span 1 as a trunk, bound to SC 0 each way, its receiver in a state. -/
def trunk (rx : Nat) (f : TrunkState → TrunkState := id) : State :=
  let sc : ScEntry := { sc0 with words := [0x10020, 0x0A, 0, 0, 0, 2 ^ 16, 0, 0] }
  let s := onSec (fun _ => { tx := [(0, sc)], rx := [(0, sc)], sa := [(0, sa0)] }) (live [(Reg.FRM_TRK_STATUS 1, rx)])
  { s with trk := [(1, f { boundTx := some 0, boundRx := some 0, peerSpan := 1, setAside := [1, 2, 3, 4] })] }

theorem witness_TrunkSealSideRuns :
    (let s := trunk 0 (fun t => { t with elastic := List.replicate 7 idleBlock })
     coreRuns s = true ∧ patMode s 1 = .trunk ∧ (s.trkAt 1).elastic.length < 8 ∧ syncOk idleBlock = true ∧
     syncOk ⟨3, 1⟩ = false) ∧
    (12 ≤ ((trunk 0 (fun t => { t with elastic := List.replicate 12 idleBlock })).trkAt 1).elastic.length) ∧
    (let s := trunk 0
     trunkRuns s 1 = true ∧ patMode s 1 = .trunk ∧ (s.trkAt 1).stitch = none ∧
     (bindTx ((s.trkAt 1).boundTx.getD 0) true (idleDefects 1 s.fresh)).2.isSome = true) ∧
    (let s := onSec (fun _ => {}) (trunk 0)
     trunkRuns s 1 = true ∧ (s.trkAt 1).sealing = [] ∧
     (bindTx ((s.trkAt 1).boundTx.getD 0) true (idleDefects 1 s.fresh)).2 = none) ∧
    (∀ k < 3, Served (trunk 0) (Reg.FRM_TRK_TXSC 1 + 4 * k) ∧ (trunk 0).bit (Reg.FRM_TRK_STATUS 1) 7 = false) ∧
    ((trunk 0 (fun t => { t with release := [none] })).trkAt 1).release = none :: [] ∧
    ((trunk 0 (fun t => { t with release := [some [idleBlock], none] })).trkAt 1).release = some [idleBlock] :: [none] := by
  unfold Served; decide +kernel

/-- The header of the stitch of SEQ 7 of span 1 as received, and as two blocks of the line. -/
def header7 : Bytes := maskHeader (stitchHeader 1 0 false false 7)
def half (k : Nat) : Block257 := byteBlock false (slice header7 (32 * k) 32)

/-- A marker of lane 0, GROUP 5. -/
def marker5 : Bytes := markerWord ++ [0#8, 4, 0, 5]

theorem witness_TrunkOpenSideRuns :
    (coreRuns (trunk 0) = true ∧ patMode (trunk 0) 1 = .trunk ∧ 0 < lineLanes (trunk 0) 1 ∧
      marker5.take 8 = markerWord) ∧
    (∀ run ∈ [1, 2],
      let x : MarkerSeen := { pos := 100, lane := 0, lanes := 4, group := 4, run := run }
      ({ seen := [x] } : LaneMark).lock = none ∧
      [x].find? (fun x => x.pos + groupBits (lineType (trunk 0) 1) == 100 + groupBits (lineType (trunk 0) 1) &&
        x.lane == byteAt marker5 8 && x.lanes == byteAt marker5 9) = some x) ∧
    (rxState (trunk 2) 1 = 2 ∧ ((trunk 2).trkAt 1).cands.length < 4) ∧
    (∀ c ∈ [({ pos := 5, good := 2, seq := 6 } : Candidate), { pos := 5, good := 1, seq := 6 }],
      let s := trunk 2 (fun t => { t with cands := [c] })
      let raw := header7
      headerOf (half 0) (half 1) false = raw ∧ headerGood raw = true ∧ beAt (maskHeader raw) 8 2 = (s.trkAt 1).peerSpan ∧
      (s.trkAt 1).cands.find? (fun c => c.pos + (if c.good = 0 then 0 else 1027) == 1032) = some c ∧
      continuous c (byteAt (maskHeader raw) 10 / 128) (beAt (maskHeader raw) 12 6) = true) ∧
    (let s := trunk 3 (fun t => { t with lock := some { pos := 5, good := 3, seq := 6 }, badRun := 3 })
     rxState s 1 = 3 ∧ (s.trkAt 1).lock = some { pos := 5, good := 3, seq := 6 } ∧ 3 ≤ (s.trkAt 1).badRun) ∧
    headerGood (headerOf (half 0) (half 1) true) = false ∧
    (let s := trunk 3 (fun t => { t with header := some (zeros 64) })
     rxState s 1 = 3 ∧ (s.trkAt 1).openCells = 0 ∧ (s.trkAt 1).header = some (zeros 64) ∧ headerGood (zeros 64) = false) ∧
    (let s := trunk 3 (fun t => { t with header := some header7, openTag := some 3 })
     stitchSa s 1 (byteAt (maskHeader header7) 10 / 128) = some 0 ∧
     (s.saAt 0).pn ≤ beAt (maskHeader header7) 12 6 ∧ (s.trkAt 1).openFailed = false ∧ (s.trkAt 1).openTag ≠ none ∧
     (s.trkAt 1).openWrong = []) := by
  decide +kernel

/-! ## Secure channels and hitless key change -/

/-- A commit of OP is set up: STATUS, W0 and the SC tables. -/
def commit (op st w0 : Nat) (f : SecState → SecState := id) : State :=
  onSec f (live [(Reg.SEC_SCW_OP, op), (Reg.SEC_SCW_STATUS, st), (Reg.SEC_SCW_W 0, w0), (Reg.SEC_SCW_W 1, 0x0A),
    (Reg.SEC_SCW_W 5, 2 ^ 16)])

/-- SC 0 transmits under SA 0, and SA 1 is in a state. -/
def twoSas (a1 : SlotState) (f : ScEntry → ScEntry := id) (x : SecState) : SecState :=
  { x with tx := [(0, f sc0)], rx := [(0, f sc0)],
           sa := [(0, sa0), (1, { sa0 with state := a1, ready := a1 != .empty, epoch := 1 })] }

theorem witness_ChannelCommitsAreCheckedThenActedOn :
    (∀ op < 4, Served (commit op 1 0x20) Reg.SEC_SCW_COMMIT ∧ (commit op 1 0x20).rdF Reg.SEC_SCW_OP 0 2 = op ∧
      (commit op 1 0x20).bit Reg.SEC_SCW_STATUS 0 = true) ∧
    (∀ op ∈ [1, 2, 3], (commit op 0 0xFFFFFFFF (if op = 1 then twoSas .ready else id)).bit Reg.SEC_SCW_STATUS 0 = false ∧
      2 ≤ secwCode (commit op 0 0xFFFFFFFF (if op = 1 then twoSas .ready else id))) ∧
    secwCode (commit 1 0 0x20) = 0 ∧
    (let s := commit 2 0 0x20 (twoSas .ready)
     secwCode s = 1 ∧ field ((stagedWords s).getD 0 0) 0 2 = nextCipher (s.scAt false 0) ∧ (s.scAt false 0).cur ≠ some 1 ∧
     scSa (s.scAt false 0) 1 ≠ scSa (s.scAt false 0) 0 ∧ (s.saAt (scSa (s.scAt false 0) 1)).state = .ready) ∧
    (let s := commit 2 0 0x22 (twoSas .ready)
     secwCode s = 1 ∧ keyLen (field ((stagedWords s).getD 0 0) 0 2) = keyLen (nextCipher (s.scAt false 0)) ∧
     field ((stagedWords s).getD 0 0) 0 2 ≠ nextCipher (s.scAt false 0)) ∧
    secwCode (commit 3 0 0 (twoSas .ready)) = 0 ∧
    (Served live Reg.SEC_SCR_SEL ∧ Served live Reg.SEC_SAR_SEL ∧ (sealing.scAt false 0).inUse = true ∧
      (sealing.scAt false 0).cur.getD 0 < 2 ∧ (sealing.scAt false 16383).inUse = false) := by
  unfold Served; decide +kernel

/-- SC 0 has one epoch limit of 65,536 frames and of one second, reached. -/
def limited (cinchEn : Nat) (e : ScEntry) : ScEntry :=
  { e with words := [0x20 + 0x100 * cinchEn, 0x0A, 0, 0, 0, 2 ^ 16, 1, 1], count := 65536 }

theorem witness_TriggersEndTheEpoch :
    (∀ a1 ∈ [SlotState.ready, .empty],
      let s := onSec (fun x => let y := twoSas a1 (limited 0) x; { y with sa := y.sa.map (fun e => (e.1, { e.2 with pn := 0xFFFFFFFF })) }) live
      let e := s.scAt false 0
      coreRuns s = true ∧ e.inUse = true ∧ e.trigger = false ∧ s.sec.isolated = false ∧ nextReady s e = (a1 == .ready) ∧
      e.gap = false ∧ e.cur.isSome = true ∧ field (scWord e 6) 0 24 ≠ 0 ∧ field (scWord e 6) 0 24 * 65536 ≤ e.count ∧
      field (scWord e 7) 0 20 ≠ 0 ∧ curSa s 0 = some 0 ∧ (pnLimits (s.saAt 0).cipher (scTrunk s e)).1 ≤ (s.saAt 0).pn ∧
      Served s Reg.SEC_EPOCH_CMD ∧ Nat.testBit 0x80000000 31 = true ∧ 0x80000000 % 16384 = 0) ∧
    (live.scAt false 16383).inUse = false ∧ 0x80003FFF % 16384 = 16383 ∧
    (∀ f ∈ [limited 1, limited 0, fun e => { limited 1 e with trigger := true }, fun e => { limited 1 e with cur := none }],
      (onSec (fun x => { twoSas .ready f x with cinchAt := [5] }) live).sec.cinchAt = 5 :: []) ∧
    (scWord (limited 1 sc0) 0).testBit 8 = true ∧ (scWord (limited 0 sc0) 0).testBit 8 = false := by
  unfold Served; decide +kernel

theorem witness_BindingSwitchesToTheReadySlot :
    ∀ bound < 2,
      let s := onSec (fun x => let y := twoSas .ready (fun e => { e with trigger := true }) x
                               { y with sa := y.sa.map (fun e => (e.1, { e.2 with bound := bound })) }) live
      let e := s.scAt false 0
      e.inUse = true ∧ e.trigger = true ∧ nextReady s e = true ∧ s.sec.isolated = false ∧ e.cur = some 0 ∧
      scSa e 0 ≠ scSa e (nextSlot e) ∧ (s.saAt (scSa e 0)).state = .current ∧ (s.saAt (scSa e 0)).bound = bound := by
  decide +kernel

/-- A fill of SA 0 of transmit or receive SC 0, delivered or derived. -/
def fill (rx : Bool) (d : Option (Bytes × Bytes × Nat)) (resume : Nat) : FillReq :=
  { sa := 0, sc := 0, rx := rx, epoch := 1, delivered := d, makeCurrent := !rx, resume := resume }

theorem witness_SlotsFillAndMarksAreJournalled :
    (∀ d ∈ [none, some (zeros 16, zeros 12, 9)],
      let s := onSec (fun x => { twoSas .empty id x with fills := [fill false d 3] }) live
      coreRuns s = true ∧ s.sec.filling = none ∧ s.sec.fills = fill false d 3 :: [] ∧ s.bit Reg.KEY_STATUS 2 = false ∧
      s.key.drbgDown = false ∧ s.key.zeroizing = none ∧ vaultQuiet s = false ∧ (fill false d 3).delivered = d ∧
      s.key.vaultOpen = true) ∧
    (let s := onSec (fun x => { twoSas .empty id x with filling := some (fill false none 0) })
        (live [(Reg.CHN_HRN_STATUS, 2)])
     needsAck s = true ∧ Tbl.get (fun _ => 0) s.hrn.ackedMark 0 ≤ 0) ∧
    (∀ rx ∈ [true, false],
      let s := onSec (fun x => { twoSas .empty (fun e => { e with cur := none }) x with filling := some (fill rx none 0) }) live
      (s.scAt rx 0).cur = none ∧ needsAck s = false ∧ (fill false none 0).makeCurrent = true ∧
      scSa (s.scAt false 0) (slotOf (s.scAt false 0) 0) = 0) ∧
    (let s := onSec (fun x => { x with sa := [(7, { sa0 with journalling := some 4 })] }) live
     (s.saAt 7).journalling = some 4 ∧ s.key.vaultOpen = true) ∧
    (onKey (fun k => { k with vaultOpen := false }) live).key.vaultOpen = false := by
  decide +kernel

theorem witness_ExpiredKeysAreCleared :
    (let s := onSec (fun x => { twoSas .empty id x with sa := [(0, { sa0 with pn := 2 ^ 33 })] }) live
     coreRuns s = true ∧ curSa s 0 = some 0 ∧ (s.scAt false 0).inUse = true ∧
     (pnLimits (s.saAt 0).cipher (scTrunk s (s.scAt false 0))).2 < (s.saAt 0).pn) ∧
    (∀ rx ∈ [true, false],
      let s := onSec (fun x => { x with sa := [(7, { sa0 with orphan := true, owner := some (0, rx) })] }) live
      (s.saAt 7).owner = some (0, rx) ∧ (s.saAt 7).orphan = true ∧ (s.saAt 7).state = .current) ∧
    (let s := onSec (twoSas .old) live
     (s.scAt true 0).inUse = true ∧ (s.saAt (scSa (s.scAt true 0) 1)).state = .old) ∧
    (let s := onSec (twoSas .empty (fun e => { e with gap := true })) live
     (s.scAt false 0).gap = true ∧ (s.scAt false 0).cur = some 0 ∧ (s.saAt (scSa (s.scAt false 0) 0)).state = .current) ∧
    (live.scAt false 16383).gap = false := by
  decide +kernel

/-! ## The key store -/

/-- A descriptor: OP, TAG 0x77, ARG0, ARG1, the length of its input at 0x1000 and of its output at 0x2000. -/
def desc (op arg0 arg1 inLen : Nat) (out : Nat := 0) : Bytes :=
  [BitVec.ofNat 8 op, 0] ++ leBytes 2 0x77 ++ leBytes 4 arg0 ++ leBytes 4 arg1 ++ zeros 4 ++ leBytes 8 0x1000 ++
    leBytes 4 inLen ++ leBytes 4 out ++ leBytes 8 0x2000 ++ zeros 24

/-- Transmit SC 0, its keys delivered (0) or derived (1). -/
def scKeys (derive : Nat) (f : ScEntry → ScEntry := id) : ScEntry :=
  f { inUse := true, words := [0x20 + 128 * derive, 0x0A, 0, 0, 0, 2 ^ 16, 0, 0], cur := some 0, started := true }

/-- KEYQ runs a descriptor: SC 0 both ways with SA 0, a transport key of zeros in slot 0, parent 7. -/
def kq (b : Bytes) (g : SecState → SecState := id) (l : List (Nat × Nat) := []) : State :=
  onHif (fun _ => { kqRun := some b, kqAccepted := 1 })
    (onKey (fun x => { x with transport := [(0, zeros 32)], parents := [(7, { valid := true, id := 5, key := zeros 32 })] })
      (onSec (fun _ => g { tx := [(0, scKeys 0)], rx := [(0, scKeys 0)], sa := [(0, sa0)] })
        (live ([(Reg.HIF_KQ_CTRL, 1), (Reg.HIF_KQ_STATUS, 5)] ++ l))))

theorem witness_KeyqChecksComeFirst :
    (∀ b ∈ [desc 2 0xFFFFF 1 0, desc 9 5 0 0],
      coreRuns (kq b) = true ∧ (kq b).hif.kqRun = some b ∧ (kq b).sec.kqWait = [] ∧ kqPrecheck (kq b) (descOf b) ≠ 0) ∧
    (∀ op ∈ [0, 11, 255], coreRuns (kq (desc op 0 0 0)) = true ∧
      ((descOf (desc op 0 0 0)).op = 0 ∨ 10 < (descOf (desc op 0 0 0)).op)) := by
  decide +kernel

theorem witness_TransportKeysAndParents :
    (let b := desc 1 0 0 9152
     KqRuns (kq b) b 1 ∧ InputOk (descOf b)) ∧
    (let b := desc 2 8 0 48
     KqRuns (kq b) b 2 ∧ ((kq b).parentAt ((descOf b).arg0 % 4096)).valid = false) ∧
    (let b := desc 3 7 0 0
     let s := kq b (fun x => { x with sa := [(0, { sa0 with derived := true, parent := 7 })] })
     KqRuns s b 3 ∧ (s.parentAt ((descOf b).arg0 % 4096)).valid = true ∧ vaultQuiet s = false ∧ s.key.vaultOpen = true ∧
     (s.saAt 0).derived = true ∧ (s.saAt 0).parent = (descOf b).arg0 % 4096) ∧
    (∀ o, let b := desc 7 0 0 0
      let s := onKey (fun x => { x with vaultOpen := o }) (kq b)
      KqRuns s b 7 ∧ s.key.vaultOpen = o ∧ vaultQuiet s = false) := by
  unfold KqRuns InputOk; decide +kernel

theorem witness_KeyqDeliversAndRetiresSas :
    (let b := desc 4 0 1 48
     let s := kq b
     let e := s.scAt false 0
     KqRuns s b 4 ∧ e.inUse = true ∧ scDerived e = false ∧ (s.saAt (scSa e 1)).state = .empty ∧ epochOk s e 1 = true) ∧
    (let b := desc 5 0 1 0
     let s := kq b (fun x => { x with tx := [(0, scKeys 1 (fun e => { e with cur := none, started := false, words := [0xA0, 0x0A, 0, 7, 0, 2 ^ 16, 0, 0] }))], sa := [] })
     let e := s.scAt false 0
     KqRuns s b 5 ∧ e.inUse = true ∧ scDerived e = true ∧ hasCurrent s e = false ∧ e.pending = none ∧
     (s.parentAt (scParent e)).valid = true ∧ (s.saAt (scSa e 1)).state = .empty ∧ (s.saAt (scSa e 2)).state = .empty ∧
     scSa e 2 ≠ scSa e 1 ∧ e.epoch ≤ 1) ∧
    (let b := desc 5 0 1 0
     let s := kq b (fun x => { x with tx := [(0, scKeys 1 (fun e => { e with words := [0xA0, 0x0A, 0, 7, 0, 2 ^ 16, 0, 0] }))] })
     let e := s.scAt false 0
     KqRuns s b 5 ∧ e.inUse = true ∧ scDerived e = true ∧ hasCurrent s e = true ∧ (s.parentAt (scParent e)).valid = true ∧
     (s.saAt (scSa e 1)).state = .empty ∧ (descOf b).arg1 = e.epoch + 1) ∧
    (∀ rx, ∀ st ∈ [SlotState.ready, .old],
      let b := desc 6 (0x10000 * b2n rx) 1 0
      let s := kq b (fun x => { x with sa := [(0, sa0), (1, { sa0 with state := st, owner := some (0, rx) })] })
      KqRuns s b 6 ∧ (s.scAt rx 0).inUse = true ∧ (descOf b).arg0.testBit 16 = rx ∧
      (s.saAt (scSa (s.scAt rx 0) 1)).state = st) := by
  unfold KqRuns; decide +kernel

theorem witness_KeyqAttestsQueriesAndRolls :
    (let b := desc 8 0 0 32 5000
     KqRuns (kq b) b 8 ∧ InputOk (descOf b) ∧ (descOf b).inLen = 32 ∧ kqOutOk (descOf b) 5000 = true) ∧
    (let b := desc 9 0 0 0 4353
     KqRuns (kq b) b 9 ∧ (descOf b).arg0 = 0 ∧ kqOutOk (descOf b) 4353 = true) ∧
    (∀ e ∈ [(1, 7), (2, 0), (3, 0)], KqRuns (kq (desc 9 e.1 e.2 0)) (desc 9 e.1 e.2 0) 9 ∧ (descOf (desc 9 e.1 e.2 0)).arg0 = e.1) ∧
    (∀ gen ∈ [1, 5], let b := desc 10 0 gen 48
      KqRuns (kq b) b 10 ∧ (kq b).key.record = some record ∧ (descOf b).arg1 = gen ∧ record.keyGen = 1) := by
  unfold KqRuns InputOk; decide +kernel

theorem witness_ZeroizeClearsEveryKey :
    (∀ src : Fin 11, ∀ m ∈ [PowerMode.on, .hold],
      let s := power m none live
      (s.pwr.mode = .on ∨ s.pwr.mode = .hold) ∧ s.bit Reg.KEY_TAMPER src.val = false ∧ s.key.zeroizing = none ∧
      s.pwr.mode ≠ .off ∧ s.pwr.mode ≠ .battery ∧ s.pwr.mode ≠ .stopping) ∧
    (∀ src : Fin 11, zeroizes (live.rd Reg.KPR_TAMPER_RESP) src.val = true) ∧
    zeroizes ((live [(Reg.KPR_TAMPER_RESP, 0)]).rd Reg.KPR_TAMPER_RESP) 0 = false ∧
    (∀ src : Fin 11, (live [(Reg.KEY_TAMPER, 0x7FF)]).bit Reg.KEY_TAMPER src.val = true) ∧
    (let s := onKey (fun x => { x with zeroizing := some 5 }) live
     coreRuns s = true ∧ s.key.zeroizing = some 5 ∧ s.key.fuse = .enrolled ∧ s.key.record = some record ∧
     s.key.retireDue = false ∧ s.key.invasiveDue = false ∧ s.pwr.warmHeld = none) := by
  decide +kernel

theorem witness_RandomBitsAndMasks :
    (coreRuns State.reset = true ∧ (regs [(Reg.KEY_STATUS, 4)]).bit Reg.KEY_STATUS 2 = true ∧
      (regs [(Reg.KEY_STATUS, 4)]).kpr.challengeDue = false) ∧
    (let s := onKey (fun x => { x with drbgDown := true }) State.reset
     coreRuns s = true ∧ s.key.drbgDown = true ∧ s.key.zeroizing = none) ∧
    (let s := regs [(Reg.KEY_STATUS, 3)]
     coreRuns s = true ∧ s.bit Reg.KEY_STATUS 0 = true ∧ drbgOff s = false ∧ s.key.zeroizing = none ∧
     s.bit Reg.KEY_STATUS 1 = true ∧ s.key.remaskPos + 1 ≠ bankWords) ∧
    State.reset.hif.kqRun = none ∧ usesIdentity (descOf (desc 3 7 0 0)) = false ∧
    ((kq (desc 8 0 0 32 5000)).hif.kqRun = some (desc 8 0 0 32 5000) ∧ usesIdentity (descOf (desc 8 0 0 32 5000)) = true) := by
  decide +kernel
/-! ## Wrapped keys, and messages under a CMAC -/

/-- AES under the key of zeros. -/
theorem zeroKey : (∀ k ∈ roundKeys (zeros 32), k.length = 16) ∧ 2 ≤ (roundKeys (zeros 32)).length := by decide +kernel

theorem exactly_self {n : Nat} {b : Bytes} (h : b.length = n) : exactly n b = b := by
  subst h; simp [exactly, padTo, zeros]

/-- A wrapped key of 40 bytes passes the checks of its BIND. -/
theorem unwraps {d : Desc} {p : Bytes} {slot type dir index : Nat} {value : Option Nat} {s : State}
    (hk : Tbl.get (fun _ => []) s.key.transport slot = zeros 32) (ha : d.inAddr = 0x1000) (hl : d.inLen = 48)
    (hp : p.length = 8 * 5)
    (hb : (byteAt p 0 == type && byteAt p 1 % 2 == dir && beAt p 2 2 == index &&
      (match value with
       | some v => beAt p 4 4 == v
       | none => true)) = true) :
    (unwrapInput d (.data (kwWrap (zeros 32) p)) slot 48 type dir index value s).code = 0 ∧
    (unwrapInput d (.data (kwWrap (zeros 32) p)) slot 48 type dir index value s).plain = p := by
  have hu := kwUnwrap_kwWrap zeroKey.1 zeroKey.2 hp
  have he : exactly 48 (kwWrap (zeros 32) p) = kwWrap (zeros 32) p :=
    exactly_self (kwWrap_length zeroKey.1 zeroKey.2 hp)
  have hz : (zeros 32).isEmpty = false := rfl
  have hi : ¬(d.inAddr = 0 ∨ d.inAddr % 8 ≠ 0) := by simp [ha]
  unfold unwrapInput
  simp only [hk, hz, kqInput, hi, hl, he, hu, if_false, Bool.false_eq_true, ne_eq, not_true]
  cases value <;> simp only at hb ⊢ <;> rw [if_pos hb] <;> exact ⟨rfl, rfl⟩

/-- The clauses of TransportKeysAndParents and KeyqDeliversAndRetiresSas, and that of KeyqAttestsQueriesAndRolls, in which
a wrapped key passes every check: a PARENT_INSTALL, an SA_INSTALL and a KEEPER_KEY_ROLL. -/
theorem witness_WrappedKeysAreTaken :
    (let b := desc 2 8 0 48
     let x := kwWrap (zeros 32) ([0x50#8, 0] ++ beBytes 2 8 ++ beBytes 4 0x55 ++ zeros 32)
     KqRuns (kq b) b 2 ∧ ((kq b).parentAt 8).valid = false ∧
     (unwrapInput (descOf b) (.data x) (field (descOf b).arg0 16 4) 48 0x50 0 ((descOf b).arg0 % 4096) none (kq b).fresh).code = 0) ∧
    (let b := desc 4 0 1 48
     let x := kwWrap (zeros 32) ([0x53#8, 0] ++ beBytes 2 0 ++ beBytes 4 1 ++ zeros 32)
     KqRuns (kq b) b 4 ∧ (unwrapInput (descOf b) (.data x) (field (descOf b).arg0 20 4)
       (32 + keyLen (nextCipher ((kq b).scAt false 0))) 0x53 (b2n false) 0 (some (descOf b).arg1) (kq b).fresh).code = 0) ∧
    (∀ gen ∈ [1, 5], let b := desc 10 0 gen 48
     let x := kwWrap (zeros 32) ([0x4B#8, 0] ++ beBytes 2 0 ++ beBytes 4 gen ++ zeros 32)
     KqRuns (kq b) b 10 ∧ (unwrapInput (descOf b) (.data x) (field (descOf b).arg0 16 4) 48 0x4B 0 0
       (some (descOf b).arg1) (kq b).fresh).code = 0) := by
  unfold KqRuns
  refine ⟨⟨by decide +kernel, by decide +kernel, (unwraps ?_ ?_ ?_ ?_ ?_).1⟩, ⟨by decide +kernel, (unwraps ?_ ?_ ?_ ?_ ?_).1⟩, ?_⟩
  · decide +kernel
  · decide +kernel
  · decide +kernel
  · decide +kernel
  · decide +kernel
  · decide +kernel
  · decide +kernel
  · decide +kernel
  · decide +kernel
  · decide +kernel
  · intro gen hg
    have h : gen = 1 ∨ gen = 5 := by simpa using hg
    rcases h with rfl | rfl <;>
      exact ⟨by decide +kernel, (unwraps (by decide +kernel) (by decide +kernel) (by decide +kernel) (by decide +kernel)
        (by decide +kernel)).1⟩
theorem kMac_length {s : State} (h : (keeperKey s).isNone = true ∨ keeperKey s = some (zeros 32)) (b : Bytes) :
    (kMac s b).length = 16 := by
  unfold kMac
  rcases h with h | h
  · cases hk : keeperKey s with
    | none => rfl
    | some k => simp [hk] at h
  · simp only [h]
    exact cmac_length zeroKey.1 zeroKey.2 _

/-- The body of a request of the keeper port, and the request with its CMAC. -/
def body (op : Nat) (p : Bytes) (seq : Nat) : Bytes :=
  [0x4B#8, 0x46#8, BitVec.ofNat 8 op] ++ (beBytes 1 p.length ++ (beBytes 8 seq ++ p))
def asks (op : Nat) (p : Bytes) (s : State) (seq : Nat := 100) : Bytes := body op p seq ++ kMac s (body op p seq)

/-- What the checks read of a request with sixteen bytes after its body. -/
theorem body_reads {op seq : Nat} {p m : Bytes} (hm : m.length = 16) (ho : op < 256) (hp : p.length ≤ 232) :
    let r := body op p seq ++ m
    kFrameOk r = true ∧ kOp r = op ∧ byteAt r 3 = p.length ∧ kPayload r = p ∧ kSeq r = beNat (beBytes 8 seq) ∧
    slice r (12 + p.length) 16 = m ∧ r.take (12 + p.length) = body op p seq := by
  intro r
  have h1 : beBytes 1 p.length = [BitVec.ofNat 8 p.length] := by
    simp only [beBytes, leBytes, List.reverse_cons, List.reverse_nil, List.nil_append]
  have hb : (body op p seq).length = 12 + p.length := by
    simp only [body, List.length_append, List.length_cons, List.length_nil, beBytes_length]; omega
  have h3 : byteAt r 3 = p.length := by
    simp [r, body, h1, byteAt]; omega
  have h4 : r.drop 4 = beBytes 8 seq ++ (p ++ m) := by simp [r, body, h1]
  refine ⟨?_, ?_, h3, ?_, ?_, ?_, List.take_left' hb⟩
  · have e : r.length = 28 + p.length := by simp only [r, List.length_append, hb, hm]; omega
    simp only [kFrameOk, h3, e]
    simp [r, body, slice, hp]
  · simp [kOp, r, body, byteAt]; omega
  · have e : r.drop 12 = p ++ m := by
      rw [show (12 : Nat) = 4 + 8 from rfl, ← List.drop_drop, h4]
      exact List.drop_left' (by simp)
    simp only [kPayload, slice, h3, e]
    exact List.take_left' rfl
  · simp only [kSeq, beAt, slice, h4]
    rw [List.take_left' (by simp)]
  · simp only [slice, r, List.drop_left' hb]
    exact List.take_of_length_le (by omega)

/-- What they read of one with its CMAC. -/
theorem asks_reads {op seq : Nat} {p : Bytes} {s : State} (h : (keeperKey s).isNone = true ∨ keeperKey s = some (zeros 32))
    (ho : op < 256) (hp : p.length ≤ 232) :
    kFrameOk (asks op p s seq) = true ∧ kOp (asks op p s seq) = op ∧ byteAt (asks op p s seq) 3 = p.length ∧
    kPayload (asks op p s seq) = p ∧ kSeq (asks op p s seq) = beNat (beBytes 8 seq) ∧
    slice (asks op p s seq) (12 + p.length) 16 = kMac s ((asks op p s seq).take (12 + p.length)) := by
  obtain ⟨a, b, c, d, e, f, g⟩ := body_reads (seq := seq) (kMac_length h (body op p seq)) ho hp
  exact ⟨a, b, c, d, e, f.trans (congrArg _ g.symm)⟩

/-- A changed CMAC is another. -/
theorem changed_ne {m : Bytes} (h : m.length = 16) : m.map (fun x => x ^^^ 1#8) ≠ m := by
  cases m with
  | nil => simp at h
  | cons x m =>
    intro e
    exact byte_all (P := fun x => x ^^^ 1#8 ≠ x) (by decide +kernel) x (List.cons.inj e).1

/-- The state that an accepted request of SEQ 100 acts on. -/
def seen (op : Nat) (s : State) : State :=
  if kAuthenticated s op then
    kCount Reg.KPR_CMDS (consumeSeq 100 { collected s with kpr := { (collected s).kpr with authRun := 0 } })
  else collected s

/-- The checks that such a request passes. -/
def serves (op : Nat) (p : Bytes) (s : State) : Bool :=
  railsUp s && keeperReady s && decide (op < 256) && decide (p.length ≤ 232) && !s.kpr.lockout && kDefined op &&
  kLenOk op p.length && decide ((s.key.record.map EnrolRecord.kseq).getD 0 < 100) &&
  ((keeperKey s).isNone || decide (keeperKey s = some (zeros 32))) &&
  (if kAuthenticated s op then kPermitted (consumeSeq 100 { collected s with kpr := { (collected s).kpr with authRun := 0 } }) op
   else kPermitted (collected s) op)

/-- It is accepted, whatever its CMAC is. -/
theorem accepted {op : Nat} {p : Bytes} {s : State} (h : serves op p s = true) :
    Accepted (asks op p s) op s (seen op s) ∧ kPayload (asks op p s) = p := by
  simp only [serves, Bool.and_eq_true, decide_eq_true_eq, Bool.not_eq_true', Bool.or_eq_true] at h
  obtain ⟨⟨⟨⟨⟨⟨⟨⟨⟨h1, h2⟩, h3⟩, h4⟩, h5⟩, h6⟩, h7⟩, h8⟩, h9⟩, h10⟩ := h
  obtain ⟨a, b, c, d, e, f⟩ := asks_reads (seq := 100) h9 h3 h4
  have e' : kSeq (asks op p s) = 100 := e.trans (by decide +kernel)
  refine ⟨⟨h1, h2, a, b, ?_⟩, d⟩
  have hm : ∀ x, kMac (collected s) x = kMac s x := fun _ => rfl
  have ha : kAuthenticated (collected s) op = kAuthenticated s op := rfl
  have hq : ¬ 100 ≤ (({ collected s with kpr := { (collected s).kpr with authRun := 0 } } : State).key.record.map
      EnrolRecord.kseq).getD 0 := by show ¬ 100 ≤ (s.key.record.map EnrolRecord.kseq).getD 0; omega
  have hx : (collected s).kpr.lockout = false := h5
  simp only [kCheck, b, c, e', ha, f, hm, hx, h6, h7]
  cases hk : kAuthenticated s op with
  | true =>
    rw [hk, if_pos rfl] at h10
    rw [if_neg hq]
    simp only [hx] at h10
    simp [h10, seen, hk, hx]
  | false =>
    rw [hk, if_neg (by decide)] at h10
    simp [h10, seen, hk]
/-! ## Classification -/

/-- The station of the classification witnesses, and its entry with given FLAGS, target and STAMP. -/
def mac : Bytes := [2#8, 0, 0, 0, 0, 9]
def entry (fl : Nat) (tgt : Nat := 0) (stamp : Nat := 0) : Bytes := mkEntry fl 0 5 mac stamp tgt 0xFFFF 0 0 (zeros 40)

/-- A classifier with transmit SC 0 of span 0. -/
def cls (g : ClsState → ClsState := id) (l : List (Nat × Nat) := []) : State :=
  onCls (fun _ => g {}) (onSec (fun _ => { tx := [(0, sc0)] }) (live l))

/-- The first bucket of the station, the same with an entry in it, and a command's data. -/
def bucket : Nat := (peerBuckets cls (peerKey 0 5 mac)).1
def has (e : Bytes) (x : ClsState) : ClsState := { x with peers := [(8 * bucket, e)] }
def withData (e : Bytes) (s : State) : State := s.wrBytes (Reg.CLS_CMD_DATA 0) (exactly 64 e)

/-- A learn request for the station. -/
def request : LearnReq := { client := false, port := 0, vid := 5, mac := mac, target := 0, rxsc := 0xFFFF }

/-- The bucket is locked, with a shadow. -/
def locked (sh : Bytes) (x : ClsState) : ClsState := { x with locks := [(bucket, some 0)], shadows := [(bucket, some sh)] }

theorem witness_ClassifierCommandsActAndComplete :
    (Served (cls id [(Reg.CLS_CMD_STATUS, 1)]) Reg.CLS_CMD ∧ clsBusy (cls id [(Reg.CLS_CMD_STATUS, 1)]) = true) ∧
    (let s := withData (entry 1) cls
     let d := cmdData s
     Served s Reg.CLS_CMD ∧ clsBusy s = false ∧ badKey s d true = false ∧ badTarget s d = false ∧
     findPeer s (eKey d) = none ∧ s.cls.relocated = [] ∧ s.cls.learnQ = [] ∧ s.cls.jobs = [] ∧
     keyLocked s (eKey d) = false ∧ validCount s < clsLimit s ∧
     freePlace s (peerBuckets s (eKey (entry 1))).1 = some (8 * bucket)) ∧
    badKey cls (cmdData cls) true = true ∧
    (let s := withData (entry 1) (cls (fun x => { x with learnQ := [request] }))
     badKey s (cmdData s) true = false ∧ badTarget s (cmdData s) = false ∧ s.cls.jobs = [] ∧
     jobReady s ⟨.command, s.cls.learnQ.length⟩ = false) ∧
    (let s := withData (entry 1) (cls (has (entry 5)))
     let d := cmdData s
     badKey s d true = false ∧ badKey s d false = false ∧ badTarget s d = false ∧
     findPeer s (eKey d) = some (8 * bucket) ∧ keyLocked s (eKey d) = false) ∧
    (∀ a ∈ [0, 16, 1000000], let s := cls id [(Reg.CLS_CMD_ARG 0, 1), (Reg.CLS_CMD_ARG 1, a)]
      spanArgOk s = true ∧ s.rd (Reg.CLS_CMD_ARG 1) = a) ∧
    spanArgOk (cls id [(Reg.CLS_CMD_ARG 0, 2)]) = false ∧
    prefixBad (cls id [(Reg.CLS_CMD_PRES 0, 8)]) = true ∧
    (prefixBad cls = false ∧ findPrefix cls (prefixArgs cls).key (prefixArgs cls).mask = none ∧ cls.cls.prefixes.length < 32768) ∧
    (let s := cls (fun x => { x with prefixes := [(0, some (prefixArgs cls))] })
     prefixBad s = false ∧ findPrefix s (prefixArgs s).key (prefixArgs s).mask = some 0) ∧
    (let s := cls (fun x => { x with cmd := some { code := 1, data := entry 5 } }) [(Reg.CLS_CMD_STATUS, 1)]
     coreRuns s = true ∧ s.cls.cmd = some { code := 1, data := entry 5 } ∧
     ({ code := 1, data := entry 5 } : ClsCmd).done = true ∧ (entry 5).length = 64) := by
  unfold Served; decide +kernel

theorem witness_StationsAreLearnedAndAged :
    (let s := cls (fun x => { x with learnQ := [request] })
     coreRuns s = true ∧ s.cls.relocated = [] ∧ s.cls.jobs = [] ∧ s.cls.learnQ = request :: [] ∧ reqLocked s request = false ∧
     findPeer s (peerKey 0 5 mac) = none ∧ validCount s < clsLimit s ∧
     freePlace s (peerBuckets s (eKey (entry 1))).1 = some (8 * bucket)) ∧
    (∀ e ∈ [entry 5, entry 5 7, entry 1, entry 1 7], ∀ ns ∈ [0, 1000000000],
      let s := cls (fun x => { has e x with learnQ := [request] }) [(Reg.TB_NS 0, ns)]
      reqLocked s request = false ∧ findPeer s (peerKey 0 5 mac) = some (8 * bucket) ∧ s.peerAt (8 * bucket) = e ∧
      eFlag e 1 = request.client ∧ eFlag e 2 = (byteAt e 0 == 5) ∧ holdDown s e = (ns == 0)) ∧
    (eTarget (entry 5) = 0 ∧ eTarget (entry 5 7) ≠ 0 ∧ eTarget (entry 1) = 0 ∧ eTarget (entry 1 7) ≠ 0) ∧
    (let s := cls (has (entry 1)) [(Reg.CLS_AGE_NOW, 5000)]
     s.cls.jobs = [] ∧ s.evr.rebuilding = false ∧ hostLocked s bucket = false ∧ s.cls.learnQ = [] ∧
     8 * bucket / 8 = bucket ∧ eFlag (s.peerAt (8 * bucket)) 0 = true ∧ expired s (ageTime s) (s.peerAt (8 * bucket)) = true) ∧
    hostLocked (cls (locked (zeros 512))) bucket = true ∧
    (∀ c ∈ [5, 6], ∀ b ∈ [bucket, 262143],
      let s := cls (fun x => { has (entry 1) x with cmd := some { code := c, bucket := some b, done := false } })
        [(Reg.CLS_CMD_ARG 0, 1), (Reg.CLS_AGE_NOW, 5000)]
      s.cls.cmd = some { code := c, bucket := some b, done := false } ∧ s.cls.relocated = [] ∧ hostLocked s b = false) ∧
    (let s := cls (fun x => { has (entry 1) x with relocated := [(8 * bucket, 3)] })
     s.cls.relocated = (8 * bucket, 3) :: [] ∧ s.cls.cmd = none ∧ s.cls.learnQ = [] ∧ s.cls.jobs = []) ∧
    (Served cls Reg.CLS_AGE ∧ ∀ v ∈ [16, 1000000],
      16 ≤ (BitVec.ofNat 32 v).toNat % 2 ^ 20 ∧ (BitVec.ofNat 32 v).toNat % 2 ^ 20 ≤ 1000000) ∧
    (BitVec.ofNat 32 15).toNat % 2 ^ 20 < 16 ∧ 1000000 < (BitVec.ofNat 32 1000001).toNat % 2 ^ 20 := by
  unfold Served; decide +kernel

theorem witness_BucketWindowWorksUnderItsLock :
    (Served2 cls ∧ clsLayout cls = 0 ∧ bucket < clsBuckets cls ∧ hostLocked cls bucket = false ∧
      engineHolds cls bucket = false) ∧
    clsLayout (onPattern (fun p => { p with layout := 1 }) cls) ≠ 0 ∧
    (let s := cls (fun x => { has (entry 1) x with relocated := [(8 * bucket, 3)] })
     hostLocked s bucket = false ∧ engineHolds s bucket = true) ∧
    (∀ k ∈ [0, 508], let a := BitVec.ofNat 32 (0x2000000 + 512 * bucket + k)
      0x2000000 ≤ a.toNat ∧ a.toNat < 0x4000000 ∧ a.toNat % 4 = 0 ∧
      let o := a.toNat - 0x2000000 + cls.rdF Reg.CLS_WIN_PAGE 0 2 * 2 ^ 25
      Tbl.get (fun _ => none) (cls (locked (zeros 512))).cls.shadows (o / 512) = some (zeros 512) ∧
      Tbl.get (fun _ => none) cls.cls.shadows (o / 512) = none) ∧
    (∀ sh ∈ [zeros 512, exactly 512 (entry 1), exactly 512 (entry 1 ++ entry 1)],
      let s := cls (locked sh)
      clsLayout s = 0 ∧ hostLocked s bucket = true ∧ s.cls.relocated = [] ∧ s.cls.jobs = [] ∧
      Tbl.get (fun _ => none) s.cls.shadows bucket = some sh) ∧
    (shadowBad (cls (locked (zeros 512))) bucket (zeros 512) = false ∧ zeros 512 = bucketBytes (cls (locked (zeros 512))) bucket) ∧
    (let sh := exactly 512 (entry 1)
     shadowBad (cls (locked sh)) bucket sh = false ∧ sh ≠ bucketBytes (cls (locked sh)) bucket) ∧
    (let sh := exactly 512 (entry 1 ++ entry 1)
     shadowBad (cls (locked sh)) bucket sh = true) ∧
    (let s := cls (locked (zeros 512))
     s.cls.jobs = [] ∧ s.cls.locks = [(bucket, some 0)]) ∧
    Served cls Reg.CLS_PORT_COMMIT ∧
    (∀ a ∈ [0x400000, 0x7FFFFC], Served (live [(Reg.CLK_ON, 1)]) a ∧ Served cls a) := by
  unfold Served Served2; decide +kernel
/-! ## Scheduling -/

/-- Line port 0 with a scheduler state, and changes of the queues. -/
def sched (p : PortSched) (l : List (Nat × Nat) := []) (g : SchState → SchState := id) : State :=
  onSch (fun x => g { x with ports := [(32, p)] }) (live l)

/-- A gate list of `n` entries of 1,000 ns each. -/
def gates (n : Nat) : GateList :=
  { entries := List.replicate n { dur := 1000, gates := 255 }, cycle := 1000 * n, phase := 0 }

/-- Weights of 64 for every class, in place of the zeros of reset. -/
def weights : List (Nat × Nat) := (List.range 7).flatMap (fun c => [(Reg.SCH_WEIGHT 0 c, 64), (Reg.SCH_CQW 0 c, 64)])

/-- A frame of the line that leaves by line port 0, and the same of 1,100 bytes held in its queue of class 0. -/
def held : Frame := { span := 0, inPort := 0, client := [], line := zeros 64, outs := [32], verdict := .good, rxLen := 64 }
def spilling (used rate : Nat) : State :=
  onPattern (fun p => { p with classes := List.replicate 8 { spill := true } })
    (sched {} [(Reg.SCH_SPILL_TH 0, 1), (Reg.EVR_PART 2, used)] (fun x => { x with
      spillOut := rate, frames := [(3, { held with line := zeros 1100 })], queues := [(qKey 32 0, [.held 3])] }))

theorem witness_GatesShapersAndWeights :
    (∀ n < 2, let s := sched { gatesOn := true, list := gates 2, entry := n }
      coreRuns s = true ∧ (s.portAt 32).gatesOn = true ∧ (s.portAt 32).pending = none ∧ (s.portAt 32).entry = n ∧
      (s.portAt 32).list.entries.length = 2) ∧
    ((sched { gatesOn := true, list := gates 2, pending := some (gates 3), entry := 1 }).portAt 32).pending = some (gates 3) ∧
    ((sched {}).portAt 32).gatesOn = false ∧
    (let s := sched { gatesOn := true, allot := 4, shadow := gates 2, shadowCount := 2 }
     Served s Reg.SCH_GCL_COMMIT ∧ (s.portAt (32 + gclPort s)).pending = none ∧ gclCode s = 0 ∧
     Served s Reg.SCH_GCL_GATES ∧ s.bit Reg.SCH_GCL_SEL 31 = false) ∧
    gclCode (sched { gatesOn := true }) ≠ 0 ∧
    (Served (sched {}) (Reg.SCH_PCOMMIT 0) ∧ Served (sched {}) (Reg.SCH_CCOMMIT 0) ∧ Served (sched {}) (Reg.SCH_SVC 0)) ∧
    (schpCode (sched {} [(Reg.SCH_WEIGHT 0 3, 0)]) 0 ≠ 0 ∧
      weightBad ((sched {} [(Reg.SCH_CQW 0 3, 0)]).rd (Reg.SCH_CQW 0 3)) = true) ∧
    (let s := sched {} weights
     schpCode s 0 = 0 ∧ (s.portAt 32).sending = none ∧ (s.portAt 0).sending = none ∧
     (List.range 7).any (fun c => weightBad (s.rd (Reg.SCH_CQW 0 c))) = false) ∧
    ((sched { sending := some 4 } weights).portAt 32).sending ≠ none ∧
    (let s := { sched {} with act := [(Reg.SCH_SHP_RATE 0 1, 0x80000100), (Reg.SCH_SHP_DEPTH 0 1, 131072)] }
     (bucketOf s 0 1).2.2 = true ∧ (bucketOf s 0 2).2.2 = false) := by
  unfold Served; decide +kernel

theorem witness_SpillPauseAndSamples :
    (coreRuns (spilling 1 0) = true ∧
      spillDue (spilling 1 0) 32 ((spilling 1 0).queue 32 0) 0 false = some 3 ∧
      spillRoom (spilling 1 0) (outLen ((spilling 1 0).frameAt 3)) = true) ∧
    (∀ e ∈ [(0, 0), (1, 400000)], let s := spilling e.1 e.2
      spillDue s 32 (s.queue 32 0) 0 false = some 3 ∧ spillRoom s (outLen (s.frameAt 3)) = false) ∧
    (∀ pre ∈ [[], [QEntry.held 3]],
      let s := sched {} [] (fun x => { x with frames := [(3, held)], queues := [(qKey 32 0, pre ++ [.spilled held])] })
      s.queue 32 0 = pre ++ .spilled held :: [] ∧ hasSpilled pre = false ∧ tagAvailable s false = true ∧
      2 * onDie s 32 0 < spillTh s 32 ∧ (spillMoved s).2 + outLen held ≤ spillLimit s ∧ held ≠ {}) ∧
    (¬((portTest live 0 || !live.bit (Reg.PEN_EN 0) 0) = true) ∧
      (portTest (live [(Reg.PEN_EN 0, 0)]) 0 || !(live [(Reg.PEN_EN 0, 0)]).bit (Reg.PEN_EN 0) 0) = true) ∧
    (let s := live [(Reg.SCH_LS_CTRL, 0x80000000), (Reg.CLK_ON, 8)]
     s.bit Reg.SCH_LS_CTRL 31 = true ∧ s.bit Reg.CLK_ON 3 = true) ∧
    live.bit Reg.SCH_LS_CTRL 31 = false ∧
    (Served (live [(Reg.CLK_ON, 8)]) Reg.SCH_LS_SEL ∧ Served (live [(Reg.CLK_ON, 8)]) Reg.SCH_LS_CLR) := by
  unfold Served; decide +kernel
/-! ## Ports and serial lanes -/

theorem witness_DefectsAreDeclaredAndCleared :
    (let s := live [(Reg.PEN_DEF_RAW 0, 2 ^ 7)]
     coreRuns s = true ∧ portSpan s 0 = some 0 ∧ s.bit (Reg.PEN_EN 0) 0 = true ∧
     (∀ d ∈ [0, 3, 4], defectExists s 0 d = true ∧ s.bit (Reg.PEN_DEF 0) d = false ∧ rawTracked s 0 d = false) ∧
     (∀ d ∈ [0, 3, 4], isSuppressed s 0 d = false) ∧ defectExists s 0 7 = true ∧ isSuppressed s 0 7 = false ∧
     rawTracked s 0 7 = true ∧ s.bit (Reg.PEN_DEF_RAW 0) 7 = true ∧ s.bit (Reg.PEN_DEF_MASK 0) 7 = false) ∧
    (∀ d ∈ [0, 7], let s := live [(Reg.PEN_DEF 0, 2 ^ d)]
      s.bit (Reg.PEN_DEF 0) d = true ∧ portFailed s 0 = false ∧ s.bit (Reg.PEN_DEF_RAW 0) d = false) ∧
    (isSuppressed (live [(Reg.PEN_DEF_RAW 0, 1)]) 0 1 = true ∧ live.bit (Reg.PEN_DEF 0) 5 = false) ∧
    (Served live (Reg.PEN_EN 0) ∧ (portSpan live 0).isSome = true ∧ Nat.testBit 0 0 = false ∧ Nat.testBit 1 0 = true ∧
      live.bit (Reg.PEN_EN 0) 0 = true ∧ (live [(Reg.PEN_EN 0, 0)]).bit (Reg.PEN_EN 0) 0 = false) ∧
    Served live Reg.PEN_INTEG_COMMIT ∧
    (let s := onPattern (fun p => { p with ports := { type := 1 } :: p.ports.tail }) live
     (portCfg s 0).type = 1 ∧ s.bit (Reg.PEN_EN 0) 0 = true ∧ (portSpan s 0).isSome = true ∧
     declared s 0 [0, 1, 2, 3, 4] = false) ∧
    (portCfg live 0).type ≠ 1 := by
  unfold Served; decide +kernel

theorem witness_LanesAdaptAndTest :
    (∀ l ∈ [0, 71], let s := live [(Reg.CLK_ON, 4)]
      Served s (Reg.LANE_TXFFE l) ∧ Served s (Reg.LANE_PRBS l) ∧ Served s (Reg.LANE_INJ l)) ∧
    (field 0x0C1010 0 5 ≤ 16 ∧ field 0x0C1010 8 5 ≤ 24 ∧ field 0x0C1010 16 4 ≤ 12 ∧
      field 0x0C1010 0 5 + field 0x0C1010 8 5 ≤ 32 ∧ ¬field 0x0C1811 0 5 ≤ 16) ∧
    (∀ l ∈ [0, 71, 72], lanePowered live l = true) ∧ lanePowered live 63 = false ∧
    (∀ st ∈ [3, 7, 0x7B, 0x8F],
      let s := live [(Reg.LANE_STATUS 0, st)]
      coreRuns s = true ∧ lanePowered s 0 = true ∧ s.bit (Reg.LANE_STATUS 0) 1 = true) ∧
    (lanePam4 live 0 = true ∧ windowAllows true 563 153 = true ∧ windowAllows true 972 256 = true ∧
      windowAllows true 562 153 = false) ∧
    (let s := live [(Reg.LANE_STATUS 0, 0x400), (Reg.LANE_PRBS 0, 0x1010), (Reg.CLK_ON, 4)]
     s.bit (Reg.LANE_PRBS 0) 12 = true ∧ s.bit Reg.CLK_ON 2 = true ∧ s.bit (Reg.LANE_STATUS 0) 10 = true) ∧
    live.bit (Reg.LANE_PRBS 0) 12 = false := by
  unfold Served; decide +kernel

/-- Harness lanes in a training state, with a wish for a pair. -/
def training (st : Nat) (l : List (Nat × Nat) := []) (f : State → State := id) : State :=
  f (live ([(Reg.LANE_HRN_STATUS, st), (Reg.LANE_HRN_CTRL, 1), (Reg.CHN_HRN_CTRL, 1)] ++ l))

theorem witness_HarnessLanesTrain :
    (∀ st < 5, coreRuns (training st) = true ∧ hrnState (training st) = st) ∧
    ((2 ^ 64 - 1 - trainWord 15 true 127) < 2 ^ 64 ∧ trainWord 0 false 0 < 2 ^ 64) ∧
    (0 / 2 ^ 16 ≠ 0x5AC3960FE13C ∧ 0 / 2 ^ 16 ≠ 2 ^ 48 - 1 - 0x5AC3960FE13C) ∧
    (let s := training 0 [] (onLan (fun x => { x with failed := true }))
     s.lan.failed = true ∧ harnessOn s = true) ∧
    (training 0).lan.failed = false ∧
    (let s := training 4 [] (onHrn (fun x => { x with up := true }))
     hrnState s = 4 ∧ s.hrn.up = true ∧ hrnRole s ≠ 0 ∧ Served s Reg.LANE_HRN_CTRL) ∧
    (hrnState (training 0) ≠ 4 ∧ (training 0).hrn.up = false ∧ harnessOn (training 0) = true ∧
      Served (training 0) Reg.LANE_HRN_CTRL) := by
  unfold Served; decide +kernel

/-! ## Time -/

/-- TB0 from a source and TB1 from the crystal, both on. -/
def two (src : Nat) (l : List (Nat × Nat) := []) (f : State → State := id) : State :=
  f (onPattern (fun p => { p with bases := [{ enabled := true, src := src, fref := true }, { enabled := true }] })
    (live ([(Reg.TB_STATUS 0, 1 + 2 * src), (Reg.TB_STATUS 1, 1)] ++ l)))

theorem witness_TimeRunsToItsInstants :
    (let s := two 0 [(Reg.TB_SECMARK 0, 0xFFFFFFFF), (Reg.TIM_PPS_CTRL, 1), (Reg.TIM_F10M_CTRL, 1)]
        (onTim (fun x => { x with f10m := some (0, 7) }))
     (railsUp s || s.pwr.thermal) = true ∧ baseOn s 0 = true ∧ (s.baseAt 0).fifths < 5 ∧ s.evr.accepted < 50000 ∧
     s.tim.f10m.map Prod.fst = some 0 ∧ 0 = ppsBase s ∧ s.bit Reg.TIM_PPS_CTRL 0 = true ∧ f10mBase s = 0 ∧
     Served s Reg.TIM_F10M_CTRL) ∧
    baseOn (two 0) 3 = false ∧
    (onTim (fun x => { x with ppsOut := true }) live).tim.ppsOut = true ∧
    (let s := onTim (fun x => { x with todDue := some (5, 6, 7) }) (live [(Reg.TIM_TOD_CTRL, 1)])
     s.tim.todDue = some (5, 6, 7) ∧ s.bit Reg.TIM_TOD_CTRL 0 = true) ∧
    (let s := two 0 [(Reg.TIM_TOD_CTRL, 4)] (fun s =>
        onTim (fun x => { x with base := [(0, { markTick := 5, markSec := 77 })] }) { s with refTick := 9 })
     s.bit Reg.TIM_TOD_CTRL 2 = true ∧ todRxBase s < 4 ∧ baseOn s (todRxBase s) = true ∧
     todOk (todMessage 77 0 0 0) = true ∧ todOk (todMessage 78 0 0 0) = true ∧ todOk [] = false ∧
     (s.baseAt (todRxBase s)).markTick ≠ 0 ∧ s.refTick + 1 - (s.baseAt (todRxBase s)).markTick ≤ 140625000 ∧
     beAt (todMessage 77 0 0 0) 3 6 = (s.baseAt (todRxBase s)).markSec ∧
     beAt (todMessage 78 0 0 0) 3 6 ≠ (s.baseAt (todRxBase s)).markSec) ∧
    (let s := two 0
     Served s (Reg.TB_SECMARK 0) ∧ Served s (Reg.TB_SECMARK 3) ∧
     (0x7FFFFFFF + 2 ^ 32 - s.rd (Reg.TB_NS 0)) % 2 ^ 32 < 2 ^ 31 ∧
     ¬(0x80000000 + 2 ^ 32 - s.rd (Reg.TB_NS 0)) % 2 ^ 32 < 2 ^ 31 ∧
     (s.baseAt 0).secLo.getD (s.rd (Reg.TB_SECBASE_LO 0)) < 2 ^ 32) ∧
    Served live Reg.TIM_CAPTURE := by
  unfold Served; decide +kernel

theorem witness_BasesAreSteppedAndSteered :
    (let s := two 1 [(Reg.TB_SERVO 0, 3)]
     coreRuns s = true ∧ baseOn s 0 = true ∧ Served s (Reg.TB_STEP 0) ∧ s.bit (Reg.TB_STATUS 0) 4 = false ∧
     baseSrc s 0 = 1 ∧ s.bit (Reg.TB_SERVO 0) 0 = true ∧ s.bit (Reg.TB_SERVO 0) 1 = true ∧
     s.rdF (Reg.TB_STEP_TH 0) 0 23 * 256 < (signedOf 32 0x7FFFFFFF).natAbs ∧
     (signedOf 32 0).natAbs ≤ s.rdF (Reg.TB_STEP_TH 0) 0 23 * 256) ∧
    ((two 1).bit (Reg.TB_SERVO 0) 0 = false ∧ (two 1 [(Reg.TB_SERVO 0, 1)]).bit (Reg.TB_SERVO 0) 1 = false) ∧
    (two 1 [(Reg.TB_STATUS 0, 0x13)]).bit (Reg.TB_STATUS 0) 4 = true ∧ baseSrc (two 0) 0 ≠ 1 ∧
    ((signedOf 32 2147483).natAbs ≤ 2147483 ∧ 2147483 < (signedOf 32 2147484).natAbs) ∧
    (Nat.testBit (2 ^ 31) 31 = true ∧ Nat.testBit 5 31 = false ∧ Nat.testBit 1 0 = true) ∧
    (let s := two 2 [(Reg.TB_SECMARK 0, 1000)] (onTim (fun x => { x with base := [(0, { misses := 255, integral := 5 * 2 ^ 24 })] }))
     baseSrc s 0 = 2 ∧ (s.baseAt 0).stepTick ≠ s.refTick + 1 ∧
     (s.rd (Reg.TB_SECMARK 0) + 2 ^ 32 - s.rd (Reg.TB_NS 0)) % 2 ^ 32 < 500000000 ∧
     (signedOf 32 ((s.rd (Reg.TB_NS 0) + 2 ^ 33 - s.rd (Reg.TB_SECMARK 0) - s.rd (Reg.TB_PPS_DELAY 0)) % 2 ^ 32)).natAbs < 2 ^ 23 ∧
     s.rdF (Reg.TB_HOLD_S 0) 0 8 ≤ (s.baseAt 0).misses ∧ s.bit (Reg.TB_STATUS 0) 3 = false ∧
     (s.baseAt 0).integral = 5 * 2 ^ 24) ∧
    (baseFref (two 0) 0 = true ∧ (two 0).bit (Reg.TB_STATUS 0) 5 = false) := by
  unfold Served; decide +kernel

/-! ## Evidence and DRAM -/

/-- The ring of 0xE0000000 slots in a state, two records waiting. -/
def item : EvidenceItem := ⟨evrRecord 5 (evrAttr 0 false 0 false false 0 0) 64 9 []⟩
def ring (st : Nat) (l : List (Nat × Nat) := []) (f : EvrState → EvrState := id) : State :=
  onEvr (fun x => f { x with queue := [item, item] })
    (live ([(Reg.EVR_CTRL, 1), (Reg.EVR_STATUS, st), (Reg.EVR_CAP 0, 0xE0000000)] ++ l))

theorem witness_EvidenceRingRecords :
    (∀ s ∈ [ring 1, ring 2 [] (fun x => { x with postLeft := 3 })],
      coreRuns s = true ∧ s.evr.queue = item :: [item] ∧ s.evr.startDue = none ∧ s.bit Reg.EVR_CTRL 0 = true ∧
      s.evr.rebuilding = false ∧ (evrState s = 1 ∨ (evrState s = 2 ∧ 0 < s.evr.postLeft)) ∧ s.evr.gapDue = false ∧
      bitsAwaited s = false ∧ s.rd64 (Reg.EVR_NEXT 0) + 1 < 2 ^ 64) ∧
    (let s := ring 1 [] (fun x => { x with gapDue := true })
     evrState s = 1 ∧ s.evr.gapDue = true ∧ bitsAwaited s = false ∧ s.rd64 (Reg.EVR_NEXT 0) + 2 < 2 ^ 64 ∧
     2 ≤ s.rd64 (Reg.EVR_CAP 0)) ∧
    (evrState (ring 3) = 3 ∧ evrState (ring 0) = 0 ∧ evrState (ring 2) = 2 ∧ postDone (ring 2) = true ∧
      (ring 1 [(Reg.EVR_CTRL, 0)]).bit Reg.EVR_CTRL 0 = false ∧ evrState (ring 1 [(Reg.EVR_CTRL, 0)]) ≠ 0) ∧
    (ring 1 [] (fun x => { x with rebuilding := true })).evr.rebuilding = true ∧
    (live.evr.queue = [] ∧ live.evr.startDue = none) ∧
    (let s := ring 1 [] (fun x => { x with queue := [], startDue := some 7 })
     s.evr.queue = [] ∧ s.evr.startDue = some 7 ∧ drbgOff s = false) ∧
    drbgOff (ring 1 [(Reg.KEY_STATUS, 4)] (fun x => { x with queue := [], startDue := some 7 })) = true ∧
    (∀ src ∈ [0, 2], ∀ st ∈ [1, 2, 3], let s := ring st [(Reg.EVR_TRIG_EN, 5)]
      triggerEnabled s src = true ∧ evrState s = st ∧ Served s Reg.EVR_CTRL) ∧
    triggerEnabled live 0 = false ∧
    (evrState (ring 2) = 2 ∧ (ring 2).evr.postLeft = 0 ∧ drbgOff (ring 2) = false ∧ (ring 2).evr.rebuilding = false) := by
  unfold Served; decide +kernel

/-- A ring of five records with a readout of three of them set up. -/
def reading (l : List (Nat × Nat) := []) (f : EvrState → EvrState := id) : State :=
  onEvr (fun x => f { x with records := [(1, List.replicate 32 7#8), (2, List.replicate 32 9#8)], dramKey := zeros 64 })
    (live ([(Reg.EVR_CTRL, 1), (Reg.EVR_STATUS, 1), (Reg.EVR_CAP 0, 0xE0000000), (Reg.EVR_NEXT 0, 6),
      (Reg.EVR_OLDEST 0, 1), (Reg.EVR_RD_FIRST 0, 1), (Reg.EVR_RD_COUNT, 3), (Reg.EVR_RD_ADDR 0, 0x4000)] ++ l))

theorem witness_ReadoutsScrubsAndFences :
    (let s := reading
     coreRuns s = true ∧ Served s Reg.EVR_RD_CMD ∧ s.evr.readout = none ∧ Nat.testBit (2 ^ 31) 31 = true ∧
     ¬(s.rd Reg.EVR_RD_COUNT = 0 ∨ rdMax 0 < s.rd Reg.EVR_RD_COUNT ∨ rdAddr s % 64 ≠ 0) ∧
     ¬(s.rd64 (Reg.EVR_RD_FIRST 0) < (rdRange s 0).1 ∨
       (rdRange s 0).2 < s.rd64 (Reg.EVR_RD_FIRST 0) + s.rd Reg.EVR_RD_COUNT) ∧ s.evr.dramKey ≠ []) ∧
    ((reading [(Reg.EVR_RD_COUNT, 0)]).rd Reg.EVR_RD_COUNT = 0 ∧
      rdAddr (reading [(Reg.EVR_RD_ADDR 0, 0x4020)]) % 64 ≠ 0) ∧
    (let s := reading [(Reg.EVR_RD_FIRST 0, 0)]
     s.rd64 (Reg.EVR_RD_FIRST 0) < (rdRange s 0).1) ∧
    (let s := reading [] (fun x => { x with readout := some (0, 1, 3) })
     s.evr.readout = some (0, 1, 3) ∧ (rdRange s 0).1 ≤ 1 ∧ 1 + 3 ≤ (rdRange s 0).2) ∧
    (let s := reading [] (fun x => { x with readout := some (0, 0, 3) })
     s.evr.readout = some (0, 0, 3) ∧ 0 < (rdRange s 0).1) ∧
    (∀ k ∈ [0, 7], (reading.bit (Reg.EVR_CH_STATUS k) 0 = false) ∧
      (reading [(Reg.EVR_CH_STATUS k, 1)]).bit (Reg.EVR_CH_STATUS k) 0 = true) ∧
    (reading.cls.learnQ = [] ∧ (reading [(Reg.EVR_CH_UE_TH, 1)]).rdF Reg.EVR_CH_UE_TH 0 16 ≤ 1) ∧
    Served reading Reg.EVR_CH_FENCE ∧
    (let s := reading [(Reg.EVR_CTRL, 0)] (fun x => { x with rebuilding := true })
     s.evr.rebuilding = true ∧ s.cls.cmd = none ∧ s.pat.cut = none ∧ s.bit Reg.EVR_CTRL 0 = false) ∧
    reading.evr.rebuilding = false := by
  unfold Served; decide +kernel

/-! ## The keeper port -/

/-- A request of these states is well formed, with these OPCODE and SEQ, and authentic. -/
theorem asks_authentic {s : State} (hk : keeperKey s = some (zeros 32)) (e : Nat × Nat × Nat)
    (he : e ∈ [(0x00, 0, 100), (0x01, 0, 100), (0x01, 0, 7), (0x01, 1, 8), (0x7F, 0, 100)]) :
    let r := asks e.1 (zeros e.2.1) s e.2.2
    kFrameOk r = true ∧ kOp r = e.1 ∧ byteAt r 3 = e.2.1 ∧ kSeq r = e.2.2 ∧
    slice r (12 + byteAt r 3) 16 = kMac s (r.take (12 + byteAt r 3)) := by
  have hz : (zeros e.2.1).length = e.2.1 := by simp [zeros]
  have h3 : e.1 < 256 ∧ e.2.1 ≤ 232 ∧ beNat (beBytes 8 e.2.2) = e.2.2 := by
    revert e; decide +kernel
  obtain ⟨a, b, c, _, d, f⟩ := asks_reads (p := zeros e.2.1) (seq := e.2.2) (.inr hk) h3.1 (by rw [hz]; exact h3.2.1)
  rw [hz] at c f
  exact ⟨a, b, c, d.trans h3.2.2, by rw [c]; exact f⟩

theorem witness_KeeperChecksComeInOrder :
    (let s := power .on (some .draining) live
     railsUp s = true ∧ keeperReady s = false ∧ kFrameOk (asks 0x01 (zeros 0) live) = true ∧ kFrameOk [] = false) ∧
    (railsUp live = true ∧ keeperReady live = true ∧ kOp (asks 0x00 (zeros 0) live) = 0) ∧
    (let r := asks 0x7F (zeros 0) live
     kFrameOk r = true ∧ kOp r = 0x7F ∧ kDefined 0x7F = false ∧ live.kpr.lockout = false ∧
     slice r (12 + byteAt r 3) 16 = kMac live (r.take (12 + byteAt r 3)) ∧ live.key.record = some record ∧
     record.kseq < kSeq r) ∧
    (let r := [0x4B#8, 0x46#8, 0x02#8, 1#8] ++ zeros 40
     kFrameOk r = true ∧ kAuthenticated live (kOp r) = false ∧ kLenOk (kOp r) (byteAt r 3) = false) ∧
    (kAuthenticated live 0x01 = true ∧ (onKpr (fun k => { k with lockout := true }) live).kpr.lockout = true) ∧
    (∀ n ∈ [14, 15], let s := onKpr (fun k => { k with authRun := n }) live
     s.kpr.lockout = false ∧ s.kpr.authRun = n) ∧
    (let r := body 0x01 [] 100 ++ (kMac live (body 0x01 [] 100)).map (fun x => x ^^^ 1#8)
     kFrameOk r = true ∧ kOp r = 0x01 ∧ ¬slice r (12 + byteAt r 3) 16 = kMac live (r.take (12 + byteAt r 3))) ∧
    (∀ e ∈ [(0, 7), (1, 8)], let r := asks 0x01 (zeros e.1) live e.2
      kFrameOk r = true ∧ kOp r = 0x01 ∧ slice r (12 + byteAt r 3) 16 = kMac live (r.take (12 + byteAt r 3)) ∧
      kSeq r = e.2 ∧ (kSeq r ≤ record.kseq ∨ (record.kseq < kSeq r ∧ kLenOk 0x01 (byteAt r 3) = false))) := by
  have hk : keeperKey live = some (zeros 32) := rfl
  obtain ⟨n1, n2, -⟩ := asks_authentic hk (0x00, 0, 100) (by decide)
  obtain ⟨o1, -⟩ := asks_authentic hk (0x01, 0, 100) (by decide)
  obtain ⟨u1, u2, -, u4, u5⟩ := asks_authentic hk (0x7F, 0, 100) (by decide)
  obtain ⟨a1, a2, -, a4, a5⟩ := asks_authentic hk (0x01, 0, 7) (by decide)
  obtain ⟨b1, b2, b3, b4, b5⟩ := asks_authentic hk (0x01, 1, 8) (by decide)
  have hm := kMac_length (.inr hk) (body 0x01 [] 100)
  obtain ⟨w1, w2, w3, -, -, w4, w5⟩ := body_reads (op := 0x01) (seq := 100) (p := [])
    (m := (kMac live (body 0x01 [] 100)).map (fun x => x ^^^ 1#8)) (by rw [List.length_map]; exact hm) (by decide) (by decide)
  refine ⟨⟨by decide +kernel, by decide +kernel, o1, by decide +kernel⟩, ⟨by decide +kernel, by decide +kernel, n2⟩,
    ⟨u1, u2, by decide, rfl, u5, rfl, by rw [u4]; decide⟩, by decide +kernel, by decide +kernel, by decide +kernel,
    ⟨w1, w2, by rw [w3, w4, w5]; exact changed_ne hm⟩, ?_⟩
  intro e he
  have h : e = (0, 7) ∨ e = (1, 8) := by simpa using he
  rcases h with rfl | rfl
  · exact ⟨a1, a2, a5, a4, .inl (by rw [a4]; decide)⟩
  · exact ⟨b1, b2, b5, b4, .inr ⟨by rw [b4]; decide, by rw [b3]; decide⟩⟩
/-- The state after each kind of request: its buffer, its staged image, its debug level. -/
def buffered (b : Bytes) (s : State) : State := onKpr (fun k => { k with buffer := b }) s
def staged (l : List (Nat × Option Word)) (s : State) : State := onKpr (fun k => { k with staged := l }) s
def blank (s : State) : State := onKey (fun k => { k with fuse := .blank, record := none, vaultOpen := false }) s
def quarantined (s : State) : State :=
  onKey (fun k => { k with record := some { record with quarantined := true }, vaultOpen := false }) s

/-- The first bytes of an enrolment package and of a token. -/
def mine (x : Byte) (b : Bytes) : Bytes := [0x4D#8, 0x59#8] ++ b ++ [x]

theorem enrolCode_ne {s : State} {written : Bool} {b c : Bytes} (h : beAt b 4 4 = 0) : enrolCode s written b c ≠ 0 := by
  unfold enrolCode
  simp only [h, true_or, or_true]
  repeat' split
  all_goals first | decide | simp_all

theorem tokenCode_ne {s : State} {b c : Bytes} (h : beAt b 8 4 ≠ s.unit) : tokenCode s b c ≠ 0 := by
  unfold tokenCode
  simp only [h, ne_eq, not_false_eq_true, true_or]
  repeat' split
  all_goals first | decide | simp_all

theorem witness_KeeperRequestsAct :
    (∀ op ∈ [0x01, 0x02, 0x12, 0x22, 0x23, 0x24], Accepted (asks op [] live) op live (seen op live)) ∧
    (∀ o ∈ [0, 16382, 16383], let p := beBytes 2 o ++ zeros 2
      Accepted (asks 0x03 p live) 0x03 live (seen 0x03 live) ∧ kPayload (asks 0x03 p live) = p ∧
      (beAt p 0 2 + (p.drop 2).length ≤ 16384 ↔ o ≠ 16383)) ∧
    (∀ o ∈ [0x100, 0x5FC, 0x101, 0xFC], let p := beBytes 2 o ++ zeros 4
      Accepted (asks 0x10 p live) 0x10 live (seen 0x10 live) ∧ kPayload (asks 0x10 p live) = p ∧
      ((beAt p 0 2 % 4 = 0 ∧ 0x100 ≤ beAt p 0 2 ∧ beAt p 0 2 + 4 * ((p.length - 2) / 4) ≤ 0x600) ↔ o = 0x100 ∨ o = 0x5FC)) ∧
    (Accepted (asks 0x11 [] live) 0x11 live (seen 0x11 live) ∧ imageStaged (seen 0x11 live) = false) ∧
    (let s := staged [(kprBase + 0x100, some 0xFFFFFFFF)] live
     Accepted (asks 0x11 [] s) 0x11 s (seen 0x11 s) ∧ imageStaged (seen 0x11 s) = true ∧ imageLegal (seen 0x11 s) = false) ∧
    (let s := staged [(Reg.KPR_TRIG_ROUTE, some 7)] live
     Accepted (asks 0x11 [] s) 0x11 s (seen 0x11 s) ∧ imageStaged (seen 0x11 s) = true ∧ imageLegal (seen 0x11 s) = true) ∧
    (Accepted (asks 0x20 [] live) 0x20 live (seen 0x20 live) ∧ (seen 0x20 live).key.zeroizing = none) ∧
    (let s := live [(Reg.KPR_ALARM, 3)]
     let p := beBytes 2 0xFFFF
     Accepted (asks 0x21 p s) 0x21 s (seen 0x21 s) ∧ kPayload (asks 0x21 p s) = p ∧ (seen 0x21 s).rd Reg.KPR_ALARM = 3 ∧
     alarmPresent (seen 0x21 s) &&& 3 = 0) ∧
    (let s := live [(Reg.KPR_TRIG_ROUTE, 2), (Reg.EVR_STATUS, 1)]
     Accepted (asks 0x22 [] s) 0x22 s (seen 0x22 s) ∧ (seen 0x22 s).bit Reg.KPR_TRIG_ROUTE 1 = true ∧
     evrState (seen 0x22 s) = 1 ∧
     (seen 0x22 (live [(Reg.KPR_TRIG_ROUTE, 0)])).bit Reg.KPR_TRIG_ROUTE 1 = false) ∧
    (let s := live [(Reg.CHN_HRN_STATUS, 11), (Reg.KPR_TAKEOVER, 1)]
     Accepted (asks 0x23 [] s) 0x23 s (seen 0x23 s) ∧ takeoverCode 0 (seen 0x23 s) = 0 ∧ takeoverCode 0 (seen 0x23 live) ≠ 0) ∧
    (∀ m ∈ [PowerMode.on, .hold], ∀ z ∈ [none, some 1],
      let s := onKey (fun k => { k with zeroizing := z }) (onPwr (fun p => { p with keeperReset := true, mode := m }) live)
      coreRuns s = true ∧ s.pwr.keeperReset = true ∧ s.pwr.warm = none ∧ (s.pwr.mode = .on ∨ s.pwr.mode = .hold) ∧
      s.key.zeroizing = z ∧ s.pwr.warmHeld = none) ∧
    live.pwr.keeperReset = false ∧
    (let s := onKpr (fun k => { k with debug := .observe }) (live [(Reg.CLK_ON, 0x1F)])
     Served s Reg.DBG_TRACE_CTRL ∧ s.kpr.debug ≠ .closed ∧ Nat.testBit (2 ^ 31) 31 = true ∧ live.kpr.debug = .closed) := by
  unfold Served
  refine ⟨?_, ?_, ?_, ⟨(accepted ?_).1, ?_⟩, ⟨(accepted ?_).1, ?_⟩, ⟨(accepted ?_).1, ?_⟩, ⟨(accepted ?_).1, ?_⟩,
    ⟨(accepted ?_).1, (accepted ?_).2, ?_⟩, ⟨(accepted ?_).1, ?_⟩, ⟨(accepted ?_).1, ?_⟩, ?_⟩
  case refine_1 =>
    have h : ∀ op ∈ [0x01, 0x02, 0x12, 0x22, 0x23, 0x24], serves op [] live = true := by decide +kernel
    exact fun op ho => (accepted (h op ho)).1
  case refine_2 =>
    have h : ∀ o ∈ [0, 16382, 16383], serves 0x03 (beBytes 2 o ++ zeros 2) live = true ∧
      (beAt (beBytes 2 o ++ zeros 2) 0 2 + ((beBytes 2 o ++ zeros 2).drop 2).length ≤ 16384 ↔ o ≠ 16383) := by decide +kernel
    exact fun o ho => ⟨(accepted (h o ho).1).1, (accepted (h o ho).1).2, (h o ho).2⟩
  case refine_3 =>
    have h : ∀ o ∈ [0x100, 0x5FC, 0x101, 0xFC], serves 0x10 (beBytes 2 o ++ zeros 4) live = true ∧
      ((beAt (beBytes 2 o ++ zeros 4) 0 2 % 4 = 0 ∧ 0x100 ≤ beAt (beBytes 2 o ++ zeros 4) 0 2 ∧
        beAt (beBytes 2 o ++ zeros 4) 0 2 + 4 * (((beBytes 2 o ++ zeros 4).length - 2) / 4) ≤ 0x600) ↔
        o = 0x100 ∨ o = 0x5FC) := by decide +kernel
    exact fun o ho => ⟨(accepted (h o ho).1).1, (accepted (h o ho).1).2, (h o ho).2⟩
  all_goals decide +kernel

/-- The requests about the lifecycle: debug levels, enrolment and the tokens. -/
theorem witness_KeeperRequestsAct_lifecycle :
    (∀ l ∈ [0, 1, 2, 3], let p := beBytes 1 l
      Accepted (asks 0x25 p (blank live)) 0x25 (blank live) (seen 0x25 (blank live)) ∧
      kPayload (asks 0x25 p (blank live)) = p ∧ byteAt p 0 = l) ∧
    ((seen 0x25 (blank live)).lifecycle = .blank ∧ (seen 0x25 (blank live)).key.noInvasive = false ∧
      (seen 0x25 (blank live)).kpr.debug = .closed) ∧
    (∀ s ∈ [live, quarantined live], Accepted (asks 0x26 [] s) 0x26 s (seen 0x26 s)) ∧
    (∀ s ∈ [blank live, quarantined live], Accepted (asks 0x30 [] s) 0x30 s (seen 0x30 s) ∧
      enrolForm (package (seen 0x30 s)) = false) ∧
    (let s := buffered (mine 0x4E#8 [0x45#8]) (blank live)
     Accepted (asks 0x30 [] s) 0x30 s (seen 0x30 s) ∧ enrolForm (package (seen 0x30 s)) = true ∧
     ∀ ok c, enrolCode (seen 0x30 s) ok (package (seen 0x30 s)) c ≠ 0) ∧
    (∀ op ∈ [0x31, 0x32, 0x33],
      let s := quarantined live
      let t := buffered (mine (BitVec.ofNat 8 (op - 0x30)) [0x4C#8, 0x43#8]) s
      Accepted (asks op [] s) op s (seen op s) ∧ tokenForm (op - 0x30) (package (seen op s)) = false ∧
      Accepted (asks op [] t) op t (seen op t) ∧ tokenForm (op - 0x30) (package (seen op t)) = true ∧
      ∀ c, tokenCode (seen op t) (package (seen op t)) c ≠ 0) := by
  refine ⟨?_, ?_, ?_, ?_, ⟨(accepted ?_).1, ?_, fun ok c => enrolCode_ne ?_⟩, ?_⟩
  case refine_1 =>
    have h : ∀ l ∈ [0, 1, 2, 3], serves 0x25 (beBytes 1 l) (blank live) = true ∧ byteAt (beBytes 1 l) 0 = l := by decide +kernel
    exact fun l hl => ⟨(accepted (h l hl).1).1, (accepted (h l hl).1).2, (h l hl).2⟩
  case refine_3 =>
    have h : serves 0x26 [] live = true ∧ serves 0x26 [] (quarantined live) = true := by decide +kernel
    intro s hs
    have e : s = live ∨ s = quarantined live := by simpa using hs
    rcases e with rfl | rfl
    · exact (accepted h.1).1
    · exact (accepted h.2).1
  case refine_4 =>
    have h : (serves 0x30 [] (blank live) = true ∧ enrolForm (package (seen 0x30 (blank live))) = false) ∧
      serves 0x30 [] (quarantined live) = true ∧ enrolForm (package (seen 0x30 (quarantined live))) = false := by decide +kernel
    intro s hs
    have e : s = blank live ∨ s = quarantined live := by simpa using hs
    rcases e with rfl | rfl
    · exact ⟨(accepted h.1.1).1, h.1.2⟩
    · exact ⟨(accepted h.2.1).1, h.2.2⟩
  case refine_8 =>
    have h : ∀ op ∈ [0x31, 0x32, 0x33], let s := quarantined live
      let t := buffered (mine (BitVec.ofNat 8 (op - 0x30)) [0x4C#8, 0x43#8]) s
      serves op [] s = true ∧ tokenForm (op - 0x30) (package (seen op s)) = false ∧ serves op [] t = true ∧
      tokenForm (op - 0x30) (package (seen op t)) = true ∧ beAt (package (seen op t)) 8 4 ≠ (seen op t).unit := by decide +kernel
    intro op ho s t
    obtain ⟨a, b, c, d, e⟩ := h op ho
    exact ⟨(accepted a).1, b, (accepted c).1, d, fun _ => tokenCode_ne e⟩
  all_goals decide +kernel

/-! ## Supply, resets and start-up -/

/-- A state in a power mode, with more said of its power and its registers. -/
def inMode (m : PowerMode) (f : PwrState → PwrState := id) (l : List (Nat × Nat) := []) : State :=
  onPwr (fun p => f { p with mode := m }) (live l)

theorem witness_SupplyStopsAndStarts :
    (∀ x ∈ [(PowerMode.on, none), (.hold, none), (.hold, some { full := true, stopped := 1 })],
      let s := onPat (fun p => { p with cut := x.2 }) (inMode x.1)
      s.pwr.mode = x.1 ∧ s.pat.cut = x.2 ∧ s.key.record = some record ∧ (3 : Nat) + 1 < 2 ^ 32) ∧
    (∀ t ∈ [false, true], ∀ on ∈ [false, true],
      let s := inMode .stopping (fun p => { p with thermal := t, inputPresent := on })
        [(Reg.KPR_ALARM, 1), (Reg.CHN_HRN_STATUS, 2)]
      s.pwr.mode = .stopping ∧ s.key.zeroizing = none ∧ s.pwr.thermal = t ∧ s.rdF Reg.KPR_ALARM 0 12 ≠ 0 ∧
      pairActive (pairState s) = true) ∧
    (keptReg 0 = false ∧ 0 ∉ mirrors ∧ 0 ≠ Reg.HIF_STATUS) ∧
    (inMode .battery).pwr.mode = .battery ∧
    (∀ m ∈ [PowerMode.battery, .off], ∀ t ∈ [false, true], ∀ a ∈ [false, true],
      let s := inMode m (fun p => { p with thermal := t, afterStop := a })
      railsUp s = false ∧ s.pwr.thermal = t ∧ s.pwr.afterStop = a) ∧
    (∀ m ∈ [PowerMode.on, .hold, .stopping], railsUp (inMode m) = true) := by
  refine ⟨?_, ?_, ?_, ?_, ?_, ?_⟩ <;> decide +kernel

theorem witness_SupplyStopsAndStarts_heat :
    (let hot : Int := 4 * live.rdF Reg.PWR_THR 0 8
     hot = 460 ∧ quarterDeg 500 = 500 ∧ hot ≤ quarterDeg 460 ∧ quarterDeg 440 ≤ hot - 20 ∧ hot - 20 < quarterDeg 441 ∧
     quarterDeg 459 < hot ∧ quarterDeg 2048 = -2048 ∧ quarterDeg 499 < 500 ∧ ¬quarterDeg 401 ≤ 400) ∧
    (∀ m ∈ [PowerMode.on, .hold], ∀ o ∈ [false, true], let s := inMode m (fun p => { p with overTemp := o })
      railsUp s = true ∧ s.pwr.overTemp = o ∧ s.pwr.mode = m) ∧
    (∀ on ∈ [false, true], let s := inMode .battery (fun p => { p with thermal := true, inputPresent := on })
      railsUp s = false ∧ s.pwr.thermal = true ∧ s.pwr.inputPresent = on) := by decide +kernel

/-- A module at a step of start-up. -/
def starting (step : Nat) (l : List (Nat × Nat) := []) (f : State → State := id) : State :=
  f (live ([(Reg.PWR_STATUS, 256 * step)] ++ l))

theorem witness_ResetsAndStartUp :
    (∀ m ∈ [PowerMode.on, .hold], ∀ z ∈ [none, some 3],
      let s := onKey (fun k => { k with zeroizing := z }) (inMode m)
      s.pwr.warm = none ∧ s.pwr.mode = m ∧ s.key.zeroizing = z ∧ s.pwr.warmHeld = none) ∧
    (∀ w ∈ [some WarmPhase.draining, some .asserted], (inMode .on (fun p => { p with warm := w })).pwr.warm ≠ none) ∧
    (∀ low ∈ [false, true],
      let s := inMode .on (fun p => { p with warm := some .draining, mresetLow := low }) [(Reg.KPR_ALARM, 1)]
      coreRuns s = true ∧ s.pwr.warm = some .draining ∧ warmDraining s = false ∧ s.pwr.mresetLow = low ∧
      s.rdF Reg.KPR_ALARM 0 12 ≠ 0) ∧
    (let s := onHrn (fun h => { h with takeover := some (.journalling, 3) }) (inMode .on (fun p => { p with warm := some .draining }))
     coreRuns s = true ∧ s.pwr.warm = some .draining ∧ warmDraining s = true) ∧
    (keptReg 0 = false ∧ warmTimReg 0 = false ∧ 0 ∉ mirrors ∧ 0 ≠ Reg.HIF_STATUS ∧ 0 ≠ Reg.PAT_BOOT) ∧
    (∀ st < 16, let s := starting st [(Reg.PWR_FW_STATUS, 0x30)]
      coreRuns s = true ∧ s.pwr.warm = none ∧ s.pwr.mode ≠ .stopping ∧ s.rdF Reg.PWR_STATUS 8 4 = st ∧
      bankValid s (s.rdF Reg.PWR_FW_STATUS 7 1) = true ∧ s.key.batterySources = 0 ∧ s.lifecycle = .operational ∧
      s.key.vaultOpen = true) ∧
    (let r : StartupReport := { islandFails := 0x800001, channelFails := 0x81, laneFails := 2 ^ 72, vaultFails := 0x40, ok := true }
     r.ok = true ∧ r.islandFails.getLsbD 0 = true ∧ r.islandFails.getLsbD 23 = true ∧ r.islandFails.getLsbD 1 = false ∧
     r.vaultFails.getLsbD 6 = true ∧ r.vaultFails.getLsbD 7 = false) ∧
    (let r : StartupReport := { islandFails := 0, channelFails := 0, laneFails := 0, ok := false }
     r.ok = false ∧ r.vaultFails.getLsbD 6 = false) ∧
    (coreRuns (inMode .stopping) = true ∧ (inMode .stopping).pwr.mode = .stopping) := by decide +kernel

/-- Firmware bank bits, and what runs of an installation. -/
def firmware (st : Nat) (f : PwrState → PwrState := id) (l : List (Nat × Nat) := []) : State :=
  onPwr f (live ([(Reg.PWR_FW_STATUS, st)] ++ l))

theorem witness_ClocksAndFirmware :
    (∀ b ∈ [false, true], let s := live [(Reg.CLK_STATUS, if b then 8 else 0)]
      coreRuns s = true ∧ s.bit Reg.CLK_STATUS 3 = b) ∧
    (∀ x ∈ [([(1562505, 9), (5, 4)], some 4), ([(1562506, 9), (5, 4)], none), ([], none)],
      let s := onPwr (fun p => { p with clockFences := x.1 }) live
      coreRuns s = true ∧ alignedPlan s = false ∧ clockPair s.pwr.clockFences = x.2 ∧ Served s Reg.CLK_CTRL) ∧
    (∀ i < 24, islandState live i = 0 ∧ islandState live i ≠ 1) ∧
    (∀ m ∈ [PowerMode.on, .hold], let s := inMode m id [(Reg.CLK_STATUS, 1)]
      coreRuns s = true ∧ alignedPlan s = true ∧ Served s Reg.CLK_CTRL ∧ s.pwr.mode = m ∧ s.pwr.warm = none ∧
      s.key.zeroizing = none) ∧
    Served live Reg.CLK_EN ∧
    (let s := onPwr (fun p => { p with closing := [0, 4] }) (live [(Reg.CLK_ON, 31)])
     coreRuns s = true ∧ (0 : Fin 5).val ∈ s.pwr.closing ∧ (4 : Fin 5).val ∈ s.pwr.closing ∧ (1 : Fin 5).val ∉ s.pwr.closing) ∧
    (∀ a ∈ [Reg.CLK_OBS_SEL, Reg.CLK_OBS_DIV, Reg.CLK_EN], Served live (BitVec.ofNat 32 a).toNat ∧ (BitVec.ofNat 32 a).toNat = a) ∧
    (obsLegal 0x93 = true ∧ obsLegal 0x89 = false) ∧
    (let s := firmware 1
     coreRuns s = true ∧ Served s Reg.PWR_FW_CTRL ∧ s.bit Reg.PWR_FW_STATUS 0 = true) ∧
    (∀ len ∈ [0, 1, 2 ^ 24, 2 ^ 24 + 1], ∀ st ∈ [0x10, 0x30],
      let s := firmware st (fun p => { p with fwVersionA := 9, fwVersionB := 5 }) [(Reg.PWR_FW_LEN, len)]
      coreRuns s = true ∧ Served s Reg.PWR_FW_CTRL ∧ s.bit Reg.PWR_FW_STATUS 0 = false ∧ s.rdF Reg.PWR_FW_LEN 0 25 = len ∧
      bankRunning s = 0 ∧ bankValid s (1 - bankRunning s) = decide (st = 0x30) ∧ s.pwr.fwRestarting = false) ∧
    (firmware 0).pwr.fwInstalling = false ∧
    (let s := firmware 1 (fun p => { p with fwInstalling := true, fwFloor := 7 })
     coreRuns s = true ∧ s.pwr.fwInstalling = true ∧ (6#32).toNat < s.pwr.fwFloor ∧ s.pwr.fwFloor ≤ (7#32).toNat) := by
  unfold Served; refine ⟨?_, ?_, ?_, ?_, ?_, ?_, ?_, ?_, ?_, ?_, ?_, ?_⟩ <;> decide +kernel

/-! ## The chain -/

/-- A state of the chain: the Pattern's chain flags, the head strap, registers; start-up is over. -/
def chain (cf : Nat) (head : Bool) (l : List (Nat × Nat) := []) (f : ChnState → ChnState := id) : State :=
  onChn (fun c => f { c with headStrap := head })
    (onPattern (fun p => { p with cflags := cf }) (live ([(Reg.PWR_STATUS, 0x900)] ++ l)))

/-- A message with its CRC. -/
def message (type src unit : Nat) (p : Bytes) (hop : Nat := 62) : Bytes :=
  withCrc (beBytes 1 type ++ (beBytes 1 hop ++ (beBytes 1 src ++ ([0#8] ++ (beBytes 4 unit ++ exactly 8 p)))))

theorem witness_ChainMessagesAct :
    (railsUp (chain 11 true) = true ∧ chainOk [] = false ∧ chainOk (zeros 20) = false) ∧
    (∀ type ∈ [1, 2, 3, 4, 5], let m := message type 255 42 [1#8]
      chainOk m = true ∧ isHead (chain 11 false) = false ∧ ownReturn (chain 11 false) m = true) ∧
    (∀ x ∈ [(65536, 9), (65535, 0), (65535, 0xFFFF), (5, 1), (5, 5), (5, 6)],
      let s := chain 11 true [] (fun c => { c with gen := x.1 })
      let m := message 1 0 42 ([0#8, 63#8] ++ beBytes 2 x.2)
      railsUp s = true ∧ chainOk m = true ∧ byteAt m 0 = 1 ∧ byteAt m 8 = 0 ∧ isHead s = true ∧ s.chn.gen = x.1 ∧
      beAt m 10 2 = x.2) ∧
    (∀ c ∈ [0, 63, 64], ∀ cf ∈ [0, 1], ∀ hop ∈ [62, 63],
      let m := message 1 9 99 [0#8, BitVec.ofNat 8 c, 0#8, 5#8] hop
      ChainGood (chain cf false) 1 m ∧ byteAt m 8 = 0 ∧ isHead (chain cf false) = false ∧
      joined (chain cf false) = decide (cf = 1) ∧ byteAt m 9 = c ∧ byteAt m 1 = hop) ∧
    (∀ head ∈ [false, true], let m := message 1 9 99 [1#8]
      ChainGood (chain 11 head) 1 m ∧ byteAt m 8 = 1 ∧ isHead (chain 11 head) = head) ∧
    (∀ type ∈ [2, 5], ∀ p ∈ [0, 63, 64, 255], let m := message type p 99 [2#8, 3#8, 0#8, 0#8, 7#8]
      ChainGood (chain 11 false [(Reg.CHN_PEER_ID 63, 2 ^ 31)]) type m ∧ byteAt m 2 = p) ∧
    (∀ cf ∈ [1, 3], ∀ b ∈ [0, 0x80],
      let s := chain cf false [(Reg.CHN_STATUS, b)]
      let m := message 3 9 99 (beBytes 4 0x7FFFFFFF ++ beBytes 2 7)
      ChainGood s 3 m ∧ s.bit Reg.CHN_STATUS 7 = decide (b = 0x80) ∧ (cflags s).testBit 1 = decide (cf = 3) ∧
      (beAt m 8 4 + 2 ^ 32 - s.rd (Reg.TB_NS (cinchBase s))) % 2 ^ 32 < 2 ^ 31) ∧
    (∀ z ∈ [5, 6],
      let s := chain 11 false [(Reg.KPR_ZFANOUT, 2)] (fun c => { c with zseen := [(9, 99, 5, 1)] })
      let m := message 4 9 99 ([0#8, 0#8] ++ beBytes 2 z)
      ChainGood s 4 m ∧ s.bit Reg.KPR_ZFANOUT 1 = true ∧ zeroizeSeen s (byteAt m 2) (beAt m 4 4) (beAt m 10 2) = decide (z = 5)) ∧
    (let s := chain 11 false [(Reg.KPR_ZFANOUT, 0)]
     let m := message 4 63 99 ([0#8, 0#8] ++ beBytes 2 6)
     ChainGood s 4 m ∧ s.bit Reg.KPR_ZFANOUT 1 = false ∧ byteAt m 2 < 64) ∧
    live.chn.sendQ = [] := by
  unfold ChainGood
  refine ⟨?_, ?_, ?_, ?_, ?_, ?_, ?_, ?_, ?_, ?_⟩ <;> decide +kernel

theorem witness_ChainMessagesAct_own :
    (let s := chain 11 false [] (fun c => { c with sendQ := [(2, [2#8]), (0, [3#8]), (0, [4#8])] })
     railsUp s = true ∧ s.chn.sendQ = [(2, [2#8])] ++ (0, [3#8]) :: [(0, [4#8])] ∧
     (∀ x ∈ [((2 : Nat), [2#8])], (0 : Nat) < x.1) ∧ ∀ x ∈ [((0 : Nat), [4#8])], (0 : Nat) ≤ x.1) ∧
    (∀ head ∈ [false, true], isHead (chain 11 head) = head ∧ joined (chain 11 head) = true) ∧
    (∀ b ∈ [0, 0x1000], (chain 11 false [(Reg.CHN_STATUS, b)]).bit Reg.CHN_STATUS 12 = decide (b = 0x1000)) ∧
    (joined (chain 0 false) = false ∧ (cflags (chain 11 false)).testBit 3 = true ∧ (cflags (chain 3 false)).testBit 3 = false) ∧
    (∀ k ∈ [0, 1, 2], (chain 11 false [] (fun c => { c with zrepeat := some ([9#8], k) })).chn.zrepeat = some ([9#8], k)) ∧
    live.chn.zrepeat = none ∧
    (∀ x ∈ [(0, 0x40, 1), (11, 0, 1), (11, 0xC0, 2), (1, 0x40, 3), (11, 0x40, 0)],
      let s := chain x.1 false [(Reg.CHN_STATUS, x.2.1), (Reg.CHN_CINCH_NS, 0x7FFFFFFF)]
      Served s Reg.CHN_CINCH_CMD ∧ x.2.2 = (if joined s = false ∨ s.bit Reg.CHN_STATUS 6 = false then 1
        else if s.bit Reg.CHN_STATUS 7 then 2 else if (cflags s).testBit 1 then 0 else 3) ∧
      (s.rd Reg.CHN_CINCH_NS + 2 ^ 32 - s.rd (Reg.TB_NS (cinchBase s))) % 2 ^ 32 < 2 ^ 31) := by
  unfold Served
  refine ⟨?_, ?_, ?_, ?_, ?_, ?_, ?_⟩ <;> decide +kernel

/-! ## The harness -/

/-- A pair in a state and with a claim, its records under a key of zeros, the next to receive SEQ 5. -/
def paired (st cl : Nat) (l : List (Nat × Nat) := []) (f : HrnState → HrnState := id) (g : State → State := id) : State :=
  g (onHrn (fun h => f { h with
      up := true, paired := true, nonce := zeros 16, peerNonce := List.replicate 16 1#8, key := zeros 32, seqRx := 4,
      seqTx := 9, ackSent := 2, unacked := [(3, zeros 64, 1, some (0, 77)), (5, zeros 64, 2, none)] })
    (live ([(Reg.CHN_HRN_STATUS, st + 16 * cl), (Reg.LANE_HRN_STATUS, 4), (Reg.LANE_HRN_CTRL, 1)] ++ l)))

/-- The record of SEQ 5 with its CMAC. -/
def signed (type : Nat) (p : Bytes) (s : State) : Bytes := recBody type 5 p ++ recMac s (recBody type 5 p)

/-- What the checks read of a record with sixteen bytes after its body. -/
theorem recBody_reads {type : Nat} {p m : Bytes} (hm : m.length = 16) (ht : type < 256) :
    let r := recBody type 5 p ++ m
    r.length = 64 ∧ byteAt r 0 = type ∧ r.take 48 = recBody type 5 p ∧ slice r 48 16 = m ∧ beAt r 2 6 = 5 ∧
    slice r 8 40 = exactly 40 p := by
  intro r
  have he : (exactly 40 p).length = 40 := by simp [exactly, padTo, zeros]; omega
  have h1 : ∀ v, beBytes 1 v = [BitVec.ofNat 8 v] := fun v => by
    simp only [beBytes, leBytes, List.reverse_cons, List.reverse_nil, List.nil_append]
  have hb : (recBody type 5 p).length = 48 := by simp [recBody, he]
  have h2 : r.drop 2 = beBytes 6 5 ++ (exactly 40 p ++ m) := by simp [r, recBody, h1]
  refine ⟨by simp [r, hb, hm], ?_, List.take_left' hb, ?_, ?_, ?_⟩
  · simp [r, recBody, h1, byteAt, Nat.mod_eq_of_lt ht]
  · simp only [slice, r, List.drop_left' hb]
    exact List.take_of_length_le (by omega)
  · simp only [beAt, slice, h2]
    rw [List.take_left' (by simp)]
    decide +kernel
  · have e : r.drop 8 = exactly 40 p ++ m := by
      rw [show (8 : Nat) = 2 + 6 from rfl, ← List.drop_drop, h2]
      exact List.drop_left' (by simp)
    simp only [slice, e]
    exact List.take_left' he

/-- The checks of a record that its CMAC does not decide. -/
def orders (type : Nat) (s : State) : Bool :=
  coreRuns s && s.hrn.paired && decide (s.hrn.key = zeros 32) && decide (s.hrn.seqRx = 4) && decide (type < 256)

theorem recMac_length {s : State} (h : s.hrn.key = zeros 32) (b : Bytes) : (recMac s b).length = 16 := by
  unfold recMac; rw [h]; exact cmac_length zeroKey.1 zeroKey.2 _

/-- A record that passes them is the next in order. -/
theorem inOrder {type : Nat} {s : State} (h : orders type s = true) (p : Bytes) :
    InOrder s type (signed type p s) ∧ slice (signed type p s) 8 40 = exactly 40 p := by
  simp only [orders, Bool.and_eq_true, decide_eq_true_eq] at h
  obtain ⟨⟨⟨⟨h1, h2⟩, h3⟩, h4⟩, h5⟩ := h
  obtain ⟨a, b, c, d, e, f⟩ := recBody_reads (p := p) (recMac_length h3 (recBody type 5 p)) h5
  exact ⟨⟨h1, h2, a, b, (congrArg _ c).trans d.symm, by rw [signed, e, h4]⟩, f⟩

theorem witness_HarnessRecordsAct (type : Nat)
    (ht : type ∈ [2, 0x10, 0x11, 0x12, 0x13, 0x20, 0x21, 0x30, 0x31]) :
    (∀ n ∈ [14, 15], let s := paired 3 2 [] (fun h => { h with authRun := n })
      let r := recBody type 5 [] ++ (recMac s (recBody type 5 [])).map (fun x => x ^^^ 1#8)
      coreRuns s = true ∧ s.hrn.paired = true ∧ r.length = 64 ∧ byteAt r 0 = type ∧
      recMac s (r.take 48) ≠ slice r 48 16 ∧ s.hrn.authRun = n ∧ hrnRole s ≠ 0) ∧
    (let s := paired 3 2 [] (fun h => { h with seqRx := 5 })
     let r := signed type [] s
     coreRuns s = true ∧ s.hrn.paired = true ∧ r.length = 64 ∧ byteAt r 0 = type ∧
     recMac s (r.take 48) = slice r 48 16 ∧ beAt r 2 6 ≠ s.hrn.seqRx + 1) ∧
    (paired 3 2 [] (fun h => { h with paired := false })).hrn.paired = false ∧
    InOrder (paired 2 1) type (signed type [] (paired 2 1)) ∧ pairState (paired 2 1) ≠ 3 := by
  have h : ∀ t ∈ [2, 0x10, 0x11, 0x12, 0x13, 0x20, 0x21, 0x30, 0x31], t < 256 ∧ orders t (paired 2 1) = true := by
    decide +kernel
  refine ⟨fun n hn => ?_, ?_, by decide +kernel, (inOrder (h type ht).2 []).1, by decide +kernel⟩
  · have hs : ∀ n ∈ [14, 15], let s := paired 3 2 [] (fun h => { h with authRun := n })
      coreRuns s = true ∧ s.hrn.paired = true ∧ s.hrn.key = zeros 32 ∧ s.hrn.authRun = n ∧ hrnRole s ≠ 0 := by decide +kernel
    intro s r
    obtain ⟨h1, h2, h3, h4, h5⟩ := hs n hn
    have hl := recMac_length h3 (recBody type 5 [])
    obtain ⟨a, b, c, d, -, -⟩ := recBody_reads (type := type) (p := []) (m := (recMac s (recBody type 5 [])).map (fun x => x ^^^ 1#8))
      (by rw [List.length_map]; exact hl) (h type ht).1
    exact ⟨h1, h2, a, b, fun e => changed_ne hl (d.symm.trans (e.symm.trans (congrArg _ c))), h4, h5⟩
  · have hs : let s := paired 3 2 [] (fun h => { h with seqRx := 5 })
      coreRuns s = true ∧ s.hrn.paired = true ∧ s.hrn.key = zeros 32 ∧ s.hrn.seqRx = 5 := by decide +kernel
    intro s r
    obtain ⟨h1, h2, h3, h4⟩ := hs
    obtain ⟨a, b, c, d, e, -⟩ := recBody_reads (p := []) (recMac_length h3 (recBody type 5 [])) (h type ht).1
    exact ⟨h1, h2, a, b, (congrArg _ c).trans d.symm, fun x => absurd (e.symm.trans (x.trans (congrArg (· + 1) h4))) (by decide)⟩

/-- A learn entry, and a state whose peer table holds it, with an SC. -/
def peerEntry : Bytes := mkEntry 1 0 5 [2#8, 0, 0, 0, 0, 9] 0 0 0xFFFF 0 0 (zeros 40)
def mirrored : State :=
  paired 3 2 [] id (fun s => { s with
    sec := { tx := [(0, { inUse := true, words := [0x20, 0x0A, 0, 0, 0, 2 ^ 16, 0, 0], cur := some 0, started := true })] }
    cls := { s.cls with peers := [(8 * (peerBuckets s (eKey (exactly 64 (peerEntry.take 16)))).1, peerEntry)] } })

/-- A record in order whose payload is `p`. -/
def Carries (s : State) (type : Nat) (p : Bytes) : Prop := ∃ r, InOrder s type r ∧ slice r 8 40 = exactly 40 p

theorem carries {type : Nat} {s : State} (h : orders type s = true) (p : Bytes) : Carries s type p :=
  ⟨signed type p s, inOrder h p⟩

/-- Every record that a standby applies, and an active's acknowledgement, in each of its cases. -/
theorem witness_HarnessRecordsAct_mirror :
    (let p := beBytes 6 3
     Carries (paired 3 2) 2 p ∧ beAt (exactly 40 p) 0 6 = 3 ∧ (3, zeros 64, 1, some (0, 77)) ∈ (paired 3 2).hrn.unacked) ∧
    (∀ x ∈ [(1, 0x20), (0, 0), (0, 0x22)], Carries mirrored 0x10 (beBytes 2 x.1 ++ [0#8] ++ beBytes 4 x.2)) ∧
    pairState mirrored = 3 ∧
    (∀ x ∈ [(1, 0x20), (0, 0), (0, 0x22)], let p := exactly 40 (beBytes 2 x.1 ++ [0#8] ++ beBytes 4 x.2)
      let w := (List.range 8).map (fun k => beAt p (3 + 4 * k) 4)
      beAt p 0 2 = x.1 ∧ (byteAt p 2 == 1) = false ∧ (mirrored.scAt false x.1).inUse = decide (x.1 = 0) ∧
      w.all (· == 0) = decide (x.2 = 0) ∧
      (x.2 ≠ 0 → keyLen (field (w.getD 0 0) 0 2) = keyLen (nextCipher (mirrored.scAt false 0)))) ∧
    (let p := beBytes 2 0 ++ [0#8] ++ beBytes 4 0xFFFFFFFF ++ [1#8]
     Carries mirrored 0x11 p ∧ (mirrored.scAt (byteAt (exactly 40 p) 2 == 1) (beAt (exactly 40 p) 0 2)).inUse = true) ∧
    (Carries mirrored 0x12 (beBytes 2 2047 ++ beBytes 5 0xFFFFFFFFFF) ∧ mirrored.key.vaultOpen = true) ∧
    Carries mirrored 0x13 [] ∧
    (∀ op ∈ [1, 2], Carries mirrored 0x20 ([BitVec.ofNat 8 op] ++ peerEntry.take 16)) ∧
    (∀ op ∈ [1, 2], let e := exactly 64 (slice (exactly 40 ([BitVec.ofNat 8 op] ++ peerEntry.take 16)) 1 16)
      (findPeer mirrored (eKey e)).isSome = true ∧ keyLocked mirrored (eKey e) = false) ∧
    (engineFree mirrored = true ∧ mirrored.cls.jobs = [] ∧ mirrored.cls.learnQ = []) ∧
    (∀ g ∈ [false, true], let s := mirrored.setPort 32 { mirrored.portAt 32 with gatesOn := g }
      Carries s 0x21 [0#8] ∧ pairState s = 3 ∧ (s.portAt (32 + byteAt (exactly 40 [0#8]) 0 % 32)).gatesOn = g) := by
  have h : ∀ t ∈ [0x10, 0x11, 0x12, 0x13, 0x20], orders t mirrored = true := by decide +kernel
  have g : ∀ g ∈ [false, true], let s := mirrored.setPort 32 { mirrored.portAt 32 with gatesOn := g }
      orders 0x21 s = true ∧ pairState s = 3 ∧ (s.portAt (32 + byteAt (exactly 40 [0#8]) 0 % 32)).gatesOn = g := by
    decide +kernel
  refine ⟨⟨carries (by decide +kernel) _, by decide +kernel, ?_⟩, fun x _ => carries (h _ (by simp)) _, by decide +kernel,
    by decide +kernel, ⟨carries (h _ (by simp)) _, by decide +kernel⟩, ⟨carries (h _ (by simp)) _, by decide +kernel⟩,
    carries (h _ (by simp)) _, fun op _ => carries (h _ (by simp)) _, by decide +kernel, by decide +kernel,
    fun b hb => ⟨carries (g b hb).1 _, (g b hb).2⟩⟩
  exact List.mem_cons_self

/-- A HELLO of a unit to a unit, with its role, its lifecycle and its claim. -/
def hello (unit peer role life cl : Nat) : Bytes :=
  recBody 1 0 (beBytes 4 peer ++ beBytes 4 unit ++ [BitVec.ofNat 8 role, BitVec.ofNat 8 life, BitVec.ofNat 8 cl] ++
    List.replicate 16 6#8) ++ zeros 16

theorem witness_HarnessRecordsAct_pair :
    (∀ x ∈ [(2, 1), (3, 2)], Carries (paired x.1 x.2) 0x30 [] ∧ pairState (paired x.1 x.2) = x.1) ∧
    (∀ t ∈ [some (TakeoverPhase.asked, 7), some (.journalling, 7), none],
      let s := paired 3 2 [] (fun h => { h with takeover := t })
      Carries s 0x31 [] ∧ s.hrn.takeover = t) ∧
    (∀ cl ∈ [0, 1, 2, 3], ∀ key ∈ [[], zeros 32], ∀ n ∈ [[], zeros 16], ∀ r ∈ [1, 2],
      let s := paired 1 cl [] (fun h => { h with paired := false, key := key, nonce := n })
      let p := slice (hello s.unit (hrnPeer s) r 1 cl) 8 40
      coreRuns s = true ∧ (hello s.unit (hrnPeer s) r 1 cl).length = 64 ∧ byteAt (hello s.unit (hrnPeer s) r 1 cl) 0 = 1 ∧
      s.hrn.up = true ∧ beAt p 0 4 = hrnPeer s ∧ beAt p 4 4 = s.unit ∧ (byteAt p 8 ≠ hrnRole s ↔ r = 2) ∧ byteAt p 9 = 1 ∧
      s.lifecycle = .operational ∧ s.hrn.key = key ∧ s.hrn.nonce = n ∧ hrnKey s = []) ∧
    (∀ n ∈ [[], zeros 16], ∀ off ∈ [false, true],
      let s := paired 1 0 [(Reg.KEY_STATUS, if off then 4 else 0)] (fun h => { h with paired := false, nonce := n })
      s.hrn.up = true ∧ s.hrn.paired = false ∧ s.hrn.nonce = n ∧ drbgOff s = off) ∧
    ((paired 2 1).hrn.paired = true ∧ (paired 2 1).hrn.ackSent ≠ (paired 2 1).hrn.seqRx ∧
      (paired 2 1 [] (fun h => { h with ackSent := 4 })).hrn.ackSent = (paired 2 1 [] (fun h => { h with ackSent := 4 })).hrn.seqRx) ∧
    live.hrn.unacked = [] ∧
    (∀ n ∈ [7, 8], let s := paired 2 1 [] (fun h => { h with unacked := [(3, zeros 64, n, some (0, 77))] })
      s.hrn.unacked = (3, zeros 64, n, some (0, 77)) :: [] ∧ hrnRole s ≠ 0) ∧
    (∀ p ∈ [false, true], let s := paired 3 2 [] (fun h => { h with paired := p, takeover := some (.journalling, 0) })
      s.hrn.takeover = some (.journalling, 0) ∧ s.hrn.paired = p) ∧
    (let s := paired 3 2 [(Reg.CHN_HRN_STATUS, 3 + 32 + 8), (Reg.KPR_TAKEOVER, 7)]
     Served s Reg.CHN_HRN_CMD ∧ takeoverCode 1 s = 0 ∧ Served (paired 3 2) Reg.CHN_HRN_CMD ∧
     takeoverCode 1 (paired 3 2) ≠ 0) ∧
    (∀ x ∈ [(1, 0), (1, 1), (1, 2), (2, 1)], let s := paired x.1 x.2 [] (fun h => { h with paired := false })
      (pairState s = 1 ∧ s.hrn.paired = false ∧ (claim s = 1 ∨ (claim s = 0 ∧ hrnRole s = 1))) ↔ x.1 = 1 ∧ x.2 ≠ 2) := by
  unfold Served
  have h : ∀ x ∈ [(2, 1), (3, 2)], orders 0x30 (paired x.1 x.2) = true ∧ pairState (paired x.1 x.2) = x.1 := by decide +kernel
  have g : ∀ t ∈ [some (TakeoverPhase.asked, 7), some (.journalling, 7), none],
      let s := paired 3 2 [] (fun h => { h with takeover := t })
      orders 0x31 s = true ∧ s.hrn.takeover = t := by decide +kernel
  refine ⟨fun x hx => ⟨carries (h x hx).1 _, (h x hx).2⟩, fun t ht => ⟨carries (g t ht).1 _, (g t ht).2⟩,
    ?_, ?_, ?_, ?_, fun n _ => ⟨rfl, (by decide +kernel : hrnRole (paired 2 1) ≠ 0)⟩, ?_, ?_, ?_⟩ <;> decide +kernel

end Sys2Proof.Tests
end

section
/-! SUPPORT. Bits of a number after one of its fields is replaced, and the frames `OnlyRegs` and `OnlyHost`: how they
compose, and that the register writes, vectors and event records that every chapter shares stay in them. -/

namespace Sys2Proof.Machine

/-! ## Bits -/

theorem testBit_field (v lsb len n : Nat) :
    (field v lsb len).testBit n = (decide (n < len) && v.testBit (lsb + n)) := by
  rw [field, Nat.testBit_mod_two_pow, Nat.testBit_shiftRight]

/-- A bit outside the replaced field stays. -/
theorem testBit_putField_out (v lsb len x : Nat) {n : Nat} (h : n < lsb ∨ lsb + len ≤ n) :
    (putField v lsb len x).testBit n = v.testBit n := by
  rcases h with h | h
  · have low := congrArg (fun w => w.testBit n) (putField_mod_low v lsb len x)
    simpa [Nat.testBit_mod_two_pow, h] using low
  · have high := congrArg (fun w => w.testBit (n - (lsb + len))) (putField_div_high v lsb len x)
    simpa [Nat.testBit_div_two_pow, Nat.sub_add_cancel h] using high

/-- A bit inside the replaced field is that of the new value. -/
theorem testBit_putField_in (v lsb len x : Nat) {n : Nat} (h : n < len) :
    (putField v lsb len x).testBit (lsb + n) = x.testBit n := by
  have same := testBit_field (putField v lsb len x) lsb len n
  rw [field_putField_same, Nat.testBit_mod_two_pow] at same
  simpa [h] using same.symm

/-! ## Frames: registers only -/

section
variable {l : List Nat} {s t u : State}

theorem OnlyRegs.refl (l : List Nat) (s : State) : OnlyRegs l s s := ⟨fun _ _ => rfl, rfl⟩

theorem onlyRegs_fresh : OnlyRegs l s s.fresh := ⟨fun _ _ => rfl, rfl⟩

theorem OnlyRegs.trans (h : OnlyRegs l s t) (k : OnlyRegs l t u) : OnlyRegs l s u := by
  obtain ⟨hr, he⟩ := h
  obtain ⟨kr, ke⟩ := k
  exact ⟨fun a ha => (kr a ha).trans (hr a ha), ke.trans (by rw [he])⟩

theorem onlyRegs_wr {a : Nat} (v : Nat) (h : a ∈ l) : OnlyRegs l s (s.wr a v) :=
  ⟨fun _ hb => State.rd_wr_ne s v (ne_of_mem_of_not_mem h hb).symm, rfl⟩

theorem onlyRegs_wrF {a : Nat} (p n v : Nat) (h : a ∈ l) : OnlyRegs l s (s.wrF a p n v) := onlyRegs_wr _ h

theorem onlyRegs_setBit {a : Nat} (n : Nat) (b : Bool) (h : a ∈ l) : OnlyRegs l s (s.setBit a n b) := onlyRegs_wr _ h

theorem onlyRegs_emit (o : Output) : OnlyRegs l s (s.emit o) := ⟨fun _ _ => rfl, rfl⟩

theorem onlyRegs_wrBytes {a : Nat} {bs : Bytes} (h : ∀ i < bs.length / 4, a + 4 * i ∈ l) :
    OnlyRegs l s (s.wrBytes a bs) :=
  List.foldlRecOn _ _ (OnlyRegs.refl l s) fun _ ht i hi => ht.trans (onlyRegs_wr _ (h i (List.mem_range.mp hi)))

theorem OnlyRegs.pat (h : OnlyRegs l s t) : t.pat = s.pat := by rw [h.2]
theorem OnlyRegs.key (h : OnlyRegs l s t) : t.key = s.key := by rw [h.2]

/-! ## Frames: the host interface -/

theorem OnlyHost.refl (l : List Nat) (s : State) : OnlyHost l s s := ⟨fun _ _ _ => rfl, rfl⟩

theorem OnlyHost.trans (h : OnlyHost l s t) (k : OnlyHost l t u) : OnlyHost l s u := by
  obtain ⟨hr, he⟩ := h
  obtain ⟨kr, ke⟩ := k
  exact ⟨fun a hi ha => (kr a hi ha).trans (hr a hi ha), ke.trans (by rw [he])⟩

theorem onlyHost_wr {a : Nat} (v : Nat) (h : hostIfReg a = true) : OnlyHost l s (s.wr a v) :=
  ⟨fun b hb _ => State.rd_wr_ne s v fun e => by simp [e, h] at hb, rfl⟩

theorem onlyHost_setBit {a : Nat} (n : Nat) (b : Bool) (h : hostIfReg a = true) : OnlyHost l s (s.setBit a n b) :=
  onlyHost_wr _ h

theorem onlyHost_bump {a : Nat} (n : Nat) (h : hostIfReg a = true) : OnlyHost l s (s.bump a n) := onlyHost_wr _ h

theorem onlyHost_emit (o : Output) : OnlyHost l s (s.emit o) := ⟨fun _ _ _ => rfl, rfl⟩

theorem onlyHost_hif (f : HostIf) : OnlyHost l s { s with hif := f } := ⟨fun _ _ _ => rfl, rfl⟩

theorem OnlyHost.rd {a : Nat} (h : OnlyHost [] s t) (ha : hostIfReg a = false) : t.rd a = s.rd a :=
  h.1 a ha (List.not_mem_nil)

theorem OnlyHost.pat (h : OnlyHost l s t) : t.pat = s.pat := by rw [h.2]
theorem OnlyHost.key (h : OnlyHost l s t) : t.key = s.key := by rw [h.2]

theorem hostIfReg_irqPba (i : Nat) : hostIfReg (Reg.IRQ_PBA i) = true := by
  have lo : 0x8000 ≤ Reg.IRQ_PBA i := by unfold Reg.IRQ_PBA; omega
  have hi : Reg.IRQ_PBA i < 0x10000 := by unfold Reg.IRQ_PBA; omega
  simp [hostIfReg, lo, hi]

/-! ## What vectors and event records leave alone -/

theorem onlyHost_sendVector (v : Nat) : OnlyHost l s (sendVector v s) := by
  unfold sendVector
  split
  · exact onlyHost_emit _
  · exact onlyHost_setBit _ _ (hostIfReg_irqPba _)

/-- A moderated vector is off, held off, sent, or sent with a holdoff started (R420). -/
theorem onlyHost_moderated (v : Nat) (off held : Bool) (single : Prop) [Decidable single] (dirty started : HostIf) :
    OnlyHost l s (if off then s else if held then { s with hif := dirty }
      else if single then sendVector v s else { sendVector v s with hif := started }) := by
  split
  · exact OnlyHost.refl l s
  split
  · exact onlyHost_hif _
  split
  · exact onlyHost_sendVector v
  · exact (onlyHost_sendVector v).trans (onlyHost_hif _)

theorem onlyHost_raiseVector (v : Nat) : OnlyHost l s (raiseVector v s) := by
  unfold raiseVector
  split
  · exact onlyHost_moderated 1 ..
  split
  · exact onlyHost_moderated 2 ..
  · exact onlyHost_sendVector v

theorem onlyHost_eqWrite (src kind p0 p1 p2 p3 : Nat) : OnlyHost l s (eqWrite src kind p0 p1 p2 p3 s) :=
  (onlyHost_emit _).trans <| (onlyHost_wr _ (by decide)).trans <| (onlyHost_hif _).trans <|
    onlyHost_setBit _ _ (by decide)

theorem onlyHost_eqOverflow : OnlyHost l s (eqOverflow s) := by
  unfold eqOverflow
  split
  · exact onlyHost_eqWrite ..
  · exact OnlyHost.refl l s

theorem onlyHost_eqLose : OnlyHost l s (eqLose s) := by
  have counted : OnlyHost l s (s.bump Reg.HIF_EQ_LOST) := onlyHost_bump _ (by decide)
  unfold eqLose
  split
  · exact counted.trans (onlyHost_hif _)
  · exact counted

/-- Posting an event, or losing it, changes nothing beside the host interface (R426, R428). -/
theorem onlyHost_evqPost (src kind p0 p1 p2 p3 : Nat) : OnlyHost l s (evqPost src kind p0 p1 p2 p3 s) := by
  refine onlyHost_eqOverflow.trans (.trans ?_ (onlyHost_raiseVector 1))
  split
  · exact onlyHost_eqWrite ..
  · exact onlyHost_eqLose

end

end Sys2Proof.Machine
end

section
/-! SUPPORT. Host writes by access type and clearing reads. -/

namespace Sys2Proof.Machine

/-! ## Writes by access type (R7, R12) -/

section
variable (v old : Nat) (f : RegField)

/-- A field of type RW or RWS takes a legal value and ignores a reserved one. -/
theorem fieldWrite_stored (h : f.acc = .rw ∨ f.acc = .rws) :
    fieldWrite v old f =
      if f.legal.ok (field v f.lsb f.width) then putField old f.lsb f.width (field v f.lsb f.width) else old := by
  rcases h with h | h <;> simp [fieldWrite, h]

theorem fieldWrite_w1c (h : f.acc = .w1c) :
    fieldWrite v old f = putField old f.lsb f.width
      (field old f.lsb f.width &&& (2 ^ f.width - 1 - field v f.lsb f.width)) := by
  simp [fieldWrite, h]

theorem fieldWrite_w1s (h : f.acc = .w1s) :
    fieldWrite v old f = putField old f.lsb f.width (field old f.lsb f.width ||| field v f.lsb f.width) := by
  simp [fieldWrite, h]

theorem fieldWrite_unstored (h : f.acc = .ro ∨ f.acc = .wo ∨ f.acc = .rwl ∨ f.acc = .rc) :
    fieldWrite v old f = old := by
  rcases h with h | h | h | h <;> simp [fieldWrite, h]

/-- Whatever its type, a field's write replaces that field or nothing. -/
theorem fieldWrite_cases : fieldWrite v old f = old ∨ ∃ x, fieldWrite v old f = putField old f.lsb f.width x := by
  cases h : f.acc
  case rw | rws =>
    rw [fieldWrite_stored v old f (by simp [h])]
    split
    · exact .inr ⟨_, rfl⟩
    · exact .inl rfl
  case w1c => exact .inr ⟨_, fieldWrite_w1c v old f h⟩
  case w1s => exact .inr ⟨_, fieldWrite_w1s v old f h⟩
  case ro | wo | rwl | rc => exact .inl (fieldWrite_unstored v old f (by simp [h]))

theorem testBit_fieldWrite_out {n : Nat} (h : n < f.lsb ∨ f.lsb + f.width ≤ n) :
    (fieldWrite v old f).testBit n = old.testBit n := by
  rcases fieldWrite_cases v old f with e | ⟨x, e⟩
  · rw [e]
  · rw [e, testBit_putField_out _ _ _ _ h]

theorem testBit_fieldWrite_w1c (h : f.acc = .w1c) {n : Nat} (hn : n < f.width) :
    (fieldWrite v old f).testBit (f.lsb + n) = (old.testBit (f.lsb + n) && !v.testBit (f.lsb + n)) := by
  have mask : (2 ^ f.width - 1 - field v f.lsb f.width).testBit n = !v.testBit (f.lsb + n) := by
    rw [Nat.sub_sub, Nat.add_comm 1, Nat.testBit_two_pow_sub_succ (field_lt ..), testBit_field]
    simp [hn]
  rw [fieldWrite_w1c v old f h, testBit_putField_in _ _ _ _ hn, Nat.testBit_and, mask, testBit_field]
  simp [hn]

theorem testBit_fieldWrite_w1s (h : f.acc = .w1s) {n : Nat} (hn : n < f.width) :
    (fieldWrite v old f).testBit (f.lsb + n) = (old.testBit (f.lsb + n) || v.testBit (f.lsb + n)) := by
  rw [fieldWrite_w1s v old f h, testBit_putField_in _ _ _ _ hn, Nat.testBit_or, testBit_field, testBit_field]
  simp [hn]

end

/-- A plain register lies in the blocks GLB, PAT, KEY, PWR and DBG and is none of their four with a rule of its own. -/
theorem plainReg_iff {a : Nat} : plainReg a = true ↔
    (a < 0x4000 ∨ (0x10000 ≤ a ∧ a < 0x20000) ∨ (0x140000 ≤ a ∧ a < 0x180000) ∨ (0x340000 ≤ a ∧ a < 0x3C0000)) ∧
    a ≠ Reg.PAT_CTRL ∧ a ≠ Reg.PAT_BOOT ∧ a ≠ Reg.PWR_FW_CTRL ∧ a ≠ Reg.DBG_TRACE_CTRL := by
  simp [plainReg, or_assoc, and_assoc]

theorem plainReg_lt {a : Nat} (h : plainReg a = true) : a < 0x3C0000 := by
  obtain ⟨block, -⟩ := plainReg_iff.mp h
  omega

theorem writeRegister_plain {a : Nat} (h : plainReg a = true) (v : Nat) (s : State) :
    writeRegister a v s = plainWrite a v s := by
  obtain ⟨block, hctrl, hboot, hfw, htrace⟩ := plainReg_iff.mp h
  rw [writeRegister, if_neg hctrl, if_neg hboot, if_neg hfw, if_neg htrace]
  rcases block with h | h | h | h
  · rw [if_pos h]
  · rw [if_neg (by omega), if_neg (by omega), if_pos h.2]
  · iterate 7 rw [if_neg (by omega)]
    rw [if_pos h.2]
  · iterate 15 rw [if_neg (by omega)]
    rw [if_pos h.2]

theorem registerWrite_plain {a : Nat} (h : plainReg a = true) (ha : a % 4 = 0) (v : Nat) :
    registerWrite a v = hostWrite a (plainWrite a v) := by
  have lt := plainReg_lt h
  funext s
  rw [registerWrite, if_neg (by omega), if_neg (by omega), if_neg (by omega), funext (writeRegister_plain h v)]

theorem onlyRegs_plainWrite (a v : Nat) (s : State) : OnlyRegs [a] s (plainWrite a v s) :=
  onlyRegs_wr _ (List.mem_singleton_self a)

/-- Settles O6: the write of a plain register is `plainWrite`, whose fold over the fields applies `fieldWrite`; each
access type's effect on the bits of its field is a lemma of its own. -/
theorem registerWriteActsByAccessType : Obligations.RegisterWriteActsByAccessType := by
  refine ⟨fun s a v hs ha hp => ?_, fun v old f => ⟨?_, ?_, ?_, ?_, ?_, ?_⟩⟩
  · refine answers_hostWrite hs (congrArg (fun g => powered g s) (registerWrite_plain hp ha v.toNat)) ⟨?_, ?_⟩
    · exact State.rd_wr_same ..
    · exact onlyRegs_fresh.trans (onlyRegs_plainWrite ..)
  · intro hacc hok
    rw [fieldWrite_stored v old f hacc, if_pos hok, field_putField_same, Nat.mod_eq_of_lt (field_lt ..)]
  · intro hacc hbad
    rw [fieldWrite_stored v old f hacc, if_neg (by simp [hbad])]
  · exact fun hacc n hn => testBit_fieldWrite_w1c v old f hacc hn
  · exact fun hacc n hn => testBit_fieldWrite_w1s v old f hacc hn
  · exact fieldWrite_unstored v old f
  · exact fun n hn => testBit_fieldWrite_out v old f hn

/-! ## Clearing reads (R9) -/

theorem hostRead_served {a : Nat} {f : State → State} {s : State} (h : hostServed s = true) (g : gatedAt s a = false) :
    hostRead a f s = pmcCount 0x0D00 0xFF 1 (f s) := by simp [hostRead, h, g]

/-- A served host read answers what its register's rule leaves, the read itself counted (R486). -/
theorem answers_hostRead {i : Instr} {f : State → State} {s : State} {P : State → Prop} {a : Nat} (h : Served s a)
    (e : exec i s = powered (hostRead a f) s) (p : P (pmcCount 0x0D00 0xFF 1 (f s.fresh))) : Answers i s P := by
  obtain ⟨core, served, ungated⟩ := h
  refine answers_powered core e ?_
  rw [hostRead_served (by simpa using served) (by simpa using ungated)]
  exact p

/-- Clearing a list of fields clears every bit that one of them covers. -/
theorem testBit_clearFields (fs : List RegField) (m n : Nat) :
    (fs.foldl (fun m f => putField m f.lsb f.width 0) m).testBit n =
      (m.testBit n && !fs.any (fun f => decide (f.lsb ≤ n) && decide (n < f.lsb + f.width))) := by
  induction fs generalizing m with
  | nil => simp
  | cons f fs ih =>
    rw [List.foldl_cons, ih, List.any_cons]
    by_cases h : f.lsb ≤ n ∧ n < f.lsb + f.width
    · obtain ⟨k, rfl⟩ := Nat.exists_eq_add_of_le h.1
      rw [testBit_putField_in _ _ _ _ (by omega)]
      simp [h]
    · rw [testBit_putField_out _ _ _ _ (by omega)]
      have out : (decide (f.lsb ≤ n) && decide (n < f.lsb + f.width)) = false := by simpa using h
      rw [out, Bool.false_or]

/-- The fields of type RC of a register. -/
def rcFields (a : Nat) : List RegField := (regFields a).filter (fun f => f.acc == .rc)

theorem clearingRead_of_rc {a : Nat} (h : hasAcc a .rc = true) (s : State) :
    clearingRead a s = (s.emit (.readData [word (s.rd a)])).wr a
      ((rcFields a).foldl (fun m f => putField m f.lsb f.width 0) (s.rd a)) := by
  have some_rc : (rcFields a).isEmpty = false := by
    simpa [rcFields, hasAcc, List.isEmpty_iff] using h
  rw [clearingRead]
  exact if_neg (by simpa [rcFields] using some_rc)

/-- A clearing read clears the bits of the RC fields and no others. -/
theorem testBit_clearingRead {a : Nat} (h : hasAcc a .rc = true) (s : State) (n : Nat) :
    ((clearingRead a s).rd a).testBit n = ((s.rd a).testBit n &&
      !(regFields a).any (fun f => f.acc == .rc && decide (f.lsb ≤ n) && decide (n < f.lsb + f.width))) := by
  have word_bit : (s.rd a).testBit n = (decide (n < 32) && (s.rd a).testBit n) := by
    rw [← Nat.testBit_mod_two_pow, Nat.mod_eq_of_lt (s.rd_lt a)]
  rw [clearingRead_of_rc h, State.rd_wr_same, Nat.testBit_mod_two_pow, testBit_clearFields, rcFields, List.any_filter,
    ← Bool.and_assoc, ← word_bit]
  simp only [Bool.and_assoc]

theorem onlyRegs_clearingRead {a : Nat} (h : hasAcc a .rc = true) (s : State) :
    OnlyRegs [a] s (clearingRead a s) := by
  rw [clearingRead_of_rc h]
  exact (onlyRegs_emit _).trans (onlyRegs_wr _ (List.mem_singleton_self a))

/-- Settles O9: the read is `clearingRead`, then counted by `pmcCount`; its fold over the RC fields clears their
bits. -/
theorem clearingReadReturnsThenClears : Obligations.ClearingReadReturnsThenClears := by
  intro s a hs hrc
  have row : exec (.counterClearingRead a) s = powered (hostRead a.toNat (clearingRead a.toNat)) s := by
    refine congrArg (fun g => powered g s) (funext fun t => ?_)
    rw [readClearing, if_pos hrc]
  refine answers_hostRead hs row ⟨clearingRead a.toNat s.fresh, rfl, ?_, ?_, ?_⟩
  · rw [clearingRead_of_rc hrc]; rfl
  · exact testBit_clearingRead hrc s.fresh
  · exact onlyRegs_fresh.trans (onlyRegs_clearingRead hrc _)

end Sys2Proof.Machine
end

section
/-! SUPPORT. Pattern operations: what each leaves alone, how one ends, and when a write of PAT_CTRL is acted on. -/

namespace Sys2Proof.Machine

variable {l : List Nat} {s t u : State}

/-! ## STATE, BUSY and RESULT -/

theorem onlyRegs_setPatState (n : Nat) (h : Reg.PAT_STATUS ∈ l) : OnlyRegs l s (setPatState n s) :=
  (onlyRegs_wrF _ _ _ h).trans (onlyRegs_setBit _ _ h)

theorem setPatState_state (n : Nat) : (setPatState n s).rdF Reg.PAT_STATUS 0 3 = n % 8 := by
  rw [setPatState, State.setBit, State.rdF_wrF_off _ _ _ _ _ (by decide) (by decide)]
  exact State.rdF_wrF_same _ _ _ _ _ (by decide)

theorem setPatState_busy (n : Nat) : (setPatState n s).bit Reg.PAT_STATUS 3 = (n == 1 || n == 3 || n == 4) :=
  State.bit_setBit_same _ _ _ _ (by decide)

/-- The state in which the event of an ended operation is posted. -/
def patRested (code : Nat) (s : State) : State := (restState s).wrF Reg.PAT_STATUS 8 8 code

theorem onlyRegs_patRested (code : Nat) : OnlyRegs [Reg.PAT_STATUS] s (patRested code s) :=
  (onlyRegs_setPatState _ (by decide)).trans (onlyRegs_wrF _ _ _ (by decide))

theorem onlyHost_patEnd (op code : Nat) : OnlyHost l (patRested code s) (patEnd op code s) := onlyHost_evqPost ..

@[simp] theorem patEnd_pat (op code : Nat) : (patEnd op code s).pat = s.pat :=
  (onlyHost_patEnd (l := []) op code).pat.trans (onlyRegs_patRested code).pat

@[simp] theorem patEnd_key (op code : Nat) : (patEnd op code s).key = s.key :=
  (onlyHost_patEnd (l := []) op code).key.trans (onlyRegs_patRested code).key

/-- The end of an operation writes PAT_STATUS alone outside the host interface. -/
theorem patEnd_rd {a : Nat} (op code : Nat) (hi : hostIfReg a = false) (ha : a ≠ Reg.PAT_STATUS) :
    (patEnd op code s).rd a = s.rd a :=
  ((onlyHost_patEnd op code).rd hi).trans ((onlyRegs_patRested code).1 a (by simpa using ha))

theorem patEnd_status (op code : Nat) : (patEnd op code s).rd Reg.PAT_STATUS = (patRested code s).rd Reg.PAT_STATUS :=
  (onlyHost_patEnd op code).rd (by decide)

theorem patEnd_result (op code : Nat) : (patEnd op code s).rdF Reg.PAT_STATUS 8 8 = code % 256 := by
  rw [State.rdF, patEnd_status]
  exact State.rdF_wrF_same _ _ _ _ _ (by decide)

theorem patEnd_state (op code : Nat) :
    (patEnd op code s).rdF Reg.PAT_STATUS 0 3 = if s.pat.staged.isSome then 2 else 0 := by
  have rest : (patRested code s).rdF Reg.PAT_STATUS 0 3 = (if s.pat.staged.isSome then 2 else 0) % 8 :=
    (State.rdF_wrF_off _ _ _ _ _ (by decide) (by decide)).trans (setPatState_state _)
  rw [State.rdF, patEnd_status]
  refine rest.trans ?_
  split <;> rfl

theorem patEnd_busy (op code : Nat) : (patEnd op code s).bit Reg.PAT_STATUS 3 = false := by
  have rest : (patRested code s).bit Reg.PAT_STATUS 3 = (restState s).bit Reg.PAT_STATUS 3 := by
    rw [State.bit_eq, State.bit_eq, patRested, State.rdF_wrF_off _ _ _ _ _ (by decide) (by decide)]
  rw [State.bit, patEnd_status]
  refine rest.trans ((setPatState_busy _).trans ?_)
  split <;> rfl

/-! ## The frame of a Pattern operation -/

/-- Outside the host interface at most the registers named, Pattern and vault differ: the frame of `PatEnded`. -/
def PatFrame (l : List Nat) (s u : State) : Prop :=
  CoreRegsBut l s u ∧ u = { s with regs := u.regs, hif := u.hif, pat := u.pat, key := u.key, out := u.out }

theorem PatFrame.trans (h : PatFrame l s t) (k : PatFrame l t u) : PatFrame l s u := by
  obtain ⟨hr, he⟩ := h
  obtain ⟨kr, ke⟩ := k
  exact ⟨fun a hi ha => (kr a hi ha).trans (hr a hi ha), ke.trans (by rw [he])⟩

theorem patFrame_fresh : PatFrame l s s.fresh := ⟨fun _ _ _ => rfl, rfl⟩

theorem patFrame_pat (p : PatState) : PatFrame l s { s with pat := p } := ⟨fun _ _ _ => rfl, rfl⟩

theorem patFrame_putVault (r : VaultRecord) (f : Vault → Vault) : PatFrame l s (s.putVault r f) :=
  ⟨fun _ _ _ => rfl, rfl⟩

theorem OnlyRegs.patFrame (h : OnlyRegs l s t) : PatFrame l s t :=
  ⟨fun a _ ha => h.1 a ha, by rw [h.2]⟩

theorem OnlyHost.patFrame (h : OnlyHost l s t) : PatFrame l s t := ⟨h.1, by rw [h.2]⟩

theorem patFrame_patEnd (op code : Nat) (h : Reg.PAT_STATUS ∈ l) : PatFrame l s (patEnd op code s) :=
  ((onlyRegs_setPatState _ h).trans (onlyRegs_wrF _ _ _ h)).patFrame.trans (onlyHost_patEnd op code).patFrame

/-- An operation that stayed in its frame and ends with a RESULT has ended as `PatEnded` says. -/
theorem patEnded_patEnd {code : Nat} (op : Nat) (hc : code < 256) (h : PatFrame (Reg.PAT_STATUS :: l) s t) :
    PatEnded code l s (patEnd op code t) := by
  have frame : PatFrame (Reg.PAT_STATUS :: l) s (patEnd op code t) := h.trans (patFrame_patEnd op code (by simp))
  refine ⟨?_, ?_, patEnd_busy op code, frame.1, frame.2⟩
  · rw [patEnd_result, Nat.mod_eq_of_lt hc]
  · rw [patEnd_state, patEnd_pat]

/-! ## When a write of PAT_CTRL is acted on -/

theorem patOp_free (f : State → State) (busy : s.bit Reg.PAT_STATUS 3 = false) (ready : fwIsReady s = true) :
    patOp f s = f s := by
  have ready' : s.bit Reg.HIF_STATUS 16 = true := ready
  simp [patOp, busy, ready']

theorem patOp_ignored (f : State → State) (h : s.bit Reg.PAT_STATUS 3 = true ∨ fwIsReady s = false) :
    patOp f s = s.setBit Reg.PAT_STATUS 4 true := by
  have h' : s.bit Reg.PAT_STATUS 3 = true ∨ s.bit Reg.HIF_STATUS 16 = false := h
  rcases h' with h | h <;> simp [patOp, h]

/-- A row that writes PAT_CTRL for the operation `f`. -/
def PatRow (i : Instr) (f : State → State) : Prop :=
  ∀ s, exec i s = powered (hostWrite Reg.PAT_CTRL (patOp f)) s

theorem answers_patRow {i : Instr} {f : State → State} {P : State → Prop} (h : PatFree s) (row : PatRow i f)
    (p : P (f s.fresh)) : Answers i s P := by
  obtain ⟨served, busy, ready⟩ := h
  refine answers_hostWrite served (row s) ?_
  rw [patOp_free f (s := s.fresh) busy ready]
  exact p

/-- A write of OP that is ignored sets OP_IGNORED and nothing else (R66, R430). -/
theorem answers_patRow_ignored {i : Instr} {f : State → State} (served : Served s Reg.PAT_CTRL)
    (h : s.bit Reg.PAT_STATUS 3 = true ∨ fwIsReady s = false) (row : PatRow i f) :
    Answers i s (fun u => u.bit Reg.PAT_STATUS 4 = true ∧ u.rdF Reg.PAT_STATUS 0 4 = s.rdF Reg.PAT_STATUS 0 4 ∧
      OnlyRegs [Reg.PAT_STATUS] s u) := by
  refine answers_hostWrite served (row s) ?_
  rw [patOp_ignored f (s := s.fresh) h]
  refine ⟨?_, ?_, ?_⟩
  · exact State.bit_setBit_same _ _ _ _ (by decide)
  · exact State.rdF_wrF_off _ _ _ _ _ (by decide) (by decide)
  · exact onlyRegs_fresh.trans (onlyRegs_setBit _ _ (by decide))

theorem patCtrl_reserved {op : Nat} (h : 0xB ≤ op) : patCtrl op = patOp id := by
  obtain ⟨k, rfl⟩ := Nat.exists_eq_add_of_le' h
  rfl

theorem patRow_reserved {op : BitVec 4} (h : 0xB ≤ op.toNat) : PatRow (.patReservedOp op) id := by
  have row : patReserved op.toNat = patOp id := by
    rw [← patCtrl_reserved h]
    exact funext fun t => if_pos h
  intro s
  rw [← row]
  rfl

theorem patRow_nop : PatRow .patNop id := fun _ => rfl

/-- Every row of the table that writes OP is a `PatRow`. -/
theorem exists_patRow {i : Instr} (h : i ∈ [Instr.stageWindow, .stageSlotA, .stageSlotB, .apply, .discard, .storeA,
    .storeB, .raiseFloor, .eraseA, .eraseB, .patNop]) : ∃ f, PatRow i f := by
  simp only [List.mem_cons, List.not_mem_nil, or_false] at h
  rcases h with rfl | rfl | rfl | rfl | rfl | rfl | rfl | rfl | rfl | rfl | rfl <;> exact ⟨_, fun _ => rfl⟩

/-! ## DISCARD -/

theorem stgDig_mem {i : Nat} (h : i < 12) : Reg.PAT_STG_DIG 0 + 4 * i ∈ stagedRegs := by
  have e : Reg.PAT_STG_DIG i = Reg.PAT_STG_DIG 0 + 4 * i := by simp [Reg.PAT_STG_DIG, Nat.mod_eq_of_lt h]
  rw [← e]
  simp only [stagedRegs, List.mem_cons]
  exact .inr (.inr (.inr (List.mem_map_of_mem (List.mem_range.mpr h))))

/-- Either nothing was staged or a cut holds what is, or the staged Pattern goes with the registers that show it. -/
theorem abandonStaged_cases (s : State) :
    (abandonStaged s = s ∧ (s.pat.cut.isSome = true ∨ s.pat.staged = none)) ∨
    OnlyRegs stagedRegs { s with pat := { s.pat with staged := none, staging := none, scratchBad := [] } }
      (abandonStaged s) := by
  rw [abandonStaged]
  split
  case isTrue kept =>
    refine .inl ⟨rfl, ?_⟩
    simp only [Bool.or_eq_true, Bool.and_eq_true, Option.isNone_iff_eq_none] at kept
    exact kept.imp_right And.left
  case isFalse =>
    have cleared : ∀ t : State, OnlyRegs stagedRegs t
        (((t.wr Reg.PAT_DIFF 0).wr Reg.PAT_DIFF_SECT 0).wrBytes (Reg.PAT_STG_DIG 0) (zeros 48)) := fun t =>
      (onlyRegs_wr _ (by decide)).trans <| (onlyRegs_wr _ (by decide)).trans <|
        onlyRegs_wrBytes fun i hi => stgDig_mem (by simpa [zeros] using hi)
    right
    dsimp only
    split
    · exact cleared _
    · exact (cleared _).trans (onlyRegs_wrF _ _ _ (by decide))

theorem abandonStaged_staged (h : s.pat.cut = none) : (abandonStaged s).pat.staged = none := by
  rcases abandonStaged_cases s with ⟨e, cut | staged⟩ | gone
  · simp [h] at cut
  · rw [e, staged]
  · rw [gone.pat]

theorem abandonStaged_active : (abandonStaged s).pat.active = s.pat.active := by
  rcases abandonStaged_cases s with ⟨e, -⟩ | gone
  · rw [e]
  · rw [gone.pat]

theorem patFrame_abandonStaged : PatFrame stagedRegs s (abandonStaged s) := by
  rcases abandonStaged_cases s with ⟨e, -⟩ | gone
  · rw [e]; exact (OnlyRegs.refl _ s).patFrame
  · exact (patFrame_pat _).trans gone.patFrame

theorem answers_discard (h : PatFree s) (cut : s.pat.cut = none) :
    Answers .discard s (fun u => u.pat.staged = none ∧ u.pat.active = s.pat.active ∧
      PatEnded 0 (Reg.PAT_DIFF :: Reg.PAT_DIFF_SECT :: (List.range 12).map Reg.PAT_STG_DIG) s u) := by
  refine answers_patRow (f := fun s => patEnd 5 0x00 (abandonStaged s)) h (fun _ => rfl) ⟨?_, ?_, ?_⟩
  · rw [patEnd_pat]; exact abandonStaged_staged cut
  · rw [patEnd_pat]; exact abandonStaged_active
  · exact patEnded_patEnd 5 (by decide) (patFrame_fresh.trans patFrame_abandonStaged)

/-! ## STORE, RAISE_FLOOR and ERASE -/

theorem vaultShut_eq_false (quiet : vaultQuiet s = false) (opened : s.key.vaultOpen = true) : vaultShut s = false := by
  simp [vaultShut, quiet, opened]

/-- STORE of an active Pattern while the vault takes writes, as a row of the table: `i` is the slot. -/
theorem answers_store {i : Nat} {row : Instr} {a : Pattern} (h : PatFree s) (shut : vaultShut s = false)
    (act : s.pat.active = some a) (e : ∀ s, exec row s = powered (hostWrite Reg.PAT_CTRL (patStore i)) s) :
    Answers row s (fun u => u.pat = { s.pat with storing := some i } ∧ u.rdF Reg.PAT_STATUS 0 3 = 4 ∧
      OnlyRegs [Reg.PAT_STATUS] { s with pat := u.pat } u) := by
  refine answers_patRow h e ?_
  have shut' : vaultShut s.fresh = false := shut
  simp only [shut', State.fresh_pat, act, Option.isNone_some, Bool.false_eq_true, if_false]
  refine ⟨rfl, setPatState_state 4, ?_⟩
  exact onlyRegs_fresh.trans (onlyRegs_setPatState 4 (by decide))

theorem answers_raiseFloor {a : Pattern} (h : PatFree s) (shut : vaultShut s = false) (act : s.pat.active = some a) :
    Answers .raiseFloor s (fun u => u.key = (s.putVault .floor (fun v => { v with floor := a.serial })).key ∧
      u.rd Reg.PAT_FLOOR = a.serial % 2 ^ 32 ∧ u.pat = s.pat ∧ PatEnded 0 [Reg.PAT_FLOOR] s u) := by
  have row : PatRow .raiseFloor _ := fun _ => rfl
  refine answers_patRow h row ?_
  have shut' : vaultShut s.fresh = false := shut
  simp only [shut', State.fresh_pat, act, Bool.false_eq_true, if_false]
  refine ⟨patEnd_key .., ?_, patEnd_pat .., patEnded_patEnd 8 (by decide) ?_⟩
  · exact (patEnd_rd _ _ (by decide) (by decide)).trans (State.rd_wr_same ..)
  · exact patFrame_fresh.trans <| (patFrame_putVault ..).trans (onlyRegs_wr _ (by decide)).patFrame

/-- The registers that show the two vault slots. -/
def slotRegs : List Nat := [Reg.PAT_SLOT_INFO 0, Reg.PAT_SLOT_INFO 1, Reg.PAT_SLOT_SERIAL 0, Reg.PAT_SLOT_SERIAL 1]

theorem onlyRegs_syncSlots : OnlyRegs slotRegs s (syncSlots s) := by
  refine List.foldlRecOn _ _ (OnlyRegs.refl _ s) fun t ht i hi => ht.trans ?_
  have two : i = 0 ∨ i = 1 := by
    have := List.mem_range.mp hi
    omega
  have shown : ∀ x y, OnlyRegs slotRegs t ((t.wr (Reg.PAT_SLOT_INFO i) x).wr (Reg.PAT_SLOT_SERIAL i) y) := fun x y =>
    (onlyRegs_wr _ (by rcases two with rfl | rfl <;> decide)).trans
      (onlyRegs_wr _ (by rcases two with rfl | rfl <;> decide))
  split <;> exact shown _ _

/-- A vault slot that is set is written as its record, and shown; nothing else of the key store changes. -/
theorem setSlot_key (i : Nat) (v : VaultSlot) : (setSlot i v s).key =
    (s.putVault (.slot i) (fun t => if i = 0 then { t with slotA := v } else { t with slotB := v })).key :=
  onlyRegs_syncSlots.key

theorem setSlot_pat (i : Nat) (v : VaultSlot) : (setSlot i v s).pat = s.pat := onlyRegs_syncSlots.pat

theorem patFrame_setSlot (i : Nat) (v : VaultSlot) : PatFrame slotRegs s (setSlot i v s) :=
  (patFrame_putVault ..).trans onlyRegs_syncSlots.patFrame

theorem PatFrame.cons (r : Nat) (h : PatFrame l s t) : PatFrame (r :: l) s t :=
  ⟨fun a hi ha => h.1 a hi fun ml => ha (List.mem_cons_of_mem r ml), h.2⟩

/-- ERASE while the vault takes writes, as a row of the table: `i` is the slot. -/
theorem answers_erase {i : Nat} {row : Instr} {f : Vault → Vault} (h : PatFree s) (shut : vaultShut s = false)
    (e : ∀ s, exec row s = powered (hostWrite Reg.PAT_CTRL (patErase i)) s)
    (hf : ∀ v : Vault, (if i = 0 then { v with slotA := .empty } else { v with slotB := .empty }) = f v) :
    Answers row s (fun u => u.key = (s.putVault (.slot i) f).key ∧ u.pat = s.pat ∧ PatEnded 0 slotRegs s u) := by
  refine answers_patRow h e ?_
  have shut' : vaultShut s.fresh = false := shut
  simp only [shut', Bool.false_eq_true, if_false]
  refine ⟨?_, ?_, patEnded_patEnd (9 + i) (by decide) (patFrame_fresh.trans ((patFrame_setSlot i _).cons _))⟩
  · rw [patEnd_key, setSlot_key, funext hf]
    rfl
  · exact (patEnd_pat ..).trans (setSlot_pat ..)

/-! ## The end of a STORE -/

/-- A slot write that verifies, for the active Pattern, with the vault open. -/
theorem storingComplete_verified {i : Nat} {a : Pattern} (sto : s.pat.storing = some i)
    (opened : s.key.vaultOpen = true) (act : s.pat.active = some a) : storingComplete true s =
      patEnd (6 + i) 0x00
        (setSlot i (.full a.container a.signed) { s with pat := { s.pat with storing := none } }) := by
  simp [storingComplete, sto, act, opened]

/-- One that does not verify leaves the slot as it was (R68). -/
theorem storingComplete_failed {i : Nat} {a : Pattern} (sto : s.pat.storing = some i)
    (opened : s.key.vaultOpen = true) (act : s.pat.active = some a) : storingComplete false s =
      patEnd (6 + i) 0x53 { s with pat := { s.pat with storing := none } } := by
  simp [storingComplete, sto, act, opened]

theorem answers_storingComplete_verified {i : Nat} {a : Pattern} (core : coreRuns s = true)
    (sto : s.pat.storing = some i) (opened : s.key.vaultOpen = true) (act : s.pat.active = some a) :
    Answers (.storingComplete true) s (fun u =>
      (if i = 0 then u.key.vault.slotA else u.key.vault.slotB) = .full a.container a.signed ∧
      u.pat.storing = none ∧ u.rdF Reg.PAT_STATUS 8 8 = 0) := by
  refine answers_powered core (f := storingComplete true) rfl ?_
  rw [storingComplete_verified (s := s.fresh) sto opened act]
  refine ⟨?_, ?_, ?_⟩
  · simp only [patEnd_key, setSlot_key]
    by_cases h : i = 0 <;> simp [h, State.putVault]
  · rw [patEnd_pat, setSlot_pat]
  · rw [patEnd_result]

theorem answers_storingComplete_failed {i : Nat} {a : Pattern} (core : coreRuns s = true)
    (sto : s.pat.storing = some i) (opened : s.key.vaultOpen = true) (act : s.pat.active = some a) :
    Answers (.storingComplete false) s (fun u => u.key = s.key ∧ u.pat.storing = none ∧ PatEnded 0x53 [] s u) := by
  refine answers_powered core (f := storingComplete false) rfl ?_
  rw [storingComplete_failed (s := s.fresh) sto opened act]
  refine ⟨?_, ?_, patEnded_patEnd _ (by decide) (patFrame_fresh.trans (patFrame_pat _))⟩
  · rw [patEnd_key, State.fresh_key]
  · rw [patEnd_pat]

/-- Settles O17, clause by clause: DISCARD, the vault operations, the two ends of a STORE, the values without an
operation, and the writes that are ignored. -/
theorem patternSlotsAndFloor : Obligations.PatternSlotsAndFloor := by
  intro s a
  refine ⟨answers_discard, fun h quiet opened act => ?_, fun i core sto opened act => ⟨?_, ?_⟩, fun h => ⟨?_, ?_⟩,
    fun served busy => ⟨?_, ?_⟩⟩
  · have shut := vaultShut_eq_false quiet opened
    refine ⟨answers_store h shut act fun _ => rfl, answers_store h shut act fun _ => rfl,
      answers_raiseFloor h shut act, ?_, ?_⟩
    · exact answers_erase h shut (fun _ => rfl) fun _ => rfl
    · exact answers_erase h shut (fun _ => rfl) fun _ => rfl
  · exact answers_storingComplete_verified core sto opened act
  · exact answers_storingComplete_failed core sto opened act
  · exact answers_patRow h patRow_nop rfl
  · exact fun op hop => answers_patRow h (patRow_reserved hop) rfl
  · intro i hi
    obtain ⟨f, row⟩ := exists_patRow hi
    exact answers_patRow_ignored served busy row
  · exact fun op hop => answers_patRow_ignored served busy (patRow_reserved hop)

end Sys2Proof.Machine
end

section
/-! SUPPORT. What posting an event or raising a vector leaves of the host interface itself, and what counting leaves
of everything that carries frames. -/

namespace Sys2Proof.Machine

variable {s t u : State}

/-! ## Vectors and event records (R419, R420, R426, R428) -/

/-- The registers that posting an event or raising a vector writes. -/
def postedRegs : List Nat := [Reg.HIF_EQ_TAIL, Reg.HIF_EQ_STATUS, Reg.HIF_EQ_LOST, Reg.IRQ_PBA 0, Reg.IRQ_PBA 1]

/-- A frame sent on a port. -/
def isFrameOut : Output → Bool
  | .frameOut _ _ _ => true
  | _ => false

/-- Only registers of event records and Pending Bits are written, a Pending Bit once set stays, outputs join those there
and are no frames, and beside the host interface's own state nothing changes; an owed FW_READY record stays owed. -/
structure Posts (s u : State) : Prop where
  regs : RegsBut postedRegs s u
  pending : ∀ i n, s.bit (Reg.IRQ_PBA i) n = true → u.bit (Reg.IRQ_PBA i) n = true
  out : ∀ o ∈ s.out, o ∈ u.out
  frames : ∀ o ∈ u.out, isFrameOut o = true → o ∈ s.out
  owed : u.hif.fwReadyOwed = s.hif.fwReadyOwed
  rest : u = { s with regs := u.regs, hif := u.hif, out := u.out }

theorem Posts.refl (s : State) : Posts s s :=
  ⟨fun _ _ => rfl, fun _ _ h => h, fun _ h => h, fun _ h _ => h, rfl, rfl⟩

theorem Posts.trans (h : Posts s t) (k : Posts t u) : Posts s u where
  regs a ha := (k.regs a ha).trans (h.regs a ha)
  pending i n b := k.pending i n (h.pending i n b)
  out o ho := k.out o (h.out o ho)
  frames o ho f := h.frames o (k.frames o ho f) f
  owed := k.owed.trans h.owed
  rest := k.rest.trans (by rw [h.rest])

theorem Posts.ite {c : Prop} [Decidable c] (h : Posts s t) (k : Posts s u) : Posts s (if c then t else u) := by
  split
  · exact h
  · exact k

/-- A bit that is set stays so when any bit is set. -/
theorem State.bit_setBit_true (s : State) {a b n m : Nat} (hn : n < 32) (h : s.bit a m = true) :
    (s.setBit b n true).bit a m = true := by
  by_cases ha : a = b
  · subst ha
    by_cases hm : m = n
    · rw [hm, State.bit_setBit_same _ _ _ _ hn]
    · rw [State.bit_setBit_off _ _ _ _ _ hn hm, h]
  · rw [State.bit_setBit_ne _ _ _ _ ha, h]

theorem posts_wr {a : Nat} (v : Nat) (h : a ∈ [Reg.HIF_EQ_TAIL, Reg.HIF_EQ_STATUS, Reg.HIF_EQ_LOST]) :
    Posts s (s.wr a v) where
  regs b hb := State.rd_wr_ne s v (ne_of_mem_of_not_mem (List.mem_append_left _ h) hb).symm
  pending i n b := by
    have hif : 0x3C0000 ≤ a := by
      simp only [List.mem_cons, List.not_mem_nil, or_false] at h
      rcases h with rfl | rfl | rfl <;> decide
    have irq : Reg.IRQ_PBA i ≠ a := by unfold Reg.IRQ_PBA; omega
    rw [State.bit_wr_ne s v n irq, b]
  out _ h := h
  frames _ h _ := h
  owed := rfl
  rest := rfl

theorem posts_setBit {a : Nat} (n : Nat) (b : Bool)
    (h : a ∈ [Reg.HIF_EQ_TAIL, Reg.HIF_EQ_STATUS, Reg.HIF_EQ_LOST]) : Posts s (s.setBit a n b) := posts_wr _ h

theorem irqPba_mem (i : Nat) : Reg.IRQ_PBA i ∈ postedRegs := by
  have two : Reg.IRQ_PBA i = Reg.IRQ_PBA 0 ∨ Reg.IRQ_PBA i = Reg.IRQ_PBA 1 := by unfold Reg.IRQ_PBA; omega
  rcases two with h | h <;> rw [h] <;> decide

theorem posts_pba (i : Nat) {n : Nat} (h : n < 32) : Posts s (s.setBit (Reg.IRQ_PBA i) n true) where
  regs _ ha := State.rd_setBit_ne s n true (ne_of_mem_of_not_mem (irqPba_mem i) ha).symm
  pending _ _ b := State.bit_setBit_true s h b
  out _ h := h
  frames _ h _ := h
  owed := rfl
  rest := rfl

theorem posts_emit {o : Output} (h : isFrameOut o = false) : Posts s (s.emit o) where
  regs _ _ := rfl
  pending _ _ b := b
  out _ h := List.mem_append_left _ h
  frames p hp f := by
    rcases List.mem_append.mp hp with old | new
    · exact old
    · rw [List.mem_singleton.mp new, h] at f
      contradiction
  owed := rfl
  rest := rfl

theorem posts_hif {f : HostIf} (h : f.fwReadyOwed = s.hif.fwReadyOwed) : Posts s { s with hif := f } :=
  ⟨fun _ _ => rfl, fun _ _ b => b, fun _ h => h, fun _ h _ => h, h, rfl⟩

theorem posts_sendVector (v : Nat) : Posts s (sendVector v s) :=
  (posts_emit rfl).ite (posts_pba _ (Nat.mod_lt _ (by decide)))

/-- A vector of its own holdoff is off, held off, sent, or sent with a holdoff started (R420). -/
theorem posts_moderated (v : Nat) (off held : Bool) (single : Prop) [Decidable single] {dirty started : HostIf}
    (hd : dirty.fwReadyOwed = s.hif.fwReadyOwed) (hs : started.fwReadyOwed = (sendVector v s).hif.fwReadyOwed) :
    Posts s (if off then s else if held then { s with hif := dirty }
      else if single then sendVector v s else { sendVector v s with hif := started }) :=
  (Posts.refl s).ite <| (posts_hif hd).ite <| (posts_sendVector v).ite ((posts_sendVector v).trans (posts_hif hs))

theorem posts_raiseVector (v : Nat) : Posts s (raiseVector v s) :=
  (posts_moderated 1 _ _ _ (by rfl) (by rfl)).ite ((posts_moderated 2 _ _ _ (by rfl) (by rfl)).ite (posts_sendVector v))

theorem posts_eqStatus : Posts s (eqStatus s) := posts_setBit _ _ (by decide)

theorem posts_eqWrite (src kind p0 p1 p2 p3 : Nat) : Posts s (eqWrite src kind p0 p1 p2 p3 s) :=
  (posts_emit rfl).trans <| (posts_wr (a := Reg.HIF_EQ_TAIL) _ (by decide)).trans <|
    (posts_hif (by rfl)).trans posts_eqStatus

theorem posts_eqOverflow : Posts s (eqOverflow s) := by
  unfold eqOverflow
  exact (posts_eqWrite ..).ite (.refl s)

theorem posts_eqLose : Posts s (eqLose s) := by
  have counted : Posts s (s.bump Reg.HIF_EQ_LOST) := posts_wr _ (by decide)
  exact (counted.trans (posts_hif (by rfl))).ite counted

theorem posts_evqPost (src kind p0 p1 p2 p3 : Nat) : Posts s (evqPost src kind p0 p1 p2 p3 s) :=
  posts_eqOverflow.trans <| ((posts_eqWrite ..).ite posts_eqLose).trans (posts_raiseVector 1)

theorem posts_evqPostLimited (key src kind p0 p1 p2 p3 : Nat) :
    Posts s (evqPostLimited key src kind p0 p1 p2 p3 s) :=
  ((posts_evqPost ..).trans (posts_hif (by rfl))).ite (.refl s)

theorem posts_setOwed (key : Nat) (o : Option OwedEvent) : Posts s (setOwed key o s) := posts_hif rfl

/-- An owed event is dropped, waits, or is posted, with its vector where it has one. -/
theorem posts_postOwed (key : Nat) : Posts s (postOwed key s) := by
  unfold postOwed
  split
  case h_1 => exact .refl s
  case h_2 o _ =>
    have post : ∀ v src kind p0 p1 p2 p3,
        Posts v (evqPostLimited key src kind p0 p1 p2 p3 (setOwed key none v)) := fun _ _ _ _ _ _ _ =>
      (posts_setOwed key none).trans (posts_evqPostLimited ..)
    refine (posts_setOwed ..).ite <| (Posts.refl s).ite ?_
    refine .trans (.ite ?vector (.refl s)) ((post ..).ite (.refl _))
    exact (posts_raiseVector 6).trans (posts_setOwed ..)

/-! ## Counting (R150, R348, R484 to R486) -/

/-- Only registers, counters, the host interface and the note of what arrives on a port may differ, and no frame was
sent on a port: no frame moved. -/
structure FramesStay (s u : State) : Prop where
  rest : u = { s with regs := u.regs, hif := u.hif, pmc := u.pmc, out := u.out,
                      sch := { s.sch with arriving := u.sch.arriving } }
  frames : ∀ o ∈ u.out, isFrameOut o = true → o ∈ s.out

theorem FramesStay.refl (s : State) : FramesStay s s := ⟨rfl, fun _ h _ => h⟩

theorem FramesStay.trans (h : FramesStay s t) (k : FramesStay t u) : FramesStay s u where
  rest := k.rest.trans (by rw [h.rest])
  frames o ho f := h.frames o (k.frames o ho f) f

theorem Posts.framesStay (h : Posts s t) : FramesStay s t := ⟨by rw [h.rest], h.frames⟩

theorem framesStay_wr (a v : Nat) : FramesStay s (s.wr a v) := ⟨rfl, fun _ h _ => h⟩

theorem FramesStay.ite {c : Prop} [Decidable c] (h : FramesStay s t) (k : FramesStay s u) :
    FramesStay s (if c then t else u) := by
  split
  · exact h
  · exact k

theorem framesStay_pmc (p : PmcState) : FramesStay s { s with pmc := p } := ⟨rfl, fun _ h _ => h⟩

theorem framesStay_raiseEvent (src b p3 : Nat) : FramesStay s (raiseEvent src b p3 s) :=
  (framesStay_wr ..).trans <| ((posts_setOwed ..).trans (posts_postOwed _)).framesStay

theorem framesStay_pmcWrap (n : Nat) : FramesStay s (pmcWrap n s) :=
  (framesStay_wr ..).trans <| (framesStay_wr ..).trans (framesStay_raiseEvent ..)

theorem framesStay_pmcAdd (n w : Nat) : FramesStay s (pmcAdd n w s) := by
  have low : FramesStay s (s.wr (Reg.PMC_CNT n) ((s.rd (Reg.PMC_CNT n) + w) % 2 ^ 32)) := framesStay_wr ..
  have high := fun x => low.trans (framesStay_wr (Reg.PMC_CNT (n + 1)) x)
  exact low.ite <| ((high _).ite ((high _).trans (framesStay_pmcWrap _))).ite (low.trans (framesStay_pmcWrap _))

theorem framesStay_pmcCount (event inst w : Nat) : FramesStay s (pmcCount event inst w s) :=
  List.foldlRecOn _ _ (.refl s) fun t ht n _ =>
    ht.trans <| ((framesStay_pmcAdd n w).ite (framesStay_pmc _)).ite (.refl t)

theorem framesStay_penCount (p off n : Nat) : FramesStay s (penCount p off n s) :=
  (framesStay_wr ..).trans (framesStay_wr ..)

theorem framesStay_countReceived (p : Nat) (frame : Bytes) (e : RxEnd) :
    FramesStay s (countReceived p frame e s) := by
  have runt : FramesStay s (if frame.length < 64 then penCount p 0x18 1 s else s) :=
    (framesStay_penCount ..).ite (.refl s)
  have sized := runt.trans <|
    (framesStay_penCount p 0x20 1).ite (c := frame.length > if p < 32 then 10240 else 10272) (.refl _)
  cases e with
  | notReceived raw => exact sized
  | errorMarker => exact sized.trans (framesStay_penCount ..)
  | terminate =>
    have good := fun n => (sized.trans (framesStay_penCount p 0x00 1)).trans (framesStay_penCount p 0x08 n)
    exact ((good _).trans (framesStay_pmcCount ..)).ite (sized.trans (framesStay_penCount ..))

theorem framesStay_countDiscard (n p : Nat) : FramesStay s (countDiscard n p s) :=
  (framesStay_wr ..).ite (framesStay_penCount ..)

theorem framesStay_arrivalRaw (n p : Nat) (e : RxEnd) : FramesStay s (arrivalRaw n p e s) :=
  (FramesStay.refl s).ite (framesStay_wr ..)

theorem framesStay_tailIn (p : Nat) : FramesStay s (tailIn p s) := ⟨rfl, fun _ h _ => h⟩

/-- A frame that is received is counted on its port before anything else becomes of it. -/
theorem framesStay_received (n p : Nat) (frame : Bytes) (e : RxEnd) :
    FramesStay s (countReceived p frame e (tailIn p (arrivalRaw n p e s))) :=
  (framesStay_arrivalRaw n p e).trans <| (framesStay_tailIn p).trans (framesStay_countReceived p frame e)

/-! ## What stays where no frame moves -/

theorem FramesStay.key (h : FramesStay s t) : t.key = s.key := by rw [h.rest]

theorem FramesStay.fab (h : FramesStay s t) : t.fab = s.fab := by rw [h.rest]

theorem FramesStay.nothingQueued (h : FramesStay s t) : NothingQueued s t := by rw [NothingQueued, h.rest]

theorem FramesStay.lifecycle (h : FramesStay s t) : t.lifecycle = s.lifecycle := by
  rw [State.lifecycle, h.key, State.lifecycle]

end Sys2Proof.Machine
end

section
/-! SUPPORT. Spans that run as Discard: what becomes of a frame that arrives on a port of one. -/

namespace Sys2Proof.Machine

variable {s : State}

/-! ## Admission to a span that runs as Discard (R25, R72, R99) -/

theorem runMode_quarantined (h : s.lifecycle = .quarantined) (n : Nat) : runMode s n = .discard := by
  simp [runMode, allDiscard, h]

theorem awaitsRise_discard {n : Nat} (h : runMode s n = .discard) : awaitsRise s n = false := by
  simp [awaitsRise, h]

theorem sealMode_discard {n : Nat} (h : runMode s n = .discard) (m : Nat) (frame : Bytes) (e : RxEnd) :
    sealMode n m frame e s = countDiscard n m s := by
  simp [sealMode, h]

theorem openMode_discard {n : Nat} (h : runMode s n = .discard) (p : Nat) (frame : Bytes) (e : RxEnd) :
    openMode n p frame e s = countDiscard n p s := by
  simp [openMode, h]

/-! ## Arrivals in Quarantined (R25, R453) -/

/-- A frame on a client port of a Quarantined module is counted and goes no further. -/
theorem framesStay_sealArrival (h : s.lifecycle = .quarantined) {frame : Bytes} (mac : isMacControl frame = false)
    (m : Nat) (e : RxEnd) : FramesStay s (sealArrival m frame e s) := by
  unfold sealArrival
  split
  case h_1 => exact .refl s
  case h_2 n _ =>
    split
    · exact .refl s
    split
    · exact framesStay_arrivalRaw ..
    · have counted := framesStay_received (s := s) n m frame e
      have mode := runMode_quarantined (counted.lifecycle.trans h) n
      dsimp only
      rw [if_neg (by simp [mac])]
      split
      · exact counted
      · rw [if_neg (by simp [awaitsRise_discard mode]), sealMode_discard mode]
        exact counted.trans (framesStay_countDiscard ..)

/-- And so is a frame on a line port. -/
theorem framesStay_openArrival (h : s.lifecycle = .quarantined) (p : Nat) (frame : Bytes) (e : RxEnd) :
    FramesStay s (openArrival p frame e s) := by
  unfold openArrival
  dsimp only
  split
  case h_1 => exact .refl s
  case h_2 n _ =>
    split
    · exact .refl s
    split
    · exact framesStay_arrivalRaw ..
    · have counted := framesStay_received (s := s) n (32 + p) frame e
      have mode := runMode_quarantined (counted.lifecycle.trans h) n
      split
      · exact counted
      · rw [if_neg (by simp [awaitsRise_discard mode]), openMode_discard mode]
        exact counted.trans (framesStay_countDiscard ..)

/-- A command whose effect moves no frame enters no queue and sends none. -/
theorem answers_framesStay {i : Instr} {f : State → State} (core : coreRuns s = true) (e : exec i s = powered f s)
    (h : FramesStay s.fresh (f s.fresh)) :
    Answers i s (fun u => NothingQueued s u ∧ u.fab = s.fab ∧ ∀ p b e, .frameOut p b e ∉ u.out) :=
  answers_powered core e ⟨h.nothingQueued, h.fab, fun _ _ _ sent => List.not_mem_nil (h.frames _ sent rfl)⟩

/-- Settles O27: in Quarantined `runMode` is Discard, before a frame is counted and after, so that its arrival does
nothing but count it. -/
theorem quarantinedSpansDiscard : Obligations.QuarantinedSpansDiscard := by
  intro s n q
  refine ⟨runMode_quarantined q n, fun m frame e core => ⟨fun _ mac => ?_, fun _ => ?_⟩⟩
  · exact answers_framesStay core rfl (framesStay_sealArrival (s := s.fresh) q mac m.val e)
  · exact answers_framesStay core rfl (framesStay_openArrival (s := s.fresh) q m.val frame e)

end Sys2Proof.Machine
end

section
/-! SUPPORT. Resets of the host interface: the registers by address, the bucket locks and the staged Pattern. -/

namespace Sys2Proof.Machine

variable {s t : State}

/-- Two states with one register file read alike. -/
theorem State.rd_of_regs (h : t.regs = s.regs) (a : Nat) : t.rd a = s.rd a := by rw [State.rd, h, State.rd]

/-! ## Registers by address (R432) -/

theorem Tbl.find_filter_not {α : Type} (p : Nat → Bool) (t : Tbl α) (n : Nat) :
    Tbl.find (t.filter (fun e => !p e.1)) n = if p n then none else Tbl.find t n := by
  induction t with
  | nil => simp [Tbl.find]
  | cons e t ih =>
    obtain ⟨k, v⟩ := e
    by_cases hk : k = n
    · subst hk
      cases hp : p k <;> simp [hp, Tbl.find, ih]
    · cases hp : p k <;> simp [hp, Tbl.find, hk, ih]

/-- A register among those reset reads its reset value, and any other what it did. -/
theorem rd_resetRegs (p : Nat → Bool) (a : Nat) :
    (resetRegs p s).rd a = if p a then regReset a % 2 ^ 32 else s.rd a := by
  unfold State.rd resetRegs Tbl.get
  rw [Tbl.find_filter_not]
  cases p a <;> simp [regDflt, word]

theorem hostIfReg_of_interfaceReg {a : Nat} (h : interfaceReg a = true) : hostIfReg a = true := by
  simp only [interfaceReg, hostIfReg, Bool.or_eq_true, Bool.and_eq_true] at h ⊢
  exact h.imp_right fun ⟨⟨⟨range, _⟩, _⟩, _⟩ => range

theorem hostIfReg_of_staged : ∀ a ∈ stagedRegs, hostIfReg a = false := by decide

theorem not_staged_of_hostIfReg {a : Nat} (h : hostIfReg a = true) : a ∉ stagedRegs := fun m => by
  simp [hostIfReg_of_staged a m] at h

/-! ## Bucket locks and the staged Pattern (R67, R290) -/

/-- The classifier with no lock, no shadow and no work waiting. -/
def unlocked (c : ClsState) : ClsState := { c with locks := [], shadows := [], jobs := [] }

/-- Where no work waits for the engine, the release of the locks is all that happens. -/
theorem releaseLocks_of_no_jobs (h : s.cls.jobs = []) : releaseLocks s = { s with cls := unlocked s.cls } := by
  simp [releaseLocks, engineGo, engineRun, unlocked, h]

theorem abandonStaged_rd {a : Nat} (h : a ∉ stagedRegs) : (abandonStaged s).rd a = s.rd a := by
  rcases abandonStaged_cases s with ⟨e, -⟩ | gone
  · rw [e]
  · exact gone.1 a h

theorem abandonStaged_rest : abandonStaged s = { s with
    regs := (abandonStaged s).regs, pat := (abandonStaged s).pat, out := (abandonStaged s).out } := by
  rcases abandonStaged_cases s with ⟨e, -⟩ | gone
  · rw [e]
  · exact gone.2.trans (by rw [gone.pat])

theorem abandonStaged_of_cut (h : s.pat.cut ≠ none) : abandonStaged s = s := by
  rw [abandonStaged, if_pos (by simp [Option.isSome_iff_ne_none.mpr h])]

theorem State.wrBytes_pat (a : Nat) (bs : Bytes) : (s.wrBytes a bs).pat = s.pat :=
  List.foldlRecOn (motive := fun t : State => t.pat = s.pat) _ _ rfl fun _ h _ _ => h

theorem abandonStaged_staging (h : s.pat.cut = none) : (abandonStaged s).pat.staging = none := by
  rw [abandonStaged]
  split
  case isTrue kept =>
    have both : s.pat.staged = none ∧ s.pat.staging = none := by simpa [h] using kept
    exact both.2
  case isFalse =>
    dsimp only
    split <;> simp [State.wrBytes_pat]

/-- The bucket locks go, and a staged Pattern unless a cut has it; nothing else but the registers that show the
Pattern changes (R31, R67, R290). -/
structure Abandons (s u : State) : Prop where
  free : s.pat.cut = none → u.pat.staged = none ∧ u.pat.staging = none
  held : s.pat.cut ≠ none → u.pat = s.pat
  locks : u.cls.locks = []
  regs : RegsBut stagedRegs s u
  rest : u = { s with regs := u.regs, cls := u.cls, pat := u.pat, out := u.out }

theorem abandons (h : s.cls.jobs = []) : Abandons s (abandonStaged (releaseLocks s)) := by
  rw [releaseLocks_of_no_jobs h]
  exact {
    free cut := ⟨abandonStaged_staged cut, abandonStaged_staging cut⟩
    held cut := by rw [abandonStaged_of_cut (s := { s with cls := unlocked s.cls }) cut]
    locks := by rw [abandonStaged_rest]; rfl
    regs a ha := abandonStaged_rd ha
    rest := by rw [abandonStaged_rest] }

/-! ## Resets of the interface (R405, R432) -/

/-- The registers reset, the locks released and the staged Pattern abandoned. -/
def interfaceCleared (s : State) : State := abandonStaged (releaseLocks (resetRegs interfaceReg s))

/-- The interface's own state at its reset values but for a KEYQ operation that runs, which BUSY shows (R424). -/
def interfaceIdle (s : State) : State :=
  { s.setBit Reg.HIF_KQ_STATUS 2 s.hif.kqRun.isSome with hif := { s.hif with
    d3hot := false, kqAccepted := 0, kqMute := s.hif.kqRun.isSome, kqStopping := false, eqConsumed := 0,
    eqLostSince := 0, hold1 := false, hold2 := false, dirty1 := false, dirty2 := false } }

theorem interfaceReset_eq : interfaceReset s = interfaceIdle (interfaceCleared s) := rfl

theorem interfaceIdle_rd_ne {a : Nat} (h : a ≠ Reg.HIF_KQ_STATUS) : (interfaceIdle s).rd a = s.rd a :=
  State.rd_setBit_ne s _ _ h

theorem interfaceIdle_head : (interfaceIdle s).rdF Reg.HIF_KQ_STATUS 16 16 = s.rdF Reg.HIF_KQ_STATUS 16 16 :=
  State.rdF_wrF_off s _ _ _ _ (by decide) (by decide)

theorem interfaceIdle_running : (interfaceIdle s).bit Reg.HIF_KQ_STATUS 0 = s.bit Reg.HIF_KQ_STATUS 0 :=
  State.bit_setBit_off s _ _ _ _ (by decide) (by decide)

theorem abandons_interfaceCleared (h : s.cls.jobs = []) : Abandons (resetRegs interfaceReg s) (interfaceCleared s) :=
  abandons h

theorem interfaceCleared_rd (h : s.cls.jobs = []) {a : Nat} (ha : a ∉ stagedRegs) :
    (interfaceCleared s).rd a = if interfaceReg a then regReset a % 2 ^ 32 else s.rd a :=
  ((abandons_interfaceCleared h).regs a ha).trans (rd_resetRegs ..)

/-- A register of the interface reads its reset value. -/
theorem interfaceCleared_rd_reset (h : s.cls.jobs = []) {a : Nat} (ha : interfaceReg a = true) :
    (interfaceCleared s).rd a = regReset a % 2 ^ 32 := by
  rw [interfaceCleared_rd h (not_staged_of_hostIfReg (hostIfReg_of_interfaceReg ha)), if_pos ha]

theorem interfaceReset_rd_reset (h : s.cls.jobs = []) {a : Nat} (ha : interfaceReg a = true)
    (hk : a ≠ Reg.HIF_KQ_STATUS) : (interfaceReset s).rd a = regReset a % 2 ^ 32 := by
  rw [interfaceReset_eq, interfaceIdle_rd_ne hk, interfaceCleared_rd_reset h ha]

/-- Any other register, those that show the staged Pattern apart, stays. -/
theorem interfaceReset_rd_kept (h : s.cls.jobs = []) {a : Nat} (ha : interfaceReg a = false) (hs : a ∉ stagedRegs) :
    (interfaceReset s).rd a = s.rd a := by
  have hk : a ≠ Reg.HIF_KQ_STATUS := fun e => by rw [e] at ha; exact absurd ha (by decide)
  rw [interfaceReset_eq, interfaceIdle_rd_ne hk, interfaceCleared_rd h hs, if_neg (by simp [ha])]

theorem interfaceReset_kqStatus (h : s.cls.jobs = []) :
    (interfaceReset s).rdF Reg.HIF_KQ_STATUS 16 16 = 0 ∧ (interfaceReset s).bit Reg.HIF_KQ_STATUS 0 = false := by
  have zero : (interfaceCleared s).rd Reg.HIF_KQ_STATUS = 0 :=
    (interfaceCleared_rd_reset h (by decide)).trans (by decide)
  rw [interfaceReset_eq, interfaceIdle_head, interfaceIdle_running, State.rdF, State.bit, zero]
  decide

theorem interfaceReset_abandoned (h : s.cls.jobs = []) :
    (s.pat.cut = none → (interfaceReset s).pat.staged = none ∧ (interfaceReset s).pat.staging = none) ∧
    (s.pat.cut ≠ none → (interfaceReset s).pat = s.pat) ∧ (interfaceReset s).cls.locks = [] :=
  have cleared := abandons_interfaceCleared h
  ⟨cleared.free, cleared.held, cleared.locks⟩

theorem interfaceReset_rest (h : s.cls.jobs = []) : interfaceReset s = { s with
    regs := (interfaceReset s).regs, act := (interfaceReset s).act, hif := (interfaceReset s).hif,
    cls := (interfaceReset s).cls, pat := (interfaceReset s).pat, out := (interfaceReset s).out } := by
  rw [interfaceReset_eq, (abandons_interfaceCleared h).rest]
  rfl

theorem interfaceReset_kqRun (h : s.cls.jobs = []) : (interfaceReset s).hif.kqRun = s.hif.kqRun := by
  rw [interfaceReset_eq, (abandons_interfaceCleared h).rest]
  rfl

end Sys2Proof.Machine
end

section
/-! SUPPORT. Restarts of the firmware: what a restart takes away and what it leaves. -/

namespace Sys2Proof.Machine

variable {s : State}

/-! ## Firmware restarts (R430, R515) -/

/-- The registers that disabling both queues writes. -/
def queueRegs : List Nat := [Reg.HIF_KQ_CTRL, Reg.HIF_EQ_CTRL, Reg.HIF_KQ_STATUS, Reg.HIF_EQ_STATUS]

/-- EN and RUNNING of both queues are 0. -/
def queuesOff (s : State) : State :=
  (((s.setBit Reg.HIF_KQ_CTRL 0 false).setBit Reg.HIF_EQ_CTRL 0 false).setBit Reg.HIF_KQ_STATUS 0 false).setBit
    Reg.HIF_EQ_STATUS 0 false

/-- The queues are off, no doorbell counts and a KEYQ operation that runs will write no completion (R424). -/
def queuesMuted (s : State) : State := { queuesOff s with hif := { s.hif with
  kqMute := s.hif.kqRun.isSome, kqStopping := false, kqAccepted := 0 } }

theorem muteQueues_eq : muteQueues s = eqStatus (queuesMuted s) := rfl

theorem queuesOff_differs : RegsDiffer s (queuesOff s) :=
  (regsDiffer_setBit ..).trans <| (regsDiffer_setBit ..).trans <| (regsDiffer_setBit ..).trans (regsDiffer_setBit ..)

theorem queuesOff_rd {a : Nat} (h : a ∉ queueRegs) : (queuesOff s).rd a = s.rd a := by
  simp only [queueRegs, List.mem_cons, List.not_mem_nil, or_false, not_or] at h
  obtain ⟨kc, ec, ks, es⟩ := h
  rw [queuesOff, State.rd_setBit_ne _ _ _ es, State.rd_setBit_ne _ _ _ ks, State.rd_setBit_ne _ _ _ ec,
    State.rd_setBit_ne _ _ _ kc]

theorem queuesOff_disabled :
    (queuesOff s).bit Reg.HIF_KQ_CTRL 0 = false ∧ (queuesOff s).bit Reg.HIF_EQ_CTRL 0 = false := by
  unfold queuesOff
  constructor
  · rw [State.bit_setBit_ne _ _ _ _ (by decide), State.bit_setBit_ne _ _ _ _ (by decide),
      State.bit_setBit_ne _ _ _ _ (by decide), State.bit_setBit_same _ _ _ _ (by decide)]
  · rw [State.bit_setBit_ne _ _ _ _ (by decide), State.bit_setBit_ne _ _ _ _ (by decide),
      State.bit_setBit_same _ _ _ _ (by decide)]

theorem eqStatus_rd {a : Nat} (h : a ≠ Reg.HIF_EQ_STATUS) : (eqStatus s).rd a = s.rd a :=
  State.rd_setBit_ne s _ _ h

theorem queuesMuted_rd (a : Nat) : (queuesMuted s).rd a = (queuesOff s).rd a :=
  State.rd_of_regs (by rw [queuesMuted]) a

theorem muteQueues_rd {a : Nat} (h : a ≠ Reg.HIF_EQ_STATUS) : (muteQueues s).rd a = (queuesOff s).rd a := by
  rw [muteQueues_eq, eqStatus_rd h, queuesMuted_rd]

theorem muteQueues_rest : ∃ r, muteQueues s = { s with regs := r, hif := (queuesMuted s).hif } := by
  obtain ⟨off, eoff⟩ := queuesOff_differs (s := s)
  obtain ⟨r, er⟩ := regsDiffer_setBit (queuesMuted s) Reg.HIF_EQ_STATUS 1
    ((queuesMuted s).bit Reg.HIF_EQ_CTRL 0 && eqRoom (queuesMuted s) == 0)
  exact ⟨r, by rw [muteQueues_eq, eqStatus, er, queuesMuted, eoff]⟩

theorem muteQueues_kqRun : (muteQueues s).hif.kqRun = s.hif.kqRun := by
  obtain ⟨r, e⟩ := muteQueues_rest (s := s)
  rw [e, queuesMuted]

/-- FW_READY is away and both queues are disabled. -/
def firmwareAway (s : State) : State := muteQueues (s.setBit Reg.HIF_STATUS 16 false)

theorem firmwareAway_rd {a : Nat} (h : a ∉ Reg.HIF_STATUS :: queueRegs) : (firmwareAway s).rd a = s.rd a := by
  have hs : a ≠ Reg.HIF_STATUS := List.ne_of_not_mem_cons h
  have hq : a ∉ queueRegs := List.not_mem_of_not_mem_cons h
  have he : a ≠ Reg.HIF_EQ_STATUS := fun e => hq (by rw [e]; decide)
  rw [firmwareAway, muteQueues_rd he, queuesOff_rd hq, State.rd_setBit_ne _ _ _ hs]

theorem hostIfReg_of_away : ∀ a ∈ Reg.HIF_STATUS :: queueRegs, hostIfReg a = true := by decide

theorem firmwareAway_ready : fwIsReady (firmwareAway s) = false := by
  have same : (firmwareAway s).rd Reg.HIF_STATUS = (s.setBit Reg.HIF_STATUS 16 false).rd Reg.HIF_STATUS := by
    rw [firmwareAway, muteQueues_rd (by decide), queuesOff_rd (by decide)]
  rw [fwIsReady, State.bit, same]
  exact State.bit_setBit_same s _ _ _ (by decide)

theorem firmwareAway_disabled :
    (firmwareAway s).bit Reg.HIF_KQ_CTRL 0 = false ∧ (firmwareAway s).bit Reg.HIF_EQ_CTRL 0 = false := by
  unfold State.bit
  rw [firmwareAway, muteQueues_rd (by decide), muteQueues_rd (by decide)]
  exact queuesOff_disabled

theorem firmwareAway_rest : ∃ r f, firmwareAway s = { s with regs := r, hif := f } := by
  obtain ⟨q, away⟩ := regsDiffer_setBit s Reg.HIF_STATUS 16 false
  obtain ⟨r, mute⟩ := muteQueues_rest (s := s.setBit Reg.HIF_STATUS 16 false)
  exact ⟨r, _, by rw [firmwareAway, mute, away]⟩

/-- A restart that runs absorbs another (R515). -/
theorem firmwareRestart_absorbed (h : s.pwr.fwRestarting = true) : firmwareRestart s = s := by
  simp [firmwareRestart, h]

/-- FW_READY away, both queues disabled, the locks released and the staged Pattern abandoned. -/
def restartCleared (s : State) : State := abandonStaged (releaseLocks (firmwareAway s))

/-- The firmware restarts. -/
def restartBegun (s : State) : State := { s with pwr := { s.pwr with fwRestarting := true } }

theorem restartBegun_rd (s : State) (a : Nat) : (restartBegun s).rd a = s.rd a := rfl
theorem restartBegun_pat (s : State) : (restartBegun s).pat = s.pat := rfl
theorem restartBegun_cls (s : State) : (restartBegun s).cls = s.cls := rfl

theorem firmwareRestart_eq (h : s.pwr.fwRestarting = false) :
    firmwareRestart s = restartBegun (restartCleared s) := by
  simp [firmwareRestart, restartBegun, restartCleared, firmwareAway, h]

theorem abandons_restartCleared (h : s.cls.jobs = []) : Abandons (firmwareAway s) (restartCleared s) := by
  refine abandons ?_
  obtain ⟨r, f, e⟩ := firmwareAway_rest (s := s)
  rw [e, h]

theorem firmwareRestart_begun (idle : s.pwr.fwRestarting = false) : (firmwareRestart s).pwr.fwRestarting = true := by
  rw [firmwareRestart_eq idle, restartBegun]

section
variable (idle : s.pwr.fwRestarting = false) (jobs : s.cls.jobs = [])
include idle jobs

theorem firmwareRestart_rd {a : Nat} (h : a ∉ stagedRegs) : (firmwareRestart s).rd a = (firmwareAway s).rd a := by
  rw [firmwareRestart_eq idle, restartBegun_rd, (abandons_restartCleared jobs).regs a h]

/-- A restart leaves every register but those of both queues, HIF_STATUS and the staged Pattern's. -/
theorem firmwareRestart_rd_kept {a : Nat} (hq : a ∉ Reg.HIF_STATUS :: queueRegs) (hs : a ∉ stagedRegs) :
    (firmwareRestart s).rd a = s.rd a := by
  rw [firmwareRestart_rd idle jobs hs, firmwareAway_rd hq]

theorem firmwareRestart_rd_core {a : Nat} (hi : hostIfReg a = false) (hs : a ∉ stagedRegs) :
    (firmwareRestart s).rd a = s.rd a :=
  firmwareRestart_rd_kept idle jobs (fun m => by simp [hostIfReg_of_away a m] at hi) hs

theorem firmwareRestart_ready : fwIsReady (firmwareRestart s) = false := by
  rw [fwIsReady, State.bit, firmwareRestart_rd idle jobs (by decide)]
  exact firmwareAway_ready

theorem firmwareRestart_disabled :
    (firmwareRestart s).bit Reg.HIF_KQ_CTRL 0 = false ∧ (firmwareRestart s).bit Reg.HIF_EQ_CTRL 0 = false := by
  rw [State.bit, State.bit, firmwareRestart_rd idle jobs (by decide), firmwareRestart_rd idle jobs (by decide)]
  exact firmwareAway_disabled

theorem firmwareRestart_abandoned :
    (s.pat.cut = none → (firmwareRestart s).pat.staged = none ∧ (firmwareRestart s).pat.staging = none) ∧
    (s.pat.cut ≠ none → (firmwareRestart s).pat = s.pat) ∧ (firmwareRestart s).cls.locks = [] := by
  have cleared := abandons_restartCleared jobs
  have pat : (firmwareAway s).pat = s.pat := by
    obtain ⟨r, f, e⟩ := firmwareAway_rest (s := s)
    rw [e]
  rw [firmwareRestart_eq idle, restartBegun_pat, restartBegun_cls, ← pat]
  exact ⟨cleared.free, cleared.held, cleared.locks⟩

theorem firmwareRestart_rest : ∃ r c p o, firmwareRestart s = { s with
    regs := r, hif := (firmwareAway s).hif, cls := c, pat := p, out := o,
    pwr := { s.pwr with fwRestarting := true } } := by
  obtain ⟨r, f, e⟩ := firmwareAway_rest (s := s)
  exact ⟨(restartCleared s).regs, (restartCleared s).cls, (restartCleared s).pat, (restartCleared s).out, by
    rw [firmwareRestart_eq idle, (abandons_restartCleared jobs).rest, e, restartBegun]⟩

theorem firmwareRestart_kqRun : (firmwareRestart s).hif.kqRun = s.hif.kqRun := by
  have away : (firmwareAway s).hif.kqRun = s.hif.kqRun := muteQueues_kqRun.trans (by rw [State.setBit_hif])
  obtain ⟨_, _, _, _, e⟩ := firmwareRestart_rest idle jobs
  rw [e, ← away]

end

end Sys2Proof.Machine
end

section
/-! SUPPORT. The end of a firmware restart: the bank that starts, the error log and the FW_READY record. -/

namespace Sys2Proof.Machine

variable {s : State}

/-! ## The bank that starts (R515) -/

/-- A bank is started. -/
def startBank (b : Nat) (s : State) : State :=
  (({ s with pwr := { s.pwr with fwRecovery := false } } : State).wrF Reg.PWR_FW_STATUS 6 1 b).wr Reg.GLB_FWVER
    (bankVersion s b)

/-- The bank that is preferred. -/
def bankPreferred (s : State) : Nat := s.rdF Reg.PWR_FW_STATUS 7 1

theorem bankPreferred_lt : bankPreferred s < 2 := field_lt ..

theorem bootFirmware_preferred (h : bankValid s (bankPreferred s) = true) :
    bootFirmware true s = startBank (bankPreferred s) s := by
  unfold bankPreferred at h
  simp only [bootFirmware, h, Bool.not_true, Bool.false_eq_true, if_false, if_true]
  rfl

theorem bootFirmware_other (h : bankValid s (bankPreferred s) = false)
    (k : bankValid s (1 - bankPreferred s) = true) : bootFirmware true s = startBank (1 - bankPreferred s) s := by
  unfold bankPreferred at h k
  simp only [bootFirmware, h, k, Bool.not_true, Bool.false_eq_true, if_false, if_true]
  rfl

theorem bootFirmware_recovery (h : bankValid s (bankPreferred s) = false)
    (k : bankValid s (1 - bankPreferred s) = false) :
    bootFirmware true s = ({ s with pwr := { s.pwr with fwRecovery := true } } : State).wr Reg.GLB_FWVER 0 := by
  unfold bankPreferred at h k
  simp only [bootFirmware, h, k, Bool.not_true, Bool.false_eq_true, if_false]

theorem startBank_rd {a : Nat} (b : Nat) (h : a ∉ [Reg.GLB_FWVER, Reg.PWR_FW_STATUS]) :
    (startBank b s).rd a = s.rd a := by
  simp only [List.mem_cons, List.not_mem_nil, or_false, not_or] at h
  exact (State.rd_wr_ne _ _ h.1).trans (State.rd_wrF_ne _ _ _ _ h.2)

theorem startBank_version (b : Nat) : (startBank b s).rd Reg.GLB_FWVER = bankVersion s b % 2 ^ 32 :=
  State.rd_wr_same ..

theorem startBank_running {b : Nat} (h : b < 2) : (startBank b s).rdF Reg.PWR_FW_STATUS 6 1 = b := by
  refine (State.rdF_wr_ne _ _ _ _ (by decide)).trans ((State.rdF_wrF_same _ _ _ _ _ (by decide)).trans ?_)
  exact Nat.mod_eq_of_lt h

theorem startBank_rest (b : Nat) : ∃ r, startBank b s =
    { s with regs := r, pwr := { s.pwr with fwRecovery := false } } := ⟨_, rfl⟩

/-! ## The error log (R419, R429) -/

/-- The error log and its count, before the event and the vector of a logged error (R429). -/
def errorNoted (cause : Nat) (bar2 isWrite : Bool) (addr : Nat) (s : State) : State :=
  (if s.bit Reg.HIF_ERRINFO 31 then s.setBit Reg.HIF_ERRINFO 30 true
    else (s.wr Reg.HIF_ERRADDR addr).wr Reg.HIF_ERRINFO (cause + 16 * b2n bar2 + 32 * b2n isWrite + 2 ^ 31)).bump
      Reg.HIF_ERRCNT

/-- The error record is posted under its rate limit (R427). -/
def errorPosted (cause : Nat) (bar2 isWrite : Bool) (addr : Nat) (s : State) : State :=
  let t := errorNoted cause bar2 isWrite addr s
  hifEvent 1 (t.rd Reg.HIF_ERRADDR) (t.rd Reg.HIF_ERRINFO) t

theorem logError_eq {cause : Nat} (h : cause ≠ 2 ∧ cause ≠ 4) (bar2 isWrite : Bool) (addr : Nat) :
    logError cause bar2 isWrite addr s = sendVector 0 (errorPosted cause bar2 isWrite addr s) := by
  rw [logError]
  exact if_neg (by omega)

theorem posts_logError {cause : Nat} (h : cause ≠ 2 ∧ cause ≠ 4) (bar2 isWrite : Bool) (addr : Nat) :
    Posts (errorNoted cause bar2 isWrite addr s) (logError cause bar2 isWrite addr s) := by
  rw [logError_eq h]
  exact (posts_evqPostLimited ..).trans (posts_sendVector 0)

/-- A vector raised is sent, or its Pending Bit is set (R419). -/
theorem sendVector_sent (v : Nat) :
    .msix v ∈ (sendVector v s).out ∨ (sendVector v s).bit (Reg.IRQ_PBA (v / 32)) (v % 32) = true := by
  unfold sendVector
  split
  · exact .inl (by simp)
  · exact .inr (State.bit_setBit_same _ _ _ _ (Nat.mod_lt _ (by decide)))

/-- The registers of the error log. -/
def errorRegs : List Nat := [Reg.HIF_ERRADDR, Reg.HIF_ERRINFO, Reg.HIF_ERRCNT]

theorem onlyRegs_errorNoted (cause : Nat) (bar2 isWrite : Bool) (addr : Nat) :
    OnlyRegs errorRegs s (errorNoted cause bar2 isWrite addr s) := by
  refine OnlyRegs.trans ?_ (onlyRegs_wr _ (by decide))
  split
  · exact onlyRegs_setBit _ _ (by decide)
  · exact (onlyRegs_wr _ (by decide)).trans (onlyRegs_wr _ (by decide))

theorem errorNoted_count (cause : Nat) (bar2 isWrite : Bool) (addr : Nat) :
    (errorNoted cause bar2 isWrite addr s).rd Reg.HIF_ERRCNT = min (s.rd Reg.HIF_ERRCNT + 1) 0xFFFFFFFF := by
  rw [errorNoted, State.rd_bump_same]
  split
  · rw [State.rd_setBit_ne _ _ _ (by decide)]
  · rw [State.rd_wr_ne _ _ (by decide), State.rd_wr_ne _ _ (by decide)]

/-! ## The FW_READY record (R430) -/

/-- What is owed of an FW_READY record once EVQ has been looked at: it goes out where EVQ is enabled (R430). -/
def owedLeft (v : State) : State := { v with hif := { v.hif with fwReadyOwed := !v.bit Reg.HIF_EQ_CTRL 0 } }

theorem owedLeft_rd (v : State) (a : Nat) : (owedLeft v).rd a = v.rd a := rfl
theorem owedLeft_out (v : State) : (owedLeft v).out = v.out := rfl

theorem posts_postFwReady (h : s.hif.fwReadyOwed = true) : Posts (owedLeft s) (postFwReady s) := by
  unfold postFwReady owedLeft
  cases enabled : s.bit Reg.HIF_EQ_CTRL 0 with
  | false =>
    have same : ({ s.hif with fwReadyOwed := true } : HostIf) = s.hif := by rw [← h]
    simp only [Bool.and_false, Bool.false_eq_true, if_false, Bool.not_false, same]
    exact .refl s
  | true =>
    simp only [h, Bool.and_self, if_true, Bool.not_true]
    exact posts_evqPost ..

/-- A free value has been drawn, and an FW_READY record is owed. -/
def owing (v : State) : State := { v.drawn with hif := { v.drawn.hif with fwReadyOwed := true } }

theorem owing_rd (v : State) (a : Nat) : (owing v).rd a = v.rd a := rfl
theorem owing_out (v : State) : (owing v).out = v.out := rfl

theorem owedLeft_owing (v : State) :
    owedLeft (owing v) = { v with hif := (owedLeft (owing v)).hif, rng := v.rng + 1 } := rfl

/-! ## What follows on the start of a bank (R430, R515) -/

/-- FW_READY is 1 and the restart is counted. -/
def fwCounted (s : State) : State :=
  let s := s.setBit Reg.HIF_STATUS 16 true
  s.wr Reg.HIF_FW_RESTARTS ((s.rd Reg.HIF_FW_RESTARTS + 1) % 2 ^ 32)

/-- The restart is counted and logged; the log names no access, so that its place is a free value. -/
def fwLogged (s : State) : State :=
  let x := Config.freeNat (fwCounted s).rng
  logError 8 (x.testBit 26) (x.testBit 27) (x % 2 ^ 26) (fwCounted s)

/-- What follows on the start of a bank: the log, and the FW_READY record where EVQ is enabled. -/
def fwBack (s : State) : State := postFwReady (owing (fwLogged s))

theorem fwCounted_rd {a : Nat} (hs : a ≠ Reg.HIF_STATUS) (hr : a ≠ Reg.HIF_FW_RESTARTS) :
    (fwCounted s).rd a = s.rd a :=
  (State.rd_wr_ne _ _ hr).trans (State.rd_setBit_ne s _ _ hs)

theorem fwCounted_restarts :
    (fwCounted s).rd Reg.HIF_FW_RESTARTS = (s.rd Reg.HIF_FW_RESTARTS + 1) % 2 ^ 32 := by
  have before : (s.setBit Reg.HIF_STATUS 16 true).rd Reg.HIF_FW_RESTARTS = s.rd Reg.HIF_FW_RESTARTS :=
    State.rd_setBit_ne s _ _ (by decide)
  rw [fwCounted, State.rd_wr_same, before, Nat.mod_mod]

theorem fwCounted_ready : fwIsReady (fwCounted s) = true :=
  (State.bit_wr_ne _ _ _ (by decide)).trans (State.bit_setBit_same s _ _ _ (by decide))

theorem fwCounted_differs : RegsDiffer s (fwCounted s) := (regsDiffer_setBit ..).trans (regsDiffer_wr ..)

/-- The log is written and counted before its event and its vector go out. -/
theorem fwLogged_noted : ∃ d, OnlyRegs errorRegs (fwCounted s) d ∧
    d.rd Reg.HIF_ERRCNT = min (s.rd Reg.HIF_ERRCNT + 1) 0xFFFFFFFF ∧ Posts d (fwLogged s) := by
  refine ⟨_, onlyRegs_errorNoted .., ?_, posts_logError (cause := 8) (by decide) ..⟩
  rw [errorNoted_count, fwCounted_rd (by decide) (by decide)]

theorem fwLogged_rd {a : Nat} (h : a ∉ errorRegs ++ postedRegs) : (fwLogged s).rd a = (fwCounted s).rd a := by
  obtain ⟨d, noted, -, posts⟩ := fwLogged_noted (s := s)
  simp only [List.mem_append, not_or] at h
  exact (posts.regs a h.2).trans (noted.1 a h.1)

theorem fwLogged_count : (fwLogged s).rd Reg.HIF_ERRCNT = min (s.rd Reg.HIF_ERRCNT + 1) 0xFFFFFFFF := by
  obtain ⟨d, -, count, posts⟩ := fwLogged_noted (s := s)
  rw [posts.regs _ (by decide), count]

theorem fwLogged_rest :
    fwLogged s = { s with regs := (fwLogged s).regs, hif := (fwLogged s).hif, out := (fwLogged s).out } := by
  obtain ⟨d, noted, -, posts⟩ := fwLogged_noted (s := s)
  obtain ⟨r, e⟩ := fwCounted_differs (s := s)
  exact posts.rest.trans (by rw [noted.2, e])

theorem fwLogged_sent : .msix 0 ∈ (fwLogged s).out ∨ (fwLogged s).bit (Reg.IRQ_PBA 0) 0 = true := by
  rw [fwLogged, logError_eq (by decide)]
  exact sendVector_sent 0

theorem posts_fwBack : Posts (owedLeft (owing (fwLogged s))) (fwBack s) :=
  posts_postFwReady (s := owing (fwLogged s)) (by rw [owing])

theorem fwBack_rd {a : Nat} (h : a ∉ postedRegs) : (fwBack s).rd a = (fwLogged s).rd a := by
  rw [posts_fwBack.regs a h, owedLeft_rd, owing_rd]

/-- The registers that the end of a restart writes after a bank has been started. -/
def fwBackRegs : List Nat := Reg.HIF_STATUS :: Reg.HIF_FW_RESTARTS :: (errorRegs ++ postedRegs)

theorem hostIfReg_of_fwBack : ∀ a ∈ fwBackRegs, hostIfReg a = true := by decide

theorem fwBack_rd_kept {a : Nat} (h : a ∉ fwBackRegs) : (fwBack s).rd a = s.rd a := by
  simp only [fwBackRegs, List.mem_cons, not_or] at h
  obtain ⟨hs, hr, hl⟩ := h
  rw [fwBack_rd (fun m => hl (List.mem_append_right _ m)), fwLogged_rd hl, fwCounted_rd hs hr]

theorem fwBack_rd_core {a : Nat} (hi : hostIfReg a = false) : (fwBack s).rd a = s.rd a :=
  fwBack_rd_kept fun m => by simp [hostIfReg_of_fwBack a m] at hi

theorem fwBack_ready : fwIsReady (fwBack s) = true := by
  have ready := fwCounted_ready (s := s)
  rw [fwIsReady, State.bit] at ready ⊢
  rw [fwBack_rd (by decide), fwLogged_rd (by decide), ready]

theorem fwBack_restarts : (fwBack s).rd Reg.HIF_FW_RESTARTS = (s.rd Reg.HIF_FW_RESTARTS + 1) % 2 ^ 32 := by
  rw [fwBack_rd (by decide), fwLogged_rd (by decide), fwCounted_restarts]

theorem fwBack_count : (fwBack s).rd Reg.HIF_ERRCNT = min (s.rd Reg.HIF_ERRCNT + 1) 0xFFFFFFFF := by
  rw [fwBack_rd (by decide), fwLogged_count]

theorem fwBack_owed : (fwBack s).hif.fwReadyOwed = !s.bit Reg.HIF_EQ_CTRL 0 := by
  have same : (owing (fwLogged s)).bit Reg.HIF_EQ_CTRL 0 = s.bit Reg.HIF_EQ_CTRL 0 := by
    rw [State.bit, owing_rd, fwLogged_rd (by decide), fwCounted_rd (by decide) (by decide), State.bit]
  rw [posts_fwBack.owed, owedLeft, same]

theorem fwBack_sent : .msix 0 ∈ (fwBack s).out ∨ (fwBack s).bit (Reg.IRQ_PBA 0) 0 = true := by
  rcases fwLogged_sent (s := s) with sent | pends
  · exact .inl (posts_fwBack.out _ (by rwa [owedLeft_out, owing_out]))
  · exact .inr (posts_fwBack.pending 0 0 (by rwa [State.bit, owedLeft_rd, owing_rd]))

theorem fwBack_rest : fwBack s = { s with
    regs := (fwBack s).regs, hif := (fwBack s).hif, rng := s.rng + 1, out := (fwBack s).out } :=
  posts_fwBack.rest.trans (by rw [owedLeft_owing, fwLogged_rest])

/-! ## The end of a restart (R430, R515) -/

/-- The restart no longer runs. -/
def restartEnded (s : State) : State := { s with pwr := { s.pwr with fwRestarting := false } }

theorem fwReady_idle (h : s.pwr.fwRestarting = false) : fwReady s = s := by
  simp [fwReady, h]

theorem fwReady_eq (h : s.pwr.fwRestarting = true) {t : State} (boot : bootFirmware true (restartEnded s) = t) :
    fwReady s = if t.pwr.fwRecovery then t else fwBack t := by
  rw [fwReady, if_neg (by simp [h]), ← boot]
  rfl

theorem fwReady_started {b : Nat} (h : s.pwr.fwRestarting = true)
    (boot : bootFirmware true (restartEnded s) = startBank b (restartEnded s)) :
    fwReady s = fwBack (startBank b (restartEnded s)) := by
  rw [fwReady_eq h boot]
  exact if_neg Bool.false_ne_true

theorem fwReady_recovery (h : s.pwr.fwRestarting = true) {t : State} (boot : bootFirmware true (restartEnded s) = t)
    (k : t.pwr.fwRecovery = true) : fwReady s = t := by
  rw [fwReady_eq h boot, if_pos k]

/-- With no bank valid the module stays in firmware recovery (R515). -/
theorem fwReady_no_bank (h : s.pwr.fwRestarting = true) (p : bankValid s (bankPreferred s) = false)
    (q : bankValid s (1 - bankPreferred s) = false) : fwReady s =
      ({ s with pwr := { s.pwr with fwRestarting := false, fwRecovery := true } } : State).wr Reg.GLB_FWVER 0 :=
  fwReady_recovery h (bootFirmware_recovery (s := restartEnded s) p q) rfl

theorem fwBack_startBank_rest (b : Nat) : ∃ r f o, fwBack (startBank b s) = { s with
    regs := r, hif := f, pwr := { s.pwr with fwRecovery := false }, rng := s.rng + 1, out := o } := by
  obtain ⟨r, e⟩ := startBank_rest (s := s) b
  exact ⟨_, _, _, fwBack_rest.trans (by rw [e])⟩

/-! ## The statement -/

/-- Settles O12, command by command: PERST#, the Function Level Reset and the exit from D3hot are `interfaceReset`, both
ways to restart are `firmwareRestart`, and the end of a restart is `fwReady` with a bank to start or with none. -/
theorem interfaceAndFirmwareResetsKeepTheCore : Obligations.InterfaceAndFirmwareResetsKeepTheCore := by
  intro s core abandoned reset restart p starts
  have hreset : reset (interfaceReset s.fresh) := by
    refine ⟨rfl, rfl, rfl, fun jobs => ?_⟩
    obtain ⟨head, running⟩ := interfaceReset_kqStatus (s := s.fresh) jobs
    exact ⟨interfaceReset_kqRun (s := s.fresh) jobs, fun _ => interfaceReset_rd_reset (s := s.fresh) jobs,
      fun _ => interfaceReset_rd_kept (s := s.fresh) jobs, head, running,
      interfaceReset_abandoned (s := s.fresh) jobs, interfaceReset_rest (s := s.fresh) jobs⟩
  have hrestart : s.pwr.fwRestarting = false → restart (firmwareRestart s.fresh) := by
    intro idle
    refine ⟨firmwareRestart_begun (s := s.fresh) idle, fun jobs => ?_⟩
    obtain ⟨_, _, _, _, e⟩ := firmwareRestart_rest (s := s.fresh) idle jobs
    obtain ⟨keyq, evq⟩ := firmwareRestart_disabled (s := s.fresh) idle jobs
    exact ⟨by rw [e]; rfl, firmwareRestart_kqRun (s := s.fresh) idle jobs,
      firmwareRestart_ready (s := s.fresh) idle jobs, keyq, evq,
      fun _ => firmwareRestart_rd_core (s := s.fresh) idle jobs,
      firmwareRestart_rd_kept (s := s.fresh) idle jobs (by decide) (by decide),
      firmwareRestart_abandoned (s := s.fresh) idle jobs, by rw [e]; rfl⟩
  have hstarts : s.pwr.fwRestarting = true → ∀ b < 2,
      bootFirmware true (restartEnded s.fresh) = startBank b (restartEnded s.fresh) → starts b := by
    intro restarting b hb boot
    refine answers_powered core rfl ?_
    rw [fwReady_started (s := s.fresh) restarting boot]
    obtain ⟨_, _, _, e⟩ := fwBack_startBank_rest (s := restartEnded s.fresh) b
    refine ⟨fwBack_ready, ?_, ?_, ?_, ?_, ?_, ?_, fwBack_sent, ?_, ?_⟩
    · rw [fwBack_restarts, startBank_rd b (by decide)]; rfl
    · rw [fwBack_count, startBank_rd b (by decide)]; rfl
    · rw [fwBack_rd_kept (by decide), startBank_version]; rfl
    · rw [State.rdF, fwBack_rd_kept (by decide)]; exact startBank_running hb
    · rw [fwBack_owed, State.bit, startBank_rd b (by decide)]; rfl
    · rw [e]; rfl
    · exact fun a hi ha => (fwBack_rd_core hi).trans (startBank_rd b ha)
    · rw [e]; rfl
  have busy : s.pwr.fwRestarting = true → firmwareRestart s.fresh = s.fresh :=
    firmwareRestart_absorbed (s := s.fresh)
  refine ⟨answers_powered core rfl hreset, answers_powered core rfl hreset, fun low => ?_, fun high => ?_,
    answers_powered core rfl rfl, fun idle => ⟨?_, ?_⟩, fun restarting => ⟨?_, ?_, fun v => ?_, fun v w => ?_,
      fun v w => ?_⟩, fun idle => ?_⟩
  · exact answers_powered core (f := d3hotLeave) rfl (by rw [d3hotLeave, if_pos (by exact low)]; exact hreset)
  · exact answers_powered core (f := d3hotLeave) rfl (by rw [d3hotLeave, if_neg (by simp [high])])
  · exact answers_powered core rfl (hrestart idle)
  · exact answers_powered core rfl (hrestart idle)
  · exact answers_powered core rfl (busy restarting)
  · exact answers_powered core rfl (busy restarting)
  · exact hstarts restarting _ bankPreferred_lt (bootFirmware_preferred (s := restartEnded s.fresh) v)
  · exact hstarts restarting _ (by omega) (bootFirmware_other (s := restartEnded s.fresh) v w)
  · refine answers_powered core rfl ?_
    rw [fwReady_no_bank (s := s.fresh) restarting v w]
    exact ⟨rfl, State.rd_wr_same .., fun a ha => State.rd_wr_ne _ _ (by simpa using ha), rfl⟩
  · exact answers_powered core rfl (fwReady_idle (s := s.fresh) idle)

end Sys2Proof.Machine
end

section
/-! SUPPORT. Staging a Pattern: the start of a stage operation, the checks on its container, and how each ends. -/

namespace Sys2Proof.Machine

variable {l : List Nat} {s t : State}

/-! ## The start of a stage operation (R65, R66) -/

theorem State.wrBytes_out (a : Nat) (bs : Bytes) : (s.wrBytes a bs).out = s.out :=
  List.foldlRecOn (motive := fun t : State => t.out = s.out) _ _ rfl fun _ h _ _ => h

theorem abandonStaged_out : (abandonStaged s).out = s.out := by
  rw [abandonStaged]
  split
  · rfl
  · dsimp only
    split <;> simp [State.wrBytes_out]

/-- What the start of a stage operation leaves: registers and Pattern alone may differ. -/
theorem stageStart_rest (src len : Nat) : stageStart src len s =
    { s with regs := (stageStart src len s).regs, pat := (stageStart src len s).pat } := by
  have e := abandonStaged_rest (s := s)
  rw [abandonStaged_out] at e
  rw [stageStart, e]
  rfl

/-- A stage operation fetches, with nothing staged, while the block is busy in state 1. -/
theorem stageStart_begun (src len : Nat) (cut : s.pat.cut = none) :
    (stageStart src len s).pat.staging = some src ∧ (stageStart src len s).pat.staged = none ∧
    (stageStart src len s).rdF Reg.PAT_STATUS 0 3 = 1 ∧ (stageStart src len s).bit Reg.PAT_STATUS 3 = true :=
  ⟨rfl, abandonStaged_staged cut, setPatState_state 1, setPatState_busy 1⟩

theorem answers_stageWindow (h : PatFree s) (cut : s.pat.cut = none) (lo : 128 ≤ s.rd Reg.PAT_WIN_LEN)
    (hi : s.rd Reg.PAT_WIN_LEN ≤ 1048576) (aligned : s.rd Reg.PAT_WIN_LO % 64 = 0) :
    Answers .stageWindow s (fun u => u.pat.staging = some 1 ∧ u.pat.staged = none ∧
      u.rdF Reg.PAT_STATUS 0 3 = 1 ∧ u.bit Reg.PAT_STATUS 3 = true ∧
      u.out = [.dmaRead (s.rd Reg.PAT_WIN_LO + 2 ^ 32 * s.rd Reg.PAT_WIN_HI) (s.rd Reg.PAT_WIN_LEN)] ∧
      u = { s with regs := u.regs, pat := u.pat, out := u.out }) := by
  have row : PatRow .stageWindow _ := fun _ => rfl
  have legal : ¬(s.fresh.rd Reg.PAT_WIN_LEN < 128 ∨ 1048576 < s.fresh.rd Reg.PAT_WIN_LEN ∨
      s.fresh.rd Reg.PAT_WIN_LO % 64 ≠ 0) := by
    simp only [State.rd_fresh]
    omega
  refine answers_patRow h row ?_
  simp only [if_neg legal]
  obtain ⟨staging, staged, state, busy⟩ := stageStart_begun (s := s.fresh) 1 (s.fresh.rd Reg.PAT_WIN_LEN) cut
  have rest := stageStart_rest (s := s.fresh) 1 (s.fresh.rd Reg.PAT_WIN_LEN)
  refine ⟨staging, staged, state, busy, ?_, ?_⟩
  · rw [State.emit_out, rest]
    rfl
  · rw [rest]
    rfl

/-- STAGE_SLOT_A or STAGE_SLOT_B, as a row of the table: `i` is the slot. -/
theorem answers_stageSlot {i : Nat} {row : Instr} (h : PatFree s) (cut : s.pat.cut = none)
    (e : ∀ s, exec row s = powered (hostWrite Reg.PAT_CTRL (stageSlot i)) s) :
    Answers row s (fun u => u.pat.staging = some (2 + i) ∧ u.pat.staged = none ∧ u.rdF Reg.PAT_STATUS 0 3 = 1 ∧
      u = { s.fresh with regs := u.regs, pat := u.pat }) := by
  refine answers_patRow h e ?_
  obtain ⟨staging, staged, state, -⟩ := stageStart_begun (s := s.fresh) (2 + i) 0 cut
  exact ⟨staging, staged, state, stageStart_rest (s := s.fresh) (2 + i) 0⟩

/-! ## The end of an operation that judged a container (R63, log entry 26) -/

theorem patDone_pat (op code : Nat) (x : Loc) : (patDone op code x s).pat = s.pat := patEnd_pat ..

theorem patDone_key (op code : Nat) (x : Loc) : (patDone op code x s).key = s.key := patEnd_key ..

theorem patDone_result (op code : Nat) (x : Loc) : (patDone op code x s).rdF Reg.PAT_STATUS 8 8 = code % 256 :=
  patEnd_result ..

theorem patDone_location (op code : Nat) (x : Loc) :
    (patDone op code x s).rd Reg.PAT_REJ_INFO = (x.1 + 2 ^ 8 * x.2) % 2 ^ 32 :=
  (patEnd_rd op code (by decide) (by decide)).trans (State.rd_wr_same ..)

/-- It writes PAT_STATUS and PAT_REJ_INFO alone outside the host interface. -/
theorem patDone_rd {a : Nat} (op code : Nat) (x : Loc) (hi : hostIfReg a = false) (hs : a ≠ Reg.PAT_STATUS)
    (hr : a ≠ Reg.PAT_REJ_INFO) : (patDone op code x s).rd a = s.rd a :=
  (patEnd_rd op code hi hs).trans (State.rd_wr_ne _ _ hr)

/-- An operation that stayed in its frame and ends with a code and a location has ended as `PatEnded` says. -/
theorem patEnded_patDone (op code : Nat) (x : Loc)
    (h : PatFrame (Reg.PAT_STATUS :: Reg.PAT_REJ_INFO :: l) s t) :
    PatEnded (code % 256) (Reg.PAT_REJ_INFO :: l) s (patDone op code x t) := by
  have located := h.trans (onlyRegs_wr (a := Reg.PAT_REJ_INFO) (x.1 + 2 ^ 8 * x.2) (by simp)).patFrame
  have frame := located.trans (patFrame_patEnd op code (by simp))
  refine ⟨patDone_result op code x, ?_, patEnd_busy op code, frame.1, frame.2⟩
  rw [patDone, patEnd_state, patEnd_pat]

/-! ## The checks on a container (R63, R64) -/

/-- The registers that show the staged Pattern: its differences from the active one and its digest (R70). -/
def stagedShown : List Nat := Reg.PAT_DIFF :: Reg.PAT_DIFF_SECT :: (List.range 12).map Reg.PAT_STG_DIG

theorem stgDig_shown {i : Nat} (h : i < 12) : Reg.PAT_STG_DIG 0 + 4 * i ∈ stagedShown :=
  (List.mem_cons.mp (stgDig_mem h)).resolve_left (by unfold Reg.PAT_STG_DIG Reg.PAT_STATUS; omega)

theorem sha384_length_le (b : Bytes) : (sha384 b).length ≤ 48 := by
  simp only [sha384, List.length_flatMap, beBytes_length, List.map_const', List.sum_replicate, List.length_take,
    smul_eq_mul]
  omega

/-- Whatever is staged comes from the container judged. -/
theorem judge_pattern {b : Bytes} {bad : List Nat} {v : Nat × Loc} {p : Pattern} (h : judge s b bad = (v, some p)) :
    p = patternOf b := by
  unfold judge at h
  dsimp only at h
  split at h
  · simp at h
  split at h
  · simp at h
  · simp only [Prod.mk.injEq, Option.some.injEq] at h
    exact h.2.symm

theorem judge_digest {b : Bytes} {bad : List Nat} {v : Nat × Loc} {p : Pattern} (h : judge s b bad = (v, some p)) :
    p.digest.length ≤ 48 := by
  rw [judge_pattern h]
  exact sha384_length_le _

theorem onlyRegs_putStaged (src : Nat) {p : Pattern} (h : p.digest.length ≤ 48) : OnlyRegs stagedShown
    { s with pat := { s.pat with staged := some p, stagedSource := src } } (putStaged src p s) :=
  (onlyRegs_wr _ (by decide)).trans <| (onlyRegs_wr _ (by decide)).trans <|
    onlyRegs_wrBytes fun _ hi => stgDig_shown (by omega)

/-- Beside registers and Pattern a Pattern that passes the checks changes nothing, and one that fails changes nothing
at all; then the operation ends with the verdict. -/
theorem stageJudged_ends (src : Nat) {b : Bytes} {v : Nat × Loc} {p : Option Pattern}
    (h : judge s b s.pat.scratchBad = (v, p)) : ∃ t, stageJudged src b s = patDone src v.1 v.2 t ∧
      t.pat.staging = s.pat.staging ∧ t.pat.staged = (if p.isSome then p else s.pat.staged) ∧ t.key = s.key ∧
      PatFrame stagedShown s t := by
  rw [stageJudged, h]
  cases p with
  | none => exact ⟨s, rfl, rfl, rfl, rfl, (OnlyRegs.refl _ s).patFrame⟩
  | some p =>
    have put := onlyRegs_putStaged (s := s) src (judge_digest h)
    exact ⟨_, rfl, by rw [put.pat], by rw [put.pat]; rfl, put.key, (patFrame_pat _).trans put.patFrame⟩

/-! ## The ends of the fetch or slot read (R63 to R65) -/

/-- The fetch or the slot read has ended. -/
def stagingEnded (s : State) : State := { s with pat := { s.pat with staging := none } }

theorem patFrame_stagingEnded : PatFrame l s (stagingEnded s.fresh) := patFrame_fresh.trans (patFrame_pat _)

theorem stagingComplete_window (h : s.pat.staging = some 1) (c : Bytes) (intact : Bool) :
    stagingComplete c none intact s = stageJudged 1 (exactly s.pat.stagingLen c) (stagingEnded s) := by
  simp [stagingComplete, stagingEnded, h]

theorem stagingComplete_unread (h : s.pat.staging = some 1) (c : Bytes) (o : Nat) (intact : Bool) :
    stagingComplete c (some o) intact s =
      patDone 1 0x09 (0, o) (logError 7 false false Reg.PAT_CTRL (stagingEnded s)) := by
  simp [stagingComplete, stagingEnded, h]

theorem stagingComplete_slot {k : Nat} {b : Bytes} {intact : Bool} (h : s.pat.staging = some k) (hk : k ≠ 1)
    (read : slotRead (k - 2) intact s = (0, b)) (c : Bytes) :
    stagingComplete c none intact s = stageJudged k b (stagingEnded s) := by
  have read' : slotRead (k - 2) intact (stagingEnded s) = (0, b) := read
  unfold stagingEnded at read' ⊢
  simp [stagingComplete, h, read']

/-- A vault slot that yields no container; the record that failed its tag is counted (R250). -/
theorem stagingComplete_unreadable {k code : Nat} {b : Bytes} {intact : Bool} (h : s.pat.staging = some k) (hk : k ≠ 1)
    (read : slotRead (k - 2) intact s = (code, b)) (hc : code ≠ 0) (c : Bytes) :
    stagingComplete c none intact s =
      patDone k code (0, 0) (vaultFault (if code = 0x53 ∧ s.key.vaultOpen = true then 1 else 0) (stagingEnded s)) := by
  have read' : slotRead (k - 2) intact (stagingEnded s) = (code, b) := read
  unfold stagingEnded at read' ⊢
  simp [stagingComplete, h, read']

theorem answers_staged {c b : Bytes} {intact : Bool} {k : Nat} {v : Nat × Loc} {p : Option Pattern}
    (core : coreRuns s = true)
    (complete : stagingComplete c none intact s.fresh = stageJudged k b (stagingEnded s.fresh))
    (verdict : judge (stagingEnded s.fresh) b s.pat.scratchBad = (v, p)) :
    Answers (.stagingComplete c none intact) s (fun u =>
      u.pat.staging = none ∧ u.pat.staged = (if p.isSome then p else s.pat.staged) ∧
      PatEnded (v.1 % 256) (Reg.PAT_REJ_INFO :: stagedShown) s u ∧
      u.rd Reg.PAT_REJ_INFO = (v.2.1 + 2 ^ 8 * v.2.2) % 2 ^ 32 ∧ u.key = s.key) := by
  refine answers_powered core (f := stagingComplete c none intact) rfl ?_
  obtain ⟨t, ends, staging, staged, key, frame⟩ := stageJudged_ends (s := stagingEnded s.fresh) k verdict
  rw [complete, ends, patDone_pat, patDone_key]
  refine ⟨staging, staged, patEnded_patDone _ _ _ (patFrame_stagingEnded.trans ?_), patDone_location .., key⟩
  exact (frame.cons _).cons _

/-! ## A slot that cannot be read, a window that cannot be fetched -/

/-- An event that is raised sets its bit, and beyond that is at most posted (R149). -/
theorem posts_raiseEvent (src b p3 : Nat) : Posts (s.setBit (eventRegs src).1 b true) (raiseEvent src b p3 s) :=
  (posts_setOwed ..).trans (posts_postOwed _)

/-- A vault record that failed its tag is counted (R250). -/
theorem vaultFault_counted : (vaultFault 1 s).rd Reg.KEY_VAULT_FAULTS = min (s.rd Reg.KEY_VAULT_FAULTS + 1) 0xFFFFFFFF := by
  have posts : Posts _ (vaultFault 1 s) := posts_raiseEvent (s := s.bump Reg.KEY_VAULT_FAULTS 1) 6 6 _
  rw [posts.regs _ (by decide), State.rd_setBit_ne _ _ _ (by decide), State.rd_bump_same]

theorem vaultFault_rest (n : Nat) :
    vaultFault n s = { s with regs := (vaultFault n s).regs, hif := (vaultFault n s).hif, out := (vaultFault n s).out } := by
  unfold vaultFault
  split
  · rfl
  · rw [keyEvent, (posts_raiseEvent ..).rest]
    rfl

theorem vaultFault_pat (n : Nat) : (vaultFault n s).pat = s.pat := by rw [vaultFault_rest]

theorem vaultFault_key (n : Nat) : (vaultFault n s).key = s.key := by rw [vaultFault_rest]

theorem answers_unreadable {c b : Bytes} {intact : Bool} {k code : Nat} (core : coreRuns s = true)
    (sta : s.pat.staging = some k) (hk : k ≠ 1) (read : slotRead (k - 2) intact s = (code, b)) (hc : code ≠ 0)
    (lt : code < 256) :
    Answers (.stagingComplete c none intact) s (fun u =>
      u.pat.staging = none ∧ u.pat.staged = s.pat.staged ∧ u.rdF Reg.PAT_STATUS 8 8 = code ∧
      u.rd Reg.PAT_REJ_INFO = 0 ∧ u.key = s.key ∧
      u.rd Reg.KEY_VAULT_FAULTS = (if code = 0x53 ∧ s.key.vaultOpen = true
        then min (s.rd Reg.KEY_VAULT_FAULTS + 1) 0xFFFFFFFF else s.rd Reg.KEY_VAULT_FAULTS)) := by
  refine answers_powered core (f := stagingComplete c none intact) rfl ?_
  rw [stagingComplete_unreadable (s := s.fresh) sta hk read hc, patDone_pat, patDone_key, patDone_result,
    patDone_location, patDone_rd _ _ _ (by decide) (by decide) (by decide), vaultFault_pat, vaultFault_key]
  refine ⟨rfl, rfl, Nat.mod_eq_of_lt lt, rfl, rfl, ?_⟩
  by_cases fault : code = 0x53 ∧ s.key.vaultOpen = true
  · rw [if_pos (by exact fault), if_pos fault, vaultFault_counted]
    rfl
  · rw [if_neg (by exact fault), if_neg fault]
    rfl

theorem onlyHost_errorNoted (cause : Nat) (bar2 isWrite : Bool) (addr : Nat) :
    OnlyHost l s (errorNoted cause bar2 isWrite addr s) := by
  have noted := onlyRegs_errorNoted (s := s) cause bar2 isWrite addr
  refine ⟨fun a hi _ => noted.1 a fun m => ?_, noted.2.trans (by rw [noted.2])⟩
  have host : ∀ a ∈ errorRegs, hostIfReg a = true := by decide
  simp [host a m] at hi

theorem hostIfReg_of_posted : ∀ a ∈ postedRegs, hostIfReg a = true := by decide

theorem Posts.onlyHost (h : Posts s t) : OnlyHost l s t :=
  ⟨fun a hi _ => h.regs a fun m => by simp [hostIfReg_of_posted a m] at hi, h.rest⟩

/-- Logging an error other than a gated or an illegal read stays in the host interface (R429). -/
theorem onlyHost_logError {cause : Nat} (h : cause ≠ 2 ∧ cause ≠ 4) (bar2 isWrite : Bool) (addr : Nat) :
    OnlyHost l s (logError cause bar2 isWrite addr s) :=
  (onlyHost_errorNoted ..).trans (posts_logError h ..).onlyHost

theorem logError_count {cause : Nat} (h : cause ≠ 2 ∧ cause ≠ 4) (bar2 isWrite : Bool) (addr : Nat) :
    (logError cause bar2 isWrite addr s).rd Reg.HIF_ERRCNT = min (s.rd Reg.HIF_ERRCNT + 1) 0xFFFFFFFF := by
  rw [(posts_logError h bar2 isWrite addr).regs _ (by decide), errorNoted_count]

/-- The end of an operation posts one event in the host interface. -/
theorem patEnd_posts (op code : Nat) : Posts (patRested code s) (patEnd op code s) := posts_evqPost ..

theorem patDone_errorCount (op code : Nat) (x : Loc) :
    (patDone op code x s).rd Reg.HIF_ERRCNT = s.rd Reg.HIF_ERRCNT :=
  ((patEnd_posts op code).regs _ (by decide)).trans <|
    ((onlyRegs_patRested code).1 _ (by decide)).trans (State.rd_wr_ne _ _ (by decide))

theorem answers_unfetched (core : coreRuns s = true) (sta : s.pat.staging = some 1) (c : Bytes) (o : Nat)
    (intact : Bool) : Answers (.stagingComplete c (some o) intact) s (fun u =>
      u.pat.staging = none ∧ u.pat.staged = s.pat.staged ∧ PatEnded 9 [Reg.PAT_REJ_INFO] s u ∧
      u.rd Reg.HIF_ERRCNT = min (s.rd Reg.HIF_ERRCNT + 1) 0xFFFFFFFF) := by
  refine answers_powered core (f := stagingComplete c (some o) intact) rfl ?_
  have logged (l : List Nat) : OnlyHost l (stagingEnded s.fresh) _ :=
    onlyHost_logError (cause := 7) (by decide) false false Reg.PAT_CTRL
  rw [stagingComplete_unread (s := s.fresh) sta, patDone_pat, (logged []).pat, patDone_errorCount,
    logError_count (by decide)]
  exact ⟨rfl, rfl, patEnded_patDone 1 9 (0, o) (patFrame_stagingEnded.trans (logged _).patFrame), rfl⟩

/-! ## The statement -/

/-- Settles O16, clause by clause: the three ways to start, a container judged from the window or from a slot, a slot
that yields none, and a window that cannot be read. -/
theorem stagingStartsAndEnds : Obligations.StagingStartsAndEnds := by
  intro s
  refine ⟨answers_stageWindow, fun h cut => ⟨?_, ?_⟩, fun k c b intact v p core sta source verdict => ?_,
    fun k code c b intact core sta hk read hc lt => answers_unreadable core sta hk read hc lt,
    fun core sta c o intact => answers_unfetched core sta c o intact⟩
  · exact answers_stageSlot (i := 0) h cut fun _ => rfl
  · exact answers_stageSlot (i := 1) h cut fun _ => rfl
  · rcases source with ⟨rfl, rfl⟩ | ⟨hk, read⟩
    · exact answers_staged core (stagingComplete_window (s := s.fresh) sta c intact) verdict
    · exact answers_staged core (stagingComplete_slot (s := s.fresh) sta hk read c) verdict

end Sys2Proof.Machine
end

section
/-! SUPPORT. Which registers the count of a received frame writes, and that the mode in which a span runs depends on
none of them. -/

namespace Sys2Proof.Machine

variable {w : Nat → Bool} {s t u : State}

/-! ## 64-bit counters -/

theorem State.rd64_wr64_same (a v : Nat) : (s.wr64 a v).rd64 a = v % 2 ^ 64 := by
  have low : (s.wr64 a v).rd a = v % 2 ^ 32 := by
    rw [State.wr64, State.rd_wr_ne _ _ (by omega), State.rd_wr_same, Nat.mod_mod]
  have high : (s.wr64 a v).rd (a + 4) = v / 2 ^ 32 % 2 ^ 32 := State.rd_wr_same ..
  rw [State.rd64, low, high]
  omega

theorem State.rd64_bump64_same (a n : Nat) : (s.bump64 a n).rd64 a = (s.rd64 a + n) % 2 ^ 64 := by
  rw [State.bump64, State.rd64_wr64_same, Nat.mod_mod]

/-! ## Registers outside a set -/

/-- Every register outside a set reads as before. -/
def RegsOutside (w : Nat → Bool) (s u : State) : Prop := ∀ a, w a = false → u.rd a = s.rd a

theorem RegsOutside.refl (w : Nat → Bool) (s : State) : RegsOutside w s s := fun _ _ => rfl

theorem RegsOutside.trans (h : RegsOutside w s t) (k : RegsOutside w t u) : RegsOutside w s u :=
  fun a ha => (k a ha).trans (h a ha)

theorem RegsOutside.ite {c : Prop} [Decidable c] (h : RegsOutside w s t) (k : RegsOutside w s u) :
    RegsOutside w s (if c then t else u) := by
  split
  · exact h
  · exact k

/-- What stays outside a set stays outside a larger one. -/
theorem RegsOutside.mono {x : Nat → Bool} (h : RegsOutside w s t) (sub : ∀ a, x a = false → w a = false) :
    RegsOutside x s t := fun a ha => h a (sub a ha)

theorem regsOutside_wr {a : Nat} (v : Nat) (h : w a = true) : RegsOutside w s (s.wr a v) :=
  fun b hb => State.rd_wr_ne s v fun e => by simp [e, h] at hb

theorem Posts.regsOutside (h : Posts s t) (sub : ∀ a, w a = false → hostIfReg a = false) : RegsOutside w s t :=
  fun a ha => (Posts.onlyHost (l := []) h).rd (sub a ha)

/-! ## Programmable counters (R483 to R486, R499) -/

/-- The registers that counting an occurrence may write: those of the programmable counters, and those of the host
interface for the event of a wrap. -/
def pmcReg (a : Nat) : Bool := (decide (0x280000 ≤ a) && decide (a < 0x2C0000)) || hostIfReg a

theorem pmcReg_of_range {a : Nat} (lo : 0x280000 ≤ a) (hi : a < 0x2C0000) : pmcReg a = true := by
  simp [pmcReg, lo, hi]

theorem hostIfReg_of_not_pmcReg (a : Nat) (h : pmcReg a = false) : hostIfReg a = false := by
  simp only [pmcReg, Bool.or_eq_false_iff] at h
  exact h.2

theorem pmcReg_cnt (n : Nat) : pmcReg (Reg.PMC_CNT n) = true :=
  pmcReg_of_range (by unfold Reg.PMC_CNT; omega) (by unfold Reg.PMC_CNT; omega)

theorem pmcReg_ovf (n : Nat) : pmcReg (Reg.PMC_OVF n) = true :=
  pmcReg_of_range (by unfold Reg.PMC_OVF; omega) (by unfold Reg.PMC_OVF; omega)

theorem regsOutside_pmcWrap (n : Nat) : RegsOutside pmcReg s (pmcWrap n s) :=
  (regsOutside_wr _ (pmcReg_ovf _)).trans <| (regsOutside_wr _ (by decide)).trans <|
    .trans (regsOutside_wr (a := Reg.PMC_EVT) _ (by decide)) <|
      (posts_raiseEvent 0x11 0 0).regsOutside hostIfReg_of_not_pmcReg

theorem regsOutside_pmcAdd (n x : Nat) : RegsOutside pmcReg s (pmcAdd n x s) := by
  have low : RegsOutside pmcReg s (s.wr (Reg.PMC_CNT n) ((s.rd (Reg.PMC_CNT n) + x) % 2 ^ 32)) :=
    regsOutside_wr _ (pmcReg_cnt _)
  have high := fun y => low.trans (regsOutside_wr (a := Reg.PMC_CNT (n + 1)) y (pmcReg_cnt _))
  exact low.ite <| ((high _).ite ((high _).trans (regsOutside_pmcWrap _))).ite (low.trans (regsOutside_pmcWrap _))

theorem regsOutside_pmc (p : PmcState) : RegsOutside w s { s with pmc := p } := fun _ _ => rfl

theorem regsOutside_pmcCount (event inst x : Nat) : RegsOutside pmcReg s (pmcCount event inst x s) :=
  List.foldlRecOn _ _ (.refl _ s) fun t ht n _ =>
    ht.trans <| ((regsOutside_pmcAdd n x).ite (regsOutside_pmc _)).ite (.refl _ t)

/-! ## A received frame (R338, R348) -/

/-- The registers that a frame received on port `p` may write before anything else becomes of it: the raw conditions of
the port, its receive counters, and what counting an occurrence writes. -/
def receiptReg (p a : Nat) : Bool :=
  a == Reg.PEN_DEF_RAW p || (decide (Reg.PEN_PAGE p 0 ≤ a) && decide (a < Reg.PEN_PAGE p 0 + 0x38)) || pmcReg a

theorem pmcReg_of_not_receiptReg {p : Nat} (a : Nat) (h : receiptReg p a = false) : pmcReg a = false := by
  simp only [receiptReg, Bool.or_eq_false_iff] at h
  exact h.2

theorem receiptReg_page (p : Nat) {off : Nat} (h : off < 0x38) : receiptReg p (Reg.PEN_PAGE p 0 + off) = true := by
  simp [receiptReg, h]

theorem receiptReg_iff {p a : Nat} : receiptReg p a = true ↔ a = 0x20104 + 0x10 * (p % 64) ∨
    (0x21000 + 0x100 * (p % 64) ≤ a ∧ a < 0x21038 + 0x100 * (p % 64)) ∨ (0x280000 ≤ a ∧ a < 0x2C0000) ∨
    (0x8000 ≤ a ∧ a < 0x10000) ∨ (0x3C0000 ≤ a ∧ a < 0x400000) := by
  simp only [receiptReg, pmcReg, hostIfReg, Bool.or_eq_true, Bool.and_eq_true, beq_iff_eq, decide_eq_true_eq]
  unfold Reg.PEN_DEF_RAW Reg.PEN_PAGE
  omega

/-- Below and between the ports' and the counters' blocks, and above them, nothing is written. -/
theorem receiptReg_eq_false {p a : Nat}
    (h : a < 0x8000 ∨ (0x26000 ≤ a ∧ a < 0x280000) ∨ (0x2C0000 ≤ a ∧ a < 0x3C0000)) : receiptReg p a = false := by
  rw [Bool.eq_false_iff, ne_eq, receiptReg_iff]
  omega

/-- The rest of a port's page, from offset 0x38 on, is not written. -/
theorem receiptReg_page_above (p : Nat) {off : Nat} (lo : 0x38 ≤ off) (hi : off < 0x100) :
    receiptReg p (Reg.PEN_PAGE p 0 + off) = false := by
  rw [Bool.eq_false_iff, ne_eq, receiptReg_iff, Reg.PEN_PAGE]
  omega

theorem regsOutside_penCount (p n : Nat) {off : Nat} (h : off < 0x34) :
    RegsOutside (receiptReg p) s (penCount p off n s) :=
  (regsOutside_wr _ (receiptReg_page p (by omega))).trans
    (regsOutside_wr _ (by rw [Nat.add_assoc]; exact receiptReg_page p (by omega)))

theorem regsOutside_countReceived (p : Nat) (frame : Bytes) (e : RxEnd) :
    RegsOutside (receiptReg p) s (countReceived p frame e s) := by
  have runt : RegsOutside (receiptReg p) s (if frame.length < 64 then penCount p 0x18 1 s else s) :=
    (regsOutside_penCount p 1 (by decide)).ite (.refl _ s)
  have sized := runt.trans <|
    (regsOutside_penCount p 1 (off := 0x20) (by decide)).ite
      (c := frame.length > if p < 32 then 10240 else 10272) (.refl _ _)
  cases e with
  | notReceived raw => exact sized
  | errorMarker => exact sized.trans (regsOutside_penCount p 1 (by decide))
  | terminate =>
    have good := fun n => (sized.trans (regsOutside_penCount p 1 (off := 0x00) (by decide))).trans
      (regsOutside_penCount p n (off := 0x08) (by decide))
    exact ((good _).trans ((regsOutside_pmcCount 0x0900 p 1).mono pmcReg_of_not_receiptReg)).ite
      (sized.trans (regsOutside_penCount p 1 (by decide)))

theorem regsOutside_arrivalRaw (n p : Nat) (e : RxEnd) : RegsOutside (receiptReg p) s (arrivalRaw n p e s) :=
  (RegsOutside.refl _ s).ite (regsOutside_wr _ (by simp [receiptReg]))

theorem regsOutside_received (n p : Nat) (frame : Bytes) (e : RxEnd) :
    RegsOutside (receiptReg p) s (received n p frame e s) :=
  (regsOutside_arrivalRaw (s := s.fresh) n p e).trans (regsOutside_countReceived p frame e)

theorem framesStay_receipt (n p : Nat) (frame : Bytes) (e : RxEnd) : FramesStay s (received n p frame e s) :=
  .trans ⟨rfl, fun _ h => absurd h (by simp)⟩ (framesStay_received (s := s.fresh) n p frame e)

/-! ## The mode of a span once a frame of it is counted (R22 to R25) -/

/-- A span's mode is decided by no register that a frame's receipt writes, and by no state that it changes. -/
theorem runMode_received (n p : Nat) (frame : Bytes) (e : RxEnd) (k : Nat) :
    runMode (received n p frame e s) k = runMode s k := by
  have same : ∀ a, (a < 0x8000 ∨ (0x26000 ≤ a ∧ a < 0x280000) ∨ (0x2C0000 ≤ a ∧ a < 0x3C0000)) →
      (received n p frame e s).rd a = s.rd a := fun a h =>
    regsOutside_received n p frame e a (receiptReg_eq_false h)
  have rest := (framesStay_receipt (s := s) n p frame e).rest
  generalize received n p frame e s = t at *
  obtain ⟨key, pwr, pat, fab, hrn⟩ :
      t.key = s.key ∧ t.pwr = s.pwr ∧ t.pat = s.pat ∧ t.fab = s.fab ∧ t.hrn = s.hrn := by
    rw [rest]; exact ⟨rfl, rfl, rfl, rfl, rfl⟩
  have life : t.lifecycle = s.lifecycle := by rw [State.lifecycle, key, State.lifecycle]
  have dram : noDram t = noDram s := by
    have channel (c : Nat) : t.rd (Reg.EVR_CH_STATUS c) = s.rd (Reg.EVR_CH_STATUS c) :=
      same _ (by unfold Reg.EVR_CH_STATUS; omega)
    simp only [noDram, State.bit, channel]
  have all : allDiscard t = allDiscard s := by
    rw [allDiscard, life, key, State.bit, same Reg.CLK_STATUS (by decide), dram, allDiscard, State.bit]
  have cut : cutStops t k = cutStops s k := by rw [cutStops, pat, cutStops]
  have shed : isShed t k = isShed s k := by rw [isShed, fab, isShed]
  have closed : admissionClosed t = admissionClosed s := by
    rw [admissionClosed, pwr, startingUp, State.rdF, same Reg.PWR_STATUS (by decide), admissionClosed, startingUp,
      State.rdF]
  have mode : patMode t k = patMode s k := by rw [patMode, spanCfg, pat, patMode, spanCfg]
  have bypass : bypassPermitted t k = bypassPermitted s k := by
    rw [bypassPermitted, State.bit, same Reg.KPR_BYPASS (by decide), life, bypassPermitted, State.bit]
  have pair : pairDiscards t = pairDiscards s := by
    rw [pairDiscards, pairState, State.rdF, same Reg.CHN_HRN_STATUS (by decide), hrn, pairDiscards, pairState, State.rdF]
  rw [runMode, all, cut, shed, closed, mode, bypass, pair, runMode]

theorem awaitsRise_received (n p : Nat) (frame : Bytes) (e : RxEnd) (k : Nat) :
    awaitsRise (received n p frame e s) k = awaitsRise s k := by
  rw [awaitsRise, runMode_received, (framesStay_receipt n p frame e).fab, awaitsRise]

theorem cutStops_received (n p : Nat) (frame : Bytes) (e : RxEnd) (k : Nat) :
    cutStops (received n p frame e s) k = cutStops s k := by
  have pat : (received n p frame e s).pat = s.pat := by rw [(framesStay_receipt n p frame e).rest]
  rw [cutStops, pat, cutStops]

/-- A span that runs in Frame mode is a Frame span of the Pattern. -/
theorem patMode_of_runMode_frame {n : Nat} (h : runMode s n = .frame) : patMode s n = .frame := by
  unfold runMode at h
  split at h
  · contradiction
  split at h
  · split at h <;> contradiction
  · assumption
  · split at h <;> contradiction
  · contradiction

end Sys2Proof.Machine
end

section
/-! SUPPORT. Frames that arrive: what reaches the mode of their span, and what each mode makes of them. -/

namespace Sys2Proof.Machine

variable {s t u : State}

/-! ## What reaches the mode of the span (R338, R342) -/

/-- A whole frame of a span in which neither a rise nor Trunk mode takes it goes to the span's mode once counted. -/
theorem sealArrival_received {m n : Nat} {mode : SpanMode} {frame : Bytes} {e : RxEnd} (h : Receives s m n mode)
    (hm : mode ≠ .trunk) (he : isReceived e = true) (mac : isMacControl frame = false) (long : 64 ≤ frame.length)
    (rise : awaitsRise s n = false) : sealArrival m frame e s.fresh = sealMode n m frame e (received n m frame e s) := by
  obtain ⟨span, receives, run⟩ := h
  have closed : (!portReceives s.fresh m || runMode s.fresh n == .trunk) = false := by
    have receives' : portReceives s.fresh m = true := receives
    have run' : runMode s.fresh n = mode := run
    simpa [receives', run'] using hm
  have rise' : awaitsRise (received n m frame e s) n = false := (awaitsRise_received ..).trans rise
  have span' : portSpan s.fresh m = some n := span
  rw [sealArrival, span']
  dsimp only
  rw [if_neg (by simp [closed]), if_neg (by simp [he]), if_neg (by simp [mac]), if_neg (by omega)]
  exact if_neg (by rw [Bool.not_eq_true]; exact rise')

theorem openArrival_received {p n : Nat} {mode : SpanMode} {frame : Bytes} {e : RxEnd} (h : Receives s (32 + p) n mode)
    (hm : patMode s n ≠ .trunk) (he : isReceived e = true) (long : 64 ≤ frame.length) (rise : awaitsRise s n = false) :
    openArrival p frame e s.fresh = openMode n (32 + p) frame e (received n (32 + p) frame e s) := by
  obtain ⟨span, receives, -⟩ := h
  have closed : (!portReceives s.fresh (32 + p) || patMode s.fresh n == .trunk) = false := by
    have receives' : portReceives s.fresh (32 + p) = true := receives
    have mode' : patMode s.fresh n ≠ .trunk := hm
    simpa [receives'] using mode'
  have rise' : awaitsRise (received n (32 + p) frame e s) n = false := (awaitsRise_received ..).trans rise
  have span' : portSpan s.fresh (32 + p) = some n := span
  rw [openArrival]
  dsimp only
  rw [span']
  dsimp only
  rw [if_neg (by simp [closed]), if_neg (by simp [he]), if_neg (by omega)]
  exact if_neg (by rw [Bool.not_eq_true]; exact rise')

/-! ## Discard (R72, R348) -/

/-- A frame of a span that runs as Discard, outside the stopped set of a cut, is counted on its port. -/
theorem countDiscard_received {n p : Nat} {frame : Bytes} {e : RxEnd} (cut : cutStops s n = false) :
    let u := countDiscard n p (received n p frame e s)
    NothingQueued s u ∧ u.rd64 (Reg.PEN_PAGE p 0 + 0x80) = (s.rd64 (Reg.PEN_PAGE p 0 + 0x80) + 1) % 2 ^ 64 := by
  have counted := framesStay_receipt (s := s) n p frame e
  have before : (received n p frame e s).rd64 (Reg.PEN_PAGE p 0 + 0x80) = s.rd64 (Reg.PEN_PAGE p 0 + 0x80) := by
    have regs := regsOutside_received (s := s) n p frame e
    rw [State.rd64, regs _ (receiptReg_page_above p (by decide) (by decide)),
      regs _ (receiptReg_page_above p (off := 0x84) (by decide) (by decide)), State.rd64]
  refine ⟨(counted.trans (framesStay_countDiscard n p)).nothingQueued, ?_⟩
  rw [countDiscard, if_neg (by simp [cutStops_received, cut]), penCount, State.rd64_bump64_same, before]

theorem answers_sealDiscard {m : Port32} {n : Nat} {frame : Bytes} {e : RxEnd} (core : coreRuns s = true)
    (long : 64 ≤ frame.length) (he : isReceived e = true) (h : Receives s m.val n .discard)
    (mac : isMacControl frame = false) (cut : cutStops s n = false) :
    Answers (.sealFrameArrival m frame e) s (fun u => NothingQueued s u ∧
      u.rd64 (Reg.PEN_PAGE m.val 0 + 0x80) = (s.rd64 (Reg.PEN_PAGE m.val 0 + 0x80) + 1) % 2 ^ 64) := by
  refine answers_powered core (f := sealArrival m.val frame e) rfl ?_
  rw [sealArrival_received h (by decide) he mac long (awaitsRise_discard h.2.2),
    sealMode_discard ((runMode_received ..).trans h.2.2)]
  exact countDiscard_received cut

theorem answers_openDiscard {m : Port32} {n : Nat} {frame : Bytes} {e : RxEnd} (core : coreRuns s = true)
    (long : 64 ≤ frame.length) (he : isReceived e = true) (h : Receives s (32 + m.val) n .discard)
    (trunk : patMode s n ≠ .trunk) (cut : cutStops s n = false) :
    Answers (.openFrameArrival m frame e) s (fun u => NothingQueued s u ∧
      u.rd64 (Reg.PEN_PAGE (32 + m.val) 0 + 0x80) =
        (s.rd64 (Reg.PEN_PAGE (32 + m.val) 0 + 0x80) + 1) % 2 ^ 64) := by
  refine answers_powered core (f := openArrival m.val frame e) rfl ?_
  rw [openArrival_received h trunk he long (awaitsRise_discard h.2.2),
    openMode_discard ((runMode_received ..).trans h.2.2)]
  exact countDiscard_received cut

/-! ## Sealing (R121 to R129, R143) -/

theorem sealMode_frame {n m : Nat} {frame : Bytes} {e : RxEnd} (h : runMode s n = .frame) :
    sealMode n m frame e s = sealFrame n m frame e s := by
  simp [sealMode, h]

/-- A frame that classifies to an SC, of a size within the limit, goes on to the SC's binding. -/
theorem sealFrame_classified {n m i : Nat} {frame : Bytes} {e : RxEnd} {v : State}
    (h : sealDecision m n (parseFrame (sansFcs frame)) s = (v, some i)) (short : frame.length ≤ 10240) :
    sealFrame n m frame e s =
      let p := parseFrame (sansFcs frame)
      sealBind i p { span := n, inPort := m, cls := classOf v n p, ptp := p.ptpEvent, client := frame,
                     rxLen := frame.length, fcsOk := goodEnd frame e, sc := some i, outs := [spanLine v n],
                     storeForward := v.bit Reg.FRM_CTRL 0 || faster v (spanLine v n) m } e v := by
  rw [sealFrame, h]
  exact if_neg (by omega)

/-- A whole frame with a binding that is admitted is sealed under the binding, and enters. -/
theorem sealBind_admitted {i : Nat} {p : Parsed} {f : Frame} {e : RxEnd} {x : State} {b : Binding}
    (good : goodEnd f.client e = true) (bound : (bindTx i (f.cls == 7) s).2 = some b) (admitted : tryAdmit f s = (x, true)) :
    let r := (bindTx i (f.cls == 7) x).1
    let g := sealBytes (r.scAt false i) (s.saAt b.sa) b (!(classCfg r f.cls).integrityOnly) p.tags f
    sealBind i p f e s =
      learnSeal g.span g.inPort p (enterFrame (freeTag r) { g with cellsLeft := cellsOf g.client.length } r) := by
  have bound' : bindTx i (f.cls == 7) s = ((bindTx i (f.cls == 7) s).1, some b) := by rw [← bound]
  rw [sealBind]
  dsimp only
  rw [bound']
  dsimp only
  rw [admitted]
  dsimp only
  rw [if_neg (by simp), if_pos good]

/-! ## Opening (R126, R127, R133 to R140, R142) -/

theorem openMode_frame {n p : Nat} {frame : Bytes} {e : RxEnd} (h : runMode s n = .frame) :
    openMode n p frame e s = openFrame n p frame e s := by
  simp [openMode, h]

theorem openFrame_tagged {n p : Nat} {frame : Bytes} {e : RxEnd} {g : SecTag} (h : findSecTag frame = some g)
    (short : frame.length ≤ 10272) : openFrame n p frame e s =
      openTagged g frame e { span := n, opening := true, inPort := p, client := frame, rxLen := frame.length,
                             fcsOk := goodEnd frame e } s := by
  rw [openFrame, if_neg (by omega), h]

/-- A valid SecTAG of an SC and a slot of the span goes on to the checks of that slot. -/
theorem openTagged_slot {g : SecTag} {frame : Bytes} {e : RxEnd} {f : Frame} {i slot : Nat}
    (valid : tagValid g frame.length = true) (sc : findRxSc s f.span (lookupSci g frame) = some i)
    (tags : g.tags ≤ field (scWord (s.scAt true i) 0) 5 2) (pn : 2 ≤ scCipher (s.scAt true i) ∨ g.pn ≠ 0)
    (an : slotOfAn s (s.scAt true i) g.an = some slot) :
    openTagged g frame e f s = openBound i slot g frame.length frame e { f with sc := some i } s := by
  rw [openTagged]
  dsimp only
  rw [if_neg (by simp [valid]), sc]
  dsimp only
  rw [if_neg (by omega), an]

theorem NothingQueued.trans (h : NothingQueued s t) (k : NothingQueued t u) : NothingQueued s u := by
  unfold NothingQueued at *
  rw [k, h]

theorem nothingQueued_of_sch (h : t.sch = s.sch) : NothingQueued s t := by rw [NothingQueued, h]

theorem NothingQueued.ite {c : Prop} [Decidable c] (h : NothingQueued s t) (k : NothingQueued s u) :
    NothingQueued s (if c then t else u) := by
  split
  · exact h
  · exact k

/-- A lookup is counted and may be late; it queues nothing (R272). -/
theorem nothingQueued_chargeLookup (n : Nat) : NothingQueued s (chargeLookup n s) := by
  have counted : NothingQueued s (pmcCount 0x0700 n 1 s) := (framesStay_pmcCount ..).nothingQueued
  have missed : NothingQueued s (pmcCount 0x0701 n 1 (pmcCount 0x0700 n 1 s).drawn) :=
    (counted.trans (nothingQueued_of_sch (State.drawn_sch _))).trans (framesStay_pmcCount ..).nothingQueued
  have window (c : ClsState) : NothingQueued s { pmcCount 0x0701 n 1 (pmcCount 0x0700 n 1 s).drawn with cls := c } :=
    missed.trans (nothingQueued_of_sch rfl)
  have late (v : State) (h : NothingQueued s v) : NothingQueued s (clsEvent 3 (v.drawn.bump Reg.CLS_LATE)) :=
    (h.trans (nothingQueued_of_sch rfl)).trans (framesStay_raiseEvent 0x07 3 0).nothingQueued
  exact (counted.trans (nothingQueued_of_sch (State.drawn_sch _))).ite <| (window _).ite <|
    (late _ (window _)).ite ((window _).trans (nothingQueued_of_sch (State.drawn_sch _)))

/-- A frame whose PN is not late, of a class that permits its protection, is opened with its verdict to come, and enters
where it is admitted (R135, R139). -/
theorem openBound_enters {i slot l : Nat} {g : SecTag} {frame : Bytes} {f : Frame}
    (inTime : let e := s.scAt true i
      let a := s.saAt (scSa e slot)
      lowestPn e a.pn ≤ recoverPn a.cipher g.pn (lowestPn e a.pn))
    (permitted : g.e = true ∨ ∀ c, (classCfg s c).integrityOnly = true) :
    let e := s.scAt true i
    let a := s.saAt (scSa e slot)
    ∃ h w, NothingQueued s w ∧
      (let y := pmcCount 0x0300 f.span 1 (tryAdmit h w).1
       openBound i slot g l frame .terminate f s =
        if (tryAdmit h w).2 then enterFrame (freeTag y) h y else (tryAdmit h w).1) ∧
      h.span = f.span ∧ h.opening = f.opening ∧ h.verdict = .pending ∧ h.sc = f.sc ∧ h.slot = slot ∧
      h.pn = recoverPn a.cipher g.pn (lowestPn e a.pn) ∧ h.gen = a.gen ∧ h.sa = some (scSa e slot) ∧
      h.cellsLeft = cellsOf h.client.length ∧ h.icv = slice frame (g.at_ + g.len + secureLen g l) 16 := by
  have suits (c : Nat) : ¬(!g.e && !(classCfg s c).integrityOnly) = true := by
    rcases permitted with h | h <;> simp [h]
  have whole : (RxEnd.terminate == RxEnd.errorMarker) = false := rfl
  dsimp only
  rw [openBound]
  dsimp only
  rw [if_neg (Nat.not_lt.mpr inTime), if_neg (suits _)]
  simp only [whole, Bool.false_and, Bool.false_eq_true, if_false, Bool.not_eq_eq_eq_not, Bool.not_true,
    ← Bool.not_eq_true, ite_not]
  exact ⟨_, _, .ite (nothingQueued_chargeLookup _) (nothingQueued_of_sch rfl), rfl, rfl, rfl, rfl, rfl, rfl, rfl, rfl,
    rfl, rfl, rfl⟩

/-! ## The statement -/

/-- Settles O23: a span's mode is the same once a frame of it has been counted, and each mode is followed through the
checks that the hypotheses pass. -/
theorem arrivingFramesEnterOrAreCounted : Obligations.ArrivingFramesEnterOrAreCounted := by
  intro s m n frame core long
  refine ⟨fun e he h mac cut => answers_sealDiscard core long he h mac cut,
    fun e he h trunk cut => answers_openDiscard core long he h trunk cut, ?_, ?_⟩
  · intro i v x b h mac good rise short decision p f bound admitted r
    refine answers_powered core (f := sealArrival m.val frame .terminate) rfl ?_
    rw [sealArrival_received h (by decide) rfl mac long rise, sealMode_frame ((runMode_received ..).trans h.2.2),
      sealFrame_classified decision short, good]
    exact ⟨_, sealBind_admitted good bound admitted, rfl, rfl, rfl, rfl, rfl, rfl, rfl⟩
  · intro g i slot h rise short tag valid v sc e tags pn an a inTime permitted
    refine answers_powered core (f := openArrival m.val frame .terminate) rfl ?_
    have mode : patMode s n ≠ .trunk := by simp [patMode_of_runMode_frame h.2.2]
    rw [openArrival_received h mode rfl long rise, openMode_frame ((runMode_received ..).trans h.2.2),
      openFrame_tagged tag short, openTagged_slot valid sc tags pn an]
    obtain ⟨h, w, queued, entered, rest⟩ := openBound_enters inTime permitted
    exact ⟨h, w, (framesStay_receipt ..).nothingQueued.trans queued, entered, rest⟩

end Sys2Proof.Machine
end

section
/-! SUPPORT. What stopping every span leaves of the supply: the power state, the Pattern, the key store, the power
registers and all of PWR_STATUS but POWER. -/

namespace Sys2Proof.Machine

variable {s t u : State}

/-! ## The frame -/

/-- The registers of the power block but PWR_STATUS. -/
def supplyReg (a : Nat) : Bool := decide (0x340000 < a) && decide (a < 0x380000)

/-- Power state, Pattern, key store and power registers are as they were, and so is PWR_STATUS above POWER. -/
structure KeepsSupply (s u : State) : Prop where
  pwr : u.pwr = s.pwr
  pat : u.pat = s.pat
  key : u.key = s.key
  regs : ∀ a, supplyReg a = true → u.rd a = s.rd a
  status : ∀ n, 3 ≤ n → u.bit Reg.PWR_STATUS n = s.bit Reg.PWR_STATUS n

theorem KeepsSupply.refl (s : State) : KeepsSupply s s := ⟨rfl, rfl, rfl, fun _ _ => rfl, fun _ _ => rfl⟩

theorem KeepsSupply.trans (h : KeepsSupply s t) (k : KeepsSupply t u) : KeepsSupply s u where
  pwr := k.pwr.trans h.pwr
  pat := k.pat.trans h.pat
  key := k.key.trans h.key
  regs a ha := (k.regs a ha).trans (h.regs a ha)
  status n hn := (k.status n hn).trans (h.status n hn)

theorem KeepsSupply.ite {c : Prop} [Decidable c] (h : KeepsSupply s t) (k : KeepsSupply s u) :
    KeepsSupply s (if c then t else u) := by
  split
  · exact h
  · exact k

theorem KeepsSupply.foldl {α : Type} {f : State → α → State} (h : ∀ t x, KeepsSupply t (f t x)) (l : List α) :
    KeepsSupply s (l.foldl f s) :=
  List.foldlRecOn _ _ (.refl s) fun _ ht x _ => ht.trans (h _ x)

theorem not_supplyReg {a : Nat} (h : a < 0x340000 ∨ 0x380000 ≤ a) : supplyReg a = false ∧ a ≠ Reg.PWR_STATUS := by
  refine ⟨?_, ?_⟩
  · rw [Bool.eq_false_iff, ne_eq, supplyReg, Bool.and_eq_true, decide_eq_true_eq, decide_eq_true_eq]
    omega
  · unfold Reg.PWR_STATUS
    omega

theorem keepsSupply_wr {a : Nat} (v : Nat) (h : a < 0x340000 ∨ 0x380000 ≤ a) : KeepsSupply s (s.wr a v) where
  pwr := rfl
  pat := rfl
  key := rfl
  regs b hb := State.rd_wr_ne s v fun e => by simp [e, (not_supplyReg h).1] at hb
  status n _ := State.bit_wr_ne s v n (not_supplyReg h).2.symm

/-- A command that differs in its registers only, and in none of the power block but the low bits of PWR_STATUS. -/
theorem RegsDiffer.keepsSupply (h : RegsDiffer s t) (regs : ∀ a, supplyReg a = true → t.rd a = s.rd a)
    (status : ∀ n, 3 ≤ n → t.bit Reg.PWR_STATUS n = s.bit Reg.PWR_STATUS n) : KeepsSupply s t := by
  obtain ⟨r, rfl⟩ := h
  exact ⟨rfl, rfl, rfl, regs, status⟩

theorem keepsSupply_fab (f : FabState) : KeepsSupply s { s with fab := f } :=
  ⟨rfl, rfl, rfl, fun _ _ => rfl, fun _ _ => rfl⟩

theorem keepsSupply_sec (x : SecState) : KeepsSupply s { s with sec := x } :=
  ⟨rfl, rfl, rfl, fun _ _ => rfl, fun _ _ => rfl⟩

theorem keepsSupply_setTrk (n : Nat) (x : TrunkState) : KeepsSupply s (s.setTrk n x) :=
  ⟨rfl, rfl, rfl, fun _ _ => rfl, fun _ _ => rfl⟩

theorem keepsSupply_setSa (i : Nat) (e : SaEntry) : KeepsSupply s (s.setSa i e) := keepsSupply_sec _

theorem Posts.keepsSupply (h : Posts s t) : KeepsSupply s t := by
  have out : ∀ a ∈ postedRegs, a < 0x340000 ∨ 0x380000 ≤ a := by decide
  have same {a : Nat} (ha : supplyReg a = true ∨ a = Reg.PWR_STATUS) : t.rd a = s.rd a := h.regs a fun m => by
    obtain ⟨reg, ne⟩ := not_supplyReg (out a m)
    exact ha.elim (fun e => by simp [reg] at e) ne
  refine ⟨by rw [h.rest], by rw [h.rest], by rw [h.rest], fun a ha => same (.inl ha), fun n _ => ?_⟩
  rw [State.bit, same (.inr rfl), State.bit]

theorem keepsSupply_raiseEvent {src : Nat} (b p3 : Nat) (h : (eventRegs src).1 < 0x340000) :
    KeepsSupply s (raiseEvent src b p3 s) :=
  (keepsSupply_wr _ (.inl h)).trans (posts_raiseEvent src b p3).keepsSupply

/-! ## Registers that follow others -/

/-- Of PWR_STATUS, POWER alone follows the power state (R456). -/
theorem syncStatus_powerField {p : Nat} (n : Nat) (h : 3 ≤ p) :
    (syncStatus s).rdF Reg.PWR_STATUS p n = s.rdF Reg.PWR_STATUS p n := by
  unfold syncStatus
  dsimp only
  rw [State.rdF_wr_ne _ _ _ _ (by decide), State.setBit, State.rdF_wrF_ne _ _ _ _ _ _ (by decide),
    State.rdF_wrF_ne _ _ _ _ _ _ (by decide), State.setBit, State.rdF_wrF_ne _ _ _ _ _ _ (by decide), State.setBit,
    State.rdF_wrF_ne _ _ _ _ _ _ (by decide), State.rdF_wrF_off _ _ _ _ _ (by decide) (.inr h),
    State.rdF_wr_ne _ _ _ _ (by decide)]

theorem syncStatus_powerBit {n : Nat} (h : 3 ≤ n) :
    (syncStatus s).bit Reg.PWR_STATUS n = s.bit Reg.PWR_STATUS n := by
  rw [State.bit_eq, State.bit_eq, syncStatus_powerField 1 h]

theorem keepsSupply_syncStatus : KeepsSupply s (syncStatus s) := by
  have out : ∀ a ∈ statusRegs, supplyReg a = false := by decide
  exact (syncStatus_rest s).keepsSupply (fun a ha => syncStatus_rd s fun m => by simp [out a m] at ha)
    fun _ => syncStatus_powerBit

theorem keepsSupply_syncHealth : KeepsSupply s (syncHealth s) :=
  (keepsSupply_wr _ (.inl (by decide))).trans <| (keepsSupply_wr _ (.inl (by decide))).trans <|
    (keepsSupply_wr _ (.inl (by decide))).trans keepsSupply_syncStatus

theorem keepsSupply_syncSpans : KeepsSupply s (syncSpans s) :=
  (keepsSupply_wr _ (.inl (by decide))).trans <| (keepsSupply_wr _ (.inl (by decide))).trans <|
    .foldl (fun _ n => keepsSupply_wr _ (.inl (by unfold Reg.CPH_SHARE; omega))) _

theorem islStatus_lt (i : Nat) : Reg.CPH_ISL_STATUS i < 0x340000 := by unfold Reg.CPH_ISL_STATUS; omega

/-- Islands are parked and unparked in the fabric's registers alone (R98, R99). -/
theorem keepsSupply_trimRecompute : KeepsSupply s (trimRecompute s) := by
  have shown : KeepsSupply s (syncSpans (syncHealth s)) := keepsSupply_syncHealth.trans keepsSupply_syncSpans
  have seen (f : FabState) : KeepsSupply s { syncSpans (syncHealth s) with fab := f } :=
    shown.trans (keepsSupply_fab f)
  have ends (v : State) (f : FabState) : KeepsSupply v (syncHealth { v with fab := f }) :=
    (keepsSupply_fab f).trans keepsSupply_syncHealth
  unfold trimRecompute
  dsimp only
  split
  · refine (seen _).trans (.trans (.foldl (fun _ i => ?_) _) (ends _ _))
    exact keepsSupply_wr _ (.inl (islStatus_lt i))
  · refine (seen _).trans (.trans (.foldl (fun _ i => ?_) _) (ends _ _))
    exact (keepsSupply_wr _ (.inl (islStatus_lt i))).trans <| (keepsSupply_wr _ (.inl (islStatus_lt i))).trans
      (keepsSupply_wr _ (.inl (by unfold Reg.CPH_ISL_MV; omega)))

theorem keepsSupply_trkStatus (n p x : Nat) (v : Nat) : KeepsSupply s (s.wrF (Reg.FRM_TRK_STATUS n) p x v) :=
  keepsSupply_wr _ (.inl (by unfold Reg.FRM_TRK_STATUS; omega))

theorem keepsSupply_syncPort (p : Nat) : KeepsSupply s (syncPort p s) :=
  keepsSupply_wr _ (.inl (by unfold Reg.PEN_PSTAT; omega))

theorem keepsSupply_syncRdi (n : Nat) : KeepsSupply s (syncRdi n s) := (keepsSupply_trkStatus ..).ite (keepsSupply_trkStatus ..)

theorem keepsSupply_syncPorts : KeepsSupply s (syncPorts s) := by
  have ports : KeepsSupply s ((List.range 64).foldl (fun s p => syncPort p s) s) :=
    .foldl (fun _ p => keepsSupply_syncPort p) _
  have rdi (w : State) : KeepsSupply w ((List.range 32).foldl (fun s n => syncRdi n s) w) :=
    .foldl (fun _ n => keepsSupply_syncRdi n) _
  exact (ports.trans (rdi _)).trans keepsSupply_trimRecompute

/-! ## Trunk spans that start and stop (R175, R182) -/

theorem keepsSupply_rawDefect (p b : Nat) (v : Bool) : KeepsSupply s (rawDefect p b v s) :=
  keepsSupply_wr _ (.inl (by unfold Reg.PEN_DEF_RAW; omega))

theorem keepsSupply_setRxState (n v : Nat) : KeepsSupply s (setRxState n v s) := by
  have markers (w : State) : KeepsSupply w (syncMarkers n w) :=
    (keepsSupply_rawDefect ..).trans <| (keepsSupply_rawDefect ..).trans (keepsSupply_rawDefect ..)
  have shown (w : State) : KeepsSupply w (if patMode w n == .trunk then syncMarkers n w else w) :=
    (markers w).ite (.refl w)
  unfold setRxState
  dsimp only
  refine .trans ?_ keepsSupply_syncPorts
  exact ((keepsSupply_trkStatus ..).trans (keepsSupply_trkStatus ..)).trans (shown _)

theorem keepsSupply_emptySlot (sa : Nat) : KeepsSupply s (emptySlot sa s) := by
  have clears (w : State) : KeepsSupply w (w.bump Reg.SEC_ORPHAN_CLEARS) := keepsSupply_wr _ (.inl (by decide))
  have orphan : KeepsSupply s (countOrphan sa s) := by
    unfold countOrphan
    dsimp only
    split
    · split
      · exact (clears _).trans <| .trans (keepsSupply_wr (a := Reg.SEC_LAST) _ (.inl (by decide)))
          (keepsSupply_raiseEvent 8 0 (by decide))
      · exact clears _
    · exact .refl s
  exact orphan.trans ((keepsSupply_setSa ..).trans (keepsSupply_sec _))

theorem keepsSupply_refill (rx : Bool) (i : Nat) : KeepsSupply s (refill rx i s) := by
  have request (f : FillReq) : KeepsSupply s (requestFill f s) := (keepsSupply_setSa ..).trans (keepsSupply_sec _)
  unfold refill
  dsimp only
  split
  · exact .refl s
  · exact (request _).ite (.refl s)

/-- What was bound to an association of the span lets go of it; a slot that holds no more is emptied (R205). -/
theorem keepsSupply_unbind (sa gen : Nat) : KeepsSupply s (unbind sa gen s) := by
  unfold unbind
  dsimp only
  split
  · exact .refl s
  split
  · split
    · exact (keepsSupply_setSa ..).trans ((keepsSupply_emptySlot _).trans (keepsSupply_refill ..))
    · exact (keepsSupply_setSa ..).trans (keepsSupply_emptySlot _)
  · exact keepsSupply_setSa ..

theorem keepsSupply_trunkStop (n : Nat) : KeepsSupply s (trunkStop n s) := by
  have left (w : State) : KeepsSupply w (trkEvent n 1 w) :=
    .trans (keepsSupply_wr (a := Reg.FRM_TRK_LAST) _ (.inl (by decide))) (keepsSupply_raiseEvent 1 0 (by decide))
  have letGo (l : List (Nat × Nat)) (w : State) : KeepsSupply w (l.foldl (fun s a => unbind a.1 a.2 s) w) :=
    .foldl (fun _ a => keepsSupply_unbind a.1 a.2) l
  unfold trunkStop
  dsimp only
  refine .trans ?_ (keepsSupply_setRxState n 0)
  refine .trans ?_ ((keepsSupply_trkStatus ..).trans (keepsSupply_trkStatus ..))
  refine .trans ?_ ((letGo _ _).trans (keepsSupply_fab _))
  exact (keepsSupply_setTrk n _).trans ((left _).ite (.refl _))

theorem keepsSupply_followTrunks : KeepsSupply s (followTrunks s) :=
  .foldl (fun t _ => .ite (.refl t) <| .ite ((keepsSupply_setRxState ..).ite (.refl t)) <|
    .ite (.refl t) (keepsSupply_trunkStop _)) _

end Sys2Proof.Machine
end

section
/-! SUPPORT. Loss and return of input, and the stop: what each writes and what it leaves. -/

namespace Sys2Proof.Machine

variable {s t u : State}

/-! ## Input present and absent (R457, R502) -/

theorem setInput_rd {a : Nat} (b : Bool) (h : a ≠ Reg.PWR_STATUS) : (setInput b s).rd a = s.rd a :=
  State.rd_setBit_ne _ _ _ h

theorem setInput_shown (b : Bool) : (setInput b s).bit Reg.PWR_STATUS 3 = b :=
  State.bit_setBit_same _ _ _ _ (by decide)

theorem mem_mirrors_of_status : ∀ a ∈ statusRegs, a ∈ mirrors := by decide

theorem abandonStaged_pwr : (abandonStaged s).pwr = s.pwr := by rw [abandonStaged_rest]

theorem abandonStaged_key : (abandonStaged s).key = s.key := by rw [abandonStaged_rest]

theorem abandonStaged_cut : (abandonStaged s).pat.cut = s.pat.cut := by
  rcases abandonStaged_cases s with ⟨e, -⟩ | gone
  · rw [e]
  · rw [gone.pat]

theorem stagedRegs_lt : ∀ a ∈ stagedRegs, a < 0x340000 := by decide

/-- No register of the power block shows a staged Pattern. -/
theorem not_staged_of_supplyReg {a : Nat} (h : supplyReg a = true) : a ∉ stagedRegs := fun m => by
  simp [(not_supplyReg (.inl (stagedRegs_lt a m))).1] at h

/-- The loss of input is shown, and what is staged abandoned. -/
def inputLost (s : State) : State :=
  let t := abandonStaged (setInput false s)
  { t with pwr := { s.pwr with inputPresent := false, mode := if s.pwr.mode = .on then .hold else s.pwr.mode } }

/-- Beyond that, the loss of input shows POWER at most (R456). -/
theorem inputLoss_shows : inputLoss s = syncStatus (inputLost s) ∨ inputLoss s = inputLost s := by
  have pwr : (abandonStaged (setInput false s)).pwr = { s.pwr with inputPresent := false } := abandonStaged_pwr
  unfold inputLoss inputLost
  dsimp only
  rw [pwr]
  by_cases h : s.pwr.mode = .on
  · simp [h]
  · right
    rw [if_neg h, if_neg h, ← pwr]

theorem answers_inputLoss : Answers .inputLoss s (fun u =>
    u.bit Reg.PWR_STATUS 3 = false ∧ RegsBut (mirrors ++ stagedRegs) s u ∧ (s.pat.cut = none → u.pat.staged = none) ∧
    u.pwr = { s.pwr with inputPresent := false, mode := if s.pwr.mode = .on then .hold else s.pwr.mode }) := by
  refine answers_anyTime rfl ?_
  have keeps : KeepsSupply (inputLost s.fresh) (inputLoss s.fresh) := by
    rcases inputLoss_shows (s := s.fresh) with e | e <;> rw [e]
    · exact keepsSupply_syncStatus
    · exact .refl _
  have regs : RegsBut statusRegs (inputLost s.fresh) (inputLoss s.fresh) := by
    rcases inputLoss_shows (s := s.fresh) with e | e <;> rw [e]
    · exact fun a ha => syncStatus_rd _ ha
    · exact fun _ _ => rfl
  refine ⟨?_, fun a ha => ?_, fun cut => ?_, keeps.pwr⟩
  · have same : (abandonStaged (setInput false s.fresh)).bit Reg.PWR_STATUS 3 = false := by
      rw [State.bit, abandonStaged_rd (by decide)]
      exact setInput_shown false
    exact (keeps.status 3 (le_refl 3)).trans same
  · obtain ⟨mirror, staged⟩ : a ∉ mirrors ∧ a ∉ stagedRegs := by simpa using ha
    have status : a ≠ Reg.PWR_STATUS := fun e => mirror (by rw [e]; decide)
    refine (regs a fun m => mirror (mem_mirrors_of_status a m)).trans ?_
    exact (abandonStaged_rd (s := setInput false s.fresh) staged).trans (setInput_rd _ status)
  · rw [keeps.pat]
    exact abandonStaged_staged (s := setInput false s.fresh) cut

/-- The power event of a bit sets the bit, and is at most posted (R523). -/
theorem posts_pwrEvent (b : Nat) : Posts (s.setBit Reg.PWR_EVT b true) (pwrEvent b s) := posts_raiseEvent 0x10 b 0

theorem answers_inputReturn : Answers .inputReturn s (fun u =>
    u.bit Reg.PWR_STATUS 3 = true ∧
    u.pwr = { s.pwr with inputPresent := true, mode := if s.pwr.mode = .hold then .on else s.pwr.mode } ∧
    (s.pwr.mode = .hold → u.rd Reg.PWR_DIPS = min (s.rd Reg.PWR_DIPS + 1) 0xFFFFFFFF ∧ u.bit Reg.PWR_EVT 0 = true) ∧
    (s.pwr.mode ≠ .hold → RegsBut [Reg.PWR_STATUS] s u)) := by
  refine answers_anyTime (f := inputReturn) rfl ?_
  by_cases hold : s.pwr.mode = .hold
  · have back : inputReturn s.fresh = pwrEvent 0 ((syncStatus { setInput true s.fresh with
        pwr := { s.pwr with inputPresent := true, mode := .on } }).bump Reg.PWR_DIPS) := if_pos hold
    generalize present : ({ setInput true s.fresh with
        pwr := { s.pwr with inputPresent := true, mode := .on } } : State) = t at back
    have dips : t.rd Reg.PWR_DIPS = s.rd Reg.PWR_DIPS := by rw [← present]; exact setInput_rd true (by decide)
    have shown : t.bit Reg.PWR_STATUS 3 = true := by rw [← present]; exact setInput_shown true
    have pwr : t.pwr = { s.pwr with inputPresent := true, mode := .on } := by rw [← present]
    have posts := posts_pwrEvent (s := (syncStatus t).bump Reg.PWR_DIPS) 0
    rw [back, if_pos hold]
    refine ⟨?_, ?_, fun _ => ⟨?_, ?_⟩, fun n => absurd hold n⟩
    · rw [posts.keepsSupply.status 3 (le_refl 3), State.bit_setBit_ne _ _ _ _ (by decide), State.bump,
        State.bit_wr_ne _ _ _ (by decide), syncStatus_powerBit (le_refl 3), shown]
    · rw [posts.keepsSupply.pwr, State.setBit_pwr, State.bump_pwr, keepsSupply_syncStatus.pwr, pwr]
    · rw [posts.keepsSupply.regs _ (by decide), State.rd_setBit_ne _ _ _ (by decide), State.rd_bump_same,
        syncStatus_rd _ (by decide), dips]
    · rw [State.bit, posts.keepsSupply.regs _ (by decide)]
      exact State.bit_setBit_same _ _ _ _ (by decide)
  · have e : inputReturn s.fresh = setInput true s.fresh := if_neg hold
    rw [e, if_neg hold]
    exact ⟨setInput_shown true, rfl, fun h => absurd h hold, fun _ a ha => setInput_rd true (by simpa using ha)⟩

/-! ## The stop (R457, R505) -/

/-- A stop is counted in the enrolment record, and shown. -/
def stopCounted (s : State) : State :=
  let s := setRecord (fun r => { r with stops := (r.stops + 1) % 2 ^ 32 }) s
  match s.key.record with
  | some r => s.wr Reg.PWR_STOPS r.stops
  | none => s

/-- Admission closes; a warm reset and a cut in progress end. -/
def stopping (thermal : Bool) (s : State) : State := { s with
  pwr := { s.pwr with mode := .stopping, thermal := thermal, warm := none, warmHeld := none, keeperReset := false }
  pat := { s.pat with cut := none } }

/-- The stop as begun, before what depends on it follows. -/
def stopBegun (thermal : Bool) (s : State) : State := abandonStaged (stopping thermal (stopCounted s))

theorem beginStop_eq (thermal : Bool) :
    beginStop thermal s = syncPorts (followTrunks (syncStatus (stopBegun thermal s))) := rfl

theorem beginStop_keeps (thermal : Bool) : KeepsSupply (stopBegun thermal s) (beginStop thermal s) := by
  rw [beginStop_eq]
  exact keepsSupply_syncStatus.trans (keepsSupply_followTrunks.trans keepsSupply_syncPorts)

theorem stopCounted_cases :
    (s.key.record = none ∧ stopCounted s = s) ∨
    ∃ e, s.key.record = some e ∧ stopCounted s =
      (writeRecord { e with stops := (e.stops + 1) % 2 ^ 32 } s).wr Reg.PWR_STOPS ((e.stops + 1) % 2 ^ 32) := by
  unfold stopCounted setRecord
  cases h : s.key.record with
  | none => exact .inl ⟨rfl, by simp [h]⟩
  | some e => exact .inr ⟨e, rfl, rfl⟩

theorem stopCounted_rd {a : Nat} (h : a ≠ Reg.PWR_STOPS) : (stopCounted s).rd a = s.rd a := by
  rcases stopCounted_cases (s := s) with ⟨-, e⟩ | ⟨r, -, e⟩
  · rw [e]
  · rw [e, State.rd_wr_ne _ _ h]
    rfl

theorem stopCounted_rest : (stopCounted s).pwr = s.pwr ∧ (stopCounted s).pat = s.pat := by
  rcases stopCounted_cases (s := s) with ⟨-, e⟩ | ⟨r, -, e⟩ <;> rw [e] <;> exact ⟨rfl, rfl⟩

/-- What the stop leaves of the power registers: all but the count of stops, and PWR_STATUS above POWER. -/
theorem beginStop_rd {a : Nat} (thermal : Bool) (h : supplyReg a = true) (stops : a ≠ Reg.PWR_STOPS) :
    (beginStop thermal s).rd a = s.rd a := by
  rw [(beginStop_keeps thermal).regs a h, stopBegun, abandonStaged_rd (not_staged_of_supplyReg h)]
  exact stopCounted_rd stops

theorem beginStop_bit {n : Nat} (thermal : Bool) (h : 3 ≤ n) :
    (beginStop thermal s).bit Reg.PWR_STATUS n = s.bit Reg.PWR_STATUS n := by
  rw [(beginStop_keeps thermal).status n h, State.bit, stopBegun, abandonStaged_rd (by decide), State.bit]
  exact congrArg (Nat.testBit · n) (stopCounted_rd (by decide))

theorem beginStop_pwr (thermal : Bool) : (beginStop thermal s).pwr =
    { s.pwr with mode := .stopping, thermal := thermal, warm := none, warmHeld := none, keeperReset := false } := by
  rw [(beginStop_keeps thermal).pwr, stopBegun, abandonStaged_pwr, stopping, stopCounted_rest.1]

/-- The module has stopped: nothing of a reset, a cut or a staged Pattern is left, every span runs as Discard, and the
stop is counted in the record that was. -/
def Stopped (thermal : Bool) (record : Option EnrolRecord) (u : State) : Prop :=
  u.pwr.mode = .stopping ∧ u.pwr.thermal = thermal ∧ u.pwr.warm = none ∧ u.pwr.warmHeld = none ∧
  u.pat.cut = none ∧ u.pat.staged = none ∧ (∀ n < 32, runMode u n = .discard) ∧
  ∀ e, record = some e → ∃ e', u.key.record = some e' ∧ e'.stops = (e.stops + 1) % 2 ^ 32 ∧
    u.rd Reg.PWR_STOPS = e'.stops

theorem runMode_closed (h : admissionClosed s = true) (n : Nat) : runMode s n = .discard := by
  simp [runMode, h]

theorem beginStop_stopped (thermal : Bool) : Stopped thermal s.key.record (beginStop thermal s) := by
  have keeps := beginStop_keeps (s := s) thermal
  have pwr := beginStop_pwr (s := s) thermal
  have closed : admissionClosed (beginStop thermal s) = true := by simp [admissionClosed, pwr]
  refine ⟨by rw [pwr], by rw [pwr], by rw [pwr], by rw [pwr], ?_, ?_, fun n _ => runMode_closed closed n, ?_⟩
  · rw [keeps.pat, stopBegun, abandonStaged_cut]; rfl
  · rw [keeps.pat]; exact abandonStaged_staged rfl
  · intro e he
    refine ⟨{ e with stops := (e.stops + 1) % 2 ^ 32 }, ?_, rfl, ?_⟩
    · rw [keeps.key, stopBegun, abandonStaged_key]
      rcases stopCounted_cases (s := s) with ⟨none, -⟩ | ⟨r, some, counted⟩
      · simp [none] at he
      · obtain rfl : r = e := by simpa [some] using he
        rw [stopping, counted]
        rfl
    · rw [keeps.regs _ (by decide), stopBegun, abandonStaged_rd (by decide)]
      rcases stopCounted_cases (s := s) with ⟨none, -⟩ | ⟨r, some, counted⟩
      · simp [none] at he
      · obtain rfl : r = e := by simpa [some] using he
        rw [stopping, counted]
        exact (State.rd_wr_same ..).trans (Nat.mod_mod _ _)

theorem answers_holdExpire (h : s.pwr.mode = .hold) : Answers .holdExpire s (Stopped false s.key.record) := by
  refine answers_anyTime (f := holdExpire) rfl ?_
  have stops : holdExpire s.fresh = beginStop false s.fresh := if_pos h
  rw [stops]
  exact beginStop_stopped (s := s.fresh) false

end Sys2Proof.Machine
end

section
/-! SUPPORT. Samples of temperature and supply: what each shows, and when one stops or starts the module. -/

namespace Sys2Proof.Machine

variable {s t u : State}

/-! ## The supply meter (R500, R503, R522) -/

/-- The supply meter's report, where there is one, is shown. -/
def reported (supply : Option SupplyReading) (s : State) : State :=
  match supply with
  | some r => supplyReport r s
  | none => s

theorem regsDiffer_reported (supply : Option SupplyReading) : RegsDiffer s (reported supply s) := by
  cases supply with
  | none => exact .refl s
  | some r =>
    exact (regsDiffer_wr ..).trans <| (regsDiffer_wr ..).trans <| (regsDiffer_wr ..).trans <|
      (regsDiffer_setBit ..).trans <| (regsDiffer_wr ..).trans (regsDiffer_setBit ..)

theorem supplyReport_shown (x : SupplyReading) : let u := supplyReport x s
    u.rd Reg.PWR_IN_V = x.decivolts.toNat ∧ u.rd Reg.PWR_IN_MW = x.milliwatts.toNat ∧
    u.rd Reg.PWR_IN_HZ = x.decihertz.toNat ∧ u.rd Reg.PWR_VBAT = x.vbat.toNat ∧
    u.bit Reg.PWR_STATUS 4 = (x.decihertz != 0) := by
  have volts := x.decivolts.isLt
  have watts := x.milliwatts.isLt
  have hertz := x.decihertz.isLt
  have vbat := x.vbat.isLt
  unfold supplyReport
  dsimp only
  refine ⟨?_, ?_, ?_, ?_, ?_⟩
  · rw [State.rd_setBit_ne _ _ _ (by decide), State.rd_wr_ne _ _ (by decide), State.rd_setBit_ne _ _ _ (by decide),
      State.rd_wr_ne _ _ (by decide), State.rd_wr_ne _ _ (by decide), State.rd_wr_same]
    omega
  · rw [State.rd_setBit_ne _ _ _ (by decide), State.rd_wr_ne _ _ (by decide), State.rd_setBit_ne _ _ _ (by decide),
      State.rd_wr_ne _ _ (by decide), State.rd_wr_same]
    omega
  · rw [State.rd_setBit_ne _ _ _ (by decide), State.rd_wr_ne _ _ (by decide), State.rd_setBit_ne _ _ _ (by decide),
      State.rd_wr_same]
    omega
  · rw [State.rd_setBit_ne _ _ _ (by decide), State.rd_wr_same]
    omega
  · rw [State.bit_setBit_off _ _ _ _ _ (by decide) (by decide), State.bit_wr_ne _ _ _ (by decide),
      State.bit_setBit_same _ _ _ _ (by decide)]

/-- Neither the threshold nor HOT is the supply meter's. -/
theorem reported_thr (supply : Option SupplyReading) : (reported supply s).rd Reg.PWR_THR = s.rd Reg.PWR_THR := by
  cases supply with
  | none => rfl
  | some r =>
    unfold reported supplyReport
    dsimp only
    rw [State.rd_setBit_ne _ _ _ (by decide), State.rd_wr_ne _ _ (by decide), State.rd_setBit_ne _ _ _ (by decide),
      State.rd_wr_ne _ _ (by decide), State.rd_wr_ne _ _ (by decide), State.rd_wr_ne _ _ (by decide)]

theorem reported_hot (supply : Option SupplyReading) :
    (reported supply s).bit Reg.PWR_STATUS 5 = s.bit Reg.PWR_STATUS 5 := by
  cases supply with
  | none => rfl
  | some r =>
    unfold reported supplyReport
    dsimp only
    rw [State.bit_setBit_off _ _ _ _ _ (by decide) (by decide), State.bit_wr_ne _ _ _ (by decide),
      State.bit_setBit_off _ _ _ _ _ (by decide) (by decide), State.bit_wr_ne _ _ _ (by decide),
      State.bit_wr_ne _ _ _ (by decide), State.bit_wr_ne _ _ _ (by decide)]

/-! ## HOT (R505) -/

/-- HOT and the power event are all that a check of the temperature changes outside the host interface. -/
structure OnlyHot (s u : State) : Prop where
  pwr : u.pwr = s.pwr
  key : u.key = s.key
  regs : ∀ a, supplyReg a = true → a ≠ Reg.PWR_EVT → u.rd a = s.rd a
  status : ∀ n, 3 ≤ n → n ≠ 5 → u.bit Reg.PWR_STATUS n = s.bit Reg.PWR_STATUS n

/-- HOT turns to `x`, with its event. -/
theorem hotTurns (b : Nat) (x : Bool) :
    OnlyHot s (pwrEvent b (s.setBit Reg.PWR_STATUS 5 x)) ∧
    (pwrEvent b (s.setBit Reg.PWR_STATUS 5 x)).bit Reg.PWR_STATUS 5 = x := by
  have posts := (posts_pwrEvent (s := s.setBit Reg.PWR_STATUS 5 x) b).keepsSupply
  refine ⟨⟨posts.pwr, posts.key, fun a ha ne => ?_, fun n hn ne => ?_⟩, ?_⟩
  · have status : a ≠ Reg.PWR_STATUS := fun e => by rw [e] at ha; exact absurd ha (by decide)
    rw [posts.regs a ha, State.rd_setBit_ne _ _ _ ne, State.rd_setBit_ne _ _ _ status]
  · rw [posts.status n hn, State.bit_setBit_ne _ _ _ _ (by decide), State.bit_setBit_off _ _ _ _ _ (by decide) ne]
  · rw [posts.status 5 (by decide), State.bit_setBit_ne _ _ _ _ (by decide), State.bit_setBit_same _ _ _ _ (by decide)]

/-- HOT is set from the threshold up, cleared from 5 °C below it down, and stays in between. -/
theorem hotCheck_shown (die : Int) : let u := hotCheck die s; let hot : Int := 4 * s.rdF Reg.PWR_THR 0 8
    OnlyHot s u ∧ (hot ≤ die → u.bit Reg.PWR_STATUS 5 = true) ∧ (die ≤ hot - 20 → u.bit Reg.PWR_STATUS 5 = false) ∧
    (hot - 20 < die → die < hot → u.bit Reg.PWR_STATUS 5 = s.bit Reg.PWR_STATUS 5) := by
  have same : OnlyHot s s := ⟨rfl, rfl, fun _ _ _ => rfl, fun _ _ _ => rfl⟩
  unfold hotCheck
  dsimp only
  split
  case isTrue high =>
    split
    case isTrue set => exact ⟨same, fun _ => set, fun _ => by omega, fun _ _ => rfl⟩
    case isFalse =>
      obtain ⟨frame, bit⟩ := hotTurns (s := s) 1 true
      exact ⟨frame, fun _ => bit, fun _ => by omega, fun _ _ => by omega⟩
  case isFalse low =>
    split
    case isTrue falls =>
      obtain ⟨frame, bit⟩ := hotTurns (s := s) 2 false
      exact ⟨frame, fun _ => by omega, fun _ => bit, fun _ _ => by omega⟩
    case isFalse stays =>
      refine ⟨same, fun _ => by omega, fun cool => ?_, fun _ _ => rfl⟩
      simpa [cool] using stays

/-! ## The sample (R505) -/

/-- What the sample shows, before it is noted. -/
def sampleShown (die plate : Nat) (supply : Option SupplyReading) (s : State) : State :=
  hotCheck (quarterDeg die) ((reported supply s).wr Reg.PWR_TEMP (die + 2 ^ 16 * plate))

/-- The sample is noted for the next. -/
def sampled (die plate : Nat) (supply : Option SupplyReading) (s : State) : State :=
  let v := sampleShown die plate supply s
  { v with pwr := { v.pwr with overTemp := decide (500 ≤ quarterDeg die) } }

/-- The sample stops the module: the second in a row at 125 °C or above, in Run, Trim or Hold. -/
def stopsHot (die : Nat) (s : State) : Bool :=
  decide (500 ≤ quarterDeg die) && s.pwr.overTemp && (s.pwr.mode == .on || s.pwr.mode == .hold)

variable {die plate : Nat} {supply : Option SupplyReading}

theorem onlyHot_sampleShown :
    OnlyHot ((reported supply s).wr Reg.PWR_TEMP (die + 2 ^ 16 * plate)) (sampleShown die plate supply s) :=
  (hotCheck_shown (quarterDeg die)).1

theorem sampleShown_pwr : (sampleShown die plate supply s).pwr = s.pwr := by
  rw [onlyHot_sampleShown.pwr, State.wr_pwr, (regsDiffer_reported supply).eq]

theorem sampleShown_key : (sampleShown die plate supply s).key = s.key := by
  rw [onlyHot_sampleShown.key, State.wr_key, (regsDiffer_reported supply).eq]

theorem tempSample_up (h : railsUp s = true) : tempSample die plate supply s =
    if stopsHot die s then beginStop true (sampled die plate supply s) else sampled die plate supply s := by
  have e : tempSample die plate supply s = if stopsHot die (sampleShown die plate supply s)
      then beginStop true (sampled die plate supply s) else sampled die plate supply s := if_pos h
  have same : stopsHot die (sampleShown die plate supply s) = stopsHot die s := by
    rw [stopsHot, sampleShown_pwr, stopsHot]
  rw [e, same]

/-- Whether it stops the module or not, a sample leaves shown what it showed: but for the count of stops, the power
registers, and PWR_STATUS above POWER. -/
theorem tempSample_shows (h : railsUp s = true) : let u := tempSample die plate supply s
    (∀ a, supplyReg a = true → a ≠ Reg.PWR_STOPS → u.rd a = (sampleShown die plate supply s).rd a) ∧
    (∀ n, 3 ≤ n → u.bit Reg.PWR_STATUS n = (sampleShown die plate supply s).bit Reg.PWR_STATUS n) ∧
    u.pwr.overTemp = decide (500 ≤ quarterDeg die) := by
  dsimp only
  rw [tempSample_up h]
  split
  · exact ⟨fun _ ha ne => beginStop_rd true ha ne, fun _ hn => beginStop_bit true hn, by rw [beginStop_pwr]; rfl⟩
  · exact ⟨fun _ _ _ => rfl, fun _ _ => rfl, rfl⟩

theorem sampleShown_supply (x : SupplyReading) : let u := sampleShown die plate (some x) s
    u.rd Reg.PWR_IN_V = x.decivolts.toNat ∧ u.rd Reg.PWR_IN_MW = x.milliwatts.toNat ∧
    u.rd Reg.PWR_IN_HZ = x.decihertz.toNat ∧ u.rd Reg.PWR_VBAT = x.vbat.toNat ∧
    u.bit Reg.PWR_STATUS 4 = (x.decihertz != 0) := by
  obtain ⟨volts, watts, hertz, vbat, mains⟩ := supplyReport_shown (s := s) x
  obtain ⟨-, -, regs, status⟩ := onlyHot_sampleShown (s := s) (die := die) (plate := plate) (supply := some x)
  dsimp only
  rw [regs _ (by decide) (by decide), regs _ (by decide) (by decide), regs _ (by decide) (by decide),
    regs _ (by decide) (by decide), status 4 (by decide) (by decide), State.rd_wr_ne _ _ (by decide),
    State.rd_wr_ne _ _ (by decide), State.rd_wr_ne _ _ (by decide), State.rd_wr_ne _ _ (by decide),
    State.bit_wr_ne _ _ _ (by decide)]
  exact ⟨volts, watts, hertz, vbat, mains⟩

theorem sampleShown_temp (hd : die < 2 ^ 12) (hp : plate < 2 ^ 12) :
    (sampleShown die plate supply s).rd Reg.PWR_TEMP = die + 2 ^ 16 * plate := by
  rw [onlyHot_sampleShown.regs _ (by decide) (by decide), State.rd_wr_same]
  omega

theorem sampleShown_hot : let u := sampleShown die plate supply s
    let d := quarterDeg die; let hot : Int := 4 * s.rdF Reg.PWR_THR 0 8
    (hot ≤ d → u.bit Reg.PWR_STATUS 5 = true) ∧ (d ≤ hot - 20 → u.bit Reg.PWR_STATUS 5 = false) ∧
    (hot - 20 < d → d < hot → u.bit Reg.PWR_STATUS 5 = s.bit Reg.PWR_STATUS 5) := by
  obtain ⟨-, shown⟩ := hotCheck_shown (quarterDeg die) (s := (reported supply s).wr Reg.PWR_TEMP (die + 2 ^ 16 * plate))
  rw [State.rdF, State.rd_wr_ne _ _ (by decide), reported_thr, State.bit_wr_ne _ _ _ (by decide), reported_hot] at shown
  exact shown

/-- Two samples in a row at 125 °C or above stop the module. -/
theorem tempSample_stopped (h : railsUp s = true) (hot : stopsHot die s = true) :
    Stopped true s.key.record (tempSample die plate supply s) := by
  have key : (sampled die plate supply s).key = s.key := sampleShown_key
  rw [tempSample_up h, if_pos hot, ← key]
  exact beginStop_stopped true

/-- One alone, or a cooler one, leaves power mode and key store as they were. -/
theorem tempSample_runs (h : railsUp s = true) (cool : stopsHot die s = false) :
    (tempSample die plate supply s).pwr.mode = s.pwr.mode ∧ (tempSample die plate supply s).key = s.key := by
  have mode : (sampleShown die plate supply s).pwr.mode = s.pwr.mode := by rw [sampleShown_pwr]
  rw [tempSample_up h, if_neg (by simp [cool])]
  exact ⟨mode, sampleShown_key⟩

theorem answers_tempSample_up {die plate : BitVec 12} (h : railsUp s = true) :
    let d := quarterDeg die.toNat; let hot : Int := 4 * s.rdF Reg.PWR_THR 0 8
    Answers (.tempSample die plate supply) s (fun u =>
      (∀ x, supply = some x → u.rd Reg.PWR_IN_V = x.decivolts.toNat ∧ u.rd Reg.PWR_IN_MW = x.milliwatts.toNat ∧
        u.rd Reg.PWR_IN_HZ = x.decihertz.toNat ∧ u.rd Reg.PWR_VBAT = x.vbat.toNat ∧
        u.bit Reg.PWR_STATUS 4 = (x.decihertz != 0)) ∧
      u.rd Reg.PWR_TEMP = die.toNat + 2 ^ 16 * plate.toNat ∧ u.pwr.overTemp = decide (500 ≤ d) ∧
      (hot ≤ d → u.bit Reg.PWR_STATUS 5 = true) ∧ (d ≤ hot - 20 → u.bit Reg.PWR_STATUS 5 = false) ∧
      (hot - 20 < d → d < hot → u.bit Reg.PWR_STATUS 5 = s.bit Reg.PWR_STATUS 5) ∧
      (500 ≤ d → s.pwr.overTemp = true → (s.pwr.mode = .on ∨ s.pwr.mode = .hold) → Stopped true s.key.record u) ∧
      ((d < 500 ∨ s.pwr.overTemp = false) → u.pwr.mode = s.pwr.mode ∧ u.key = s.key)) := by
  have up : railsUp s.fresh = true := h
  obtain ⟨regs, status, note⟩ :=
    tempSample_shows (s := s.fresh) (die := die.toNat) (plate := plate.toNat) (supply := supply) up
  obtain ⟨high, low, between⟩ :=
    sampleShown_hot (s := s.fresh) (die := die.toNat) (plate := plate.toNat) (supply := supply)
  refine answers_anyTime (f := tempSample die.toNat plate.toNat supply) rfl ⟨?_, ?_, note, ?_, ?_, ?_, ?_, ?_⟩
  · rintro x rfl
    obtain ⟨volts, watts, hertz, vbat, mains⟩ := sampleShown_supply (s := s.fresh) (die := die.toNat) (plate := plate.toNat) x
    rw [regs _ (by decide) (by decide), regs _ (by decide) (by decide), regs _ (by decide) (by decide),
      regs _ (by decide) (by decide), status 4 (by decide)]
    exact ⟨volts, watts, hertz, vbat, mains⟩
  · rw [regs _ (by decide) (by decide)]
    exact sampleShown_temp die.isLt plate.isLt
  · rw [status 5 (by decide)]; exact high
  · rw [status 5 (by decide)]; exact low
  · rw [status 5 (by decide)]; exact between
  · intro hd noted mode
    refine tempSample_stopped (s := s.fresh) (die := die.toNat) up ?_
    simpa [stopsHot, hd, noted] using mode
  · intro cool
    refine tempSample_runs (s := s.fresh) up ?_
    rcases cool with cold | first
    · simp [stopsHot, cold]
    · simp [stopsHot, first]

/-! ## The start after a thermal stop, and the cold start (R505, R516, R519) -/

/-- Start-up shows its cause and its step; power state and key store are as they were handed to it. -/
theorem startUp_shows {cause step : Nat} (hc : cause < 2 ^ 32) (hs : step < 2 ^ 4) :
    (startUp cause step s).rd Reg.PWR_LAST_RESET = cause ∧ (startUp cause step s).rdF Reg.PWR_STATUS 8 4 = step ∧
    (startUp cause step s).pwr = s.pwr ∧ (startUp cause step s).key = s.key := by
  have keeps : KeepsSupply (enterStep step (s.wr Reg.PWR_LAST_RESET cause)) (startUp cause step s) :=
    keepsSupply_syncStatus
  refine ⟨?_, ?_, keeps.pwr, keeps.key⟩
  · rw [keeps.regs _ (by decide), enterStep, State.rd_wrF_ne _ _ _ _ (by decide), State.rd_wr_same]
    exact Nat.mod_eq_of_lt hc
  · rw [startUp, syncStatus_powerField 4 (by decide), enterStep, State.rdF_wrF_same _ _ _ _ _ (by decide)]
    exact Nat.mod_eq_of_lt hs

theorem answers_coldStart (down : railsUp s = false) (cool : s.pwr.thermal = false) : Answers .coldStart s (fun u =>
    u.pwr.mode = .on ∧ u.pwr.inputPresent = true ∧ u.rd Reg.PWR_LAST_RESET = (if s.pwr.afterStop then 1 else 0) ∧
    u.rdF Reg.PWR_STATUS 8 4 = 1 ∧ u.key = s.key) := by
  refine answers_anyTime (f := coldStart) rfl ?_
  have starts : coldStart s.fresh = startUp (if s.pwr.afterStop then 1 else 0) 1 { setInput true s.fresh with
      pwr := { s.pwr with inputPresent := true, mode := .on, afterStop := false } } := by
    have down' : railsUp s.fresh = false := down
    have cool' : (setInput true s.fresh).pwr.thermal = false := cool
    rw [coldStart, if_neg (by simp [down'])]
    exact if_neg (by simp [cool'])
  obtain ⟨cause, step, pwr, key⟩ := startUp_shows (cause := if s.pwr.afterStop then 1 else 0) (step := 1)
    (s := { setInput true s.fresh with pwr := { s.pwr with inputPresent := true, mode := .on, afterStop := false } })
    (by split <;> decide) (by decide)
  rw [starts]
  exact ⟨by rw [pwr], by rw [pwr], cause, step, key⟩

theorem answers_coldStart_hot (down : railsUp s = false) (hot : s.pwr.thermal = true) : Answers .coldStart s (fun u =>
    u.pwr = { s.pwr with inputPresent := true } ∧ RegsBut [Reg.PWR_STATUS] s u) := by
  refine answers_anyTime (f := coldStart) rfl ?_
  have waits : coldStart s.fresh = setInput true s.fresh := by
    have down' : railsUp s.fresh = false := down
    have hot' : (setInput true s.fresh).pwr.thermal = true := hot
    rw [coldStart, if_neg (by simp [down'])]
    exact if_pos hot'
  rw [waits]
  exact ⟨rfl, fun a ha => setInput_rd true (by simpa using ha)⟩

theorem tempSample_down (down : railsUp s = false) (cool : s.pwr.thermal = true ∧ quarterDeg die ≤ 400) :
    tempSample die plate supply s =
      if s.pwr.inputPresent then
        startUp 5 1 { s with pwr := { s.pwr with thermal := false, mode := .on, afterStop := false } }
      else { s with pwr := { s.pwr with thermal := false } } :=
  (if_neg (by simp [down])).trans (if_pos cool)

theorem answers_tempSample_cool {die plate : BitVec 12} (down : railsUp s = false) (hot : s.pwr.thermal = true)
    (cool : quarterDeg die.toNat ≤ 400) : Answers (.tempSample die plate supply) s (fun u =>
      u.pwr.thermal = false ∧ (s.pwr.inputPresent = true → u.pwr.mode = .on ∧ u.rd Reg.PWR_LAST_RESET = 5 ∧
        u.rdF Reg.PWR_STATUS 8 4 = 1) ∧
      (s.pwr.inputPresent = false → u.pwr.mode = s.pwr.mode ∧ u.regs = s.regs)) := by
  refine answers_anyTime (f := tempSample die.toNat plate.toNat supply) rfl ?_
  rw [tempSample_down (s := s.fresh) down ⟨hot, cool⟩]
  cases present : s.pwr.inputPresent with
  | true =>
    obtain ⟨cause, step, pwr, -⟩ := startUp_shows (cause := 5) (step := 1) (by decide) (by decide)
      (s := { s.fresh with pwr := { s.pwr with thermal := false, mode := .on, afterStop := false } })
    rw [if_pos (by exact present)]
    exact ⟨congrArg PwrState.thermal pwr, fun _ => ⟨congrArg PwrState.mode pwr, cause, step⟩, by simp⟩
  | false =>
    rw [if_neg (by simp [present])]
    exact ⟨rfl, by simp, fun _ => ⟨rfl, rfl⟩⟩

theorem answers_tempSample_idle {die plate : BitVec 12} (down : railsUp s = false)
    (idle : s.pwr.thermal = false ∨ 400 < quarterDeg die.toNat) :
    Answers (.tempSample die plate supply) s (fun u => u = s.fresh) := by
  refine answers_anyTime (f := tempSample die.toNat plate.toNat supply) rfl ?_
  have down' : railsUp s.fresh = false := down
  have stays : ¬(s.fresh.pwr.thermal = true ∧ quarterDeg die.toNat ≤ 400) := by
    rintro ⟨hot, cool⟩
    rcases idle with h | h
    · exact absurd hot (by simp [h])
    · omega
  exact (if_neg (by simp [down'])).trans (if_neg stays)

end Sys2Proof.Machine
end

section
/-! SUPPORT. The core reset when the rails go off: what it empties, what it keeps, and the pins that rise. -/

namespace Sys2Proof.Machine

variable {s t u : State}

/-! ## The core reset (R516) -/

theorem coreReset_sec (cold : Bool) : (coreReset cold s).sec = {} := by cases cold <;> rfl

theorem coreReset_sch (cold : Bool) : (coreReset cold s).sch = {} := by cases cold <;> rfl

theorem RegsDiffer.out (h : RegsDiffer s t) : t.out = s.out := by
  obtain ⟨r, rfl⟩ := h
  rfl

theorem coreReset_out (cold : Bool) : (coreReset cold s).out = s.out := by
  have bases (w : State) : ((List.range 4).foldl (fun s b => s.wrF (Reg.TB_STATUS b) 1 5 0) w).out = w.out :=
    List.foldlRecOn (motive := fun t : State => t.out = w.out) _ _ rfl fun _ ht _ _ => ht
  unfold coreReset
  dsimp only
  rw [(syncStatus_rest _).out, State.setBit_out, State.setBit_out, State.wrF_out, State.setBit_out, State.wrF_out]
  split
  · rw [List.foldl_fixed]
    rfl
  · rw [State.setBit_out]
    exact bases _

theorem coreReset_inputPresent (cold : Bool) : (coreReset cold s).pwr.inputPresent = s.pwr.inputPresent := by
  cases cold <;> rfl

/-- Of the key store, parents go; vault and record outlast the reset (R253). -/
theorem coreReset_key (cold : Bool) : (coreReset cold s).key.parents = [] ∧
    (coreReset cold s).key.vaultOpen = s.key.vaultOpen ∧ (coreReset cold s).key.vault = s.key.vault ∧
    (coreReset cold s).key.record = s.key.record := by
  cases cold <;> exact ⟨rfl, rfl, rfl, rfl⟩

/-- A cold reset leaves every register at its reset value but those kept and those that show other state. -/
theorem coreReset_cold_rd {a : Nat} (kept : keptReg a = false) (shown : a ∉ mirrors) (hif : a ≠ Reg.HIF_STATUS) :
    (coreReset true s).rd a = regReset a % 2 ^ 32 := by
  have status : a ∉ statusRegs := fun m => shown (mem_mirrors_of_status a m)
  have power : a ≠ Reg.PWR_STATUS := fun e => by rw [e] at kept; exact absurd kept (by decide)
  have clock : a ≠ Reg.CLK_STATUS := fun e => by rw [e] at kept; exact absurd kept (by decide)
  have bank : a ≠ Reg.PWR_FW_STATUS := fun e => by rw [e] at kept; exact absurd kept (by decide)
  unfold coreReset
  dsimp only
  rw [syncStatus_rd _ status, State.rd_setBit_ne _ _ _ power, State.rd_setBit_ne _ _ _ clock,
    State.rd_wrF_ne _ _ _ _ clock, State.rd_setBit_ne _ _ _ hif, State.rd_wrF_ne _ _ _ _ bank]
  refine (rd_resetRegs (s := s) (fun a => !(keptReg a || (!true && warmTimReg a))) a).trans ?_
  simp [kept]

/-! ## The rails go off (R449, R457, R472, R538) -/

theorem pinsRise_rest : pinsRise s = { s with out := (pinsRise s).out } := by
  unfold pinsRise
  dsimp only
  split <;> split <;> rfl

theorem pinsRise_kalarm (h : s.rdF Reg.KPR_ALARM 0 12 ≠ 0) : .pin "KALARM_N" true ∈ (pinsRise s).out := by
  unfold pinsRise
  dsimp only
  rw [if_neg h]
  split <;> simp

theorem pinsRise_active (h : pairActive (pairState s) = true) : .pin "HRN_ACTIVE_N" true ∈ (pinsRise s).out := by
  have same (o : Output) : pairState (s.emit o) = pairState s := rfl
  unfold pinsRise
  dsimp only
  split
  · simp
  · rw [if_pos (by rw [same]; exact h)]; simp

theorem railsOff_stopping (h : s.pwr.mode = .stopping) (idle : s.key.zeroizing = none) :
    let v := (coreReset (!s.pwr.thermal) (pinsRise s)).emit (.pin "TROX_ACT_N" true)
    railsOff s = { v with pwr := { v.pwr with mode := .battery, afterStop := v.pwr.inputPresent } } := by
  have done : zeroizeDone s = s := by simp [zeroizeDone, idle]
  rw [railsOff, if_neg (by simp [h]), done]

theorem answers_railsOff (stop : s.pwr.mode = .stopping) (idle : s.key.zeroizing = none) :
    Answers .railsOff s (fun u =>
      u.pwr.mode = .battery ∧ u.pwr.afterStop = s.pwr.inputPresent ∧ u.sec = {} ∧ u.sch = {} ∧ u.key.parents = [] ∧
      .pin "TROX_ACT_N" true ∈ u.out ∧ (s.rdF Reg.KPR_ALARM 0 12 ≠ 0 → .pin "KALARM_N" true ∈ u.out) ∧
      (pairActive (pairState s) = true → .pin "HRN_ACTIVE_N" true ∈ u.out) ∧
      u.key.vaultOpen = s.key.vaultOpen ∧ u.key.vault = s.key.vault ∧ u.key.record = s.key.record ∧
      (s.pwr.thermal = false → ∀ a, keptReg a = false → a ∉ mirrors → a ≠ Reg.HIF_STATUS →
        u.rd a = regReset a % 2 ^ 32)) := by
  refine answers_anyTime (f := railsOff) rfl ?_
  have rest : (pinsRise s.fresh).key = s.key ∧ (pinsRise s.fresh).pwr = s.pwr := by
    rw [pinsRise_rest]; exact ⟨rfl, rfl⟩
  obtain ⟨keyRest, pwrRest⟩ := rest
  have kalarm : s.rdF Reg.KPR_ALARM 0 12 ≠ 0 → .pin "KALARM_N" true ∈ (pinsRise s.fresh).out :=
    pinsRise_kalarm (s := s.fresh)
  have active : pairActive (pairState s) = true → .pin "HRN_ACTIVE_N" true ∈ (pinsRise s.fresh).out :=
    pinsRise_active (s := s.fresh)
  rw [railsOff_stopping (s := s.fresh) stop idle]
  generalize pinsRise s.fresh = p at *
  have cold (h : s.pwr.thermal = false) {a : Nat} (kept : keptReg a = false) (shown : a ∉ mirrors)
      (hif : a ≠ Reg.HIF_STATUS) : (coreReset (!s.fresh.pwr.thermal) p).rd a = regReset a % 2 ^ 32 := by
    rw [State.fresh_pwr, h]
    exact coreReset_cold_rd kept shown hif
  obtain ⟨parents, vaultOpen, vault, record⟩ := coreReset_key (s := p) (!s.fresh.pwr.thermal)
  have sec := coreReset_sec (s := p) (!s.fresh.pwr.thermal)
  have sch := coreReset_sch (s := p) (!s.fresh.pwr.thermal)
  have out := coreReset_out (s := p) (!s.fresh.pwr.thermal)
  have input := coreReset_inputPresent (s := p) (!s.fresh.pwr.thermal)
  rw [keyRest] at vaultOpen vault record
  rw [pwrRest] at input
  generalize coreReset (!s.fresh.pwr.thermal) p = v at *
  have rises {o : Output} (h : o ∈ p.out) : o ∈ (v.emit (.pin "TROX_ACT_N" true)).out := by
    rw [State.emit_out, out]
    exact List.mem_append_left _ h
  exact ⟨rfl, input, sec, sch, parents, List.mem_append_right _ (List.mem_singleton_self _),
    fun h => rises (kalarm h), fun h => rises (active h), vaultOpen, vault, record, fun h _ => cold h⟩

/-! ## Battery (R253, R456) -/

theorem answers_vbatLost (h : s.pwr.mode = .battery) : Answers .vbatAndCapacitorLost s (fun u =>
    u.pwr.mode = .off ∧ u.key.vaultOpen = false ∧ u.key.vault = {} ∧ u.key.record = s.key.record ∧
    u.bit Reg.PWR_STATUS 6 = false) := by
  refine answers_anyTime (f := vbatLost) rfl ?_
  rw [vbatLost, if_neg (by simp [h])]
  exact ⟨rfl, rfl, rfl, rfl, State.bit_setBit_same s _ _ _ (by decide)⟩

/-! ## The statement -/

/-- Settles O56, command by command: loss and return of input, the stop at the end of Hold, the rails, the loss of VBAT,
the cold start, and the samples with the rails up and down. Outside its occasion each command does nothing. -/
theorem supplyStopsAndStarts : Obligations.SupplyStopsAndStarts := by
  intro s step stopped
  refine ⟨answers_inputLoss, answers_inputReturn, answers_holdExpire, fun h => ?_, answers_railsOff, fun h => ?_,
    answers_vbatLost, fun h => ?_, answers_coldStart, answers_coldStart_hot, fun up => ?_,
    fun die plate supply => ⟨answers_tempSample_up, answers_tempSample_cool, answers_tempSample_idle⟩⟩
  · exact answers_anyTime (f := holdExpire) rfl (if_neg h)
  · exact answers_anyTime (f := railsOff) rfl (if_pos h)
  · exact answers_anyTime (f := vbatLost) rfl (if_pos h)
  · exact answers_anyTime (f := coldStart) rfl (if_pos up)

end Sys2Proof.Machine
end

section
/-! SUPPORT. The registers of the islands: which operations leave them all, and which write those of one island. -/

namespace Sys2Proof.Machine

variable {s t u : State} {i : Nat}

/-! ## The registers of islands (R79, R98) -/

/-- The registers that show neither the state of an island nor its supply. -/
def offIslands (a : Nat) : Bool := decide (a < 0xC0200) || decide (0xC0360 ≤ a)

theorem offIslands_of {a : Nat} (h : a < 0xC0200 ∨ 0xC0360 ≤ a) : offIslands a = true := by
  simpa [offIslands] using h

theorem offIslands_eq_false {a : Nat} (lo : 0xC0200 ≤ a) (hi : a < 0xC0360) : offIslands a = false := by
  simp [offIslands, lo, hi]

theorem offIslands_status (i : Nat) : offIslands (Reg.CPH_ISL_STATUS i) = false :=
  offIslands_eq_false (by unfold Reg.CPH_ISL_STATUS; omega) (by unfold Reg.CPH_ISL_STATUS; omega)

theorem offIslands_mv (i : Nat) : offIslands (Reg.CPH_ISL_MV i) = false :=
  offIslands_eq_false (by unfold Reg.CPH_ISL_MV; omega) (by unfold Reg.CPH_ISL_MV; omega)

theorem islMv_ne_islStatus (i j : Nat) : Reg.CPH_ISL_MV i ≠ Reg.CPH_ISL_STATUS j := by
  unfold Reg.CPH_ISL_MV Reg.CPH_ISL_STATUS; omega

theorem islCtrl_ne_islStatus (i j : Nat) : Reg.CPH_ISL_CTRL i ≠ Reg.CPH_ISL_STATUS j := by
  unfold Reg.CPH_ISL_CTRL Reg.CPH_ISL_STATUS; omega

/-- Islands in different states have registers of their own. -/
theorem islStatus_ne_of_state {j : Nat} (h : islandState s j ≠ islandState s i) :
    Reg.CPH_ISL_STATUS i ≠ Reg.CPH_ISL_STATUS j := fun e => h (by rw [islandState, ← e, islandState])

theorem RegsOutside.foldl {α : Type} {w : Nat → Bool} {f : State → α → State}
    (h : ∀ t x, RegsOutside w t (f t x)) (l : List α) : RegsOutside w s (l.foldl f s) :=
  List.foldlRecOn _ _ (.refl w s) fun _ ht x _ => ht.trans (h _ x)

theorem offIslands_hostIfReg (a : Nat) (h : offIslands a = false) : hostIfReg a = false := by
  simp only [offIslands, hostIfReg, Bool.or_eq_false_iff, Bool.and_eq_false_iff, decide_eq_false_iff_not] at h ⊢
  omega

theorem regsOutside_syncHealth : RegsOutside offIslands s (syncHealth s) := fun a ha => by
  have shown : ∀ b ∈ Reg.CLK_STATUS :: Reg.CPH_HEALTH :: Reg.CPH_CAP :: statusRegs, offIslands b = true := by decide
  exact syncHealth_rd s fun m => by simp [shown a m] at ha

theorem regsOutside_syncSpans : RegsOutside offIslands s (syncSpans s) :=
  (regsOutside_wr _ (by decide)).trans <| (regsOutside_wr _ (by decide)).trans <|
    .foldl (fun _ n => regsOutside_wr _ (offIslands_of (.inr (by unfold Reg.CPH_SHARE; omega)))) _

/-- What depends on no island keeps an island's state. -/
theorem RegsOutside.islandState (h : RegsOutside offIslands s t) (i : Nat) : islandState t i = islandState s i := by
  rw [Machine.islandState, State.rdF, h _ (offIslands_status i), Machine.islandState, State.rdF]

/-- A fold that writes the register `a` at no step leaves it. -/
theorem rd_foldl_of_forall {a : Nat} {f : State → Nat → State} (l : List Nat)
    (h : ∀ t, ∀ j ∈ l, (f t j).rd a = t.rd a) : (l.foldl f s).rd a = s.rd a :=
  List.foldlRecOn (motive := fun t : State => t.rd a = s.rd a) _ _ rfl fun t ht j hj => (h t j hj).trans ht

theorem mem_islandsIn {st j : Nat} (h : j ∈ islandsIn s st) : islandState s j = st := by
  simpa using (List.mem_filter.mp h).2

/-- Trim unparks islands that are parked and parks at once those being unparked: it leaves one that runs (R98, R99). -/
theorem trimRecompute_running (run : islandState s i = 0) :
    (trimRecompute s).rd (Reg.CPH_ISL_STATUS i) = s.rd (Reg.CPH_ISL_STATUS i) := by
  have shown : RegsOutside offIslands s (syncSpans (syncHealth s)) := regsOutside_syncHealth.trans regsOutside_syncSpans
  have run' : islandState (syncSpans (syncHealth s)) i = 0 := (shown.islandState i).trans run
  have health (v : State) : (syncHealth v).rd (Reg.CPH_ISL_STATUS i) = v.rd (Reg.CPH_ISL_STATUS i) :=
    regsOutside_syncHealth _ (offIslands_status i)
  rw [← shown _ (offIslands_status i)]
  unfold trimRecompute
  dsimp only
  generalize syncSpans (syncHealth s) = v at run' ⊢
  split
  · refine (health _).trans (rd_foldl_of_forall _ fun t j hj => ?_)
    have parked : islandState v j = 1 := mem_islandsIn (s := v) (List.mem_of_mem_take hj)
    exact State.rd_wrF_ne t _ _ _ (islStatus_ne_of_state (s := v) (by omega))
  · refine (health _).trans (rd_foldl_of_forall _ fun t j hj => ?_)
    have coming : islandState v j = 3 := beq_iff_eq.mp (List.mem_filter.mp (List.mem_filter.mp hj).1).2
    have apart := islStatus_ne_of_state (s := v) (i := i) (j := j) (by omega)
    rw [State.rd_wr_ne _ _ (islMv_ne_islStatus j i).symm, State.rd_wrF_ne _ _ _ _ apart, State.rd_wrF_ne _ _ _ _ apart]

/-- An island that runs as the plan gives it (R79). -/
def RunsAtPlan (i : Nat) (aligned : Bool) (u : State) : Prop :=
  islandState u i = 0 ∧ u.rdF (Reg.CPH_ISL_STATUS i) 16 12 = if aligned then 800 else 1000

theorem RunsAtPlan.of_rd {p : Bool} (h : RunsAtPlan i p s)
    (e : t.rd (Reg.CPH_ISL_STATUS i) = s.rd (Reg.CPH_ISL_STATUS i)) : RunsAtPlan i p t := by
  rw [RunsAtPlan, islandState, State.rdF, State.rdF, e]
  exact h

theorem islandRuns_at_plan : RunsAtPlan i (alignedPlan s) (islandRuns i s) := by
  have plan : alignedPlan (setIsland i 0 s) = alignedPlan s :=
    State.bit_wr_ne s _ 0 (by unfold Reg.CPH_ISL_STATUS Reg.CLK_STATUS; omega)
  have mv := (islMv_ne_islStatus i i).symm
  constructor
  · refine (State.rdF_wr_ne _ _ _ _ mv).trans ((State.rdF_wrF_off _ _ _ _ _ (by decide) (.inl (by decide))).trans ?_)
    exact State.rdF_wrF_same s _ _ _ _ (by decide)
  · refine (State.rdF_wr_ne _ _ _ _ mv).trans ((State.rdF_wrF_same _ _ _ _ _ (by decide)).trans ?_)
    rw [plan]
    split <;> rfl

/-! ## Fences cleared, tests passed, monitor windows (R79, R80, R99, R104, R107) -/

theorem hostFenceClear_last (h : causesOf s i = 32) : hostFenceClear i s =
    syncHealth (setIsland i 3 ((s.wr (Reg.CPH_ISL_CTRL i) 0).wrF (Reg.CPH_ISL_STATUS i) 2 6 0)) := by
  have c : causesOf (s.wr (Reg.CPH_ISL_CTRL i) 0) i = 32 :=
    (State.rdF_wr_ne s _ _ _ (islCtrl_ne_islStatus i i).symm).trans h
  rw [hostFenceClear]
  simp only [c]
  rfl

theorem hostFenceClear_other (h : (causesOf s i).testBit 5 = true) (more : causesOf s i ≠ 32) : hostFenceClear i s =
    (s.wr (Reg.CPH_ISL_CTRL i) 0).wrF (Reg.CPH_ISL_STATUS i) 2 6 (causesOf s i - 32) := by
  have c : causesOf (s.wr (Reg.CPH_ISL_CTRL i) 0) i = causesOf s i :=
    State.rdF_wr_ne s _ _ _ (islCtrl_ne_islStatus i i).symm
  rw [hostFenceClear]
  simp only [c, h, Bool.not_true, Bool.false_eq_true, if_false, if_neg more]

theorem causesOf_lt : causesOf s i < 64 := field_lt ..

theorem answers_hostFenceClear_last {i : Island} (served : Served s (Reg.CPH_ISL_CTRL i.val))
    (h : causesOf s i.val = 32) : Answers (.hostFenceClear i) s (fun u =>
      islandState u i.val = 3 ∧ causesOf u i.val = 0 ∧ u.rd (Reg.CPH_ISL_CTRL i.val) = 0) := by
  refine answers_hostWrite served (f := hostFenceClear i.val) rfl ?_
  rw [hostFenceClear_last (s := s.fresh) h]
  have ctrl : ∀ a ∈ Reg.CLK_STATUS :: Reg.CPH_HEALTH :: Reg.CPH_CAP :: statusRegs, a < 0xC0100 ∨ 0xC0160 ≤ a := by
    decide
  have health (v : State) : (syncHealth v).rd (Reg.CPH_ISL_STATUS i.val) = v.rd (Reg.CPH_ISL_STATUS i.val) :=
    regsOutside_syncHealth _ (offIslands_status i.val)
  refine ⟨?_, ?_, ?_⟩
  · rw [islandState, State.rdF, health]
    exact State.rdF_wrF_same _ _ _ _ _ (by decide)
  · rw [causesOf, State.rdF, health]
    exact (State.rdF_wrF_off _ _ _ _ _ (by decide) (.inr (by decide))).trans (State.rdF_wrF_same _ _ _ _ _ (by decide))
  · rw [syncHealth_rd _ fun m => by have := ctrl _ m; unfold Reg.CPH_ISL_CTRL at this; omega]
    exact (State.rd_wrF_ne _ _ _ _ (islCtrl_ne_islStatus _ _)).trans <|
      (State.rd_wrF_ne _ _ _ _ (islCtrl_ne_islStatus _ _)).trans (State.rd_wr_same ..)

theorem answers_hostFenceClear_other {i : Island} (served : Served s (Reg.CPH_ISL_CTRL i.val))
    (h : (causesOf s i.val).testBit 5 = true) (more : causesOf s i.val ≠ 32) :
    Answers (.hostFenceClear i) s (fun u =>
      islandState u i.val = islandState s i.val ∧ causesOf u i.val = causesOf s i.val - 32 ∧
      OnlyRegs [Reg.CPH_ISL_CTRL i.val, Reg.CPH_ISL_STATUS i.val] s u) := by
  refine answers_hostWrite served (f := hostFenceClear i.val) rfl ?_
  rw [hostFenceClear_other (s := s.fresh) h more]
  refine ⟨?_, ?_, ?_⟩
  · exact (State.rdF_wrF_off _ _ _ _ _ (by decide) (.inl (by decide))).trans
      (State.rdF_wr_ne _ _ _ _ (islCtrl_ne_islStatus _ _).symm)
  · refine (State.rdF_wrF_same _ _ _ _ _ (by decide)).trans (Nat.mod_eq_of_lt ?_)
    have := causesOf_lt (s := s) (i := i.val)
    exact lt_of_le_of_lt (Nat.sub_le ..) this
  · exact onlyRegs_fresh.trans <| (onlyRegs_wr _ (by simp)).trans (onlyRegs_wrF _ _ _ (by simp))

theorem answers_bistPassed {i : Island} (core : coreRuns s = true) (test : islandState s i.val = 3)
    (bist : s.fab.unparking.contains i.val = false) :
    Answers (.islandBistDone i true) s (RunsAtPlan i.val (alignedPlan s)) := by
  refine answers_powered core (f := bistDone i.val true) rfl ?_
  have tests : ¬(islandState s.fresh i.val ≠ 3 ∨ s.fresh.fab.unparking.contains i.val = true) := by
    rintro (h | h)
    · exact h test
    · exact absurd (bist.symm.trans h) (by decide)
  have e : bistDone i.val true s.fresh = trimRecompute (islandRuns i.val s.fresh) := if_neg tests
  rw [e]
  have runs : RunsAtPlan i.val (alignedPlan s) (islandRuns i.val s.fresh) := islandRuns_at_plan (s := s.fresh)
  exact runs.of_rd (trimRecompute_running runs.1)

theorem answers_unparkPassed {i : Island} (core : coreRuns s = true) (h : s.fab.unparking.contains i.val = true) :
    Answers (.islandUnparkDone i true) s (fun u => islandState u i.val = 0 ∧
      u.fab.unparking = s.fab.unparking.filter (· != i.val) ∧
      u.rdF (Reg.CPH_ISL_STATUS i.val) 16 12 = (if alignedPlan s then 800 else 1000)) := by
  refine answers_powered core (f := unparkDone i.val true) rfl ?_
  have e : unparkDone i.val true s.fresh = syncHealth (islandRuns i.val { s.fresh with
      fab := { s.fab with unparking := s.fab.unparking.filter (· != i.val) } }) := by
    rw [unparkDone, State.fresh_fab, h]
    rfl
  rw [e]
  generalize waits : ({ s.fresh with
      fab := { s.fab with unparking := s.fab.unparking.filter (· != i.val) } } : State) = v
  have plan : alignedPlan v = alignedPlan s := by rw [← waits]; rfl
  have runs : RunsAtPlan i.val (alignedPlan s) (syncHealth (islandRuns i.val v)) :=
    RunsAtPlan.of_rd (plan ▸ islandRuns_at_plan) (regsOutside_syncHealth _ (offIslands_status i.val))
  refine ⟨runs.1, ?_, runs.2⟩
  obtain ⟨r, e⟩ := syncHealth_rest (islandRuns i.val v)
  rw [e, ← waits]
  rfl

theorem regsOutside_bump64_isl (j n : Nat) : RegsOutside offIslands s (s.bump64 (Reg.PMC_ISL i j) n) :=
  (regsOutside_wr _ (offIslands_of (.inr (by unfold Reg.PMC_ISL; omega)))).trans
    (regsOutside_wr _ (offIslands_of (.inr (by unfold Reg.PMC_ISL; omega))))

theorem answers_suspectPassed {i : Island} (core : coreRuns s = true)
    (h : s.bit (Reg.CPH_ISL_STATUS i.val) 8 = true) :
    Answers (.partnerKatDone i true) s (fun u => u.bit (Reg.CPH_ISL_STATUS i.val) 8 = false ∧
      islandState u i.val = islandState s i.val) := by
  refine answers_powered core (f := partnerKat i.val true) rfl ?_
  generalize counted : (if islandState s.fresh i.val = 0 then s.fresh.bump64 (Reg.PMC_ISL i.val 2) else s.fresh) = v
  have stays : RegsOutside offIslands s v := by
    rw [← counted]
    exact (regsOutside_bump64_isl (s := s.fresh) 2 1).ite (.refl _ s)
  have e : partnerKat i.val true s.fresh = v.setBit (Reg.CPH_ISL_STATUS i.val) 8 false := by
    have h' : s.fresh.bit (Reg.CPH_ISL_STATUS i.val) 8 = true := h
    rw [partnerKat, if_neg (by rw [h']; decide), ← counted]
    rfl
  rw [e]
  exact ⟨State.bit_setBit_same _ _ _ _ (by decide),
    (State.rdF_wrF_off _ _ _ _ _ (by decide) (.inl (by decide))).trans (stays.islandState i.val)⟩

theorem answers_clockWindow {i : Island} {cycles mv : Nat} (core : coreRuns s = true) (run : islandState s i.val = 0)
    (full : 970 ≤ cycles) (hc : cycles < 4096) (hm : mv < 1024) :
    Answers (.islandClockWindow i cycles mv) s (fun u =>
      u.rdF (Reg.CPH_ISL_STATUS i.val) 16 12 = cycles ∧ u.rd (Reg.CPH_ISL_MV i.val) = mv ∧
      islandState u i.val = 0 ∧ Tbl.get (fun _ => 0) u.fab.slow i.val = 0) := by
  refine answers_powered core (f := clockWindow i.val cycles mv) rfl ?_
  have live : ¬(islandState s.fresh i.val = 1 ∨ islandState s.fresh i.val = 2) := by
    have run' : islandState s.fresh i.val = 0 := run
    omega
  have short : decide (cycles < 970) = false := by simpa using full
  have e : clockWindow i.val cycles mv s.fresh = setSlow i.val 0
      ((s.fresh.wrF (Reg.CPH_ISL_STATUS i.val) 16 12 cycles).wr (Reg.CPH_ISL_MV i.val) (mv % 1024)) := by
    rw [clockWindow, if_neg live]
    simp only [short, Bool.and_false, Bool.false_and, Bool.false_eq_true, if_false]
    rfl
  rw [e]
  have mv' := (islMv_ne_islStatus i.val i.val).symm
  refine ⟨?_, ?_, ?_, Tbl.get_set_same (fun _ => 0) s.fab.slow i.val 0⟩
  · refine (State.rdF_wr_ne _ _ _ _ mv').trans ((State.rdF_wrF_same _ _ _ _ _ (by decide)).trans ?_)
    exact Nat.mod_eq_of_lt hc
  · refine (State.rd_wr_same ..).trans ?_
    rw [Nat.mod_eq_of_lt hm, Nat.mod_eq_of_lt (by omega)]
  · exact (State.rdF_wr_ne _ _ _ _ mv').trans ((State.rdF_wrF_off _ _ _ _ _ (by decide) (.inl (by decide))).trans run)

/-! ## Parking (R99) -/

theorem islandDark_shows {st : Nat} (h : st < 4) : islandState (islandDark i st s) i = st ∧
    (islandDark i st s).rdF (Reg.CPH_ISL_STATUS i) 16 12 = 0 ∧ (islandDark i st s).rd (Reg.CPH_ISL_MV i) = 0 := by
  have mv := (islMv_ne_islStatus i i).symm
  refine ⟨?_, ?_, State.rd_wr_same ..⟩
  · refine (State.rdF_wr_ne _ _ _ _ mv).trans ((State.rdF_wrF_off _ _ _ _ _ (by decide) (.inl (by decide))).trans ?_)
    exact (State.rdF_wrF_same _ _ _ _ _ (by decide)).trans (Nat.mod_eq_of_lt h)
  · exact (State.rdF_wr_ne _ _ _ _ mv).trans (State.rdF_wrF_same _ _ _ _ _ (by decide))

theorem answers_islandPark {i : Island} (core : coreRuns s = true) (chosen : s.fab.parking.contains i.val = true)
    (run : islandState s i.val = 0) (empty : s.islQ i.val = {}) :
    Answers (.islandPark i) s (fun u => islandState u i.val = 1 ∧ u.rdF (Reg.CPH_ISL_STATUS i.val) 16 12 = 0 ∧
      u.rd (Reg.CPH_ISL_MV i.val) = 0 ∧ u.fab.parking = s.fab.parking.filter (· != i.val)) := by
  refine answers_powered core (f := parkIsland i.val) rfl ?_
  have e : parkIsland i.val s.fresh = syncHealth (islandDark i.val 1 { s.fresh with
      fab := { s.fab with parking := s.fab.parking.filter (· != i.val) } }) := by
    have run' : islandState s.fresh i.val = 0 := run
    have empty' : s.fresh.islQ i.val = {} := empty
    rw [parkIsland, State.fresh_fab, chosen, run', empty']
    rfl
  rw [e]
  generalize leaves : ({ s.fresh with
      fab := { s.fab with parking := s.fab.parking.filter (· != i.val) } } : State) = v
  have stays := regsOutside_syncHealth (s := islandDark i.val 1 v)
  obtain ⟨state, clock, supply⟩ := islandDark_shows (s := v) (i := i.val) (st := 1) (by decide)
  refine ⟨(stays.islandState _).trans state, ?_, (stays _ (offIslands_mv _)).trans supply, ?_⟩
  · rw [State.rdF, stays _ (offIslands_status _)]
    exact clock
  · obtain ⟨r, e⟩ := syncHealth_rest (islandDark i.val 1 v)
    rw [e, ← leaves]
    rfl

end Sys2Proof.Machine
end

section
/-! SUPPORT. Cells and frames: which operations leave the fabric, the scheduler and every frame as they are, and how a
frame, a port and a queue read after one of them is written. -/

namespace Sys2Proof.Machine

variable {s t u : State}

/-! ## Reads after writes -/

@[simp] theorem State.frameAt_setFrame_same (id : Nat) (f : Frame) : (s.setFrame id f).frameAt id = f :=
  Tbl.get_set_same ..

theorem State.frameAt_setFrame_ne {id k : Nat} (f : Frame) (h : k ≠ id) : (s.setFrame id f).frameAt k = s.frameAt k :=
  Tbl.get_set_ne _ _ _ h

@[simp] theorem State.portAt_setPort_same (p : Nat) (x : PortSched) : (s.setPort p x).portAt p = x :=
  Tbl.get_set_same ..

@[simp] theorem State.queue_setQueue_same (p c : Nat) (q : List QEntry) : (s.setQueue p c q).queue p c = q :=
  Tbl.get_set_same ..

theorem State.hasFrame_freeFrame_same (id : Nat) : (s.freeFrame id).hasFrame id = false := by
  rw [State.hasFrame, State.freeFrame, Tbl.find_erase_same]
  rfl

/-! ## What moves neither a cell nor a frame -/

/-- The fabric and the scheduler, with every frame in it, are as before. -/
def CellsStay (s u : State) : Prop := u.fab = s.fab ∧ u.sch = s.sch

theorem CellsStay.refl (s : State) : CellsStay s s := ⟨rfl, rfl⟩

theorem CellsStay.trans (h : CellsStay s t) (k : CellsStay t u) : CellsStay s u := ⟨k.1.trans h.1, k.2.trans h.2⟩

theorem CellsStay.ite {c : Prop} [Decidable c] (h : CellsStay s t) (k : CellsStay s u) :
    CellsStay s (if c then t else u) := by
  split
  · exact h
  · exact k

theorem CellsStay.foldl {α : Type} {f : State → α → State} (h : ∀ t x, CellsStay t (f t x)) (l : List α) :
    CellsStay s (l.foldl f s) :=
  List.foldlRecOn _ _ (.refl s) fun _ ht x _ => ht.trans (h _ x)

theorem CellsStay.frameAt (h : CellsStay s t) (id : Nat) : t.frameAt id = s.frameAt id := by
  rw [State.frameAt, h.2, State.frameAt]

theorem CellsStay.hasFrame (h : CellsStay s t) (id : Nat) : t.hasFrame id = s.hasFrame id := by
  rw [State.hasFrame, h.2, State.hasFrame]

theorem CellsStay.portAt (h : CellsStay s t) (p : Nat) : t.portAt p = s.portAt p := by
  rw [State.portAt, h.2, State.portAt]

theorem CellsStay.queue (h : CellsStay s t) (p c : Nat) : t.queue p c = s.queue p c := by
  rw [State.queue, h.2, State.queue]

theorem CellsStay.islQ (h : CellsStay s t) (i : Nat) : t.islQ i = s.islQ i := by
  rw [State.islQ, h.1, State.islQ]

theorem RegsDiffer.cellsStay (h : RegsDiffer s t) : CellsStay s t := by
  obtain ⟨r, rfl⟩ := h; exact .refl s

theorem Posts.cellsStay (h : Posts s t) : CellsStay s t := by
  rw [h.rest]; exact .refl s

theorem cellsStay_wr (a v : Nat) : CellsStay s (s.wr a v) := .refl s

theorem cellsStay_wr64 (a v : Nat) : CellsStay s (s.wr64 a v) := .refl s

theorem cellsStay_bump64 (a n : Nat) : CellsStay s (s.bump64 a n) := .refl s

theorem cellsStay_sec (x : SecState) : CellsStay s { s with sec := x } := .refl s

theorem cellsStay_setSa (i : Nat) (e : SaEntry) : CellsStay s (s.setSa i e) := cellsStay_sec _

theorem cellsStay_raiseEvent (src b p3 : Nat) : CellsStay s (raiseEvent src b p3 s) :=
  (cellsStay_wr ..).trans (posts_raiseEvent src b p3).cellsStay

theorem cellsStay_pmcCount (event inst w : Nat) : CellsStay s (pmcCount event inst w s) := by
  have wrap (n : Nat) (v : State) : CellsStay v (pmcWrap n v) :=
    (cellsStay_wr ..).trans <| (cellsStay_wr ..).trans (cellsStay_raiseEvent ..)
  have add (n : Nat) (v : State) : CellsStay v (pmcAdd n w v) := by
    have low : CellsStay v (v.wr (Reg.PMC_CNT n) ((v.rd (Reg.PMC_CNT n) + w) % 2 ^ 32)) := cellsStay_wr ..
    have high := fun x => low.trans (cellsStay_wr (Reg.PMC_CNT (n + 1)) x)
    exact low.ite <| ((high _).ite ((high _).trans (wrap ..))).ite (low.trans (wrap ..))
  have since (v : State) (p : PmcState) : CellsStay v { v with pmc := p } := .refl v
  exact List.foldlRecOn _ _ (.refl s) fun t ht n _ => ht.trans <| ((add n t).ite (since t _)).ite (.refl t)

theorem cellsStay_syncTags : CellsStay s (syncTags s) := by
  unfold syncTags
  dsimp only
  exact ((cellsStay_wr ..).trans (cellsStay_raiseEvent ..)).ite (cellsStay_wr ..)

theorem cellsStay_settleWasted (ran : List Nat) : CellsStay s (settleWasted ran s) :=
  .foldl (fun v _ => (CellsStay.refl v).ite ((cellsStay_wr64 ..).trans (cellsStay_bump64 ..))) _

/-! ## Associations let go (R205) -/

theorem cellsStay_emptySlot (sa : Nat) : CellsStay s (emptySlot sa s) := by
  have orphan : CellsStay s (countOrphan sa s) := by
    unfold countOrphan
    dsimp only
    split
    · split
      · exact (cellsStay_wr ..).trans <| .trans (cellsStay_wr Reg.SEC_LAST _) (cellsStay_raiseEvent ..)
      · exact cellsStay_wr ..
    · exact .refl s
  exact orphan.trans ((cellsStay_setSa ..).trans (cellsStay_sec _))

theorem cellsStay_refill (rx : Bool) (i : Nat) : CellsStay s (refill rx i s) := by
  have request (f : FillReq) : CellsStay s (requestFill f s) := (cellsStay_setSa ..).trans (cellsStay_sec _)
  unfold refill
  dsimp only
  split
  · exact .refl s
  · exact (request _).ite (.refl s)

theorem cellsStay_unbind (sa gen : Nat) : CellsStay s (unbind sa gen s) := by
  unfold unbind
  dsimp only
  split
  · exact .refl s
  split
  · split
    · exact (cellsStay_setSa ..).trans ((cellsStay_emptySlot _).trans (cellsStay_refill ..))
    · exact (cellsStay_setSa ..).trans (cellsStay_emptySlot _)
  · exact cellsStay_setSa ..

/-! ## Frames removed (R95, R145) -/

/-- A frame removed is no more, whatever there was. -/
theorem hasFrame_removeFrame (id : Nat) : (removeFrame id s).hasFrame id = false := by
  unfold removeFrame
  dsimp only
  split
  case isTrue absent => simpa using absent
  case isFalse =>
    generalize (s.frameAt id).outs.foldl (fun s p => unqueue id p (s.frameAt id).cls s) s = v
    rw [cellsStay_syncTags.hasFrame]
    have freed (w : State) : ({ (dropReady id w).freeFrame id with
        sch := { ((dropReady id w).freeFrame id).sch with
          arriving := ((dropReady id w).freeFrame id).sch.arriving.filter (fun e => e.2 != some id) } } :
            State).hasFrame id = false := State.hasFrame_freeFrame_same (s := dropReady id w) id
    split
    · split
      · exact freed _
      · exact ((cellsStay_unbind ..).hasFrame id).trans (freed _)
    · exact freed _

end Sys2Proof.Machine
end

section
/-! SUPPORT. Spans that are shed: what a change of ports, islands or trunk spans leaves of them. -/

namespace Sys2Proof.Machine

variable {s t u : State}

/-! ## The spans that are shed (R111, R112) -/

/-- The spans that are shed and those being shed are as before. -/
def KeepsShed (s u : State) : Prop := u.fab.shed = s.fab.shed ∧ u.fab.shedding = s.fab.shedding

theorem KeepsShed.refl (s : State) : KeepsShed s s := ⟨rfl, rfl⟩

theorem KeepsShed.trans (h : KeepsShed s t) (k : KeepsShed t u) : KeepsShed s u :=
  ⟨k.1.trans h.1, k.2.trans h.2⟩

theorem CellsStay.keepsShed (h : CellsStay s t) : KeepsShed s t := by rw [KeepsShed, h.1]; exact ⟨rfl, rfl⟩

theorem KeepsShed.ite {c : Prop} [Decidable c] (h : KeepsShed s t) (k : KeepsShed s u) :
    KeepsShed s (if c then t else u) := by
  split
  · exact h
  · exact k

theorem KeepsShed.foldl {α : Type} {f : State → α → State} (h : ∀ t x, KeepsShed t (f t x)) (l : List α) :
    KeepsShed s (l.foldl f s) :=
  List.foldlRecOn _ _ (.refl s) fun _ ht x _ => ht.trans (h _ x)

theorem keepsShed_wr (a v : Nat) : KeepsShed s (s.wr a v) := .refl s

theorem keepsShed_setTrk (n : Nat) (v : TrunkState) : KeepsShed s (s.setTrk n v) := .refl s

theorem keepsShed_syncHealth : KeepsShed s (syncHealth s) := (syncHealth_rest s).cellsStay.keepsShed

theorem keepsShed_syncSpans : KeepsShed s (syncSpans s) :=
  (keepsShed_wr _ _).trans <| (keepsShed_wr _ _).trans <| .foldl (fun _ _ => keepsShed_wr _ _) _

/-- Trim parks and unparks islands; the spans that are shed stay (R98, R99). -/
theorem keepsShed_trimRecompute : KeepsShed s (trimRecompute s) := by
  have shown : KeepsShed s (syncSpans (syncHealth s)) := keepsShed_syncHealth.trans keepsShed_syncSpans
  unfold trimRecompute
  dsimp only
  generalize syncSpans (syncHealth s) = v at shown ⊢
  have seen (f : FabState) (shed : f.shed = v.fab.shed) (shedding : f.shedding = v.fab.shedding) :
      KeepsShed v { v with fab := f } := ⟨shed, shedding⟩
  have ends (w : State) (f : FabState) (shed : f.shed = w.fab.shed) (shedding : f.shedding = w.fab.shedding) :
      KeepsShed w (syncHealth { w with fab := f }) :=
    .trans (t := { w with fab := f }) ⟨shed, shedding⟩ keepsShed_syncHealth
  refine shown.trans ?_
  split
  · refine (seen _ (by rfl) (by rfl)).trans (.trans (.foldl (fun _ _ => ?_) _) (ends _ _ (by rfl) (by rfl)))
    exact keepsShed_wr _ _
  · refine (seen _ (by rfl) (by rfl)).trans (.trans (.foldl (fun _ _ => ?_) _) (ends _ _ (by rfl) (by rfl)))
    exact (keepsShed_wr _ _).trans <| (keepsShed_wr _ _).trans (keepsShed_wr _ _)

theorem keepsShed_syncPort (p : Nat) : KeepsShed s (syncPort p s) := keepsShed_wr _ _

theorem keepsShed_syncRdi (n : Nat) : KeepsShed s (syncRdi n s) := (keepsShed_wr _ _).ite (keepsShed_wr _ _)

theorem keepsShed_syncPorts : KeepsShed s (syncPorts s) := by
  have ports : KeepsShed s ((List.range 64).foldl (fun s p => syncPort p s) s) :=
    .foldl (fun _ p => keepsShed_syncPort p) _
  have rdi (t : State) : KeepsShed t ((List.range 32).foldl (fun s n => syncRdi n s) t) :=
    .foldl (fun _ n => keepsShed_syncRdi n) _
  exact (ports.trans (rdi _)).trans keepsShed_trimRecompute

theorem keepsShed_cphEvent (b p3 : Nat) : KeepsShed s (cphEvent b p3 s) :=
  (keepsShed_wr _ _).trans (posts_evqPost ..).cellsStay.keepsShed

/-! ## Trunk spans that start and stop (R175, R182) -/

theorem keepsShed_setRxState (n v : Nat) : KeepsShed s (setRxState n v s) := by
  have markers (w : State) : KeepsShed w (syncMarkers n w) :=
    (keepsShed_wr _ _).trans <| (keepsShed_wr _ _).trans (keepsShed_wr _ _)
  have shown (w : State) : KeepsShed w (if patMode w n == .trunk then syncMarkers n w else w) :=
    (markers w).ite (.refl w)
  unfold setRxState
  dsimp only
  exact .trans (((keepsShed_wr _ _).trans (keepsShed_wr _ _)).trans (shown _)) keepsShed_syncPorts

theorem keepsShed_trunkStart (n : Nat) : KeepsShed s (trunkStart n s) := by
  unfold trunkStart
  exact (keepsShed_setRxState n 1).ite (.refl s)

theorem keepsShed_trunkStop (n : Nat) : KeepsShed s (trunkStop n s) := by
  have left (w : State) : KeepsShed w (trkEvent n 1 w) := ((cellsStay_wr ..).trans (cellsStay_raiseEvent ..)).keepsShed
  have letGo (l : List (Nat × Nat)) (w : State) : KeepsShed w (l.foldl (fun s a => unbind a.1 a.2 s) w) :=
    (CellsStay.foldl (fun _ a => cellsStay_unbind a.1 a.2) l).keepsShed
  have dropped (w : State) : KeepsShed w (dropStitchCells n w) := .refl w
  unfold trunkStop
  dsimp only
  refine .trans ?_ (keepsShed_setRxState n 0)
  refine .trans ?_ ((keepsShed_wr _ _).trans (keepsShed_wr _ _))
  refine .trans ?_ ((letGo _ _).trans (dropped _))
  exact (keepsShed_setTrk n _).trans ((left _).ite (.refl _))

/-! ## Shed and restored (R111, R112) -/

theorem restorePlan_fresh (limit : Nat) (l : List Nat) (sum : Nat) :
    restorePlan limit l sum s.fresh = restorePlan limit l sum s := by
  induction l generalizing sum with
  | nil => rfl
  | cons n l ih =>
    rw [restorePlan, restorePlan, ih]
    rfl

theorem mem_restorePlan {limit : Nat} {l : List Nat} {sum n : Nat} (h : n ∈ restorePlan limit l sum s) : n ∈ l := by
  induction l generalizing sum with
  | nil => exact h
  | cons m l ih =>
    rw [restorePlan] at h
    split at h
    · exact (List.mem_cons.mp h).elim (fun e => e ▸ .head _) fun h => .tail _ (ih h)
    · cases h

theorem mem_shed_of_restorePlan {limit sum n : Nat} (h : n ∈ restorePlan limit (restoreOrder s) sum s) :
    s.fab.shed.contains n = true := (List.mem_filter.mp (mem_restorePlan h)).2

theorem answers_shedComplete {n : Nat} (core : coreRuns s = true) (mem : n ∈ s.fab.shedding)
    (empty : spanEmpty s n = true) :
    Answers .shedComplete s (fun u => n ∈ u.fab.shed ∧ n ∉ u.fab.shedding) := by
  refine answers_powered core (f := shedComplete) rfl ?_
  have done : n ∈ s.fresh.fab.shedding.filter (spanEmpty s.fresh) := List.mem_filter.mpr ⟨mem, empty⟩
  unfold shedComplete
  dsimp only
  generalize s.fresh.fab.shedding.filter (spanEmpty s.fresh) = gone at done ⊢
  rw [if_neg (by rw [List.isEmpty_iff]; exact List.ne_nil_of_mem done)]
  obtain ⟨shed, shedding⟩ := ((KeepsShed.foldl (s := { s.fresh with fab := { s.fresh.fab with
      shedding := s.fresh.fab.shedding.filter (fun n => !gone.contains n), shed := s.fresh.fab.shed ++ gone } })
    (fun _ n => keepsShed_trunkStop n) (gone.filter (fun n => patMode s.fresh n == .trunk))).trans <|
      keepsShed_syncPorts.trans <| keepsShed_syncSpans.trans <|
      (keepsShed_cphEvent 1 0).trans keepsShed_trimRecompute)
  refine ⟨?_, fun still => ?_⟩
  · exact shed ▸ List.mem_append_right _ done
  · have out := (List.mem_filter.mp (shedding ▸ still)).2
    simp [done] at out

theorem answers_spanRestore {n : Nat} (core : coreRuns s = true)
    (mem : n ∈ restorePlan (capLimit s) (restoreOrder s) (retainedShares s) s)
    (waited : s.fab.lastShed + tickSecond ≤ s.refTick + 1) :
    Answers .spanRestore s (fun u => n ∉ u.fab.shed) := by
  refine answers_powered core (f := spanRestore) rfl ?_
  have mem' : n ∈ restorePlan (capLimit s.fresh) (restoreOrder s.fresh) (retainedShares s.fresh) s.fresh := by
    rw [restorePlan_fresh]
    exact mem
  have inShed : s.fresh.fab.shed.contains n = true := mem_shed_of_restorePlan mem'
  unfold spanRestore
  rw [if_neg (show ¬ s.fresh.refTick + 1 < s.fresh.fab.lastShed + tickSecond from Nat.not_lt.mpr waited)]
  dsimp only
  generalize restorePlan (capLimit s.fresh) (restoreOrder s.fresh) (retainedShares s.fresh) s.fresh = back at mem' ⊢
  rw [if_neg (by rw [List.isEmpty_iff]; exact List.ne_nil_of_mem mem')]
  have starts (v : State) : KeepsShed v (cphEvent 2 0 (back.foldl (fun s n => trunkStart n s) (syncPorts v))) :=
    keepsShed_syncPorts.trans <| (KeepsShed.foldl (fun _ n => keepsShed_trunkStart n) back).trans
      (keepsShed_cphEvent 2 0)
  obtain ⟨shed, -⟩ := starts (unshed (fun n => s.fresh.fab.shed.contains n && back.contains n) s.fresh)
  intro still
  have out := (List.mem_filter.mp (shed ▸ still)).2
  simp only [inShed, List.elem_eq_true_of_mem mem', Bool.and_true, Bool.not_true, Bool.false_eq_true] at out

/-- Settles O21, clause by clause: what follows the change shown writes no register of an island that runs, and keeps
the spans that are shed. -/
theorem islandsAndSpansComeBack : Obligations.IslandsAndSpansComeBack := fun _ _ core =>
  ⟨fun served => ⟨answers_hostFenceClear_last served, answers_hostFenceClear_other served⟩,
    answers_bistPassed core, answers_unparkPassed core, answers_suspectPassed core,
    fun _ _ => answers_clockWindow core, answers_islandPark core,
    fun _ => answers_shedComplete core, fun _ mem => answers_spanRestore core mem⟩

end Sys2Proof.Machine
end

section
/-! SUPPORT. Frames that leave, end early or stop a port: a decision, a departure, an abort and a PAUSE, each taken
apart into what it writes of the frame, of the port and of the registers. -/

namespace Sys2Proof.Machine

variable {s t u : State} {p id : Nat}

/-! ## A decision (R299, R300) -/

theorem readyHead_frame {c : Nat} {f : Frame} (h : readyHead s p c = some (id, f)) : f = s.frameAt id := by
  unfold readyHead at h
  obtain ⟨k, -, h⟩ := Option.bind_eq_some_iff.mp h
  split at h
  · obtain ⟨rfl, rfl⟩ := Prod.mk.inj (Option.some.inj h)
    rfl
  · contradiction

theorem decide_released {c : Nat} {f : Frame} (idle : (s.portAt p).sending = none)
    (chosen : chooseClass p (judgeHeads p s) = (t, some c)) (ready : readyHead t p c = some (id, f)) :
    decide_ p s = releaseHead p c id t := by
  unfold decide_
  rw [idle]
  dsimp only [Option.isSome]
  rw [if_neg (by decide), chosen]
  dsimp only
  rw [ready]

/-- The port sends the frame, whose head has left with the bytes it is committed to. -/
def headSent (p id : Nat) (f : Frame) (bytes : Bytes) (s : State) : State :=
  let s := s.setPort p { s.portAt p with sending := some id }
  s.setFrame id { f with heads := f.heads ++ [p], sent := Tbl.set (fun _ => []) f.sent p bytes,
                         egress := egressNs s (portDtx (portCfg s p)) }

theorem releaseHead_committed {c : Nat} {bytes : Bytes} (runs : portBlocked s p = false)
    (committed : commitFrame p (s.frameAt id) s = (t, some bytes)) : releaseHead p c id s =
      let u := headSent p id (s.frameAt id) bytes (takeTokens p c (s.frameAt id) (unqueue id p c t))
      if p < 32 then u else pmcCount 0x0801 (p - 32) 1 u := by
  unfold releaseHead
  dsimp only
  rw [if_neg (by simp [runs]), committed]
  rfl

theorem takeTokens_queue (c : Nat) (f : Frame) (q d : Nat) : (takeTokens p c f s).queue q d = s.queue q d := by
  unfold takeTokens
  split <;> rfl

theorem not_mem_queue_unqueue (c : Nat) : .held id ∉ (unqueue id p c s).queue p c := by
  rw [unqueue, State.queue_setQueue_same, List.mem_filter]
  simp

theorem answers_schedulerDecision {p : Port64} {x y : State} {c id : Nat} {f : Frame} {bytes : Bytes}
    (core : coreRuns s = true) (idle : (s.portAt p.val).sending = none)
    (chosen : chooseClass p.val (judgeHeads p.val s.fresh) = (x, some c)) (ready : readyHead x p.val c = some (id, f))
    (runs : portBlocked x p.val = false) (committed : commitFrame p.val f x = (y, some bytes)) :
    Answers (.schedulerDecision p) s (fun u => (u.portAt p.val).sending = some id ∧
      (u.frameAt id).heads = f.heads ++ [p.val] ∧ Tbl.get (fun _ => []) (u.frameAt id).sent p.val = bytes ∧
      .held id ∉ u.queue p.val c) := by
  refine answers_powered core (f := decide_ p.val) rfl ?_
  obtain rfl := readyHead_frame ready
  rw [decide_released (s := s.fresh) idle chosen ready, releaseHead_committed runs committed]
  dsimp only
  have waits : .held id ∉ (takeTokens p.val c (x.frameAt id) (unqueue id p.val c y)).queue p.val c := by
    rw [takeTokens_queue]
    exact not_mem_queue_unqueue c
  generalize takeTokens p.val c (x.frameAt id) (unqueue id p.val c y) = v at waits ⊢
  have counted := (CellsStay.refl (headSent p.val id (x.frameAt id) bytes v)).ite (c := p.val < 32)
    (cellsStay_pmcCount 0x0801 (p.val - 32) 1)
  rw [counted.portAt, counted.frameAt, counted.queue, headSent]
  dsimp only
  rw [State.frameAt_setFrame_same]
  refine ⟨?_, rfl, Tbl.get_set_same .., waits⟩
  exact congrArg PortSched.sending (State.portAt_setPort_same (s := v) p.val _)

/-! ## A departure (R95, R146, R348) -/

/-- What a port sends for the bytes of a frame. -/
def portSends (p : Nat) (frame : Bytes) (stomped : Bool) (s : State) : Output :=
  .frameOut p (if stomped then stompBytes (portCfg s p).type frame else frame) (frameEnd (portCfg s p).type stomped)

theorem sendFrame_rest (frame : Bytes) (stomped : Bool) :
    RegsDiffer (s.emit (portSends p frame stomped s)) (sendFrame p frame stomped s) := by
  unfold sendFrame portSends
  dsimp only
  split <;> exact ⟨_, rfl⟩

/-- A frame opened is counted once it has left; of the frame that note alone changes. -/
theorem countOpened_shows : (countOpened id s).out = s.out ∧ (countOpened id s).sch.ports = s.sch.ports ∧
    (countOpened id s).sch.pending = s.sch.pending ∧ ((countOpened id s).frameAt id).outs = (s.frameAt id).outs := by
  unfold countOpened
  dsimp only
  split
  · exact ⟨rfl, rfl, rfl, rfl⟩
  · have noted : ((s.setFrame id { s.frameAt id with counted := true }).frameAt id).outs = (s.frameAt id).outs := by
      rw [State.frameAt_setFrame_same]
    split
    · exact ⟨rfl, rfl, rfl, noted⟩
    · exact ⟨rfl, rfl, rfl, noted⟩

/-- The port is idle again and the frame has one port less to leave on. -/
def tailSent (p id : Nat) (s : State) : State :=
  let f := s.frameAt id
  let s := sendFrame p (Tbl.get (fun _ => []) f.sent p) f.stomp.isSome s
  let s := s.setPort p { s.portAt p with sending := none }
  countOpened id (s.setFrame id { f with outs := f.outs.filter (fun q => q != p) })

theorem departure_judged (sends : (s.portAt p).sending = some id)
    (judged : (s.frameAt id).stomp ≠ none ∨ (s.frameAt id).verdict ≠ .pending) : departure p s =
      applyGroup p (if ((s.frameAt id).outs.filter (fun q => q != p)).isEmpty
        then frameGone id (Tbl.get (fun _ => []) (s.frameAt id).sent p) (tailSent p id s) else tailSent p id s) := by
  unfold departure
  rw [sends]
  dsimp only
  rw [if_neg]
  · rfl
  · simpa [Option.isNone_iff_eq_none, beq_iff_eq, or_iff_not_imp_left] using judged

theorem applyGroup_none (h : Tbl.get (fun _ => []) s.sch.pending p = []) : applyGroup p s = s := by
  rw [applyGroup]
  dsimp only
  rw [h]
  rfl

theorem tailSent_shows : ((tailSent p id s).portAt p).sending = none ∧
    ((tailSent p id s).frameAt id).outs = (s.frameAt id).outs.filter (fun q => q != p) ∧
    (tailSent p id s).sch.pending = s.sch.pending ∧
    (tailSent p id s).out =
      s.out ++ [portSends p (Tbl.get (fun _ => []) (s.frameAt id).sent p) (s.frameAt id).stomp.isSome s] := by
  unfold tailSent
  dsimp only
  generalize Tbl.get (fun _ => []) (s.frameAt id).sent p = bytes
  generalize (s.frameAt id).stomp.isSome = stomped
  have sent := sendFrame_rest (s := s) (p := p) bytes stomped
  generalize sendFrame p bytes stomped s = v at sent ⊢
  generalize gone : { s.frameAt id with outs := (s.frameAt id).outs.filter (fun q => q != p) } = f
  generalize idle : { v.portAt p with sending := none } = x
  obtain ⟨out, ports, pending, outs⟩ := countOpened_shows (id := id) (s := (v.setPort p x).setFrame id f)
  refine ⟨?_, ?_, ?_, ?_⟩
  · rw [State.portAt, ports]
    exact (congrArg PortSched.sending (State.portAt_setPort_same (s := v) p x)).trans (by rw [← idle])
  · rw [outs, State.frameAt_setFrame_same, ← gone]
  · rw [pending]
    have same : v.sch.pending = s.sch.pending := congrArg SchState.pending sent.cellsStay.2
    exact same
  · rw [out]
    exact sent.out

theorem answers_departure_more {p : Port64} {id : Nat} (core : coreRuns s = true)
    (sends : (s.portAt p.val).sending = some id)
    (judged : (s.frameAt id).stomp ≠ none ∨ (s.frameAt id).verdict ≠ .pending)
    (more : (s.frameAt id).outs.filter (fun q => q != p.val) ≠ [])
    (ungrouped : Tbl.get (fun _ => []) s.sch.pending p.val = []) :
    Answers (.frameDepartureDone p) s (fun u => (u.portAt p.val).sending = none ∧
      (u.frameAt id).outs = (s.frameAt id).outs.filter (fun q => q != p.val) ∧
      u.out = [portSends p.val (Tbl.get (fun _ => []) (s.frameAt id).sent p.val) (s.frameAt id).stomp.isSome s]) := by
  refine answers_powered core (f := departure p.val) rfl ?_
  obtain ⟨idle, outs, pending, out⟩ := tailSent_shows (s := s.fresh) (p := p.val) (id := id)
  rw [departure_judged (s := s.fresh) sends judged, if_neg (by rw [List.isEmpty_iff]; exact more),
    applyGroup_none (pending ▸ ungrouped)]
  exact ⟨idle, outs, out⟩

/-- Applying a staged group writes the port's own state; no frame changes. -/
theorem applyGroup_frames : (applyGroup p s).sch.frames = s.sch.frames := by
  have words (l : List (Nat × Nat)) (v : State) : (l.foldl (fun s w => s.wrAct w.1 w.2) v).sch.frames = v.sch.frames :=
    List.foldlRecOn (motive := fun t : State => t.sch.frames = v.sch.frames) _ _ rfl fun _ h _ _ => h
  have tuned (c : Nat) (old : Nat × Nat × Bool) (v : State) : (retune (p - 32) c old v).sch.frames = v.sch.frames := by
    unfold retune
    dsimp only
    split
    · rfl
    split
    · rfl
    split <;> rfl
  have classes (old : Nat → Nat × Nat × Bool) (v : State) :
      ((List.range 7).foldl (fun s c => retune (p - 32) c (old c) s) v).sch.frames = v.sch.frames :=
    List.foldlRecOn (motive := fun t : State => t.sch.frames = v.sch.frames) _ _ rfl
      fun _ h c _ => (tuned c _ _).trans h
  unfold applyGroup
  dsimp only
  split
  · rfl
  split
  · exact words _ _
  · exact (classes _ _).trans (words _ _)

theorem answers_departure_last {p : Port64} {id : Nat} (core : coreRuns s = true)
    (sends : (s.portAt p.val).sending = some id)
    (judged : (s.frameAt id).stomp ≠ none ∨ (s.frameAt id).verdict ≠ .pending) (outs : (s.frameAt id).outs = [p.val]) :
    Answers (.frameDepartureDone p) s (fun u => u.hasFrame id = false) := by
  refine answers_powered core (f := departure p.val) rfl ?_
  have last : ((s.fresh.frameAt id).outs.filter (fun q => q != p.val)).isEmpty = true := by
    rw [show (s.fresh.frameAt id).outs = [p.val] from outs]
    simp
  rw [departure_judged (s := s.fresh) sends judged, if_pos last, State.hasFrame, applyGroup_frames, frameGone]
  exact hasFrame_removeFrame id

/-! ## An early end (R95, R145, R338) -/

theorem endFrame_headIn {cause : Nat} {counted : State → State} (has : s.hasFrame id = true)
    (heads : (s.frameAt id).heads = []) : endFrame id cause counted s = counted (removeFrame id s) := by
  rw [endFrame, if_neg (by simp [has]), if_pos (by rw [heads]; rfl)]

theorem endFrame_headOut {cause : Nat} {counted : State → State} (has : s.hasFrame id = true)
    (heads : (s.frameAt id).heads ≠ []) : endFrame id cause counted s = stompFrame id cause s := by
  rw [endFrame, if_neg (by simp [has]), if_neg (by rw [List.isEmpty_iff]; exact heads)]

theorem cellsStay_lastFail (span : Nat) (opening : Bool) (cause : Nat) (stomped : Bool) (sc : Option Nat) :
    CellsStay s (lastFail span opening cause stomped sc s) := (cellsStay_wr ..).trans (cellsStay_wr ..)

/-- A frame is stomped with the first cause alone. -/
theorem frameAt_stompFrame {cause : Nat} (has : s.hasFrame id = true) (first : (s.frameAt id).stomp = none) :
    ((stompFrame id cause s).frameAt id).stomp = some cause := by
  unfold stompFrame
  dsimp only
  rw [if_neg (by simp [has, first])]
  generalize ((s.frameAt id).outs.filter (fun p => !(s.frameAt id).heads.contains p)).foldl
    (fun t q => unqueue id q (s.frameAt id).cls t) s = v
  generalize stomped : { s.frameAt id with
    stomp := some cause, verdict := .bad,
    outs := (s.frameAt id).outs.filter (fun p => (s.frameAt id).heads.contains p) } = f
  have cause_f : f.stomp = some cause := by rw [← stomped]
  have set : ((v.setFrame id f).frameAt id).stomp = some cause := by rw [State.frameAt_setFrame_same, cause_f]
  generalize v.setFrame id f = w at set ⊢
  split
  · exact set
  · refine (congrArg Frame.stomp (CellsStay.frameAt ?_ id)).trans set
    have miscounted (c : Bool) (n off : Nat) (x : State) : CellsStay x (if c then x else frmCount n off 1 x) :=
      (CellsStay.refl x).ite (cellsStay_bump64 ..)
    have noted (x : State) (n : Nat) (ran : List Nat) :
        CellsStay x (frmEvent 0 (settleWasted ran (pmcCount 0x0302 n 1 (x.bump Reg.FRM_STOMPS)))) :=
      (cellsStay_wr ..).trans <| (cellsStay_pmcCount ..).trans <| (cellsStay_settleWasted _).trans
        (cellsStay_raiseEvent ..)
    exact (cellsStay_lastFail ..).trans ((miscounted ..).trans (noted ..))

/-- Counted on its port as ended early and no longer as received. -/
def abortCounted (p id : Nat) (s : State) : State :=
  let s := penCount p 0x30 1 s
  let f := s.frameAt id
  let s := tailIn p (uncountReceived p f.rxLen f.fcsOk s)
  if f.bypass && f.heads.isEmpty then penUncount p 0x78 1 s else s

theorem frameAbort_arriving (h : Tbl.get (fun _ => none) s.sch.arriving p = some id) :
    frameAbort p s = endFrame id 0xC (abortRecord (s.frameAt id)) (abortCounted p id s) := by
  have arriving : Tbl.get (fun _ => none) (penCount p 0x30 1 s).sch.arriving p = some id := h
  rw [frameAbort]
  dsimp only
  rw [arriving]
  rfl

theorem framesStay_abortCounted : FramesStay s (abortCounted p id s) := by
  have uncount (n : Nat) (v : State) (off : Nat) : FramesStay v (penUncount p off n v) :=
    (framesStay_wr ..).trans (framesStay_wr ..)
  have received (len : Nat) (ok : Bool) (v : State) : FramesStay v (uncountReceived p len ok v) :=
    ((uncount ..).trans (uncount ..)).ite (uncount ..)
  have tail := (framesStay_penCount p 0x30 1).trans ((received (s.frameAt id).rxLen (s.frameAt id).fcsOk
    (penCount p 0x30 1 s)).trans (framesStay_tailIn p))
  exact (tail.trans (uncount ..)).ite tail

theorem FramesStay.frameAt (h : FramesStay s t) (id : Nat) : t.frameAt id = s.frameAt id := by
  rw [State.frameAt, h.rest, State.frameAt]

theorem FramesStay.hasFrame (h : FramesStay s t) (id : Nat) : t.hasFrame id = s.hasFrame id := by
  rw [State.hasFrame, h.rest, State.hasFrame]

theorem FramesStay.portAt (h : FramesStay s t) (p : Nat) : t.portAt p = s.portAt p := by
  rw [State.portAt, h.rest, State.portAt]

theorem answers_frameAbort_headIn {p : Port64} {id : Nat} (core : coreRuns s = true)
    (arriving : Tbl.get (fun _ => none) s.sch.arriving p.val = some id) (has : s.hasFrame id = true)
    (heads : (s.frameAt id).heads = []) (frame : (s.frameAt id).bypass = false) :
    Answers (.frameAbort p) s (fun u => u.hasFrame id = false ∧ u.rd Reg.FRM_LAST_FAIL =
      ((s.frameAt id).span + 2 ^ 5 * b2n (s.frameAt id).opening + 2 ^ 8 * 0xC + 2 ^ 31) % 2 ^ 32) := by
  refine answers_powered core (f := frameAbort p.val) rfl ?_
  have counted := framesStay_abortCounted (s := s.fresh) (p := p.val) (id := id)
  rw [frameAbort_arriving (s := s.fresh) arriving, endFrame_headIn ((counted.hasFrame id).trans has)
    ((congrArg Frame.heads (counted.frameAt id)).trans heads), abortRecord, if_neg]
  · refine ⟨((cellsStay_lastFail ..).hasFrame id).trans (hasFrame_removeFrame id), ?_⟩
    exact (State.rd_wr_ne _ _ (by decide)).trans (State.rd_wr_same ..)
  · exact fun h => absurd (frame.symm.trans h) (by decide)

theorem answers_frameAbort_headOut {p : Port64} {id : Nat} (core : coreRuns s = true)
    (arriving : Tbl.get (fun _ => none) s.sch.arriving p.val = some id) (has : s.hasFrame id = true)
    (heads : (s.frameAt id).heads ≠ []) (first : (s.frameAt id).stomp = none) :
    Answers (.frameAbort p) s (fun u => (u.frameAt id).stomp = some 0xC) := by
  refine answers_powered core (f := frameAbort p.val) rfl ?_
  have counted := framesStay_abortCounted (s := s.fresh) (p := p.val) (id := id)
  have frame : (abortCounted p.val id s.fresh).frameAt id = s.frameAt id := counted.frameAt id
  have has' := (counted.hasFrame id).trans has
  rw [frameAbort_arriving (s := s.fresh) arriving, endFrame_headOut has' (frame ▸ heads)]
  exact frameAt_stompFrame has' (frame ▸ first)

/-! ### No frame arriving -/

theorem frameAbort_unheld (arriving : Tbl.get (fun _ => none) s.sch.arriving p = none)
    (held : dropHeld p (penCount p 0x30 1 s) = none) : frameAbort p s = penCount p 0x30 1 s := by
  have arriving' : Tbl.get (fun _ => none) (penCount p 0x30 1 s).sch.arriving p = none := arriving
  rw [frameAbort]
  dsimp only
  rw [arriving']
  dsimp only
  rw [held]

theorem frameAbort_held {h : HeldArrival} (arriving : Tbl.get (fun _ => none) s.sch.arriving p = none)
    (held : dropHeld p (penCount p 0x30 1 s) = some (h, t)) :
    frameAbort p s = uncountReceived p h.frame.length (goodEnd h.frame h.ending) t := by
  have arriving' : Tbl.get (fun _ => none) (penCount p 0x30 1 s).sch.arriving p = none := arriving
  rw [frameAbort]
  dsimp only
  rw [arriving']
  dsimp only
  rw [held]

theorem dropHeld_none (h : ∀ a ∈ s.sch.held, a.port ≠ p) : dropHeld p s = none := by
  have absent : s.sch.held.reverse.find? (fun a => a.port == p) = none :=
    List.find?_eq_none.mpr fun a ha => by simpa using h a (List.mem_reverse.mp ha)
  rw [dropHeld, absent]

theorem answers_frameAbort_none {p : Port64} (core : coreRuns s = true)
    (arriving : Tbl.get (fun _ => none) s.sch.arriving p.val = none) :
    ((∀ h ∈ s.sch.held, h.port ≠ p.val) →
      Answers (.frameAbort p) s (fun u => u = penCount p.val 0x30 1 s.fresh)) ∧
    (∀ h t, dropHeld p.val (penCount p.val 0x30 1 s.fresh) = some (h, t) →
      Answers (.frameAbort p) s (fun u => u = uncountReceived p.val h.frame.length (goodEnd h.frame h.ending) t)) := by
  refine ⟨fun absent => ?_, fun h t held => ?_⟩
  · have unheld : dropHeld p.val (penCount p.val 0x30 1 s.fresh) = none := dropHeld_none absent
    exact answers_powered core (f := frameAbort p.val) rfl (frameAbort_unheld (s := s.fresh) arriving unheld)
  · exact answers_powered core (f := frameAbort p.val) rfl (frameAbort_held (s := s.fresh) arriving held)

/-! ## PAUSE (R316, R317) -/

/-- A MAC control frame received whole on a client port that obeys flow control, outside Trunk mode. -/
theorem macControlArrival_obeyed {m n : Nat} {frame : Bytes} (span : portSpan s m = some n)
    (receives : portReceives s m = true) (trunk : runMode s n ≠ .trunk) (mac : isMacControl frame = true)
    (flow : (portCfg s m).flow ≠ 0) (whole : goodEnd frame .terminate = true) :
    macControlArrival true m frame s.fresh = pauseReceive m frame true (received n m frame .terminate s) := by
  have obeys : (isMacControl frame && decide ((portCfg s.fresh m).flow ≠ 0) == true) = true := by
    have flow' : (portCfg s.fresh m).flow ≠ 0 := flow
    simp [mac, flow']
  have span' : portSpan s.fresh m = some n := span
  have runs : (!portReceives s.fresh m || runMode s.fresh n == .trunk) = false := by
    have receives' : portReceives s.fresh m = true := receives
    have trunk' : runMode s.fresh n ≠ .trunk := trunk
    simpa [receives'] using trunk'
  have ended : (!isReceived .terminate) = false := rfl
  rw [macControlArrival, if_pos obeys, sealArrival, span']
  dsimp only
  rw [if_neg (by simp [runs]), ended, if_neg (by decide), if_pos mac, whole]
  rfl

/-- The classes that a PFC frame names are paused or not as it says, the others as before. -/
def pfcPaused (frame : Bytes) (paused : Nat) : Nat := (List.range 7).foldl (fun x c =>
  if Nat.testBit (beAt frame 16 2) c then putBit x c (beAt frame (18 + 2 * c) 2 != 0) else x) paused

theorem pauseReceive_pause {m : Nat} {frame : Bytes} (flow : (portCfg s m).flow ≠ 0) (op : beAt frame 14 2 = 1) :
    pauseReceive m frame true s = (s.bump (Reg.SCH_PAUSE_RX m)).setPort m
      { s.portAt m with paused := if beAt frame 16 2 = 0 then 0 else 0x7F } := by
  have flow' : ¬ (portCfg (s.bump (Reg.SCH_PAUSE_RX m)) m).flow = 0 := flow
  rw [pauseReceive]
  dsimp only
  rw [if_neg (by simp [flow']), if_pos op]
  rfl

theorem pauseReceive_pfc {m : Nat} {frame : Bytes} (flow : (portCfg s m).flow ≠ 0) (op : beAt frame 14 2 = 0x0101) :
    pauseReceive m frame true s = (s.bump (Reg.SCH_PAUSE_RX m)).setPort m
      { s.portAt m with paused := pfcPaused frame (s.portAt m).paused } := by
  have flow' : ¬ (portCfg (s.bump (Reg.SCH_PAUSE_RX m)) m).flow = 0 := flow
  rw [pauseReceive]
  dsimp only
  rw [if_neg (by simp [flow']), if_neg (by omega), if_pos op]
  rfl

theorem testBit_putBit (x n m : Nat) (b : Bool) :
    (putBit x n b).testBit m = if m = n then b else x.testBit m := by
  split
  case isTrue same =>
    have written := testBit_putField_in x n 1 (b2n b) (n := 0) (by decide)
    rw [same, putBit]
    exact written.trans (by cases b <;> rfl)
  case isFalse other => exact testBit_putField_out x n 1 (b2n b) (by omega)

/-- A fold over distinct bits, each written or left, shows at every bit what was written there last. -/
theorem testBit_foldl_putBit (named value : Nat → Bool) (l : List Nat) (x c : Nat) :
    (l.foldl (fun x k => if named k then putBit x k (value k) else x) x).testBit c =
      if c ∈ l ∧ named c = true then value c else x.testBit c := by
  induction l generalizing x with
  | nil => simp
  | cons k l ih =>
    rw [List.foldl_cons, ih]
    by_cases hc : c ∈ l ∧ named c = true
    · rw [if_pos hc, if_pos ⟨.tail _ hc.1, hc.2⟩]
    · rw [if_neg hc]
      by_cases hk : c = k
      · subst hk
        by_cases hn : named c = true
        · rw [if_pos hn, testBit_putBit, if_pos rfl, if_pos ⟨.head _, hn⟩]
        · rw [if_neg hn, if_neg fun h => hn h.2]
      · have out : ¬ (c ∈ k :: l ∧ named c = true) := fun h => hc ⟨(List.mem_cons.mp h.1).resolve_left hk, h.2⟩
        rw [if_neg out]
        split
        · rw [testBit_putBit, if_neg hk]
        · rfl

theorem testBit_pfcPaused (frame : Bytes) (paused : Nat) {c : Nat} (h : c < 7) : (pfcPaused frame paused).testBit c =
    if (beAt frame 16 2).testBit c then beAt frame (18 + 2 * c) 2 != 0 else paused.testBit c := by
  rw [pfcPaused, testBit_foldl_putBit (fun k => (beAt frame 16 2).testBit k) (fun k => beAt frame (18 + 2 * k) 2 != 0)]
  simp [h]

theorem schPauseRx_received (n m : Nat) (frame : Bytes) (e : RxEnd) :
    (received n m frame e s).rd (Reg.SCH_PAUSE_RX m) = s.rd (Reg.SCH_PAUSE_RX m) :=
  regsOutside_received n m frame e _ (receiptReg_eq_false (by unfold Reg.SCH_PAUSE_RX; omega))

theorem portCfg_received (n m : Nat) (frame : Bytes) (e : RxEnd) (q : Nat) :
    portCfg (received n m frame e s) q = portCfg s q := by
  have pat : (received n m frame e s).pat = s.pat := by rw [(framesStay_receipt n m frame e).rest]
  rw [portCfg, pat, portCfg]

/-- Settles O25, clause by clause: the decision, the departure with and without a port left, the early end of a frame
that arrives and of one that waits or is none, PAUSE and PFC. -/
theorem framesLeaveAndPausePorts : Obligations.FramesLeaveAndPausePorts := by
  intro s p core
  refine ⟨fun _ _ _ _ _ _ => answers_schedulerDecision core, fun _ => answers_departure_more core,
    fun _ sends judged _ => answers_departure_last core sends judged,
    fun _ arriving has => ⟨answers_frameAbort_headIn core arriving has, answers_frameAbort_headOut core arriving has⟩,
    answers_frameAbort_none core, fun m n frame span receives trunk mac whole => ?_⟩
  have flow' (h : (portCfg s m.val).flow ≠ 0) : (portCfg (received n m.val frame .terminate s) m.val).flow ≠ 0 := by
    rw [portCfg_received]
    exact h
  refine ⟨fun flow op => ?_, fun flow op => ?_⟩
  · refine answers_powered core (f := macControlArrival true m.val frame) rfl ?_
    rw [macControlArrival_obeyed span receives trunk mac flow whole, pauseReceive_pause (flow' flow) op]
    refine ⟨congrArg PortSched.paused (State.portAt_setPort_same ..), ?_⟩
    exact (State.rd_bump_same ..).trans (by rw [schPauseRx_received])
  · refine answers_powered core (f := macControlArrival true m.val frame) rfl fun c hc => ?_
    rw [macControlArrival_obeyed span receives trunk mac flow whole, pauseReceive_pfc (flow' flow) op,
      State.portAt_setPort_same, testBit_pfcPaused frame _ hc, (framesStay_receipt n m.val frame .terminate).portAt]

end Sys2Proof.Machine
end

section
/-! SUPPORT. Cells: how one is sent to an island and done, and what dispatch, audits and stitches leave as they are. -/

namespace Sys2Proof.Machine

variable {s t u : State} {i : Nat} {c : Cell}

@[simp] theorem State.islQ_setIslQ_same (i : Nat) (q : IslandQ) : (s.setIslQ i q).islQ i = q := Tbl.get_set_same ..

theorem State.islQ_setIslQ_ne {i j : Nat} (q : IslandQ) (h : j ≠ i) : (s.setIslQ i q).islQ j = s.islQ j :=
  Tbl.get_set_ne _ _ _ h

/-! ## Dispatch (R78, R101) -/

/-- Beside the input of islands, the audits with their cadence and the borrower, the fabric is as before, and so are the
frames and the associations. -/
structure Dispatches (s u : State) : Prop where
  fab : u.fab = { s.fab with
    islands := u.fab.islands, audits := u.fab.audits, cadence := u.fab.cadence, borrower := u.fab.borrower }
  sch : u.sch = s.sch
  sec : u.sec = s.sec

theorem Dispatches.refl (s : State) : Dispatches s s := ⟨rfl, rfl, rfl⟩

theorem Dispatches.trans (h : Dispatches s t) (k : Dispatches t u) : Dispatches s u where
  fab := k.fab.trans (by rw [h.fab])
  sch := k.sch.trans h.sch
  sec := k.sec.trans h.sec

theorem Dispatches.ready (h : Dispatches s t) : t.fab.ready = s.fab.ready := by rw [h.fab]
theorem Dispatches.lastIsland (h : Dispatches s t) : t.fab.lastIsland = s.fab.lastIsland := by rw [h.fab]
theorem Dispatches.wheelPos (h : Dispatches s t) : t.fab.wheelPos = s.fab.wheelPos := by rw [h.fab]
theorem Dispatches.spare (h : Dispatches s t) : t.fab.spare = s.fab.spare := by rw [h.fab]

theorem CellsStay.dispatches (h : CellsStay s t) (sec : t.sec = s.sec) : Dispatches s t := ⟨by rw [h.1], h.2, sec⟩

theorem pmcCount_sec (event inst w : Nat) : (pmcCount event inst w s).sec = s.sec := by
  rw [(framesStay_pmcCount event inst w).rest]

theorem dispatches_pmcCount (event inst w : Nat) : Dispatches s (pmcCount event inst w s) :=
  (cellsStay_pmcCount ..).dispatches (pmcCount_sec ..)

theorem dispatches_toIsland : Dispatches s (toIsland i c s) :=
  .trans (t := s.setIslQ i { s.islQ i with input := (s.islQ i).input ++ [c] }) ⟨rfl, rfl, rfl⟩
    ((dispatches_pmcCount ..).trans (dispatches_pmcCount ..))

theorem toIsland_islQ (j : Nat) : (toIsland i c s).islQ j =
    (s.setIslQ i { s.islQ i with input := (s.islQ i).input ++ [c] }).islQ j :=
  ((cellsStay_pmcCount ..).trans (cellsStay_pmcCount ..)).islQ j

theorem toIsland_input_same : ((toIsland i c s).islQ i).input = (s.islQ i).input ++ [c] := by
  rw [toIsland_islQ, State.islQ_setIslQ_same]

theorem toIsland_input_ne {j : Nat} (h : j ≠ i) : ((toIsland i c s).islQ j).input = (s.islQ j).input := by
  rw [toIsland_islQ, State.islQ_setIslQ_ne _ h]

/-- Whether a cell is audited is chosen by its cadence, or at random; no cell moves. -/
theorem auditChoice_shows : Dispatches s (auditChoice s).2 ∧ ∀ j, (auditChoice s).2.islQ j = s.islQ j := by
  unfold auditChoice
  split <;> exact ⟨⟨rfl, rfl, rfl⟩, fun _ => rfl⟩

/-- An audited cell goes to a second island beside the first. -/
theorem sendCell_shows : Dispatches s (sendCell i c s) ∧
    ((sendCell i c s).islQ i).input = (s.islQ i).input ++ [c] := by
  obtain ⟨chosen, queues⟩ := auditChoice_shows (s := s)
  unfold sendCell
  dsimp only
  rw [← queues i]
  generalize (auditChoice s).2 = v at chosen ⊢
  split
  · exact ⟨chosen.trans dispatches_toIsland, toIsland_input_same⟩
  have counted := cellsStay_pmcCount (s := v) 0x0201 i 1
  have counts : Dispatches s (pmcCount 0x0201 i 1 v) := chosen.trans (dispatches_pmcCount ..)
  rw [← counted.islQ i]
  generalize pmcCount 0x0201 i 1 v = w at counts ⊢
  split
  · have skips : Dispatches s (w.bump Reg.CPH_AUDIT_SKIPS) := counts.trans ⟨rfl, rfl, rfl⟩
    exact ⟨skips.trans dispatches_toIsland, toIsland_input_same⟩
  case h_2 j partner =>
    have other : i ≠ j := by
      have := List.find?_some partner
      simp only [Bool.and_eq_true, bne_iff_ne] at this
      exact this.1.1.1.symm
    have noted (l : List Audit) : Dispatches s { w with fab := { w.fab with audits := l } } :=
      counts.trans ⟨rfl, rfl, rfl⟩
    exact ⟨(noted _).trans (dispatches_toIsland.trans dispatches_toIsland),
      (toIsland_input_ne other).trans toIsland_input_same⟩

/-- What the dispatch of a cell shows: the cell at the end of the island's input and no longer ready. -/
structure Dispatched (i : Nat) (c : Cell) (s u : State) : Prop where
  input : (u.islQ i).input = (s.islQ i).input ++ [c]
  ready : u.fab.ready = takeCell c s.fab.ready
  lastIsland : u.fab.lastIsland = i
  wheelPos : u.fab.wheelPos = s.fab.wheelPos
  spare : u.fab.spare = s.fab.spare
  sch : u.sch = s.sch
  sec : u.sec = s.sec

theorem dispatchCell_shows : Dispatched i c s (dispatchCell i c s) := by
  obtain ⟨sends, input⟩ := sendCell_shows (i := i) (c := c)
    (s := { s with fab := { s.fab with ready := takeCell c s.fab.ready, lastIsland := i } })
  exact ⟨input, sends.ready, sends.lastIsland, sends.wheelPos, sends.spare, sends.sch, sends.sec⟩

theorem Dispatched.of_dispatches (h : Dispatched i c t u) (k : Dispatches s t) (queue : t.islQ i = s.islQ i) :
    Dispatched i c s u where
  input := by rw [h.input, queue]
  ready := by rw [h.ready, k.ready]
  lastIsland := h.lastIsland
  wheelPos := h.wheelPos.trans k.wheelPos
  spare := h.spare.trans k.spare
  sch := h.sch.trans k.sch
  sec := h.sec.trans k.sec

/-- A cell that runs on another span's capacity moves the borrower on (R101). -/
theorem borrowed_shows : Dispatches s (borrowed c s) ∧ ∀ j, (borrowed c s).islQ j = s.islQ j := by
  unfold borrowed
  split <;> exact ⟨⟨rfl, rfl, rfl⟩, fun _ => rfl⟩

theorem wheelSlot_sends {lent : Bool} (cell : slotCell s (s.fab.wheel.getD s.fab.wheelPos 32) = some (c, lent))
    (free : freeIsland s = some i) :
    Dispatched i c { s with fab := { s.fab with wheelPos := (s.fab.wheelPos + 1) % 4096 } } (wheelSlot s) := by
  unfold wheelSlot
  dsimp only
  generalize s.fab.wheel.getD s.fab.wheelPos 32 = owner at cell ⊢
  generalize turned : ({ s with fab := { s.fab with wheelPos := (s.fab.wheelPos + 1) % 4096 } } : State) = v
  have cell' : slotCell v owner = some (c, lent) := by rw [← turned]; exact cell
  have free' : freeIsland v = some i := by rw [← turned]; exact free
  rw [cell', free']
  dsimp only
  have counted (w : State) (e n : Nat) : Dispatches w (pmcCount e n 1 w) ∧ (pmcCount e n 1 w).islQ i = w.islQ i :=
    ⟨dispatches_pmcCount .., (cellsStay_pmcCount ..).islQ i⟩
  obtain ⟨moves, queues⟩ := borrowed_shows (s := v) (c := c)
  generalize borrowed c v = w at moves queues ⊢
  cases lent with
  | false => exact dispatchCell_shows
  | true =>
    rw [if_pos rfl]
    split
    · exact dispatchCell_shows.of_dispatches (moves.trans ((counted ..).1.trans (counted ..).1))
        ((counted ..).2.trans ((counted ..).2.trans (queues i)))
    · exact dispatchCell_shows.of_dispatches (moves.trans (counted ..).1) ((counted ..).2.trans (queues i))

/-- Capacity that has come to a whole cell is lent (R101, R102). -/
theorem spareCapacity_lends {left : Nat} (whole : 190 ≤ s.fab.spare + spareRate s) (cell : lentCell s = some c)
    (free : freeIsland s = some i) (rest : (s.fab.spare + spareRate s) % 190 = left) :
    Dispatched i c { s with fab := { s.fab with spare := left } } (spareCapacity s) := by
  unfold spareCapacity
  dsimp only
  rw [if_neg (Nat.not_lt.mpr whole), rest]
  have cell' : lentCell { s with fab := { s.fab with spare := left } } = some c := cell
  have free' : freeIsland { s with fab := { s.fab with spare := left } } = some i := free
  rw [cell', free']
  dsimp only
  obtain ⟨moves, queues⟩ := borrowed_shows (s := { s with fab := { s.fab with spare := left } }) (c := c)
  exact dispatchCell_shows.of_dispatches moves (queues i)

theorem answers_cellDispatch {lent : Bool} (core : coreRuns s = true) (wheel : s.fab.wheel ≠ [])
    (cell : slotCell s (s.fab.wheel.getD s.fab.wheelPos 32) = some (c, lent)) (free : freeIsland s = some i) :
    Answers .cellDispatch s (fun u => ∃ v, u = spareCapacity v ∧ (v.islQ i).input = (s.islQ i).input ++ [c] ∧
      v.fab.ready = takeCell c s.fab.ready ∧ v.fab.lastIsland = i ∧ v.fab.wheelPos = (s.fab.wheelPos + 1) % 4096 ∧
      v.sch = s.sch ∧ v.sec = s.sec) := by
  refine answers_powered core (f := cellDispatch) rfl ?_
  have turns : cellDispatch s.fresh = spareCapacity (wheelSlot s.fresh) :=
    if_neg (by rw [List.isEmpty_iff]; exact wheel)
  obtain ⟨input, ready, lastIsland, wheelPos, -, sch, sec⟩ := wheelSlot_sends (s := s.fresh) cell free
  exact ⟨wheelSlot s.fresh, turns, input, ready, lastIsland, wheelPos, sch, sec⟩

/-! ## Cells done (R87, R90, R91) -/

theorem cellsStay_lateCell : CellsStay s (lateCell s) := by
  have late : CellsStay s (raiseEvent 0x02 3 0 (s.drawn.bump Reg.CPH_LATE)) :=
    .trans (t := s.drawn.bump Reg.CPH_LATE) ⟨rfl, rfl⟩ (cellsStay_raiseEvent ..)
  unfold lateCell
  split
  · exact late.ite ⟨rfl, rfl⟩
  · exact .refl s

/-- A frame with one cell more run on the island, computed right or wrong. -/
def cellRun (c : Cell) (i : Nat) (r : CellResult) (f : Frame) : Frame :=
  let g := { f with cellsLeft := f.cellsLeft - 1, ran := f.ran ++ [i] }
  match r with
  | .right => g
  | .wrong b p => miscomputed c.index b p g

theorem miscomputed_shows (k : Nat) (bytes : Bytes) (p : BitVec 128) (f : Frame) :
    (miscomputed k bytes p f).cellsLeft = f.cellsLeft ∧ (miscomputed k bytes p f).ran = f.ran := by
  unfold miscomputed
  split <;> exact ⟨rfl, rfl⟩

theorem cellRun_shows (r : CellResult) (f : Frame) :
    (cellRun c i r f).cellsLeft = f.cellsLeft - 1 ∧ (cellRun c i r f).ran = f.ran ++ [i] := by
  cases r with
  | right => exact ⟨rfl, rfl⟩
  | wrong b p => exact miscomputed_shows ..

theorem cellDone_frame {r : CellResult} (frame : c.trunk = false) (cell : c.waste = false)
    (has : s.hasFrame c.frame = true) :
    ∃ v, CellsStay s v ∧ cellDone c i r s = v.setFrame c.frame (cellRun c i r (s.frameAt c.frame)) := by
  unfold cellDone
  dsimp only
  have late : CellsStay s (if c.index = 0 ∧ !c.waste then lateCell s else s) := cellsStay_lateCell.ite (.refl s)
  generalize (if c.index = 0 ∧ !c.waste then lateCell s else s) = v at late ⊢
  rw [if_neg (by simp [cell]), if_neg (by simp [frame]), if_neg (by simp [late.hasFrame, has]), late.frameAt]
  refine ⟨_, late.trans ((cellsStay_settleWasted [i]).ite (.refl v)), congrArg₂ _ rfl ?_⟩
  cases r <;> rfl

end Sys2Proof.Machine
end

section
/-! SUPPORT. Stitches sent for a cell done, and the commands that complete a cell and compare an audit. -/

namespace Sys2Proof.Machine

variable {s t u : State} {i : Nat} {c : Cell}

/-! ## Stitches (R165 to R167) -/

theorem cellsStay_setTrk (n : Nat) (x : TrunkState) : CellsStay s (s.setTrk n x) := .refl s

theorem cellsStay_evrQueue (rec : Bytes) : CellsStay s (evrQueue rec s) := by
  have lost : CellsStay s (loseRecord rec s) :=
    .trans (t := State.bump _ Reg.EVR_LOST) ⟨rfl, rfl⟩ (cellsStay_raiseEvent ..)
  unfold evrQueue
  dsimp only
  split
  · exact (CellsStay.refl s).ite lost
  · exact ⟨rfl, rfl⟩

theorem cellsStay_lineSend (n : Nat) (bs : List Block257) : CellsStay s (lineSend n bs s) := by
  unfold lineSend
  dsimp only
  split
  · exact cellsStay_setTrk ..
  · exact ⟨rfl, rfl⟩

theorem cellsStay_lineFill (k n : Nat) : CellsStay s (lineFill k n s) := by
  induction k generalizing s with
  | zero => exact .refl s
  | succ k ih => exact .trans (t := s.emit (.fillOut n)) ⟨rfl, rfl⟩ ((cellsStay_lineSend ..).trans ih)

theorem cellsStay_traceAdd (stamp attr len tag sa outcome : Nat) (head secTag : Bytes) :
    CellsStay s (traceAdd stamp attr len tag sa outcome head secTag s) := ⟨rfl, rfl⟩

/-- A stitch leaves: lines, counters, records and its association change, and no cell nor frame. -/
theorem cellsStay_sendStitch (n : Nat) : CellsStay s (sendStitch n s) := by
  have counts (b : Bool) (off : Nat) (v : State) : CellsStay v (if b then trkCount n off 1 v else v) :=
    (cellsStay_bump64 ..).ite (.refl v)
  have emits (o : Output) (v : State) : CellsStay v (v.emit o) := ⟨rfl, rfl⟩
  unfold sendStitch
  dsimp only
  split
  · exact .refl s
  split
  · exact .refl s
  refine .trans ?sent ((cellsStay_unbind ..).trans (cellsStay_lineFill ..))
  refine .trans ?counted (.ite (cellsStay_traceAdd ..) (.refl _))
  refine .trans ?_ (.ite (cellsStay_evrQueue _) (.refl _))
  refine .trans ?_ ((counts ..).trans (counts ..))
  exact (cellsStay_setTrk ..).trans <| (emits ..).trans <| (cellsStay_lineSend ..).trans (cellsStay_bump64 ..)

theorem cellsStay_stitchCell (n tag index : Nat) (ran : List Nat) (r : CellResult) (lost : Bool) :
    CellsStay s (stitchCell n tag index ran r lost s) := by
  unfold stitchCell
  dsimp only
  split
  · exact cellsStay_setTrk ..
  split
  · exact cellsStay_settleWasted _
  · exact (cellsStay_setTrk ..).trans <| (cellsStay_sendStitch n).trans (cellsStay_sendStitch n)

/-- A cell done leaves the fabric as it is. -/
theorem cellDone_fab (r : CellResult) : (cellDone c i r s).fab = s.fab := by
  have late : CellsStay s (if c.index = 0 ∧ !c.waste then lateCell s else s) := cellsStay_lateCell.ite (.refl s)
  unfold cellDone
  dsimp only
  generalize (if c.index = 0 ∧ !c.waste then lateCell s else s) = v at late ⊢
  rw [← late.1]
  split
  · exact (cellsStay_settleWasted _).1
  split
  · exact (cellsStay_stitchCell ..).1
  split
  · exact (cellsStay_settleWasted _).1
  · have wasted (b : Bool) : (if b then settleWasted [i] v else v).fab = v.fab :=
      ((cellsStay_settleWasted [i]).ite (.refl v)).1
    exact wasted _

/-! ## The commands (R87, R90, R91, R103, R493) -/

theorem cellComplete_unaudited {rest : List Cell} {wrong : Bool} (run : islandState s i = 0)
    (room : (s.islQ i).output.length < 32) (input : (s.islQ i).input = c :: rest) (alone : auditOf s i c = none) :
    cellComplete i wrong s = syncTags (cellDone c i (cellResult c wrong s)
      (((if wrong then s.drawn else s).bump64 (Reg.PMC_ISL i 0)).setIslQ i { s.islQ i with input := rest })) := by
  have alone' : auditOf ((if wrong then s.drawn else s).bump64 (Reg.PMC_ISL i 0)) i c = none := by
    cases wrong <;> exact alone
  unfold cellComplete
  dsimp only
  rw [if_neg (by omega), if_neg (by omega), input]
  dsimp only
  rw [alone']

theorem cellComplete_audited {rest : List Cell} {wrong : Bool} {k : Nat} (run : islandState s i = 0)
    (room : (s.islQ i).output.length < 32) (input : (s.islQ i).input = c :: rest) (audit : auditOf s i c = some k) :
    let u := cellComplete i wrong s
    u.islQ i = { input := rest, output := (s.islQ i).output ++ [c] } ∧ u.fab.audits = modifyAt s.fab.audits k (fun a =>
      if c.audit then { a with second := some (cellResult c wrong s) }
      else { a with first := some (cellResult c wrong s) }) ∧ u.sch = s.sch := by
  have counted : CellsStay s ((if wrong then s.drawn else s).bump64 (Reg.PMC_ISL i 0)) := by
    cases wrong <;> exact ⟨rfl, rfl⟩
  have audit' : auditOf ((if wrong then s.drawn else s).bump64 (Reg.PMC_ISL i 0)) i c = some k := by
    rw [auditOf, counted.1]
    exact audit
  unfold cellComplete
  dsimp only
  rw [if_neg (by omega), if_neg (by omega), input]
  dsimp only
  rw [audit']
  dsimp only
  generalize (if wrong then s.drawn else s).bump64 (Reg.PMC_ISL i 0) = v at counted ⊢
  exact ⟨State.islQ_setIslQ_same (s := v) .., by rw [← counted.1]; rfl, counted.2⟩

theorem answers_cellComplete_frame {i : Island} {rest : List Cell} {wrong : Bool} (core : coreRuns s = true)
    (run : islandState s i.val = 0) (room : (s.islQ i.val).output.length < 32)
    (input : (s.islQ i.val).input = c :: rest) (alone : auditOf s i.val c = none)
    (frame : c.trunk = false) (cell : c.waste = false) (has : s.hasFrame c.frame = true) :
    Answers (.cellComplete i wrong) s (fun u =>
      (u.islQ i.val).input = rest ∧ (u.frameAt c.frame).cellsLeft = (s.frameAt c.frame).cellsLeft - 1 ∧
      (u.frameAt c.frame).ran = (s.frameAt c.frame).ran ++ [i.val] ∧
      (wrong = false → (u.frameAt c.frame).line = (s.frameAt c.frame).line ∧
        (u.frameAt c.frame).client = (s.frameAt c.frame).client) ∧
      (∀ id, id ≠ c.frame → u.frameAt id = s.frameAt id)) := by
  refine answers_powered core (f := cellComplete i.val wrong) rfl ?_
  rw [cellComplete_unaudited (s := s.fresh) run room input alone]
  have counted : CellsStay s ((if wrong then s.fresh.drawn else s.fresh).bump64 (Reg.PMC_ISL i.val 0)) := by
    cases wrong <;> exact ⟨rfl, rfl⟩
  generalize (if wrong then s.fresh.drawn else s.fresh).bump64 (Reg.PMC_ISL i.val 0) = v at counted ⊢
  have frames (id : Nat) : (v.setIslQ i.val { s.fresh.islQ i.val with input := rest }).frameAt id = s.frameAt id :=
    counted.frameAt id
  have has' : (v.setIslQ i.val { s.fresh.islQ i.val with input := rest }).hasFrame c.frame = true :=
    (counted.hasFrame c.frame).trans has
  have queue : ((v.setIslQ i.val { s.fresh.islQ i.val with input := rest }).islQ i.val).input = rest := by
    rw [State.islQ_setIslQ_same]
  generalize v.setIslQ i.val { s.fresh.islQ i.val with input := rest } = w at frames has' queue ⊢
  obtain ⟨x, stays, done⟩ := cellDone_frame (i := i.val) (r := cellResult c wrong s.fresh) frame cell has'
  obtain ⟨left, ran⟩ := cellRun_shows (c := c) (i := i.val) (cellResult c wrong s.fresh) (s.frameAt c.frame)
  rw [done, frames]
  have shown := cellsStay_syncTags
    (s := x.setFrame c.frame (cellRun c i.val (cellResult c wrong s.fresh) (s.frameAt c.frame)))
  rw [shown.islQ, shown.frameAt, State.frameAt_setFrame_same]
  refine ⟨(congrArg IslandQ.input (stays.islQ i.val)).trans queue, left, ran, ?_, fun id other => ?_⟩
  · rintro rfl
    exact ⟨rfl, rfl⟩
  · rw [shown.frameAt, State.frameAt_setFrame_ne _ other, stays.frameAt, frames]

theorem answers_cellComplete_audit {i : Island} {rest : List Cell} {wrong : Bool} {k : Nat} (core : coreRuns s = true)
    (run : islandState s i.val = 0) (room : (s.islQ i.val).output.length < 32)
    (input : (s.islQ i.val).input = c :: rest) (audit : auditOf s i.val c = some k) :
    Answers (.cellComplete i wrong) s (fun u =>
      (u.islQ i.val).input = rest ∧ (u.islQ i.val).output = (s.islQ i.val).output ++ [c] ∧
      u.fab.audits = modifyAt s.fab.audits k (fun a =>
        if c.audit then { a with second := some (cellResult c wrong s) }
        else { a with first := some (cellResult c wrong s) }) ∧ u.sch = s.sch) := by
  refine answers_powered core (f := cellComplete i.val wrong) rfl ?_
  obtain ⟨queue, audits, sch⟩ := cellComplete_audited (s := s.fresh) (wrong := wrong) run room input audit
  rw [queue]
  exact ⟨rfl, rfl, audits, sch⟩

theorem answers_cellComplete_starved {i : Island} (wrong : Bool) (core : coreRuns s = true)
    (run : islandState s i.val = 0) (room : (s.islQ i.val).output.length < 32) (input : (s.islQ i.val).input = []) :
    Answers (.cellComplete i wrong) s (fun u =>
      u.rd64 (Reg.PMC_ISL i.val 4) = (s.rd64 (Reg.PMC_ISL i.val 4) + 1) % 2 ^ 64 ∧
      OnlyRegs [Reg.PMC_ISL i.val 4, Reg.PMC_ISL i.val 4 + 4] s u) := by
  refine answers_powered core (f := cellComplete i.val wrong) rfl ?_
  have starved : cellComplete i.val wrong s.fresh = s.fresh.bump64 (Reg.PMC_ISL i.val 4) := by
    have run' : ¬ islandState s.fresh i.val ≠ 0 := not_not.mpr run
    have room' : ¬ 32 ≤ (s.fresh.islQ i.val).output.length := Nat.not_le.mpr room
    have input' : (s.fresh.islQ i.val).input = [] := input
    unfold cellComplete
    dsimp only
    rw [if_neg run', if_neg room', input']
  have before : s.fresh.rd64 (Reg.PMC_ISL i.val 4) = s.rd64 (Reg.PMC_ISL i.val 4) := rfl
  rw [starved, ← before]
  exact ⟨State.rd64_bump64_same .., onlyRegs_fresh.trans <|
    (onlyRegs_wr _ (by simp)).trans (onlyRegs_wr _ (by simp))⟩

theorem answers_auditCompare_agrees {a : Audit} {r : CellResult} (core : coreRuns s = true)
    (both : s.fab.audits.find? (fun a => a.first.isSome && a.second.isSome) = some a) (first : a.first = some r)
    (second : a.second = some r) : Answers .auditCompare s (fun u =>
      u.fab.audits = s.fab.audits.filter (fun b => b != a) ∧
      ∃ v, u = syncTags (cellDone a.cell a.primary r v) ∧ v.sch = s.sch ∧ v.regs = s.regs) := by
  refine answers_powered core (f := auditCompare) rfl ?_
  have both' : s.fresh.fab.audits.find? (fun a => a.first.isSome && a.second.isSome) = some a := both
  unfold auditCompare
  rw [both']
  dsimp only
  rw [if_pos (first.trans second.symm), first]
  refine ⟨?_, _, rfl, rfl, rfl⟩
  rw [cellsStay_syncTags.1, cellDone_fab]
  rfl

/-- Settles O19, clause by clause: the wheel's slot and the spare capacity by `dispatchCell`, the completion of a cell
by `cellDone` or into its audit, the starved island, and the audit whose results agree. -/
theorem cellsPassThroughTheFabric : Obligations.CellsPassThroughTheFabric := by
  intro s core
  refine ⟨fun c lent i wheel cell free => answers_cellDispatch core wheel cell free, fun c i whole cell free => ?_,
    fun i c rest wrong run room input => ⟨answers_cellComplete_frame core run room input,
      fun k => answers_cellComplete_audit core run room input⟩,
    fun i wrong run room input => answers_cellComplete_starved wrong core run room input,
    fun a r both first second => answers_auditCompare_agrees core both first second⟩
  generalize rest : (s.fab.spare + spareRate s) % 190 = left
  obtain ⟨input, ready, lastIsland, -, spare, sch, sec⟩ := spareCapacity_lends whole cell free rest
  exact ⟨input, ready, lastIsland, spare, sch, sec⟩

end Sys2Proof.Machine
end

section
/-! SUPPORT. What follows the effect of every command writes no register of an island: the associations and their
switch, frames admitted at the end of a rise, flow control, the key queue and the messages and events owed. -/

namespace Sys2Proof.Machine

variable {s t u : State}

/-! ## Writes outside the islands' registers -/

/-- The registers of the islands read as before. -/
structure IslandsStay (s u : State) : Prop where
  outside : RegsOutside offIslands s u

theorem IslandsStay.refl (s : State) : IslandsStay s s := ⟨.refl _ s⟩

theorem IslandsStay.trans (h : IslandsStay s t) (k : IslandsStay t u) : IslandsStay s u := ⟨h.outside.trans k.outside⟩

theorem IslandsStay.ite {c : Prop} [Decidable c] (h : IslandsStay s t) (k : IslandsStay s u) :
    IslandsStay s (if c then t else u) := by
  split
  · exact h
  · exact k

theorem IslandsStay.foldl {α : Type} {f : State → α → State} (h : ∀ t x, IslandsStay t (f t x)) (l : List α) :
    IslandsStay s (l.foldl f s) :=
  List.foldlRecOn _ _ (.refl s) fun _ ht x _ => ht.trans (h _ x)

theorem islandsStay_of_regs (h : t.regs = s.regs) : IslandsStay s t :=
  ⟨fun a _ => by rw [State.rd, h, State.rd]⟩

theorem islandsStay_wr {a : Nat} (v : Nat) (h : a < 0xC0200 ∨ 0xC0360 ≤ a) : IslandsStay s (s.wr a v) :=
  ⟨regsOutside_wr v (offIslands_of h)⟩

theorem islandsStay_bump64 {a : Nat} (n : Nat) (h : a + 4 < 0xC0200 ∨ 0xC0360 ≤ a) :
    IslandsStay s (s.bump64 a n) :=
  (islandsStay_wr _ (by omega)).trans (islandsStay_wr _ (by omega))

theorem islandsStay_penCount (p n : Nat) {off : Nat} (h : off < 0x1000) : IslandsStay s (penCount p off n s) :=
  islandsStay_bump64 _ (.inl (by unfold Reg.PEN_PAGE; omega))

theorem islandsStay_frmCount (k n : Nat) {off : Nat} (h : off < 0x1000) : IslandsStay s (frmCount k off n s) :=
  islandsStay_bump64 _ (.inl (by unfold Reg.FRM_PAGE; omega))

theorem islandsStay_emit (o : Output) : IslandsStay s (s.emit o) := islandsStay_of_regs rfl
theorem islandsStay_fab (x : FabState) : IslandsStay s { s with fab := x } := islandsStay_of_regs rfl
theorem islandsStay_sch (x : SchState) : IslandsStay s { s with sch := x } := islandsStay_of_regs rfl
theorem islandsStay_sec (x : SecState) : IslandsStay s { s with sec := x } := islandsStay_of_regs rfl
theorem islandsStay_key (x : KeyState) : IslandsStay s { s with key := x } := islandsStay_of_regs rfl
theorem islandsStay_cls (x : ClsState) : IslandsStay s { s with cls := x } := islandsStay_of_regs rfl
theorem islandsStay_chn (x : ChnState) : IslandsStay s { s with chn := x } := islandsStay_of_regs rfl
theorem islandsStay_hrn (x : HrnState) : IslandsStay s { s with hrn := x } := islandsStay_of_regs rfl
theorem islandsStay_dbg (x : DbgState) : IslandsStay s { s with dbg := x } := islandsStay_of_regs rfl
theorem islandsStay_drawn : IslandsStay s s.drawn := islandsStay_of_regs rfl
theorem islandsStay_setSa (i : Nat) (e : SaEntry) : IslandsStay s (s.setSa i e) := islandsStay_of_regs rfl
theorem islandsStay_setSc (rx : Bool) (i : Nat) (e : ScEntry) : IslandsStay s (s.setSc rx i e) :=
  (islandsStay_sec _).ite (islandsStay_sec _)
theorem islandsStay_setPort (p : Nat) (x : PortSched) : IslandsStay s (s.setPort p x) := islandsStay_of_regs rfl
theorem islandsStay_setFrame (id : Nat) (f : Frame) : IslandsStay s (s.setFrame id f) := islandsStay_of_regs rfl
theorem islandsStay_setQueue (p c : Nat) (q : List QEntry) : IslandsStay s (s.setQueue p c q) := islandsStay_of_regs rfl
theorem islandsStay_mirror (m : HrnMsg) : IslandsStay s (s.mirror m) := islandsStay_of_regs rfl
theorem islandsStay_putVault (r : VaultRecord) (f : Vault → Vault) : IslandsStay s (s.putVault r f) :=
  islandsStay_of_regs rfl

/-! ## Events and counters -/

theorem Posts.islands (h : Posts s t) : IslandsStay s t := ⟨h.regsOutside offIslands_hostIfReg⟩

theorem islandsStay_raiseEvent {src : Nat} (b p3 : Nat)
    (h : (eventRegs src).1 < 0xC0200 ∨ 0xC0360 ≤ (eventRegs src).1) : IslandsStay s (raiseEvent src b p3 s) :=
  (islandsStay_wr _ h).trans (posts_raiseEvent src b p3).islands

theorem islandsStay_pmcCount (event inst n : Nat) : IslandsStay s (pmcCount event inst n s) :=
  ⟨(regsOutside_pmcCount event inst n).mono fun a h => by
    rw [offIslands, Bool.or_eq_false_iff, decide_eq_false_iff_not, decide_eq_false_iff_not] at h
    rw [pmcReg, hostIfReg]
    simp only [Bool.or_eq_false_iff, Bool.and_eq_false_iff, decide_eq_false_iff_not]
    omega⟩

theorem islandsStay_frmEvent (b : Nat) : IslandsStay s (frmEvent b s) :=
  islandsStay_raiseEvent (src := 3) b 0 (by decide)

theorem islandsStay_clsEvent (b : Nat) : IslandsStay s (clsEvent b s) :=
  islandsStay_raiseEvent (src := 7) b 0 (by decide)

theorem islandsStay_secEvent (b sc : Nat) (rx : Bool) : IslandsStay s (secEvent b sc rx s) :=
  (islandsStay_wr (a := Reg.SEC_LAST) _ (by decide)).trans (islandsStay_raiseEvent (src := 5) b 0 (by decide))

theorem islandsStay_schEvent (b p : Nat) (client : Bool) (c : Nat) : IslandsStay s (schEvent b p client c s) :=
  (islandsStay_wr (a := Reg.SCH_LAST) _ (by decide)).trans (islandsStay_raiseEvent (src := 8) b 0 (by decide))

theorem islandsStay_syncTags : IslandsStay s (syncTags s) := by
  have free (n : Nat) : IslandsStay s (s.wr Reg.CPH_TAG_FREE n) := islandsStay_wr _ (by decide)
  unfold syncTags
  exact ((free _).trans (islandsStay_raiseEvent (src := 2) 4 0 (by decide))).ite (free _)

/-! ## Associations (R194 to R209) -/

theorem islandsStay_emptySlot (sa : Nat) : IslandsStay s (emptySlot sa s) := by
  have clears (w : State) : IslandsStay w (w.bump Reg.SEC_ORPHAN_CLEARS) := islandsStay_wr _ (by decide)
  have orphan : IslandsStay s (countOrphan sa s) := by
    unfold countOrphan
    dsimp only
    split
    · split
      · exact (clears _).trans (islandsStay_secEvent ..)
      · exact clears _
    · exact .refl s
  exact orphan.trans ((islandsStay_setSa ..).trans (islandsStay_sec _))

theorem islandsStay_requestFill (f : FillReq) : IslandsStay s (requestFill f s) :=
  (islandsStay_setSa ..).trans (islandsStay_sec _)

theorem islandsStay_refill (rx : Bool) (i : Nat) : IslandsStay s (refill rx i s) := by
  unfold refill
  dsimp only
  split
  · exact .refl s
  · exact (islandsStay_requestFill _).ite (.refl s)

theorem islandsStay_emptyAndRefill (rx : Bool) (i sa : Nat) : IslandsStay s (emptyAndRefill rx i sa s) :=
  (islandsStay_emptySlot sa).trans (islandsStay_refill rx i)

theorem islandsStay_unbind (sa gen : Nat) : IslandsStay s (unbind sa gen s) := by
  unfold unbind
  dsimp only
  split
  · exact .refl s
  split
  · split
    · exact (islandsStay_setSa ..).trans (islandsStay_emptyAndRefill ..)
    · exact (islandsStay_setSa ..).trans (islandsStay_emptySlot _)
  · exact islandsStay_setSa ..

theorem islandsStay_keeperAlarm (bits : Nat) : IslandsStay s (keeperAlarm bits s) := by
  have raised (v : Nat) (w : State) : IslandsStay w (raiseVector 4 (w.wr Reg.KPR_ALARM v)) :=
    (islandsStay_wr _ (by decide)).trans (posts_raiseVector 4).islands
  have noted (new : Nat) (w : State) (x : ChnState) : IslandsStay w
      { evqPostLimited (256 * 0x0E) 0x0E 0 new (w.rd Reg.KPR_ALARM) 0 0 w with chn := x } :=
    (posts_evqPostLimited ..).islands.trans (islandsStay_chn _)
  unfold keeperAlarm
  dsimp only
  split
  · exact .refl s
  · exact (((raised ..).trans (noted ..)).trans (islandsStay_emit _)).ite ((raised ..).trans (noted ..))

theorem islandsStay_gapEmpty (i : Nat) : IslandsStay s (gapEmpty i s) := by
  unfold gapEmpty
  dsimp only
  split
  · exact .trans ((islandsStay_emptySlot _).ite (.refl s)) (islandsStay_setSc ..)
  · exact .refl s

theorem islandsStay_setGapBit (i : Nat) (b : Bool) : IslandsStay s (setGapBit i b s) :=
  islandsStay_wr _ (by unfold Reg.SEC_TXGAP; omega)

theorem islandsStay_enterGap (i : Nat) : IslandsStay s (enterGap i s) := by
  have alarm (c : Bool) (w : State) : IslandsStay w (if c then keeperAlarm (2 ^ 10) w else w) :=
    (islandsStay_keeperAlarm _).ite (.refl w)
  have entries (w : State) : IslandsStay w (w.bump Reg.SEC_GAP_ENTRIES) := islandsStay_wr _ (by decide)
  have entered (c : State → Bool) (e : ScEntry) : IslandsStay s
      (let w := secEvent 3 i false (setGapBit i true ((s.setSc false i e).bump Reg.SEC_GAP_ENTRIES))
       if c w then keeperAlarm (2 ^ 10) w else w) :=
    (((islandsStay_setSc ..).trans (entries _)).trans
      ((islandsStay_setGapBit ..).trans (islandsStay_secEvent ..))).trans (alarm ..)
  unfold enterGap
  dsimp only
  split
  · exact .refl s
  · have alarmed := entered fun w => isK7 w false i
    exact (alarmed _).ite ((alarmed _).trans (islandsStay_gapEmpty i))

theorem islandsStay_exitGap (i : Nat) : IslandsStay s (exitGap i s) := by
  unfold exitGap
  dsimp only
  exact (IslandsStay.refl s).ite <| (islandsStay_setSc ..).trans <|
    (islandsStay_setGapBit ..).trans (islandsStay_secEvent ..)

theorem islandsStay_journalSc (rx : Bool) (i : Nat) : IslandsStay s (journalSc rx i s) :=
  (IslandsStay.refl s).ite (islandsStay_putVault ..)

theorem islandsStay_applyPending (rx : Bool) (i : Nat) : IslandsStay s (applyPending rx i s) := by
  unfold applyPending
  dsimp only
  split
  · exact (islandsStay_setSc ..).trans (islandsStay_journalSc ..)
  · exact .refl s

theorem islandsStay_makeCurrent (i slot : Nat) : IslandsStay s (makeCurrent i slot s) := by
  unfold makeCurrent
  dsimp only
  exact ((islandsStay_setSa ..).trans (islandsStay_setSc ..)).trans <|
    ((islandsStay_exitGap i).trans (islandsStay_applyPending ..)).trans <|
    (islandsStay_journalSc ..).trans (islandsStay_mirror _)

/-- A switch shows in the association's registers alone (R205). -/
theorem islandsStay_txSwitch (i : Nat) : IslandsStay s (txSwitch i s) := by
  have switched : IslandsStay s
      (secEvent 0 i false ((makeCurrent i (nextSlot (s.scAt false i)) s).bump Reg.SEC_TX_SWITCHES)) :=
    ((islandsStay_makeCurrent ..).trans (islandsStay_wr (a := Reg.SEC_TX_SWITCHES) _ (by decide))).trans
      (islandsStay_secEvent ..)
  unfold txSwitch
  dsimp only
  refine switched.trans ?_
  generalize secEvent 0 i false ((makeCurrent i (nextSlot (s.scAt false i)) s).bump Reg.SEC_TX_SWITCHES) = w
  split
  · split
    · exact (islandsStay_emptyAndRefill ..).ite (islandsStay_setSa ..)
    · exact islandsStay_refill ..
  · exact islandsStay_refill ..

theorem islandsStay_fireTrigger (i : Nat) (cinch : Bool) : IslandsStay s (fireTrigger i cinch s) := by
  unfold fireTrigger
  dsimp only
  exact (IslandsStay.refl s).ite <| (islandsStay_setSc ..).ite ((islandsStay_setSc ..).trans (islandsStay_enterGap i))

theorem islandsStay_reservationFail (i sa : Nat) : IslandsStay s (reservationFail i sa s) := by
  have spent (w : State) : IslandsStay w (saSpent i sa w) := by
    have cleared (c : Bool) (e : ScEntry) (v : State) : IslandsStay v (if c then v.setSc false i e else v) :=
      (islandsStay_setSc ..).ite (.refl v)
    unfold saSpent
    dsimp only
    have fired (c : Bool) (e : ScEntry) : IslandsStay w (fireTrigger i false
        (if c then (emptySlot sa w).setSc false i e else emptySlot sa w)) :=
      ((islandsStay_emptySlot sa).trans (cleared ..)).trans (islandsStay_fireTrigger i false)
    exact (fired ..).ite ((fired ..).trans (islandsStay_enterGap i))
  exact ((islandsStay_wr (a := Reg.SEC_RES_FAIL) _ (by decide)).trans (islandsStay_secEvent ..)).trans (spent _)

theorem islandsStay_afterAssign (i sa : Nat) : IslandsStay s (afterAssign i sa s) := by
  have mark (k : Nat) (w : State) : IslandsStay w (startMark sa k w) := by
    unfold startMark
    exact (IslandsStay.refl w).ite (islandsStay_setSa ..)
  unfold afterAssign
  dsimp only
  have marked (c : Prop) [Decidable c] (k : Nat) :
      IslandsStay s (if c then startMark sa k (s.bump Reg.SEC_RES_BLOCKS) else s) :=
    ((islandsStay_wr (a := Reg.SEC_RES_BLOCKS) _ (by decide)).trans (mark ..)).ite (.refl s)
  exact ((marked _ _).trans (islandsStay_reservationFail ..)).ite (marked _ _)

theorem islandsStay_assignPn (i slot : Nat) : IslandsStay s (assignPn i slot s).1 := by
  unfold assignPn
  dsimp only
  split
  · exact ((islandsStay_setSa ..).trans (islandsStay_setSc ..)).trans
      ((islandsStay_pmcCount ..).trans (islandsStay_afterAssign ..))
  · exact .refl s

/-- A binding may switch and takes a PN; neither shows in an island (R121, R205). -/
theorem islandsStay_bindTx (i : Nat) (class7 : Bool) : IslandsStay s (bindTx i class7 s).1 := by
  unfold bindTx
  dsimp only
  split
  · exact .refl s
  generalize ((s.scAt false i).trigger && nextReady s (s.scAt false i) && !s.sec.isolated) = due
  have switched : IslandsStay s (if due then txSwitch i s else s) := (islandsStay_txSwitch i).ite (.refl s)
  generalize (if due then txSwitch i s else s) = w at switched ⊢
  refine switched.trans ?_
  split
  · exact .refl _
  split
  · split
    · split
      · exact (islandsStay_assignPn ..).trans (islandsStay_wr (a := Reg.SEC_HOLD_FRAMES) _ (by decide))
      · exact islandsStay_assignPn ..
    · exact .refl _
  · exact islandsStay_assignPn ..

end Sys2Proof.Machine
end

section
/-! SUPPORT. Frames admitted, dropped, refused and sent leave the registers of the islands alone. -/

namespace Sys2Proof.Machine

variable {s t u : State}

/-! ## Frames removed, dropped and entered (R284, R299, R302) -/

theorem islandsStay_removeFrame (id : Nat) : IslandsStay s (removeFrame id s) := by
  have unqueued (l : List Nat) (c : Nat) (w : State) : IslandsStay w (l.foldl (fun s p => unqueue id p c s) w) :=
    .foldl (fun _ _ => islandsStay_setQueue ..) _
  have freed (w : State) (x : SchState) : IslandsStay w { (dropReady id w).freeFrame id with sch := x } :=
    islandsStay_of_regs rfl
  unfold removeFrame
  dsimp only
  refine (IslandsStay.refl s).ite (.trans ?_ islandsStay_syncTags)
  split
  · exact ((unqueued ..).trans (freed ..)).ite (((unqueued ..).trans (freed ..)).trans (islandsStay_unbind ..))
  · exact (unqueued ..).trans (freed ..)

theorem islandsStay_dropCount (p c : Nat) : IslandsStay s (dropCount p c s) := by
  have client : IslandsStay s (s.bump (Reg.SCH_CDROPS p c)) := islandsStay_wr _ (by unfold Reg.SCH_CDROPS; omega)
  have line : IslandsStay s (s.bump (Reg.SCH_LDROPS (p - 32) c)) := islandsStay_wr _ (by unfold Reg.SCH_LDROPS; omega)
  exact (client.ite line).trans (islandsStay_schEvent ..)

theorem islandsStay_dropCounts (l : List Nat) (c : Nat) : IslandsStay s (l.foldl (fun s p => dropCount p c s) s) :=
  .foldl (fun _ p => islandsStay_dropCount p c) _

theorem islandsStay_pushOut (fuel n c k : Nat) : IslandsStay s (pushOut fuel n c k s) := by
  induction fuel generalizing s with
  | zero => exact .refl s
  | succ fuel ih =>
    unfold pushOut
    split
    · exact .refl s
    split
    · exact .refl s
    · exact ((islandsStay_removeFrame _).trans (islandsStay_dropCounts ..)).trans
        ((islandsStay_wr (a := Reg.SCH_PUSHOUTS) _ (by decide)).trans ih)

theorem islandsStay_tryAdmit (f : Frame) : IslandsStay s (tryAdmit f s).1 := by
  unfold tryAdmit
  dsimp only
  split
  · exact islandsStay_wr (a := Reg.CPH_TAG_DROPS) _ (by decide)
  · have pushed := islandsStay_pushOut (s := s) s.sch.frames.length f.span f.cls (cellsOf f.client.length)
    split
    · exact pushed
    · exact pushed.trans (islandsStay_dropCounts ..)

theorem islandsStay_spillDenied (id p : Nat) : IslandsStay s (spillDenied id p s) := by
  have denied (w : State) : IslandsStay w (w.bump Reg.SCH_SPILL_DENIED) := islandsStay_wr _ (by decide)
  unfold spillDenied
  dsimp only
  exact (IslandsStay.refl s).ite (((islandsStay_setFrame ..).trans (denied _)).trans (islandsStay_schEvent ..))

theorem islandsStay_enqueue (id : Nat) : IslandsStay s (enqueue id s) := by
  unfold enqueue
  dsimp only
  exact .foldl (fun t p => .trans (.ite (islandsStay_spillDenied id p) (.refl t)) (islandsStay_setQueue ..)) _

theorem islandsStay_enterFrame (id : Nat) (f : Frame) : IslandsStay s (enterFrame id f s) := by
  have cells (g : Frame) (w : State) : IslandsStay w (addCells id g w) := islandsStay_fab _
  unfold enterFrame
  dsimp only
  exact ((islandsStay_sch _).trans ((islandsStay_setFrame ..).trans (cells ..))).trans
    ((islandsStay_enqueue id).trans islandsStay_syncTags)

/-! ## Frames counted, refused and recorded (R145, R349, R475) -/

theorem islandsStay_countDiscard (n p : Nat) : IslandsStay s (countDiscard n p s) := by
  unfold countDiscard
  exact (islandsStay_wr (a := Reg.PAT_CUT_DROPS) _ (by decide)).ite (islandsStay_penCount p 1 (by decide))

theorem islandsStay_lastFail (span : Nat) (opening : Bool) (cause : Nat) (stomped : Bool) (sc : Option Nat) :
    IslandsStay s (lastFail span opening cause stomped sc s) :=
  (islandsStay_wr (a := Reg.FRM_LAST_FAIL) _ (by decide)).trans (islandsStay_wr (a := Reg.FRM_LAST_SC) _ (by decide))

theorem islandsStay_abortRecord (f : Frame) : IslandsStay s (abortRecord f s) :=
  (IslandsStay.refl s).ite (islandsStay_lastFail ..)

theorem islandsStay_traceFrame (f : Frame) (tag outcome : Nat) : IslandsStay s (traceFrame f tag outcome s) := by
  have added (stamp attr len sa : Nat) (head secTag : Bytes) :
      IslandsStay s (traceAdd stamp attr len tag sa outcome head secTag s) := by
    unfold traceAdd
    dsimp only
    exact .trans (islandsStay_dbg _) <| (islandsStay_wr (a := Reg.DBG_TRACE_COUNT) _ (by decide)).trans
      (islandsStay_wr (a := Reg.DBG_STATUS) _ (by decide))
  unfold traceFrame
  exact (added ..).ite (.refl s)

theorem islandsStay_refuseFrame (f : Frame) {off : Nat} (cause : Nat) (event : Option Nat) (h : off < 0x1000) :
    IslandsStay s (refuseFrame f off cause event s) := by
  have noted (g : Frame) : IslandsStay s
      (traceFrame g 0 cause (lastFail f.span f.opening cause false f.sc (frmCount f.span off 1 s))) :=
    ((islandsStay_frmCount f.span 1 h).trans (islandsStay_lastFail ..)).trans (islandsStay_traceFrame ..)
  unfold refuseFrame
  dsimp only
  split
  · exact (noted _).trans (islandsStay_frmEvent _)
  · exact noted _

theorem islandsStay_countStomp (f : Frame) (cause : Nat) : IslandsStay s (countStomp f cause s) := by
  have off : (if f.opening then 0x88 else 0x18) < 0x1000 := by split <;> decide
  exact ((islandsStay_lastFail ..).trans (islandsStay_frmCount f.span 1 off)).trans <|
    (islandsStay_wr (a := Reg.FRM_STOMPS) _ (by decide)).trans <|
      (islandsStay_pmcCount ..).trans (islandsStay_frmEvent 0)

/-! ## Classification (R262 to R276) -/

theorem islandsStay_chargeLookup (n : Nat) : IslandsStay s (chargeLookup n s) := by
  have missed (w : State) (x : ClsState) : IslandsStay w { pmcCount 0x0701 n 1 w.drawn with cls := x } :=
    (islandsStay_drawn.trans (islandsStay_pmcCount ..)).trans (islandsStay_cls x)
  have late (w : State) : IslandsStay w (clsEvent 3 (w.drawn.bump Reg.CLS_LATE)) :=
    islandsStay_drawn.trans <| (islandsStay_wr (a := Reg.CLS_LATE) _ (by decide)).trans (islandsStay_clsEvent 3)
  unfold chargeLookup
  dsimp only
  refine (islandsStay_pmcCount 0x0700 n 1).trans ?_
  generalize pmcCount 0x0700 n 1 s = w
  exact islandsStay_drawn.ite <| (missed ..).ite <| ((missed ..).trans (late _)).ite
    ((missed ..).trans islandsStay_drawn)

theorem islandsStay_usableSc (n i : Nat) : IslandsStay s (usableSc n i s).1 := by
  unfold usableSc
  dsimp only
  split
  · exact .refl s
  · exact islandsStay_wr (a := Reg.CLS_BADSC_DROPS) _ (by decide)

theorem islandsStay_groupSc (n : Nat) : IslandsStay s (groupSc n s).1 := by
  unfold groupSc
  split
  · exact islandsStay_usableSc ..
  · exact islandsStay_wr (a := Reg.CLS_NOGROUP_DROPS) _ (by decide)

theorem islandsStay_sealAction (n action sc : Nat) (p : Parsed) : IslandsStay s (sealAction n action sc p s).1 := by
  have flood (w : State) : IslandsStay w (groupSc n (w.bump Reg.CLS_SEAL_FLOODS)).1 :=
    (islandsStay_wr (a := Reg.CLS_SEAL_FLOODS) _ (by decide)).trans (islandsStay_groupSc n)
  unfold sealAction
  split
  · refine (islandsStay_chargeLookup n).trans ?_
    dsimp only
    generalize chargeLookup n s = w
    split
    · split
      · exact islandsStay_wr (a := Reg.CLS_LOCAL_DROPS) _ (by decide)
      split
      · exact flood w
      · exact islandsStay_usableSc ..
    · exact flood w
  · exact islandsStay_usableSc ..
  · exact islandsStay_groupSc n
  · exact islandsStay_wr (a := Reg.CLS_POLICY_DROPS) _ (by decide)

theorem islandsStay_sealDecision (m n : Nat) (p : Parsed) : IslandsStay s (sealDecision m n p s).1 := by
  unfold sealDecision
  dsimp only
  split
  · exact islandsStay_wr (a := Reg.CLS_POLICY_DROPS) _ (by decide)
  split
  · exact islandsStay_groupSc n
  split <;> exact islandsStay_sealAction ..

theorem islandsStay_learnQueue (n : Nat) (r : LearnReq) : IslandsStay s (learnQueue n r s) := by
  have shown (w : State) : IslandsStay w (syncCls w) :=
    ((islandsStay_wr (a := Reg.CLS_ENTRIES) _ (by decide)).trans
      (islandsStay_wr (a := Reg.CLS_LEARNQ) _ (by decide))).trans (islandsStay_wr (a := Reg.CLS_PREFIXES) _ (by decide))
  unfold learnQueue
  refine (islandsStay_chargeLookup n).trans ?_
  dsimp only
  generalize chargeLookup n s = w
  refine (IslandsStay.refl w).ite (IslandsStay.ite ?_ ((islandsStay_cls _).trans (shown _)))
  exact (islandsStay_wr (a := Reg.CLS_LEARN_OVF) _ (by decide)).trans (islandsStay_clsEvent 2)

theorem islandsStay_learnSeal (n m : Nat) (p : Parsed) : IslandsStay s (learnSeal n m p s) :=
  (islandsStay_learnQueue ..).ite (.refl s)

/-! ## The modes of a span (R22 to R25, R121 to R142) -/

theorem islandsStay_bypassFrame (n p : Nat) (outs : List Nat) (frame : Bytes) (e : RxEnd) :
    IslandsStay s (bypassFrame n p outs frame e s) := by
  unfold bypassFrame
  dsimp only
  split
  · exact .refl s
  split
  · exact islandsStay_tryAdmit _
  · exact ((islandsStay_tryAdmit _).trans (islandsStay_enterFrame ..)).trans (islandsStay_penCount p 1 (by decide))

theorem islandsStay_openBound (i slot l : Nat) (g : SecTag) (frame : Bytes) (e : RxEnd) (f : Frame) :
    IslandsStay s (openBound i slot g l frame e f s) := by
  have enters (c : Bool) (h k : Frame) (id : Nat) (w : State) : IslandsStay w
      (if c then countStomp h 0xC (enterFrame id k w) else enterFrame id h w) :=
    ((islandsStay_enterFrame ..).trans (islandsStay_countStomp ..)).ite (islandsStay_enterFrame ..)
  have admitted (h : Frame) (w : State) : IslandsStay w (pmcCount 0x0300 f.span 1 (tryAdmit h w).1) :=
    (islandsStay_tryAdmit h).trans (islandsStay_pmcCount ..)
  unfold openBound
  dsimp only
  refine (islandsStay_refuseFrame _ _ _ (by decide)).ite <| (islandsStay_refuseFrame _ _ _ (by decide)).ite ?_
  generalize (decide (2 ≤ (spanClients s f.span).length) && !isGroup (parseFrame _).dmac) = multi
  have charged : IslandsStay s (if multi then chargeLookup f.span s else s) :=
    (islandsStay_chargeLookup _).ite (.refl s)
  refine charged.trans ?_
  generalize (if multi then chargeLookup f.span s else s) = w
  exact (islandsStay_abortRecord _).ite <| (islandsStay_tryAdmit _).ite ((admitted ..).trans (enters ..))

theorem islandsStay_openTagged (g : SecTag) (frame : Bytes) (e : RxEnd) (f : Frame) :
    IslandsStay s (openTagged g frame e f s) := by
  have sci (v : Nat) (w : State) :
      IslandsStay w ((w.wr (Reg.FRM_LAST_SCI 0) (v % 2 ^ 32)).wr (Reg.FRM_LAST_SCI 1) (v / 2 ^ 32)) :=
    (islandsStay_wr _ (by decide)).trans (islandsStay_wr _ (by decide))
  unfold openTagged
  dsimp only
  split
  · exact islandsStay_refuseFrame _ _ _ (by decide)
  split
  · exact (sci ..).trans (islandsStay_refuseFrame (off := 0x60) _ _ _ (by decide))
  split
  · exact islandsStay_refuseFrame _ _ _ (by decide)
  split
  · exact islandsStay_refuseFrame _ _ _ (by decide)
  · exact islandsStay_openBound ..

theorem islandsStay_openFrame (n p : Nat) (frame : Bytes) (e : RxEnd) : IslandsStay s (openFrame n p frame e s) := by
  unfold openFrame
  dsimp only
  split
  · exact islandsStay_refuseFrame _ _ _ (by decide)
  split
  · exact (islandsStay_abortRecord _).ite (islandsStay_refuseFrame _ _ _ (by decide))
  · exact islandsStay_openTagged ..

theorem islandsStay_openMode (n p : Nat) (frame : Bytes) (e : RxEnd) : IslandsStay s (openMode n p frame e s) := by
  unfold openMode
  split
  · exact (IslandsStay.refl s).ite (islandsStay_bypassFrame ..)
  · exact islandsStay_openFrame ..
  · exact islandsStay_countDiscard ..

theorem islandsStay_sealBind (i : Nat) (p : Parsed) (f : Frame) (e : RxEnd) : IslandsStay s (sealBind i p f e s) := by
  have enters (id : Nat) (g h : Frame) (cause : Nat) (w : State) :
      IslandsStay w (countStomp g cause (enterFrame id h w)) :=
    (islandsStay_enterFrame ..).trans (islandsStay_countStomp ..)
  unfold sealBind
  dsimp only
  split
  · exact (islandsStay_bindTx ..).trans (islandsStay_refuseFrame _ _ _ (by decide))
  split
  · exact islandsStay_tryAdmit f
  refine ((islandsStay_tryAdmit f).trans (islandsStay_bindTx i (f.cls == 7))).trans ?_
  generalize (bindTx i (f.cls == 7) (tryAdmit f s).1).1 = w
  split
  · exact (islandsStay_enterFrame ..).trans (islandsStay_learnSeal ..)
  refine IslandsStay.ite (enters ..) ?_
  split
  · exact (islandsStay_refuseFrame (off := 0x20) _ _ _ (by decide)).trans (islandsStay_unbind ..)
  · exact (islandsStay_abortRecord _).trans (islandsStay_unbind ..)

theorem islandsStay_sealFrame (n m : Nat) (frame : Bytes) (e : RxEnd) : IslandsStay s (sealFrame n m frame e s) := by
  have decided := islandsStay_sealDecision (s := s) m n (parseFrame (sansFcs frame))
  unfold sealFrame
  dsimp only
  split
  case h_1 decision =>
    rw [decision] at decided
    exact decided
  case h_2 decision =>
    rw [decision] at decided
    refine decided.trans ?_
    exact (islandsStay_refuseFrame _ _ _ (by decide)).ite (islandsStay_sealBind ..)

theorem islandsStay_sealMode (n m : Nat) (frame : Bytes) (e : RxEnd) : IslandsStay s (sealMode n m frame e s) := by
  unfold sealMode
  split
  · exact (IslandsStay.refl s).ite (islandsStay_bypassFrame ..)
  · exact islandsStay_sealFrame ..
  · exact islandsStay_countDiscard ..

end Sys2Proof.Machine
end

section
/-! SUPPORT. Every command's end, `settle`, writes no register of an island; and an island that Trim parks and unparks
in one step, which is listed twice among those being unparked, does not run at the plan's clock. -/

namespace Sys2Proof.Machine

variable {s t u : State}

/-! ## The end of a command -/

theorem islandsStay_admitHeld (h : HeldArrival) : IslandsStay s (admitHeld h s) := by
  unfold admitHeld
  dsimp only
  split
  · exact .refl s
  case h_2 n _ =>
    have admitted : IslandsStay s (if h.line then openMode n h.port h.frame h.ending s
        else sealMode n h.port h.frame h.ending s) := (islandsStay_openMode ..).ite (islandsStay_sealMode ..)
    exact admitted.ite (admitted.trans (islandsStay_sch _))

theorem islandsStay_endRise : IslandsStay s (endRise s) := by
  have risen (f : FabState) (c : SchState) : IslandsStay s { s with fab := f, sch := c } := islandsStay_of_regs rfl
  exact (IslandsStay.refl s).ite ((risen ..).trans (.foldl (fun _ h => islandsStay_admitHeld h) _))

theorem islandsStay_pauseStep (m c o : Nat) : IslandsStay s (pauseStep m c o s) := by
  have sent (k q : Nat) (w : State) : IslandsStay w (sendPause m k q w) := by
    have frame (b : Bytes) : IslandsStay w (sendFrame m b false w) :=
      ((islandsStay_emit _).trans (islandsStay_penCount m 1 (by decide))).trans (islandsStay_penCount m _ (by decide))
    exact (IslandsStay.refl w).ite ((frame _).trans (islandsStay_wr _ (by unfold Reg.SCH_PAUSE_TX; omega)))
  exact ((islandsStay_setPort ..).trans (sent ..)).ite (((islandsStay_setPort ..).trans (sent ..)).ite (.refl s))

theorem islandsStay_pauseChecks : IslandsStay s (pauseChecks s) := by
  have check (m : Nat) (w : State) : IslandsStay w (pauseCheck m w) := by
    unfold pauseCheck
    split
    · exact .refl w
    split
    · exact islandsStay_pauseStep ..
    · exact .foldl (fun _ _ => islandsStay_pauseStep ..) _
    · exact .refl w
  exact .foldl (fun w m => check m w) _

theorem islandsStay_sendMsg (m : HrnMsg) : IslandsStay s (sendMsg m s) := by
  have record (type : Nat) (p : Bytes) (k : Option (Nat × Nat)) : IslandsStay s (sendRecord type p k s) :=
    islandsStay_of_regs rfl
  cases m with
  | learn => exact (record ..).ite (.refl s)
  | gate => exact (record ..).ite (.refl s)
  | hello => exact (IslandsStay.refl s).ite (islandsStay_emit _)
  | ack => exact (IslandsStay.refl s).ite (islandsStay_of_regs rfl)
  | _ => exact record ..

theorem islandsStay_hrnSettle : IslandsStay s (hrnSettle s) :=
  (IslandsStay.refl s).ite <| ((islandsStay_hrn _).trans (.foldl (fun _ m => islandsStay_sendMsg m) _)).ite
    (islandsStay_hrn _)

theorem islandsStay_chainSettle : IslandsStay s (chainSettle s) := by
  have queued (m : Bytes) (w : State) : IslandsStay w (chainQueue m w) := islandsStay_chn _
  exact (IslandsStay.refl s).ite (((islandsStay_chn _).trans (queued ..)).ite (islandsStay_chn _))

theorem islandsStay_kqSettle : IslandsStay s (kqSettle s) := by
  have posted (tag op code : Nat) (v : Bytes) (w : State) : IslandsStay w (kqPost tag op code v w) :=
    ((islandsStay_emit _).trans (islandsStay_wr (a := Reg.HIF_KQ_STATUS) _ (by decide))).trans
      (posts_raiseVector 2).islands
  have answered (mute : Bool) (tag op code : Nat) (v : Bytes) (w : State) :
      IslandsStay w (if mute then w else kqPost tag op code v w) := (IslandsStay.refl w).ite (posted ..)
  have ended (stopping : Bool) (w : State) : IslandsStay w (if stopping
      then (w.setBit Reg.HIF_KQ_STATUS 2 false).setBit Reg.HIF_KQ_STATUS 0 false
      else w.setBit Reg.HIF_KQ_STATUS 2 false) := by
    have done : IslandsStay w (w.setBit Reg.HIF_KQ_STATUS 2 false) := islandsStay_wr _ (by decide)
    exact (done.trans (islandsStay_wr (a := Reg.HIF_KQ_STATUS) _ (by decide))).ite done
  have idle (h : HostIf) (x : SecState) (w : State) : IslandsStay w { w with hif := h, sec := x } :=
    islandsStay_of_regs rfl
  have finished (tag op code : Nat) (v : Bytes) : IslandsStay s (kqFinish tag op code v s) :=
    ((islandsStay_wr (a := Reg.HIF_KQ_LAST) _ (by decide)).trans (answered ..)).trans ((ended ..).trans (idle ..))
  unfold kqSettle kqComplete
  split
  · split
    · exact .refl s
    · exact finished ..
  · exact .refl s

theorem islandsStay_setParent (i : Nat) (p : Parent) : IslandsStay s (setParent i p s) :=
  (islandsStay_key _).trans (islandsStay_wr _ (by unfold Reg.KEY_PARENT_VALID; omega))

theorem islandsStay_restoreSc (rx : Bool) (i : Nat) (j : JournalSc) : IslandsStay s (restoreSc rx i j s) := by
  unfold restoreSc
  dsimp only
  exact (islandsStay_setSc ..).trans (.foldl (fun _ _ => islandsStay_setSa ..) _)

theorem islandsStay_restoreFills (rx : Bool) (i : Nat) : IslandsStay s (restoreFills rx i s) := by
  unfold restoreFills
  dsimp only
  exact (IslandsStay.refl s).ite <| (((islandsStay_requestFill _).trans (islandsStay_requestFill _)).ite
    (islandsStay_requestFill _)).ite <| (IslandsStay.refl s).ite (islandsStay_enterGap i)

theorem islandsStay_syncKey : IslandsStay s (syncKey s) := by
  unfold syncKey
  dsimp only
  exact (islandsStay_wr (a := Reg.KEY_TK_VALID) _ (by decide)).trans <|
    (islandsStay_wr (a := Reg.KEY_TK_FLOOR 0) _ (by decide)).trans <|
    (islandsStay_wr (a := Reg.KEY_TK_FLOOR 1) _ (by decide)).trans
      (islandsStay_wr (a := Reg.KEY_VAULT_GEN) _ (by decide))

theorem islandsStay_vaultRestore : IslandsStay s (vaultRestore s) := by
  have parents (l : List (Nat × Parent)) (w : State) : IslandsStay w (l.foldl (fun s e => setParent e.1 e.2 s) w) :=
    .foldl (fun _ _ => islandsStay_setParent ..) _
  have filled (rx : Bool) (l : List Nat) (w : State) : IslandsStay w (l.foldl (fun s i => restoreFills rx i s) w) :=
    .foldl (fun _ _ => islandsStay_restoreFills ..) _
  unfold vaultRestore
  dsimp only
  refine (IslandsStay.refl s).ite (.trans ?_ ((filled ..).trans islandsStay_syncKey))
  refine .trans (.trans (.trans (parents ..) (.foldl (fun v e => ?_) _)) (.foldl (fun v e => ?_) _)) (filled ..)
  all_goals
    split
    · exact islandsStay_restoreSc ..
    · exact .refl v

theorem islandsStay_restoreDue : IslandsStay s (restoreDue s) := by
  have due : IslandsStay s { s with pwr := { s.pwr with restoreDue := false } } := islandsStay_of_regs rfl
  exact (due.trans islandsStay_vaultRestore).ite (.refl s)

theorem islandsStay_settle : IslandsStay s (settle s) := by
  have posted (w : State) : IslandsStay w (postEvents w) := .foldl (fun _ k => (posts_postOwed k).islands) _
  have observed (w : State) : IslandsStay w (syncObs w) := islandsStay_wr (a := Reg.CLK_OBS_STATUS) _ (by decide)
  exact ((islandsStay_restoreDue.trans islandsStay_endRise).trans
    (islandsStay_pauseChecks.trans islandsStay_hrnSettle)).trans <|
    (islandsStay_chainSettle.trans islandsStay_kqSettle).trans <|
    (posted _).trans (.trans ⟨regsOutside_syncHealth⟩ (observed _))

/-- What a command of the core answers shows every island as its effect leaves it. -/
theorem Answers.islands {i : Instr} {f : State → State} {P : State → Prop} (h : Answers i s P)
    (core : coreRuns s = true) (e : exec i s = powered f s) :
    ∃ u, P u ∧ ∀ k, u.rd (Reg.CPH_ISL_STATUS k) = (f s.fresh).rd (Reg.CPH_ISL_STATUS k) := by
  obtain ⟨u, run, p⟩ := h
  rw [e, powered_run core] at run
  refine ⟨u, p, fun k => ?_⟩
  have settled (w : State) : (settle w).rd (Reg.CPH_ISL_STATUS k) = w.rd (Reg.CPH_ISL_STATUS k) :=
    islandsStay_settle.outside _ (offIslands_status k)
  rw [← settled u, ← settled (f s.fresh)]
  obtain ⟨regs, -⟩ := State.mk.inj (Host.Outcome.next.inj run)
  rw [State.rd, ← regs, State.rd]

/-! ## An island listed twice -/

/-- A Pattern of no port and no span, whose island shares alone count. -/
def bareSharesPattern : Pattern :=
  { container := [], digest := [], signed := true, lifecycles := 0, serial := 0, ports := [],
    spans := [], shares := [4096], memSize := [], fenceOrder := [], layout := 0, ageDefault := 0, learnMask := 0,
    defaultClass := 0, classes := [], rules := [], sched := [],
    bases := [], ppsTb := 0, todTxTb := 0, f10mTb := 0, todRxTb := 0, stampTb := [], tcMode := [],
    ksMode := 0, ksPeriod := 0, plan := 0, trim := false, cflags := 0, cinchTb := 0, heartbeatMs := 0, role := 0,
    mirror := 0, peerUnit := 0, order := [0] }

/-- Island 0 is fenced and island 23 is listed twice among those being unparked. -/
def listedTwice : State :=
  let s := (State.reset.wr (Reg.CPH_ISL_STATUS 0) 2).wr (Reg.CPH_ISL_STATUS 23) (3 + 1000 * 2 ^ 16)
  { s with pat := { s.pat with active := some bareSharesPattern }, fab := { s.fab with unparking := [23, 23] } }

theorem listedTwice_runs : coreRuns listedTwice = true ∧ alignedPlan listedTwice = false ∧
    islandState listedTwice 23 = 3 := by decide +kernel

/-- Trim parks the island for the one listing and unparks it for the other: its test begins without a clock. -/
theorem clockFault_listedTwice :
    islandState (clockFault (.pllLock 0) listedTwice.fresh) 23 = 3 ∧
    (clockFault (.pllLock 0) listedTwice.fresh).rdF (Reg.CPH_ISL_STATUS 23) 16 12 = 0 := by decide +kernel

/-- Refutes O58: where `fab.unparking` lists an island twice, the fault of a PLL makes Trim count it twice, park it and
unpark it again, so that it is neither parked nor at 800 MHz. Trim itself lists no island twice; the statement is about
every state. -/
theorem not_clocksAndFirmware : ¬ Obligations.ClocksAndFirmware := by
  intro h
  obtain ⟨core, plan, coming⟩ := listedTwice_runs
  obtain ⟨-, -, faults, -⟩ := h listedTwice core
  obtain ⟨u, ⟨⟨-, -, islands⟩, -⟩, shown⟩ :=
    Answers.islands ((faults plan).1 0) core (f := clockFault (.pllLock 0)) rfl
  obtain ⟨state, clock⟩ := clockFault_listedTwice
  rw [islandState, State.rdF, ← shown] at state
  rw [State.rdF, ← shown] at clock
  have runs := (islands 23 (by decide) (.inr coming) (by rw [islandState, State.rdF, state]; decide)).1
  rw [State.rdF, clock] at runs
  exact absurd runs (by decide)

end Sys2Proof.Machine
end

section
/-! SUPPORT. The key schedule gives round keys of sixteen bytes, and AES-GCM opens what it sealed. -/

namespace Sys2Proof.Machine

/-! ## Round keys (R128) -/

/-- A list of four-byte words. -/
def Words (ws : List Bytes) : Prop := ∀ w ∈ ws, w.length = 4

theorem Words.flatten_length {ws : List Bytes} (h : Words ws) : ws.flatten.length = 4 * ws.length := by
  rw [List.length_flatten, List.map_congr_left h, List.map_const', List.sum_replicate, smul_eq_mul, mul_comm]

@[simp] theorem columns_length (n : Nat) (bs : Bytes) : (columns n bs).length = n := by
  induction n generalizing bs with
  | zero => rfl
  | succ n ih => rw [columns, List.length_cons, ih]

theorem words_columns {n : Nat} {bs : Bytes} (h : 4 * n ≤ bs.length) : Words (columns n bs) := by
  induction n generalizing bs with
  | zero => exact fun w hw => nomatch hw
  | succ n ih =>
    refine List.forall_mem_cons.mpr ⟨?_, ih ?_⟩
    · rw [List.length_take]; omega
    · rw [List.length_drop]; omega

/-- What the schedule adds to the word `nk` places back is a word. -/
theorem words_expandKey {nk : Nat} (pos : 0 < nk) (more : Nat) (rcon : Byte) {ws : List Bytes} (h : Words ws)
    (long : nk ≤ ws.length) :
    Words (expandKey nk more rcon ws) ∧ (expandKey nk more rcon ws).length = ws.length + more := by
  induction more generalizing rcon ws with
  | zero => exact ⟨h, rfl⟩
  | succ more ih =>
    have back : (ws.getD (ws.length - nk) []).length = 4 := by
      rw [List.getD_eq_getElem _ _ (by omega)]
      exact h _ (List.getElem_mem _)
    have last : (ws.getLastD []).length = 4 := by
      have some_word : ws ≠ [] := List.ne_nil_of_length_pos (by omega)
      rw [List.getLastD_eq_getLast?, List.getLast?_eq_some_getLast some_word]
      exact h _ (List.getLast_mem some_word)
    rw [expandKey]
    dsimp only
    generalize ws.getLastD [] = prev at last ⊢
    generalize added : xorBytes (ws.getD (ws.length - nk) []) _ = w
    have word : w.length = 4 := by
      rw [← added, xorBytes_length, back]
      split
      · simp [last]
      · split <;> simp [last]
    obtain ⟨words, count⟩ := ih (if ws.length % nk = 0 then xtime rcon else rcon) (ws := ws ++ [w])
      (List.forall_mem_append.mpr ⟨h, List.forall_mem_singleton.mpr word⟩) (by rw [List.length_append]; omega)
    exact ⟨words, by rw [count, List.length_append, List.length_singleton]; omega⟩

theorem roundKeys_length (key : Bytes) : (roundKeys key).length = key.length / 4 + 7 := by
  simp [roundKeys]

/-- A key of whole words has round keys of sixteen bytes. -/
theorem roundKeys_blocks {key : Bytes} (h : 4 ≤ key.length) : ∀ k ∈ roundKeys key, k.length = 16 := by
  obtain ⟨words, count⟩ := words_expandKey (nk := key.length / 4) (by omega)
    (4 * (key.length / 4 + 7) - key.length / 4) 1 (words_columns (n := key.length / 4) (bs := key) (by omega)) (by simp)
  rw [columns_length] at count
  intro k hk
  obtain ⟨r, hr, rfl⟩ := List.mem_map.mp hk
  have hr := List.mem_range.mp hr
  rw [Words.flatten_length fun w hw => words w (List.mem_of_mem_drop (List.mem_of_mem_take hw)), List.length_take,
    List.length_drop, count]
  omega

/-! ## The key stream (R128) -/

/-- A second XOR with as long a string undoes the first. -/
theorem xorBytes_cancel_of_le {a b : Bytes} (h : a.length ≤ b.length) : xorBytes (xorBytes a b) b = a := by
  induction a generalizing b with
  | nil => rfl
  | cons x a ih =>
    cases b with
    | nil => simp at h
    | cons y b =>
      have rest : xorBytes (xorBytes a b) b = a := ih (by simpa using h)
      simpa [xorBytes, BitVec.xor_assoc] using rest

theorem ctrStream_length {key : Bytes} (h : ∀ b, (aesEncrypt key b).length = 16) (iv : Bytes) (n ctr : Nat) :
    (ctrStream key iv n ctr).length = 16 * n := by
  induction n generalizing ctr with
  | zero => rfl
  | succ n ih => rw [ctrStream, List.length_append, h, ih]; omega

/-- Decryption of the text is its encryption again. -/
theorem gcmText_gcmText {key : Bytes} (h : ∀ b, (aesEncrypt key b).length = 16) (iv text : Bytes) :
    gcmText key iv (gcmText key iv text) = text := by
  have long : text.length ≤ (ctrStream key iv (text.length / 16 + 1) 2).length := by
    rw [ctrStream_length h]; omega
  have same : (gcmText key iv text).length = text.length := by
    rw [gcmText, xorBytes_length, min_eq_left long]
  rw [gcmText, same]
  exact xorBytes_cancel_of_le long

/-- Settles O22: the key stream is as long as the text, so that the second XOR undoes the first; the tag is computed
over the same ciphertext. -/
theorem gcmOpensWhatItSealed : Obligations.GcmOpensWhatItSealed := by
  intro key iv aad text hkey _
  have four : 4 ≤ key.length := by omega
  have block (b : Bytes) : (aesEncrypt key b).length = 16 :=
    aesEncrypt_length b (roundKeys_blocks four) (by rw [roundKeys_length]; omega)
  exact Prod.ext (gcmText_gcmText block iv text) (decide_eq_true rfl)

end Sys2Proof.Machine
end

section
/-! SUPPORT. Reads of 64-bit and paired counters: what a read of one half holds of the other. -/

namespace Sys2Proof.Machine

variable {s : State}

/-! ## The holding registers of 64-bit counters (R150) -/

/-- A holding register is no half of a counter that it serves. -/
theorem holdFor_ne {a h : Nat} (hold : holdFor a = some h) : a ≠ h := by
  rintro rfl
  simp only [holdFor, Bool.or_eq_true, Bool.and_eq_true, decide_eq_true_eq] at hold
  split_ifs at hold
  all_goals
    simp only [Option.some.injEq, Reg.PEN_PAGE, Reg.PEN_CNT_HOLD, Reg.FRM_PAGE, Reg.FRM_TRK_PAGE, Reg.FRM_CNT_HOLD,
      Reg.LANE_PRBS_CNT, Reg.LANE_CTRL, Reg.LANE_PRBS_HOLD, Reg.FRM_TRK_TXSC, Reg.EVR_CAP, Reg.EVR_CKPT_NO,
      Reg.EVR_HOLD, Reg.PMC_ISL, Reg.PMC_ISL_HOLD] at *
    omega

/-- The upper half is held, and the time of the read noted. -/
def upperHeld (a h : Nat) (s : State) : State :=
  { s.wr h (s.rd (a + 4)) with hif := { s.hif with lastLow := Tbl.set (fun _ => 0) s.hif.lastLow h (s.refTick + 1) } }

theorem upperHeld_rd (a h : Nat) : (upperHeld a h s).rd h = s.rd (a + 4) :=
  (State.rd_wr_same ..).trans (Nat.mod_eq_of_lt (s.rd_lt _))

theorem upperHeld_lastLow (a h : Nat) : Tbl.get (fun _ => 0) (upperHeld a h s).hif.lastLow h = s.refTick + 1 :=
  Tbl.get_set_same (fun _ => 0) s.hif.lastLow h (s.refTick + 1)

theorem regsBut_wr (a v : Nat) : RegsBut [a] s (s.wr a v) := fun _ hb =>
  State.rd_wr_ne s v (List.ne_of_not_mem_cons hb)

theorem regsBut_upperHeld (a h : Nat) : RegsBut [h] s (upperHeld a h s) := regsBut_wr h (s.rd (a + 4))

theorem holdingRead_lower {a h : Nat} (hold : holdFor a = some h) (low : a % 8 = 0) :
    holdingRead a s = (upperHeld a h s).emit (.readData [word (s.rd a)]) := by
  unfold holdingRead upperHeld
  rw [hold]
  dsimp only
  rw [if_pos low, State.rd_wr_ne s _ (holdFor_ne hold)]
  rfl

theorem holdingRead_upper {a h : Nat} (hold : holdFor a = some h) (high : a % 8 ≠ 0)
    (read : 0 < Tbl.get (fun _ => 0) s.hif.lastLow h)
    (soon : s.refTick + 1 ≤ Tbl.get (fun _ => 0) s.hif.lastLow h + 156) :
    holdingRead a s = s.emit (.readData [word (s.rd h)]) := by
  unfold holdingRead
  rw [hold]
  dsimp only
  rw [if_neg high, if_pos (by simp [read, soon])]

theorem exec_holdingLowerRead {a : Addr} {h : Nat} (hold : holdFor a.toNat = some h) :
    exec (.holdingLowerRead a) s = powered (hostRead a.toNat (holdingRead a.toNat)) s := by
  refine congrArg (fun f => powered f s) (funext fun t => ?_)
  rw [readHolding, if_pos (by rw [hold]; rfl)]

theorem answers_lowerHalfRead {a : Addr} {h : Nat} (served : Served s a.toNat) (hold : holdFor a.toNat = some h)
    (low : a.toNat % 8 = 0) : Answers (.holdingLowerRead a) s (fun u => ∃ w, u = pmcCount 0x0D00 0xFF 1 w ∧
      w.out = [.readData [word (s.rd a.toNat)]] ∧ w.rd h = s.rd (a.toNat + 4) ∧ RegsBut [h] s w ∧
      Tbl.get (fun _ => 0) w.hif.lastLow h = s.refTick + 1) := by
  refine answers_hostRead served (exec_holdingLowerRead hold) ⟨_, rfl, ?_⟩
  rw [holdingRead_lower hold low]
  exact ⟨rfl, upperHeld_rd (s := s.fresh) .., fun b => regsBut_upperHeld (s := s.fresh) _ h b,
    upperHeld_lastLow (s := s.fresh) a.toNat h⟩

theorem answers_upperHalfRead {a : Addr} {h : Nat} (served : Served s a.toNat) (hold : holdFor a.toNat = some h)
    (high : a.toNat % 8 ≠ 0) (read : 0 < Tbl.get (fun _ => 0) s.hif.lastLow h)
    (soon : s.refTick + 1 ≤ Tbl.get (fun _ => 0) s.hif.lastLow h + 156) : Answers (.holdingLowerRead a) s (fun u =>
      u = pmcCount 0x0D00 0xFF 1 (s.fresh.emit (.readData [word (s.rd h)]))) :=
  answers_hostRead served (exec_holdingLowerRead hold) (by rw [holdingRead_upper (s := s.fresh) hold high read soon]; rfl)

/-! ## Pairs of programmable counters (R489, R490) -/

/-- The odd partner of an even counter is held in PMC_HOLD for its next read. -/
def partnerHeld (n : Nat) (s : State) : State :=
  { s.wr (Reg.PMC_HOLD (n / 32)) (s.rd (Reg.PMC_CNT (n + 1))) with
    pmc := { s.pmc with mark := Tbl.set (fun _ => 0) s.pmc.mark (n / 32) (n + 1) } }

theorem partnerHeld_hold (n : Nat) : (partnerHeld n s).rd (Reg.PMC_HOLD (n / 32)) = s.rd (Reg.PMC_CNT (n + 1)) :=
  (State.rd_wr_same ..).trans (Nat.mod_eq_of_lt (s.rd_lt _))

theorem partnerHeld_mark (n : Nat) : Tbl.get (fun _ => 0) (partnerHeld n s).pmc.mark (n / 32) = n + 1 :=
  Tbl.get_set_same (fun _ => 0) s.pmc.mark (n / 32) (n + 1)

theorem regsBut_partnerHeld (n : Nat) : RegsBut [Reg.PMC_HOLD (n / 32)] s (partnerHeld n s) :=
  regsBut_wr (Reg.PMC_HOLD (n / 32)) (s.rd (Reg.PMC_CNT (n + 1)))

/-- What a read of counter `n` of BAR0 does. -/
def pmcBarRead (n : Nat) (s : State) : State := (pmcReadBar n s).1.emit (.readData [word (pmcReadBar n s).2])

theorem exec_pmcEvenRead_bar (n : Fin 512) :
    exec (.pmcEvenRead n false) s = powered (hostRead (Reg.PMC_CNT n.val) (pmcBarRead n.val)) s := rfl

theorem pmcBarRead_even {n : Nat} (even : n % 2 = 0) :
    pmcBarRead n s = (partnerHeld n s).emit (.readData [word (s.rd (Reg.PMC_CNT n))]) := by
  have read : pmcReadBar n s = (partnerHeld n s, s.rd (Reg.PMC_CNT n)) := by
    rw [pmcReadBar]
    exact if_pos even
  rw [pmcBarRead, read]

/-- The odd partner of an even counter is held in the register of the counter's observe page for its next read. -/
def partnerObserved (n : Nat) (s : State) : State := { s with pmc := { s.pmc with
  obsHold := Tbl.set (fun _ => 0) s.pmc.obsHold (n / 32) (s.rd (Reg.PMC_CNT (n + 1))),
  obsMark := Tbl.set (fun _ => 0) s.pmc.obsMark (n / 32) (n + 1) } }

theorem partnerObserved_hold (n : Nat) :
    Tbl.get (fun _ => 0) (partnerObserved n s).pmc.obsHold (n / 32) = s.rd (Reg.PMC_CNT (n + 1)) :=
  Tbl.get_set_same (fun _ => 0) s.pmc.obsHold (n / 32) _

theorem partnerObserved_mark (n : Nat) :
    Tbl.get (fun _ => 0) (partnerObserved n s).pmc.obsMark (n / 32) = n + 1 :=
  Tbl.get_set_same (fun _ => 0) s.pmc.obsMark (n / 32) (n + 1)

theorem pmcReadObserve_even {n : Nat} (even : n % 2 = 0) (page : s.bit Reg.PMC_USER_EN (n / 32) = true)
    (clock : s.bit Reg.CLK_ON 0 = true) :
    pmcReadObserve n s = (partnerObserved n s, s.rd (Reg.PMC_CNT n)) := by
  rw [pmcReadObserve]
  dsimp only
  rw [if_neg (by simp [page, clock]), if_pos even]
  rfl

theorem answers_pmcEvenRead_bar {n : Fin 512} (even : n.val % 2 = 0) (served : Served s (Reg.PMC_CNT n.val)) :
    Answers (.pmcEvenRead n false) s (fun u => ∃ w, u = pmcCount 0x0D00 0xFF 1 w ∧
      w.out = [.readData [word (s.rd (Reg.PMC_CNT n.val))]] ∧
      w.rd (Reg.PMC_HOLD (n.val / 32)) = s.rd (Reg.PMC_CNT (n.val + 1)) ∧
      Tbl.get (fun _ => 0) w.pmc.mark (n.val / 32) = n.val + 1 ∧ RegsBut [Reg.PMC_HOLD (n.val / 32)] s w) := by
  refine answers_hostRead served (exec_pmcEvenRead_bar n) ⟨_, rfl, ?_⟩
  rw [pmcBarRead_even even]
  exact ⟨rfl, partnerHeld_hold (s := s.fresh) _, partnerHeld_mark (s := s.fresh) _,
    fun b => regsBut_partnerHeld (s := s.fresh) n.val b⟩

theorem answers_pmcEvenRead_observe {n : Fin 512} (even : n.val % 2 = 0) (served : Served2 s)
    (page : s.bit Reg.PMC_USER_EN (n.val / 32) = true) (clock : s.bit Reg.CLK_ON 0 = true) :
    Answers (.pmcEvenRead n true) s (fun u => u.out = [.readData [word (s.rd (Reg.PMC_CNT n.val))]] ∧
      Tbl.get (fun _ => 0) u.pmc.obsHold (n.val / 32) = s.rd (Reg.PMC_CNT (n.val + 1)) ∧
      Tbl.get (fun _ => 0) u.pmc.obsMark (n.val / 32) = n.val + 1 ∧ RegsBut [] s u) := by
  obtain ⟨core, host⟩ := served
  refine answers_powered core (f := pmcRead n.val true) rfl ?_
  have read : pmcRead n.val true s.fresh =
      (partnerObserved n.val s.fresh).emit (.readData [word (s.rd (Reg.PMC_CNT n.val))]) := by
    rw [pmcRead, if_pos rfl, if_neg (by simp [host]), pmcReadObserve_even (s := s.fresh) even page clock]
    rfl
  rw [read]
  exact ⟨rfl, partnerObserved_hold (s := s.fresh) _, partnerObserved_mark (s := s.fresh) _, fun _ _ => rfl⟩

/-- Settles O10, clause by clause: each read is the holding of the other half, and the half read, or held, as answer. -/
theorem pairedReadsHoldTheOtherHalf : Obligations.PairedReadsHoldTheOtherHalf := fun _ =>
  ⟨fun _ _ hold served => ⟨answers_lowerHalfRead served hold, answers_upperHalfRead served hold⟩,
    fun _ even => ⟨answers_pmcEvenRead_bar even, answers_pmcEvenRead_observe even⟩⟩

end Sys2Proof.Machine
end

section
/-! SUPPORT. Verdicts on frames of the open direction: what is noted of a frame leaves the frames and the associations
as they are, and what a right and a wrong ICV change. -/

namespace Sys2Proof.Machine

variable {s t u : State}

/-! ## What moves neither a frame nor an association -/

/-- The scheduler with its frames, the associations and the count of ICV failures are as before. -/
structure NotesOnly (s u : State) : Prop where
  sch : u.sch = s.sch
  sec : u.sec = s.sec
  icvFails : u.rd Reg.FRM_ICVFAILS = s.rd Reg.FRM_ICVFAILS

theorem NotesOnly.refl (s : State) : NotesOnly s s := ⟨rfl, rfl, rfl⟩

theorem NotesOnly.trans (h : NotesOnly s t) (k : NotesOnly t u) : NotesOnly s u :=
  ⟨k.sch.trans h.sch, k.sec.trans h.sec, k.icvFails.trans h.icvFails⟩

theorem NotesOnly.ite {c : Prop} [Decidable c] (h : NotesOnly s t) (k : NotesOnly s u) :
    NotesOnly s (if c then t else u) := by
  split
  · exact h
  · exact k

theorem NotesOnly.frameAt (h : NotesOnly s t) (id : Nat) : t.frameAt id = s.frameAt id := by
  rw [State.frameAt, h.sch, State.frameAt]

theorem NotesOnly.hasFrame (h : NotesOnly s t) (id : Nat) : t.hasFrame id = s.hasFrame id := by
  rw [State.hasFrame, h.sch, State.hasFrame]

theorem NotesOnly.saAt (h : NotesOnly s t) (i : Nat) : t.saAt i = s.saAt i := by
  rw [State.saAt, h.sec, State.saAt]

theorem notesOnly_wr {a : Nat} (v : Nat) (h : Reg.FRM_ICVFAILS ≠ a) : NotesOnly s (s.wr a v) :=
  ⟨rfl, rfl, State.rd_wr_ne s v h⟩

/-- An event writes its register, and for the rest registers of the host interface alone. -/
theorem raiseEvent_rd {src a : Nat} (b p3 : Nat) (host : hostIfReg a = false) (event : a ≠ (eventRegs src).1) :
    (raiseEvent src b p3 s).rd a = s.rd a :=
  ((Posts.onlyHost (l := []) (posts_raiseEvent src b p3)).rd host).trans (State.rd_setBit_ne s _ _ event)

theorem notesOnly_raiseEvent {src : Nat} (b p3 : Nat) (event : Reg.FRM_ICVFAILS ≠ (eventRegs src).1) :
    NotesOnly s (raiseEvent src b p3 s) where
  sch := (cellsStay_raiseEvent src b p3).2
  sec := by rw [(framesStay_raiseEvent src b p3).rest]
  icvFails := raiseEvent_rd b p3 (by decide) event

theorem notesOnly_pmcCount (event inst w : Nat) : NotesOnly s (pmcCount event inst w s) where
  sch := (cellsStay_pmcCount event inst w).2
  sec := pmcCount_sec event inst w
  icvFails := regsOutside_pmcCount event inst w _ (by decide)

/-! ## Evidence, trace and learning (R280, R390, R455) -/

theorem notesOnly_evrQueue (rec : Bytes) : NotesOnly s (evrQueue rec s) := by
  have counted (x : EvrState) : NotesOnly s (({ s with evr := x } : State).bump Reg.EVR_LOST) :=
    ⟨rfl, rfl, State.rd_bump_ne _ _ (by decide)⟩
  have lost : NotesOnly s (loseRecord rec s) :=
    (counted _).trans (notesOnly_raiseEvent (src := 0x0C) 2 0 (by decide))
  unfold evrQueue
  dsimp only
  split
  · exact (NotesOnly.refl s).ite lost
  · exact ⟨rfl, rfl, rfl⟩

theorem notesOnly_recordFrame (f : Frame) (stamp pn : Nat) (fail : Bool) (icv : Bytes) :
    NotesOnly s (recordFrame f stamp pn fail icv s) := (notesOnly_evrQueue _).ite (.refl s)

theorem notesOnly_traceFrame (f : Frame) (tag outcome : Nat) : NotesOnly s (traceFrame f tag outcome s) := by
  have added (stamp attr len sa : Nat) (head secTag : Bytes) :
      NotesOnly s (traceAdd stamp attr len tag sa outcome head secTag s) := ⟨rfl, rfl,
    (State.rd_setBit_ne _ _ _ (by decide)).trans (State.rd_wr_ne _ _ (by decide))⟩
  unfold traceFrame
  exact (added ..).ite (.refl s)

theorem notesOnly_chargeLookup (n : Nat) : NotesOnly s (chargeLookup n s) := by
  have drawn (w : State) : NotesOnly w w.drawn := ⟨rfl, rfl, rfl⟩
  have cls (w : State) (x : ClsState) : NotesOnly w { w with cls := x } := ⟨rfl, rfl, rfl⟩
  have missed (w : State) (x : ClsState) : NotesOnly w { pmcCount 0x0701 n 1 w.drawn with cls := x } :=
    (drawn w).trans ((notesOnly_pmcCount ..).trans (cls _ x))
  have late (w : State) : NotesOnly w (clsEvent 3 (w.drawn.bump Reg.CLS_LATE)) :=
    (drawn w).trans <| (notesOnly_wr (a := Reg.CLS_LATE) _ (by decide)).trans
      (notesOnly_raiseEvent (src := 0x07) 3 0 (by decide))
  unfold chargeLookup
  dsimp only
  refine (notesOnly_pmcCount 0x0700 n 1).trans ?_
  generalize pmcCount 0x0700 n 1 s = w
  exact (drawn w).ite <| (missed ..).ite <| ((missed ..).trans (late _)).ite ((missed ..).trans (drawn _))

theorem notesOnly_learnQueue (n : Nat) (r : LearnReq) : NotesOnly s (learnQueue n r s) := by
  have shown (w : State) (x : ClsState) : NotesOnly w (syncCls { w with cls := x }) := ⟨rfl, rfl,
    ((State.rd_wr_ne _ _ (by decide)).trans (State.rd_wr_ne _ _ (by decide))).trans (State.rd_wr_ne _ _ (by decide))⟩
  unfold learnQueue
  refine (notesOnly_chargeLookup n).trans ?_
  dsimp only
  generalize chargeLookup n s = w
  refine (NotesOnly.refl w).ite (NotesOnly.ite ?_ (shown ..))
  exact (notesOnly_wr (a := Reg.CLS_LEARN_OVF) _ (by decide)).trans
    (notesOnly_raiseEvent (src := 0x07) 2 0 (by decide))

theorem notesOnly_learnOpen (n rxsc : Nat) (p : Parsed) : NotesOnly s (learnOpen n rxsc p s) :=
  ((notesOnly_learnQueue ..).ite (notesOnly_wr (a := Reg.CLS_LEARN_NOMAP) _ (by decide))).ite (.refl s)

/-! ## A verdict that is due (R134, R135) -/

/-- The frame's PN has fallen behind the replay window of its receive SC. -/
def fallenBehind (f : Frame) (s : State) : Bool :=
  let e := s.scAt true (f.sc.getD 0)
  e.inUse && decide (f.pn < lowestPn e (nextPnOf (s.saAt (f.sa.getD 0)) f.gen))

/-- The tail of the frame is in, and its verdict is recorded and traced. -/
def verdictNoted (id : Nat) (s : State) : State :=
  let f := s.frameAt id
  let s := tailIn f.inPort s
  let late := fallenBehind f s
  traceFrame f id (if !f.icvOk then 8 else if late then 6 else 0)
    (recordFrame f f.stamp f.pn (!f.icvOk || late) f.icv s)

theorem notesOnly_verdictNoted (id : Nat) :
    NotesOnly (tailIn (s.frameAt id).inPort s) (verdictNoted id s) :=
  (notesOnly_recordFrame ..).trans (notesOnly_traceFrame ..)

theorem frameAt_verdictNoted (id : Nat) : (verdictNoted id s).frameAt id = s.frameAt id :=
  (notesOnly_verdictNoted id).frameAt id

theorem icvVerdict_due {id : Nat} (due : VerdictDue s id) : icvVerdict id s =
    if !(s.frameAt id).icvOk then failVerdict id 0x80 8 1 ((verdictNoted id s).bump Reg.FRM_ICVFAILS)
    else if fallenBehind (s.frameAt id) s then failVerdict id 0x70 6 5 (verdictNoted id s)
    else passVerdict id (verdictNoted id s) := by
  obtain ⟨has, whole, opening, frame, pending, done, oldest⟩ := due
  rw [icvVerdict]
  exact if_neg (by simp [has, whole, opening, frame, pending, done, oldest])

theorem icvVerdict_right {id : Nat} (due : VerdictDue s id) (right : (s.frameAt id).icvOk = true)
    (timely : fallenBehind (s.frameAt id) s = false) : icvVerdict id s = passVerdict id (verdictNoted id s) := by
  rw [icvVerdict_due due, right, timely]
  rfl

theorem icvVerdict_wrong {id : Nat} (due : VerdictDue s id) (wrong : (s.frameAt id).icvOk = false) :
    icvVerdict id s = failVerdict id 0x80 8 1 ((verdictNoted id s).bump Reg.FRM_ICVFAILS) := by
  rw [icvVerdict_due due, wrong]
  rfl

/-! ## A right ICV (R134, R142) -/

theorem startMark_sch (sa b : Nat) : (startMark sa b s).sch = s.sch := by
  unfold startMark
  dsimp only
  split <;> rfl

theorem saAt_setSa_same (sa : Nat) (e : SaEntry) : (s.setSa sa e).saAt sa = e := Tbl.get_set_same ..

theorem startMark_pn (sa b : Nat) : ((startMark sa b s).saAt sa).pn = (s.saAt sa).pn := by
  unfold startMark
  dsimp only
  split
  · rfl
  · rw [saAt_setSa_same]

/-- A frame verified under the current association moves its NEXT_PN past the frame's PN, and no frame. -/
theorem rxVerified_current {i sa gen pn : Nat} (same : (s.saAt sa).gen = gen) (current : (s.saAt sa).state = .current) :
    (rxVerified i sa gen pn s).sch = s.sch ∧
    ((rxVerified i sa gen pn s).saAt sa).pn = max (s.saAt sa).pn (pn + 1) := by
  have switched : ((s.saAt sa).state == .ready) = false := by rw [current]; rfl
  unfold rxVerified
  dsimp only
  rw [if_neg (not_not.mpr same), switched, if_neg Bool.false_ne_true]
  split
  · exact ⟨rfl, by rw [saAt_setSa_same]⟩
  split
  case isTrue moves =>
    have next : ((s.setSa sa { s.saAt sa with pn := pn + 1 }).saAt sa).pn = max (s.saAt sa).pn (pn + 1) := by
      rw [saAt_setSa_same, max_eq_right (by omega)]
    split
    · exact ⟨rfl, next⟩
    · exact ⟨startMark_sch .., (startMark_pn ..).trans next⟩
  case isFalse stays => exact ⟨rfl, (max_eq_left (by omega)).symm⟩

theorem hasFrame_setFrame {id : Nat} {f : Frame} (h : f ≠ {}) : (s.setFrame id f).hasFrame id = true := by
  rw [State.hasFrame, State.setFrame, Tbl.set, if_neg h, Tbl.find_put_same]
  rfl

/-- A frame found good. -/
def foundGood (f : Frame) : Frame := { f with verdict := .good }

/-- The frame is good, and its association has verified it. -/
def verified (id : Nat) (s : State) : State :=
  let f := s.frameAt id
  rxVerified (f.sc.getD 0) (f.sa.getD 0) f.gen f.pn (s.setFrame id (foundGood f))

/-- What follows for a frame with a port to leave by is a count and a learn request. -/
theorem notesOnly_passVerdict {id : Nat} (outs : (s.frameAt id).outs ≠ []) :
    NotesOnly (verified id s) (passVerdict id s) := by
  unfold passVerdict
  dsimp only
  rw [if_neg (by rw [List.isEmpty_iff]; exact outs)]
  exact ((notesOnly_wr (a := Reg.CLS_OPEN_FLOODS) _ (by decide)).ite (.refl _)).trans (notesOnly_learnOpen ..)

/-- A frame that passes every check is good and, with a port to leave by, stays. -/
theorem passVerdict_shows {id sa : Nat} (opening : (s.frameAt id).opening = true) (outs : (s.frameAt id).outs ≠ [])
    (under : (s.frameAt id).sa = some sa) (same : (s.saAt sa).gen = (s.frameAt id).gen)
    (current : (s.saAt sa).state = .current) :
    ((passVerdict id s).frameAt id).verdict = .good ∧ (passVerdict id s).hasFrame id = true ∧
    ((passVerdict id s).saAt sa).pn = max (s.saAt sa).pn ((s.frameAt id).pn + 1) := by
  have notes := notesOnly_passVerdict outs
  have real : foundGood (s.frameAt id) ≠ {} := fun e => by
    have seals : (s.frameAt id).opening = false := congrArg Frame.opening e
    rw [opening] at seals
    contradiction
  obtain ⟨frames, moved⟩ := rxVerified_current (s := s.setFrame id (foundGood (s.frameAt id)))
    (i := (s.frameAt id).sc.getD 0) (pn := (s.frameAt id).pn) same current
  have whole : verified id s = rxVerified ((s.frameAt id).sc.getD 0) sa (s.frameAt id).gen (s.frameAt id).pn
      (s.setFrame id (foundGood (s.frameAt id))) := by
    rw [verified, under, Option.getD_some]
  rw [← whole] at frames moved
  refine ⟨?_, ?_, ?_⟩
  · rw [notes.frameAt, State.frameAt, frames]
    exact congrArg Frame.verdict (State.frameAt_setFrame_same id _)
  · rw [notes.hasFrame, State.hasFrame, frames]
    exact hasFrame_setFrame real
  · rw [notes.saAt, moved]
    rfl

theorem answers_icvVerdict_right {tag : Fin 16384} {i k : Nat} (core : coreRuns s = true) (due : VerdictDue s tag.val)
    (sc : (s.frameAt tag.val).sc = some i) (sa : (s.frameAt tag.val).sa = some k)
    (right : (s.frameAt tag.val).icvOk = true) (same : (s.saAt k).gen = (s.frameAt tag.val).gen)
    (window : lowestPn (s.scAt true i) (s.saAt k).pn ≤ (s.frameAt tag.val).pn) (outs : (s.frameAt tag.val).outs ≠ [])
    (current : (s.saAt k).state = .current) :
    Answers (.icvVerdict tag) s (fun u => (u.frameAt tag.val).verdict = .good ∧ u.hasFrame tag.val = true ∧
      (u.saAt k).pn = max (s.saAt k).pn ((s.frameAt tag.val).pn + 1)) := by
  refine answers_powered core (f := icvVerdict tag.val) rfl ?_
  have timely : fallenBehind (s.frameAt tag.val) s = false := by
    rw [fallenBehind, sc, sa, Option.getD_some, Option.getD_some, nextPnOf, if_pos same,
      decide_eq_false (Nat.not_lt.mpr window), Bool.and_false]
  have frame : (verdictNoted tag.val s.fresh).frameAt tag.val = s.frameAt tag.val := frameAt_verdictNoted ..
  have entry : (verdictNoted tag.val s.fresh).saAt k = s.saAt k := (notesOnly_verdictNoted tag.val).saAt k
  have ⟨_, _, opening, _⟩ := due
  rw [icvVerdict_right (s := s.fresh) due right timely]
  rw [← frame] at opening outs sa same ⊢
  rw [← entry] at same current ⊢
  exact passVerdict_shows opening outs sa same current

/-! ## A wrong ICV (R142, R145, R146) -/

/-- No association is unbound by the removal of a frame of the open direction: the count of ICV failures stays. -/
theorem icvFails_removeFrame {id : Nat} (opening : (s.frameAt id).opening = true) :
    (removeFrame id s).rd Reg.FRM_ICVFAILS = s.rd Reg.FRM_ICVFAILS := by
  have tags (w : State) : (syncTags w).rd Reg.FRM_ICVFAILS = w.rd Reg.FRM_ICVFAILS := by
    have free (n : Nat) : NotesOnly w (w.wr Reg.CPH_TAG_FREE n) := notesOnly_wr _ (by decide)
    unfold syncTags
    exact (((free _).trans (notesOnly_raiseEvent (src := 0x02) 4 0 (by decide))).ite (free _)).icvFails
  have unqueued (l : List Nat) (c : Nat) : (l.foldl (fun s p => unqueue id p c s) s).regs = s.regs :=
    List.foldlRecOn (motive := fun w : State => w.regs = s.regs) _ _ rfl fun _ hw _ _ => hw
  unfold removeFrame
  dsimp only
  split
  · rfl
  rw [tags]
  split <;> exact State.rd_of_regs (unqueued ..) _

/-- A frame whose head has not left goes when it fails a check, and is recorded as the last failure. -/
theorem failVerdict_headIn {id off cause event i : Nat} (opening : (s.frameAt id).opening = true)
    (heads : (s.frameAt id).heads = []) (sc : (s.frameAt id).sc = some i) (timely : cause ≠ 6) :
    (failVerdict id off cause event s).hasFrame id = false ∧
    (failVerdict id off cause event s).rd Reg.FRM_ICVFAILS = s.rd Reg.FRM_ICVFAILS ∧
    (failVerdict id off cause event s).rd Reg.FRM_LAST_FAIL =
      ((s.frameAt id).span + 2 ^ 5 + 2 ^ 8 * cause + 2 ^ 31) % 2 ^ 32 ∧
    (failVerdict id off cause event s).rd Reg.FRM_LAST_SC = i % 2 ^ 32 := by
  have counted : (frmCount (s.frameAt id).span off 1 (removeFrame id s)).rd Reg.FRM_ICVFAILS =
      s.rd Reg.FRM_ICVFAILS := by
    refine Eq.trans ?_ (icvFails_removeFrame opening)
    unfold frmCount State.bump64 State.wr64
    rw [State.rd_wr_ne _ _ (by unfold Reg.FRM_ICVFAILS Reg.FRM_PAGE; omega),
      State.rd_wr_ne _ _ (by unfold Reg.FRM_ICVFAILS Reg.FRM_PAGE; omega)]
  have shown : failVerdict id off cause event s = frmEvent event
      (lastFail (s.frameAt id).span true cause false (some i)
        (frmCount (s.frameAt id).span off 1 (removeFrame id s))) := by
    rw [failVerdict]
    dsimp only
    rw [heads, sc, if_neg timely]
    rfl
  rw [shown]
  have kept {a : Nat} (host : hostIfReg a = false) (ne : a ≠ Reg.FRM_EVT) (w : State) :
      (frmEvent event w).rd a = w.rd a := raiseEvent_rd (src := 0x03) event 0 host ne
  refine ⟨?_, ?_, ?_, ?_⟩
  · exact ((cellsStay_lastFail ..).trans (cellsStay_raiseEvent ..)).hasFrame id |>.trans (hasFrame_removeFrame id)
  · rw [kept (by decide) (by decide), lastFail, State.rd_wr_ne _ _ (by decide), State.rd_wr_ne _ _ (by decide), counted]
  · rw [kept (by decide) (by decide), lastFail, State.rd_wr_ne _ _ (by decide), State.rd_wr_same]
    rfl
  · rw [kept (by decide) (by decide), lastFail, State.rd_wr_same]
    rfl

theorem answers_icvVerdict_wrong {tag : Fin 16384} {i : Nat} (core : coreRuns s = true) (due : VerdictDue s tag.val)
    (sc : (s.frameAt tag.val).sc = some i) (wrong : (s.frameAt tag.val).icvOk = false)
    (heads : (s.frameAt tag.val).heads = []) :
    Answers (.icvVerdict tag) s (fun u => u.hasFrame tag.val = false ∧
      u.rd Reg.FRM_ICVFAILS = min (s.rd Reg.FRM_ICVFAILS + 1) 0xFFFFFFFF ∧
      u.rd Reg.FRM_LAST_FAIL = ((s.frameAt tag.val).span + 2 ^ 5 + 2 ^ 8 * 8 + 2 ^ 31) % 2 ^ 32 ∧
      u.rd Reg.FRM_LAST_SC = i % 2 ^ 32) := by
  refine answers_powered core (f := icvVerdict tag.val) rfl ?_
  have noted := notesOnly_verdictNoted (s := s.fresh) tag.val
  have counted : ((verdictNoted tag.val s.fresh).bump Reg.FRM_ICVFAILS).rd Reg.FRM_ICVFAILS =
      min (s.rd Reg.FRM_ICVFAILS + 1) 0xFFFFFFFF := by
    rw [State.rd_bump_same, noted.icvFails]
    rfl
  have frame : ((verdictNoted tag.val s.fresh).bump Reg.FRM_ICVFAILS).frameAt tag.val = s.frameAt tag.val :=
    noted.frameAt tag.val
  have ⟨_, _, opening, _⟩ := due
  rw [icvVerdict_wrong (s := s.fresh) due wrong, ← counted]
  rw [← frame] at opening heads sc ⊢
  exact failVerdict_headIn opening heads sc (by decide)

/-- Settles O24: a right ICV of a frame within the replay window reaches `passVerdict`, a wrong one `failVerdict`. -/
theorem verdictPassesOrDiscards : Obligations.VerdictPassesOrDiscards := fun _ _ _ core due sc sa =>
  ⟨answers_icvVerdict_right core due sc sa, answers_icvVerdict_wrong core due sc⟩

end Sys2Proof.Machine
end

section
/-! SUPPORT. The stitch header: its fields as byte strings, and the mask that the sender puts on and the receiver takes
off. -/

namespace Sys2Proof.Machine

/-! ## Byte strings most significant byte first (R5) -/

theorem leNat_leBytes {n v : Nat} (h : v < 256 ^ n) : leNat (leBytes n v) = v := by
  induction n generalizing v with
  | zero => simp_all [leBytes, leNat]
  | succ n ih =>
    have rest : v / 256 < 256 ^ n := by rw [Nat.div_lt_iff_lt_mul (by decide), ← Nat.pow_succ]; exact h
    rw [leBytes, leNat, ih rest, BitVec.toNat_ofNat]
    omega

theorem beNat_reverse (bs : Bytes) : beNat bs.reverse = leNat bs := by
  induction bs with
  | nil => rfl
  | cons b bs ih =>
    rw [beNat] at ih
    rw [beNat, List.reverse_cons, List.foldl_append, ih, leNat, Nat.add_comm]
    rfl

theorem beNat_beBytes {n v : Nat} (h : v < 256 ^ n) : beNat (beBytes n v) = v := by
  rw [beBytes, beNat_reverse, leNat_leBytes h]

theorem leNat_lt (bs : Bytes) : leNat bs < 256 ^ bs.length := by
  induction bs with
  | nil => decide
  | cons b bs ih =>
    have byte := b.isLt
    rw [leNat, List.length_cons, Nat.pow_succ]
    omega

/-- A number of `n` bytes read from a byte string. -/
theorem beAt_lt (bs : Bytes) (o n : Nat) : beAt bs o n < 256 ^ n := by
  have short : (slice bs o n).reverse.length ≤ n := by rw [List.length_reverse]; exact List.length_take_le ..
  rw [beAt, ← List.reverse_reverse (slice bs o n), beNat_reverse]
  exact (leNat_lt _).trans_le (Nat.pow_le_pow_right (by decide) short)

/-- A number read where its bytes were written. -/
theorem beAt_append (a c : Bytes) {n v : Nat} (h : v < 256 ^ n) : beAt (a ++ (beBytes n v ++ c)) a.length n = v := by
  rw [beAt, slice, List.drop_left, List.take_left' (beBytes_length n v), beNat_beBytes h]

theorem byteAt_append (a c : Bytes) (b : Byte) : byteAt (a ++ b :: c) a.length = b.toNat := by
  simp [byteAt]

/-! ## The mask (R165) -/

theorem maskHeader_take (h : Bytes) : (maskHeader h).take 8 = h.take 8 := by
  rcases Nat.le_total 8 h.length with long | short
  · exact List.take_left' (by rw [List.length_take, min_eq_left long])
  · rw [maskHeader, List.drop_of_length_le short, List.map_nil, List.append_nil, List.take_take, min_self]

theorem maskHeader_drop (h : Bytes) : (maskHeader h).drop 8 = (h.drop 8).map (· ^^^ 0xA5#8) := by
  rcases Nat.le_total 8 h.length with long | short
  · exact List.drop_left' (by rw [List.length_take, min_eq_left long])
  · rw [maskHeader, List.drop_of_length_le short, List.map_nil, List.append_nil, List.drop_take_self]

theorem maskHeader_length (h : Bytes) : (maskHeader h).length = h.length := by
  rw [maskHeader, List.length_append, List.length_map, ← List.length_append, List.take_append_drop]

theorem maskHeader_maskHeader (h : Bytes) : maskHeader (maskHeader h) = h := by
  have twice (b : Byte) : b ^^^ 0xA5#8 ^^^ 0xA5#8 = b := by rw [BitVec.xor_assoc, BitVec.xor_self, BitVec.xor_zero]
  rw [maskHeader, maskHeader_take, maskHeader_drop, List.map_map]
  simp only [Function.comp_def, twice, List.map_id']
  exact List.take_append_drop 8 h

/-! ## The header (R164) -/

/-- Bytes 0 to 59 of a stitch header, which its CRC covers. -/
def headerFields (span ks : Nat) (rdi cinch : Bool) (seq : Nat) : Bytes :=
  stitchWord ++ beBytes 2 span ++ leBytes 1 (128 * ks + 64 * b2n rdi + 32 * b2n cinch) ++ zeros 1 ++ beBytes 6 seq ++
    zeros 42

section
variable (span ks seq : Nat) (rdi cinch : Bool)

theorem stitchHeader_eq : stitchHeader span ks rdi cinch seq =
    headerFields span ks rdi cinch seq ++ beBytes 4 (crc32c (headerFields span ks rdi cinch seq)) := rfl

theorem headerFields_length : (headerFields span ks rdi cinch seq).length = 60 := by
  simp [headerFields, stitchWord, zeros]

theorem stitchHeader_length : (stitchHeader span ks rdi cinch seq).length = 64 := by
  rw [stitchHeader_eq, List.length_append, headerFields_length, beBytes_length]

theorem headerGood_stitchHeader : headerGood (maskHeader (stitchHeader span ks rdi cinch seq)) = true := by
  have word : (stitchHeader span ks rdi cinch seq).take 8 = stitchWord := by
    simp only [stitchHeader_eq, headerFields, List.append_assoc]
    exact List.take_left' (by decide)
  have fields : (stitchHeader span ks rdi cinch seq).take 60 = headerFields span ks rdi cinch seq :=
    List.take_left' (headerFields_length ..)
  have crc : beAt (stitchHeader span ks rdi cinch seq) 60 4 = crc32c (headerFields span ks rdi cinch seq) := by
    have read := beAt_append (headerFields span ks rdi cinch seq) [] (n := 4)
      (v := crc32c (headerFields span ks rdi cinch seq)) (BitVec.isLt _)
    rwa [headerFields_length, List.append_nil] at read
  simp [headerGood, maskHeader_maskHeader, maskHeader_length, stitchHeader_length, word, fields, crc]

variable {span ks seq}

theorem stitchHeader_span (h : span < 2 ^ 16) : beAt (stitchHeader span ks rdi cinch seq) 8 2 = span := by
  simp only [stitchHeader_eq, headerFields, List.append_assoc]
  exact beAt_append stitchWord _ h

theorem stitchHeader_seq (h : seq < 2 ^ 48) : beAt (stitchHeader span ks rdi cinch seq) 12 6 = seq := by
  simp only [stitchHeader_eq, headerFields]
  rw [List.append_assoc, List.append_assoc]
  have before : (stitchWord ++ beBytes 2 span ++ leBytes 1 (128 * ks + 64 * b2n rdi + 32 * b2n cinch) ++ zeros 1).length
      = 12 := by simp [stitchWord, zeros]
  have read := beAt_append (stitchWord ++ beBytes 2 span ++ leBytes 1 (128 * ks + 64 * b2n rdi + 32 * b2n cinch) ++
    zeros 1) (zeros 42 ++ beBytes 4 (crc32c (headerFields span ks rdi cinch seq))) (n := 6) h
  rwa [before] at read

/-- Byte 10 holds KS, RDI and CINCH. -/
theorem stitchHeader_flags : byteAt (stitchHeader span ks rdi cinch seq) 10 =
    (BitVec.ofNat 8 (128 * ks + 64 * b2n rdi + 32 * b2n cinch)).toNat := by
  simp only [stitchHeader_eq, headerFields, leBytes, List.append_assoc, List.singleton_append]
  rw [← List.append_assoc stitchWord]
  have before : (stitchWord ++ beBytes 2 span).length = 10 := by simp [stitchWord]
  have read := byteAt_append (stitchWord ++ beBytes 2 span) (zeros 1 ++ (beBytes 6 seq ++ (zeros 42 ++
    beBytes 4 (crc32c (headerFields span ks rdi cinch seq))))) (BitVec.ofNat 8 (128 * ks + 64 * b2n rdi + 32 * b2n cinch))
  rw [before] at read
  exact read

end

theorem flags_read : ∀ ks < 2, ∀ rdi cinch : Bool,
    let b := (BitVec.ofNat 8 (128 * ks + 64 * b2n rdi + 32 * b2n cinch)).toNat
    b / 128 = ks ∧ b.testBit 6 = rdi ∧ b.testBit 5 = cinch := by decide

/-- Settles O28: the sender's fields stand side by side in the header, so each is read where it was written, and the mask
is an exclusive or. -/
theorem stitchHeaderReadsAsItWasWritten : Obligations.StitchHeaderReadsAsItWasWritten := by
  refine ⟨maskHeader_maskHeader, fun span ks seq rdi cinch hspan hks hseq => ?_⟩
  obtain ⟨slot, remote, first⟩ := flags_read ks hks rdi cinch
  refine ⟨headerGood_stitchHeader .., stitchHeader_span rdi cinch hspan, ?_, ?_, ?_, stitchHeader_seq rdi cinch hseq⟩
  · rw [stitchHeader_flags, slot]
  · rw [stitchHeader_flags, remote]
  · rw [stitchHeader_flags, first]

end Sys2Proof.Machine
end

section
/-! SUPPORT. Trunk spans: which operations leave the state of every one of them, and the Pattern, as they are. -/

namespace Sys2Proof.Machine

variable {s t u : State}

@[simp] theorem State.trkAt_setTrk_same (n : Nat) (x : TrunkState) : (s.setTrk n x).trkAt n = x := Tbl.get_set_same ..

/-! ## What leaves trunk spans and Pattern alone -/

/-- The state of every trunk span and the Pattern are as before. -/
structure TrunksStay (s u : State) : Prop where
  trk : u.trk = s.trk
  pat : u.pat = s.pat

theorem TrunksStay.refl (s : State) : TrunksStay s s := ⟨rfl, rfl⟩

theorem TrunksStay.trans (h : TrunksStay s t) (k : TrunksStay t u) : TrunksStay s u :=
  ⟨k.trk.trans h.trk, k.pat.trans h.pat⟩

theorem TrunksStay.ite {c : Prop} [Decidable c] (h : TrunksStay s t) (k : TrunksStay s u) :
    TrunksStay s (if c then t else u) := by
  split
  · exact h
  · exact k

theorem TrunksStay.foldl {α : Type} {f : State → α → State} (h : ∀ t x, TrunksStay t (f t x)) (l : List α) :
    TrunksStay s (l.foldl f s) :=
  List.foldlRecOn _ _ (.refl s) fun _ ht x _ => ht.trans (h _ x)

theorem TrunksStay.trkAt (h : TrunksStay s t) (n : Nat) : t.trkAt n = s.trkAt n := by
  rw [State.trkAt, h.trk, State.trkAt]

theorem TrunksStay.patMode (h : TrunksStay s t) (n : Nat) : patMode t n = patMode s n := by
  rw [Machine.patMode, spanCfg, h.pat, Machine.patMode, spanCfg]

theorem TrunksStay.tcMode (h : TrunksStay s t) (n : Nat) : tcMode t n = tcMode s n := by
  rw [Machine.tcMode, h.pat, Machine.tcMode]

theorem FramesStay.trunks (h : FramesStay s t) : TrunksStay s t := by
  rw [h.rest]
  exact ⟨rfl, rfl⟩

theorem trunksStay_wr (a v : Nat) : TrunksStay s (s.wr a v) := ⟨rfl, rfl⟩
theorem trunksStay_wr64 (a v : Nat) : TrunksStay s (s.wr64 a v) := ⟨rfl, rfl⟩
theorem trunksStay_bump64 (a n : Nat) : TrunksStay s (s.bump64 a n) := ⟨rfl, rfl⟩
theorem trunksStay_emit (o : Output) : TrunksStay s (s.emit o) := ⟨rfl, rfl⟩
theorem trunksStay_sec (x : SecState) : TrunksStay s { s with sec := x } := ⟨rfl, rfl⟩
theorem trunksStay_fab (x : FabState) : TrunksStay s { s with fab := x } := ⟨rfl, rfl⟩
theorem trunksStay_setSa (i : Nat) (e : SaEntry) : TrunksStay s (s.setSa i e) := trunksStay_sec _
theorem trunksStay_setSc (rx : Bool) (i : Nat) (e : ScEntry) : TrunksStay s (s.setSc rx i e) :=
  (trunksStay_sec _).ite (trunksStay_sec _)
theorem trunksStay_mirror (m : HrnMsg) : TrunksStay s (s.mirror m) := ⟨rfl, rfl⟩

theorem trunksStay_raiseEvent (src b p3 : Nat) : TrunksStay s (raiseEvent src b p3 s) :=
  (framesStay_raiseEvent src b p3).trunks

theorem trunksStay_secEvent (b sc : Nat) (rx : Bool) : TrunksStay s (secEvent b sc rx s) :=
  (trunksStay_wr ..).trans (trunksStay_raiseEvent ..)

theorem trunksStay_trkCount (n off k : Nat) : TrunksStay s (trkCount n off k s) := ⟨rfl, rfl⟩

theorem trunksStay_countCorrection (n : Nat) (c : Correction) : TrunksStay s (countCorrection n c s) := by
  have saturated (w : State) (b : Nat) : TrunksStay w (timEvent 7 b (w.bump Reg.TIM_TC_SAT)) :=
    ((trunksStay_wr ..).trans (trunksStay_wr ..)).trans (trunksStay_raiseEvent ..)
  cases c with
  | none => exact .refl s
  | stale => exact trunksStay_wr ..
  | skip => exact trunksStay_wr ..
  | done frame sat => exact (trunksStay_trkCount n 0x98 1).trans ((saturated ..).ite (.refl _))

/-! ## Associations (R194 to R209) -/

theorem trunksStay_emptySlot (sa : Nat) : TrunksStay s (emptySlot sa s) := by
  have orphan : TrunksStay s (countOrphan sa s) := by
    unfold countOrphan
    dsimp only
    split
    · split
      · exact (trunksStay_wr ..).trans (trunksStay_secEvent ..)
      · exact trunksStay_wr ..
    · exact .refl s
  exact orphan.trans ((trunksStay_setSa ..).trans (trunksStay_sec _))

theorem trunksStay_refill (rx : Bool) (i : Nat) : TrunksStay s (refill rx i s) := by
  have request (f : FillReq) : TrunksStay s (requestFill f s) := (trunksStay_setSa ..).trans (trunksStay_sec _)
  unfold refill
  dsimp only
  split
  · exact .refl s
  · exact (request _).ite (.refl s)

theorem trunksStay_emptyAndRefill (rx : Bool) (i sa : Nat) : TrunksStay s (emptyAndRefill rx i sa s) :=
  (trunksStay_emptySlot sa).trans (trunksStay_refill rx i)

theorem trunksStay_unbind (sa gen : Nat) : TrunksStay s (unbind sa gen s) := by
  unfold unbind
  dsimp only
  split
  · exact .refl s
  split
  · split
    · exact (trunksStay_setSa ..).trans (trunksStay_emptyAndRefill ..)
    · exact (trunksStay_setSa ..).trans (trunksStay_emptySlot _)
  · exact trunksStay_setSa ..

theorem trunksStay_journalSc (rx : Bool) (i : Nat) : TrunksStay s (journalSc rx i s) := by
  have put (r : VaultRecord) (f : Vault → Vault) : TrunksStay s (s.putVault r f) := ⟨rfl, rfl⟩
  exact (TrunksStay.refl s).ite (put ..)

theorem trunksStay_applyPending (rx : Bool) (i : Nat) : TrunksStay s (applyPending rx i s) := by
  unfold applyPending
  dsimp only
  split
  · exact (trunksStay_setSc ..).trans (trunksStay_journalSc ..)
  · exact .refl s

theorem trunksStay_makeCurrent (i slot : Nat) : TrunksStay s (makeCurrent i slot s) := by
  have left (w : State) : TrunksStay w (exitGap i w) :=
    (TrunksStay.refl w).ite <| (trunksStay_setSc ..).trans ((trunksStay_wr ..).trans (trunksStay_secEvent ..))
  unfold makeCurrent
  dsimp only
  exact ((trunksStay_setSa ..).trans (trunksStay_setSc ..)).trans <|
    ((left _).trans (trunksStay_applyPending ..)).trans <| (trunksStay_journalSc ..).trans (trunksStay_mirror _)

theorem trunksStay_txSwitch (i : Nat) : TrunksStay s (txSwitch i s) := by
  have switched : TrunksStay s
      (secEvent 0 i false ((makeCurrent i (nextSlot (s.scAt false i)) s).bump Reg.SEC_TX_SWITCHES)) :=
    ((trunksStay_makeCurrent ..).trans (trunksStay_wr ..)).trans (trunksStay_secEvent ..)
  unfold txSwitch
  dsimp only
  refine switched.trans ?_
  generalize secEvent 0 i false ((makeCurrent i (nextSlot (s.scAt false i)) s).bump Reg.SEC_TX_SWITCHES) = w
  split
  · split
    · exact (trunksStay_emptyAndRefill ..).ite (trunksStay_setSa ..)
    · exact trunksStay_refill ..
  · exact trunksStay_refill ..

theorem trunksStay_rxSwitch (i slot : Nat) : TrunksStay s (rxSwitch i slot s) := by
  have entered (e : SaEntry) (c : ScEntry) (sa : Nat) (w : State) : TrunksStay w
      ((secEvent 1 i true ((journalSc true i (applyPending true i ((w.setSa sa e).setSc true i c))).bump
        Reg.SEC_RX_SWITCHES)).mirror (HrnMsg.epoch i true)) :=
    .trans (((trunksStay_setSa ..).trans (trunksStay_setSc ..)).trans (trunksStay_applyPending ..)) <|
      ((trunksStay_journalSc ..).trans (trunksStay_wr ..)).trans <|
        (trunksStay_secEvent ..).trans (trunksStay_mirror _)
  have retired (sa : Nat) (w : State) : TrunksStay w (retireRx i sa w) :=
    ((trunksStay_wr ..).trans (trunksStay_secEvent ..)).trans (trunksStay_emptyAndRefill ..)
  unfold rxSwitch
  dsimp only
  refine .trans ?_ (trunksStay_refill ..)
  exact (entered ..).trans (((retired ..).ite (trunksStay_setSa ..)).ite (.refl _))

theorem trunksStay_rxVerified (i sa gen pn : Nat) : TrunksStay s (rxVerified i sa gen pn s) := by
  have mark (b : Nat) (w : State) : TrunksStay w (startMark sa b w) := by
    unfold startMark
    exact (TrunksStay.refl w).ite (trunksStay_setSa ..)
  have switched : TrunksStay s
      (if (s.saAt sa).state == .ready then rxSwitch i (slotOf (s.scAt true i) sa) s else s) :=
    (trunksStay_rxSwitch ..).ite (.refl s)
  unfold rxVerified
  dsimp only
  refine ((trunksStay_setSa ..).ite (.refl s)).ite <| (trunksStay_setSa ..).ite ?_
  generalize (if (s.saAt sa).state == .ready then rxSwitch i (slotOf (s.scAt true i) sa) s else s) = w at switched ⊢
  exact switched.trans <| .ite (.ite (trunksStay_setSa ..) ((trunksStay_setSa ..).trans (mark ..))) (.refl _)

theorem assignPn_unbound {i slot : Nat} (h : (assignPn i slot s).2 = none) : (assignPn i slot s).1 = s := by
  unfold assignPn at h ⊢
  dsimp only at h ⊢
  split at h
  · contradiction
  · rw [if_neg ‹_›]

/-- An SC that binds nothing has at most switched. -/
theorem trunksStay_bindTx_unbound {i : Nat} {class7 : Bool} {v : State} (h : bindTx i class7 s = (v, none)) :
    TrunksStay s v := by
  unfold bindTx at h
  dsimp only at h
  split at h
  · cases h
    exact .refl s
  generalize ((s.scAt false i).trigger && nextReady s (s.scAt false i) && !s.sec.isolated) = due at h
  have switched : TrunksStay s (if due then txSwitch i s else s) := (trunksStay_txSwitch i).ite (.refl s)
  generalize (if due then txSwitch i s else s) = w at switched h
  have unbound {slot : Nat} (h : assignPn i slot w = (v, none)) : v = w := by
    rw [← assignPn_unbound (congrArg Prod.snd h), h]
  split at h
  · cases h
    exact switched
  · split at h
    · split at h
      · split at h
        · rename_i bound
          rw [congrArg Prod.snd h] at bound
          contradiction
        · rw [unbound h]
          exact switched
      · cases h
        exact switched
    · rw [unbound h]
      exact switched

/-! ## Records and cells (R105, R390, R455, R494) -/

theorem trunksStay_evrQueue (rec : Bytes) : TrunksStay s (evrQueue rec s) := by
  have counted (x : EvrState) : TrunksStay s (({ s with evr := x } : State).bump Reg.EVR_LOST) := ⟨rfl, rfl⟩
  have lost : TrunksStay s (loseRecord rec s) := (counted _).trans (trunksStay_raiseEvent ..)
  unfold evrQueue
  dsimp only
  split
  · exact (TrunksStay.refl s).ite lost
  · exact ⟨rfl, rfl⟩

theorem trunksStay_traceAdd (stamp attr len tag sa outcome : Nat) (head secTag : Bytes) :
    TrunksStay s (traceAdd stamp attr len tag sa outcome head secTag s) := ⟨rfl, rfl⟩

theorem trunksStay_settleWasted (ran : List Nat) : TrunksStay s (settleWasted ran s) :=
  .foldl (fun v _ => (TrunksStay.refl v).ite ((trunksStay_wr64 ..).trans (trunksStay_bump64 ..))) _

end Sys2Proof.Machine
end

section
/-! SUPPORT. The seal side of a trunk span: client blocks, the binding of a stitch, binding registers and releases. -/

namespace Sys2Proof.Machine

variable {s t u : State} {n : Nat}

/-! ## Client blocks (R152 to R154) -/

theorem syncOk_idleBlock : syncOk idleBlock = true := by decide

/-- A block that arrives below the nominal fill enters the elastic buffer, and none is taken from it. -/
theorem clientBlock_enters {b : Block66} (trunk : patMode s n = .trunk) (room : (s.trkAt n).elastic.length < 8) :
    clientBlock n b s = (if syncOk b then s else trkCount n 0x20 1 s).setTrk n { s.trkAt n with
      elastic := (s.trkAt n).elastic ++ [if syncOk b then b else errorBlock] } := by
  unfold clientBlock
  dsimp only
  rw [if_neg (by simp [trunk]), if_neg (by omega), State.trkAt_setTrk_same, if_neg]
  rw [List.length_append, List.length_singleton]
  omega

/-- An idle that finds the elastic buffer full is left out. -/
theorem clientBlock_leavesOutIdle (trunk : patMode s n = .trunk) (full : 12 ≤ (s.trkAt n).elastic.length) :
    clientBlock n idleBlock s = trkCount n 0x18 1 s := by
  unfold clientBlock
  dsimp only
  rw [if_neg (by simp [trunk]), syncOk_idleBlock, if_pos rfl, if_pos rfl, if_pos ⟨full, by simp⟩]

theorem answers_clientBlock_enters {m : SpanNo} {b : Block66} (core : coreRuns s = true)
    (trunk : patMode s m.val = .trunk) (room : (s.trkAt m.val).elastic.length < 8) :
    Answers (.clientBlockReceived m b) s (fun u =>
      u.trkAt m.val = { s.trkAt m.val with
        elastic := (s.trkAt m.val).elastic ++ [if syncOk b then b else errorBlock] } ∧
      (syncOk b = false → u.rd64 (Reg.FRM_TRK_PAGE m.val 0 + 0x20) =
        (s.rd64 (Reg.FRM_TRK_PAGE m.val 0 + 0x20) + 1) % 2 ^ 64)) := by
  refine answers_powered core (f := clientBlock m.val b) rfl ?_
  rw [clientBlock_enters (s := s.fresh) trunk room]
  refine ⟨State.trkAt_setTrk_same .., fun bad => ?_⟩
  rw [bad]
  exact State.rd64_bump64_same (s := s.fresh) _ 1

theorem answers_clientBlock_leavesOutIdle {m : SpanNo} (core : coreRuns s = true) (trunk : patMode s m.val = .trunk)
    (full : 12 ≤ (s.trkAt m.val).elastic.length) :
    Answers (.clientBlockReceived m idleBlock) s (fun u => u.trk = s.trk ∧
      u.rd64 (Reg.FRM_TRK_PAGE m.val 0 + 0x18) = (s.rd64 (Reg.FRM_TRK_PAGE m.val 0 + 0x18) + 1) % 2 ^ 64) := by
  refine answers_powered core (f := clientBlock m.val idleBlock) rfl ?_
  rw [clientBlock_leavesOutIdle (s := s.fresh) trunk full]
  exact ⟨rfl, State.rd64_bump64_same (s := s.fresh) _ 1⟩

/-! ## The stitch in progress (R163, R170) -/

/-- The stitch in progress of span `n` is as before. -/
structure StitchStays (n : Nat) (s u : State) : Prop where
  same : (u.trkAt n).stitch = (s.trkAt n).stitch

theorem StitchStays.refl (n : Nat) (s : State) : StitchStays n s s := ⟨rfl⟩

theorem StitchStays.trans (h : StitchStays n s t) (k : StitchStays n t u) : StitchStays n s u := ⟨k.same.trans h.same⟩

theorem StitchStays.ite {c : Prop} [Decidable c] (h : StitchStays n s t) (k : StitchStays n s u) :
    StitchStays n s (if c then t else u) := by
  split
  · exact h
  · exact k

theorem TrunksStay.stitch (h : TrunksStay s t) : StitchStays n s t := ⟨congrArg TrunkState.stitch (h.trkAt n)⟩

theorem stitchStays_setTrk {x : TrunkState} (h : x.stitch = (s.trkAt n).stitch) : StitchStays n s (s.setTrk n x) :=
  ⟨by rw [State.trkAt_setTrk_same, h]⟩

theorem stitchStays_lineSend (bs : List Block257) : StitchStays n s (lineSend n bs s) := by
  have coded (x : LineCoder) : StitchStays n s (s.setTrk n { s.trkAt n with coder := x }) := stitchStays_setTrk rfl
  unfold lineSend
  dsimp only
  split
  · exact coded _
  · exact (coded _).trans ⟨rfl⟩

theorem stitchStays_lineFill (k : Nat) : StitchStays n s (lineFill k n s) := by
  induction k generalizing s with
  | zero => exact .refl n s
  | succ k ih => exact (trunksStay_emit (.fillOut n)).stitch.trans ((stitchStays_lineSend _).trans ih)

/-- A sealed stitch that leaves is no longer the one in progress. -/
theorem stitchStays_sendStitch : StitchStays n s (sendStitch n s) := by
  have counts (b : Bool) (off : Nat) (v : State) : StitchStays n v (if b then trkCount n off 1 v else v) :=
    (trunksStay_trkCount ..).stitch.ite (.refl n v)
  have sealing (l : List Stitch) : StitchStays n s (s.setTrk n { s.trkAt n with sealing := l }) :=
    stitchStays_setTrk rfl
  unfold sendStitch
  dsimp only
  split
  · exact .refl n s
  split
  · exact .refl n s
  refine .trans ?sent ((trunksStay_unbind ..).stitch.trans (stitchStays_lineFill _))
  refine .trans ?counted (.ite (trunksStay_traceAdd ..).stitch (.refl n _))
  refine .trans ?_ (.ite (trunksStay_evrQueue _).stitch (.refl n _))
  refine .trans ?_ ((counts ..).trans (counts ..))
  exact (sealing _).trans <| (trunksStay_emit _).stitch.trans <|
    (stitchStays_lineSend _).trans (trunksStay_trkCount ..).stitch

/-- Span `n` has stitch `x` in progress, whatever blocks it has taken. -/
def InProgress (n : Nat) (x : Stitch) (s : State) : Prop :=
  ∃ bs fault, (s.trkAt n).stitch = some { x with blocks := bs, fault := fault }

theorem InProgress.stays {x : Stitch} (h : InProgress n x s) (k : StitchStays n s t) : InProgress n x t := by
  obtain ⟨bs, fault, shown⟩ := h
  exact ⟨bs, fault, k.same.trans shown⟩

theorem inProgress_addBlock {x : Stitch} (b : Block66) (fault : Bool) (h : InProgress n x s) :
    InProgress n x (addBlock n b fault s) := by
  obtain ⟨bs, before, shown⟩ := h
  unfold addBlock
  dsimp only
  rw [shown]
  exact ⟨bs ++ [b], before || fault, congrArg TrunkState.stitch (State.trkAt_setTrk_same ..)⟩

/-- A correction rewrites blocks alone (R157). -/
theorem inProgress_sealCorrect {x : Stitch} (h : InProgress n x s) : InProgress n x (sealCorrect n s) := by
  have whole := h
  obtain ⟨bs, fault, shown⟩ := h
  unfold sealCorrect
  dsimp only
  rw [shown]
  dsimp only
  split
  · exact whole
  · refine InProgress.stays ?_ (trunksStay_countCorrection ..).stitch
    exact ⟨_, fault, congrArg TrunkState.stitch (State.trkAt_setTrk_same ..)⟩

/-- A block taken for the line joins the stitch in progress, whichever block it is (R154, R156). -/
theorem inProgress_takeBlock {x : Stitch} (h : InProgress n x s) : InProgress n x (takeBlock n s) := by
  have taken (b : Block66) (fault : Bool) (l : List Block66) :
      InProgress n x (addBlock n b fault (s.setTrk n { s.trkAt n with elastic := l })) :=
    inProgress_addBlock b fault (h.stays (stitchStays_setTrk rfl))
  have counted (c : Bool) (w : State) (k : InProgress n x w) : InProgress n x (if c then trkCount n 0x08 1 w else w) :=
    k.stays (.ite (trunksStay_trkCount ..).stitch (.refl n w))
  unfold takeBlock
  dsimp only
  split
  · exact h
  split
  · exact taken ..
  split
  · exact inProgress_addBlock _ _ (h.stays (trunksStay_trkCount ..).stitch)
  split
  · exact h
  · exact (inProgress_sealCorrect (counted _ _ (taken ..))).stays (stitchStays_sendStitch.trans stitchStays_sendStitch)

/-! ## The binding of a stitch (R162, R170) -/

/-- The mode of a span depends on no register of the PEN block. -/
theorem runMode_wr_pen {a : Nat} (v k : Nat) (lo : 0x20000 ≤ a) (hi : a < 0x30000) :
    runMode (s.wr a v) k = runMode s k := by
  have other {b : Nat} (h : b < 0x20000 ∨ 0x30000 ≤ b) : (s.wr a v).rd b = s.rd b := State.rd_wr_ne s v (by omega)
  have channel (c : Nat) : (s.wr a v).rd (Reg.EVR_CH_STATUS c) = s.rd (Reg.EVR_CH_STATUS c) :=
    other (by unfold Reg.EVR_CH_STATUS; omega)
  have all : allDiscard (s.wr a v) = allDiscard s := by
    simp only [allDiscard, noDram, State.bit, channel, other (b := Reg.CLK_STATUS) (by decide)]
    rfl
  have closed : admissionClosed (s.wr a v) = admissionClosed s := by
    simp only [admissionClosed, startingUp, State.rdF, other (b := Reg.PWR_STATUS) (by decide)]
    rfl
  have bypass : bypassPermitted (s.wr a v) k = bypassPermitted s k := by
    simp only [bypassPermitted, State.bit, other (b := Reg.KPR_BYPASS) (by decide)]
    rfl
  have pair : pairDiscards (s.wr a v) = pairDiscards s := by
    simp only [pairDiscards, pairState, State.rdF, other (b := Reg.CHN_HRN_STATUS) (by decide)]
    rfl
  rw [runMode, all, closed, bypass, pair]
  rfl

theorem trunkRuns_rawDefect (p b : Nat) (v : Bool) : trunkRuns (rawDefect p b v s) n = trunkRuns s n := by
  have raw : 0x20000 ≤ Reg.PEN_DEF_RAW p ∧ Reg.PEN_DEF_RAW p < 0x30000 := by unfold Reg.PEN_DEF_RAW; omega
  have status : Reg.FRM_TRK_STATUS n ≠ Reg.PEN_DEF_RAW p := by unfold Reg.FRM_TRK_STATUS; omega
  rw [trunkRuns, rawDefect, State.bit_setBit_ne _ _ _ _ status, State.setBit, State.wrF,
    runMode_wr_pen _ _ raw.1 raw.2, trunkRuns]

theorem trunksStay_rawDefect (p b : Nat) (v : Bool) : TrunksStay s (rawDefect p b v s) := ⟨rfl, rfl⟩

theorem trunksStay_idleDefects : TrunksStay s (idleDefects n s) := by
  unfold idleDefects
  exact (TrunksStay.refl s).ite ((trunksStay_rawDefect ..).trans (trunksStay_rawDefect ..))

theorem trunkRuns_idleDefects : trunkRuns (idleDefects n s) n = trunkRuns s n := by
  unfold idleDefects
  split
  · rfl
  · rw [trunkRuns_rawDefect, trunkRuns_rawDefect]

/-- With no stitch in progress the next one is bound at once. -/
theorem stitchBind_idle (trunk : patMode s n = .trunk) (idle : (s.trkAt n).stitch = none) :
    stitchBind n s = bindStitch n (idleDefects n s) := by
  have idle' : ((idleDefects n s).trkAt n).stitch = none := by rw [trunksStay_idleDefects.trkAt, idle]
  unfold stitchBind
  dsimp only
  rw [if_neg (by simp [trunk]), idle']

/-- A stitch bound has what its binding gives, and takes its first block. -/
theorem bindStitch_bound {v : State} {b : Binding} (runs : trunkRuns s n = true)
    (bound : bindTx ((s.trkAt n).boundTx.getD 0) true s = (v, some b)) :
    ∃ x w, bindStitch n s = takeBlock n w ∧ InProgress n x w ∧ x.sa = b.sa ∧ x.gen = b.gen ∧ x.seq = b.pn ∧
      x.header = stitchHeader n b.slot (v.bit (Reg.FRM_TRK_STATUS n) 8)
        (v.scAt false ((s.trkAt n).boundTx.getD 0)).cinchStitch b.pn ∧
      x.key = (v.saAt b.sa).key ∧ x.iv = stitchIv (v.saAt b.sa).salt n b.pn := by
  unfold bindStitch
  dsimp only
  rw [if_neg (by simp [runs]), bound]
  have begun (w : State) (x : Stitch) : InProgress n x (w.setTrk n { w.trkAt n with stitch := some x }) :=
    ⟨x.blocks, x.fault, congrArg TrunkState.stitch (State.trkAt_setTrk_same ..)⟩
  refine ⟨?x, _, rfl, ?progress, ?_⟩
  case progress =>
    refine InProgress.stays ?_ <|
      .trans (trunksStay_wr ..).stitch <| .trans (trunksStay_wr ..).stitch (trunksStay_wr ..).stitch
    exact begun ..
  exact ⟨rfl, rfl, rfl, rfl, rfl, rfl⟩

theorem bindStitch_unbound {v : State} (runs : trunkRuns s n = true)
    (unbound : bindTx ((s.trkAt n).boundTx.getD 0) true s = (v, none)) :
    bindStitch n s = sendFill n (trkCount n 0x38 1 v) := by
  unfold bindStitch
  dsimp only
  rw [if_neg (by simp [runs]), unbound]

/-- What goes to the line adds to the outputs and writes no register. -/
theorem lineSend_rest (bs : List Block257) : ∃ o, (lineSend n bs s).out = s.out ++ o ∧ (lineSend n bs s).regs = s.regs := by
  unfold lineSend
  dsimp only
  split
  · exact ⟨[], (List.append_nil _).symm, rfl⟩
  · exact ⟨_, rfl, rfl⟩

/-- Fill with no stitch waiting goes to the line at once. -/
theorem sendFill_shows (idle : (s.trkAt n).sealing = []) : ((sendFill n s).trkAt n).stitch = none ∧
    .fillOut n ∈ (sendFill n s).out ∧ (sendFill n s).bit (Reg.FRM_TRK_STATUS n) 11 = true := by
  unfold sendFill
  dsimp only
  generalize shown : ((s.setBit (Reg.FRM_TRK_STATUS n) 11 true).setBit (Reg.FRM_TRK_STATUS n) 10 false) = v
  have stays : TrunksStay s v := by rw [← shown]; exact (trunksStay_wr ..).trans (trunksStay_wr ..)
  have none_left : (v.trkAt n).sealing.getLast? = none := by
    rw [stays.trkAt, idle]
    rfl
  rw [none_left]
  dsimp only [lineFill]
  have fill : v.bit (Reg.FRM_TRK_STATUS n) 11 = true := by
    rw [← shown, State.bit_setBit_off _ _ _ _ _ (by decide) (by decide), State.bit_setBit_same _ _ _ _ (by decide)]
  generalize sent : (v.setTrk n { v.trkAt n with stitch := none }).emit (.fillOut n) = w
  have stopped : (w.trkAt n).stitch = none := by
    rw [← sent]
    exact congrArg TrunkState.stitch (State.trkAt_setTrk_same (s := v) ..)
  obtain ⟨o, out, regs⟩ := lineSend_rest (n := n) (s := w) (List.replicate 1027 fillBlock)
  refine ⟨(stitchStays_lineSend (s := w) _).same.trans stopped, ?_, ?_⟩
  · rw [out, ← sent]
    simp
  · rw [State.bit, State.rd_of_regs regs, ← sent]
    exact fill

theorem answers_stitchBind_bound {m : SpanNo} {v : State} {b : Binding} (core : coreRuns s = true)
    (runs : trunkRuns s m.val = true) (trunk : patMode s m.val = .trunk) (idle : (s.trkAt m.val).stitch = none)
    (bound : bindTx ((s.trkAt m.val).boundTx.getD 0) true (idleDefects m.val s.fresh) = (v, some b)) :
    Answers (.stitchBind m) s (fun u => ∃ x, (u.trkAt m.val).stitch = some x ∧ x.sa = b.sa ∧ x.gen = b.gen ∧
      x.seq = b.pn ∧ x.header = stitchHeader m.val b.slot (v.bit (Reg.FRM_TRK_STATUS m.val) 8)
        (v.scAt false ((s.trkAt m.val).boundTx.getD 0)).cinchStitch b.pn ∧
      x.key = (v.saAt b.sa).key ∧ x.iv = stitchIv (v.saAt b.sa).salt m.val b.pn) := by
  refine answers_powered core (f := stitchBind m.val) rfl ?_
  have same : (idleDefects m.val s.fresh).trkAt m.val = s.trkAt m.val := trunksStay_idleDefects.trkAt m.val
  rw [stitchBind_idle (s := s.fresh) trunk idle]
  rw [← same] at bound ⊢
  obtain ⟨x, w, binds, progress, given⟩ :=
    bindStitch_bound (trunkRuns_idleDefects.trans runs : trunkRuns (idleDefects m.val s.fresh) m.val = true) bound
  obtain ⟨bs, fault, taken⟩ := inProgress_takeBlock progress
  rw [binds]
  exact ⟨_, taken, given⟩

theorem answers_stitchBind_unbound {m : SpanNo} {v : State} (core : coreRuns s = true)
    (runs : trunkRuns s m.val = true) (trunk : patMode s m.val = .trunk) (idle : (s.trkAt m.val).stitch = none)
    (sealed : (s.trkAt m.val).sealing = [])
    (unbound : bindTx ((s.trkAt m.val).boundTx.getD 0) true (idleDefects m.val s.fresh) = (v, none)) :
    Answers (.stitchBind m) s (fun u => (u.trkAt m.val).stitch = none ∧ .fillOut m.val ∈ u.out ∧
      u.bit (Reg.FRM_TRK_STATUS m.val) 11 = true) := by
  refine answers_powered core (f := stitchBind m.val) rfl ?_
  have stays : TrunksStay s.fresh (trkCount m.val 0x38 1 v) :=
    trunksStay_idleDefects.trans ((trunksStay_bindTx_unbound unbound).trans (trunksStay_trkCount ..))
  have same : (idleDefects m.val s.fresh).trkAt m.val = s.trkAt m.val := trunksStay_idleDefects.trkAt m.val
  rw [stitchBind_idle (s := s.fresh) trunk idle,
    bindStitch_unbound (trunkRuns_idleDefects.trans runs : trunkRuns (idleDefects m.val s.fresh) m.val = true)
      (by rw [same, unbound])]
  exact sendFill_shows (by rw [stays.trkAt]; exact sealed)

/-! ## Binding registers (R182) -/

/-- The bits that a binding register stores. -/
def bindingMask (k : Nat) : Nat := [0x80003FFF, 0x80007FFF, 0x1F].getD k 0

/-- A write to a binding register is stored; it is applied at once in a configuration error alone. -/
theorem trunkBindingWrite_stored {k : Fin 3} (v : Nat) (hn : n < 32)
    (bound : patMode s n = .trunk → s.bit (Reg.FRM_TRK_STATUS n) 7 = false) :
    trunkBindingWrite (Reg.FRM_TRK_TXSC n + 4 * k.val) v s =
      s.wr (Reg.FRM_TRK_TXSC n + 4 * k.val) (v &&& bindingMask k.val) := by
  have base : Reg.FRM_TRK_TXSC 0 ≤ Reg.FRM_TRK_TXSC n + 4 * k.val := by unfold Reg.FRM_TRK_TXSC; omega
  have span : (Reg.FRM_TRK_TXSC n + 4 * k.val - Reg.FRM_TRK_TXSC 0) / 0x20 = n := by unfold Reg.FRM_TRK_TXSC; omega
  have reg : (Reg.FRM_TRK_TXSC n + 4 * k.val - Reg.FRM_TRK_TXSC 0) % 0x20 = 4 * k.val := by
    unfold Reg.FRM_TRK_TXSC; omega
  have status : Reg.FRM_TRK_STATUS n ≠ Reg.FRM_TRK_TXSC n + 4 * k.val := by
    unfold Reg.FRM_TRK_STATUS Reg.FRM_TRK_TXSC; omega
  have kept (x : Nat) : ((patMode (s.wr (Reg.FRM_TRK_TXSC n + 4 * k.val) x) n == .trunk) &&
      (s.wr (Reg.FRM_TRK_TXSC n + 4 * k.val) x).bit (Reg.FRM_TRK_STATUS n) 7) = false := by
    rw [(trunksStay_wr ..).patMode, State.bit_wr_ne _ _ _ status, Bool.and_eq_false_imp, beq_iff_eq]
    exact bound
  unfold trunkBindingWrite
  dsimp only
  rw [span, reg, if_neg (by omega)]
  fin_cases k
  all_goals exact (if_neg (by decide)).trans (if_neg (by rw [kept]; decide))

theorem answers_trunkBindingWrite {m : SpanNo} {k : Fin 3} {v : Word}
    (served : Served s (Reg.FRM_TRK_TXSC m.val + 4 * k.val))
    (bound : patMode s m.val = .trunk → s.bit (Reg.FRM_TRK_STATUS m.val) 7 = false) :
    Answers (.trunkBindingWrite (BitVec.ofNat 32 (Reg.FRM_TRK_TXSC m.val + 4 * k.val)) v) s (fun u =>
      u.rd (Reg.FRM_TRK_TXSC m.val + 4 * k.val) = v.toNat &&& bindingMask k.val ∧
      OnlyRegs [Reg.FRM_TRK_TXSC m.val + 4 * k.val] s u) := by
  have addr : (BitVec.ofNat 32 (Reg.FRM_TRK_TXSC m.val + 4 * k.val)).toNat = Reg.FRM_TRK_TXSC m.val + 4 * k.val := by
    rw [BitVec.toNat_ofNat]
    unfold Reg.FRM_TRK_TXSC
    omega
  refine answers_hostWrite (a := Reg.FRM_TRK_TXSC m.val + 4 * k.val)
    (f := trunkBindingWrite (Reg.FRM_TRK_TXSC m.val + 4 * k.val) v.toNat) served ?_ ?_
  · change powered (hostWrite _ (trunkBindingWrite _ _)) s = _
    rw [addr]
  · rw [trunkBindingWrite_stored (s := s.fresh) v.toNat m.isLt bound]
    refine ⟨?_, onlyRegs_fresh.trans (onlyRegs_wr _ (List.mem_singleton_self _))⟩
    rw [State.rd_wr_same, Nat.mod_eq_of_lt (lt_of_le_of_lt Nat.and_le_left v.isLt)]

/-! ## Releases (R179) -/

/-- The client ports of span `n` send faults or a pattern in place of blocks, or nothing. -/
def clientBlocked (s : State) (n : Nat) : Bool := (spanClients s n).any (portBlocked s)

/-- What leaves the client ports, unless they are blocked. -/
def clientSends (s : State) (n : Nat) (l : List Output) : List Output := if clientBlocked s n then [] else l

theorem clientSends_append (l m : List Output) : clientSends s n l ++ clientSends s n m = clientSends s n (l ++ m) := by
  unfold clientSends
  split <;> rfl

theorem sendClient_eq (p : Option (List Block66)) :
    sendClient n p s = { s with out := s.out ++ clientSends s n [.clientOut n p] } := by
  unfold sendClient clientSends clientBlocked
  split
  · rw [List.append_nil]
  · rfl

/-- A replacement that is due follows what was held of the last payload. -/
theorem stitchRelease_replaced {rest : List (Option (List Block66))} (due : (s.trkAt n).release = none :: rest) :
    stitchRelease n s.fresh = { s.fresh.setTrk n { s.trkAt n with release := rest, tail := [] } with
      out := clientSends s n (if (s.trkAt n).tail = [] then [.clientOut n none]
        else [.clientOut n (some (s.trkAt n).tail), .clientOut n none]) } := by
  have due' : (s.fresh.trkAt n).release = none :: rest := due
  unfold stitchRelease
  dsimp only
  rw [due']
  dsimp only
  by_cases held : (s.trkAt n).tail = []
  · have held' : (s.fresh.trkAt n).tail.isEmpty = true := List.isEmpty_iff.mpr held
    rw [if_pos held', if_pos held, sendClient_eq]
    rfl
  · have held' : ¬ (s.fresh.trkAt n).tail.isEmpty = true := mt List.isEmpty_iff.mp held
    have both : clientSends s n [.clientOut n (some (s.trkAt n).tail), .clientOut n none] =
        clientSends s n [.clientOut n (some (s.trkAt n).tail)] ++ clientSends s n [.clientOut n none] :=
      (clientSends_append [_] [_]).symm
    rw [if_neg held', if_neg held, both, sendClient_eq (p := none), sendClient_eq]
    rfl

/-- A payload that is due leaves but for the end of a message that may go on in the next stitch. -/
theorem stitchRelease_delivered {bs : List Block66} {rest : List (Option (List Block66))}
    (due : (s.trkAt n).release = some bs :: rest) :
    let all := (s.trkAt n).tail ++ bs
    let keep := if rest = [] then openMessage (tcMode s n) all else []
    stitchRelease n s.fresh = { s.fresh.setTrk n { s.trkAt n with release := rest, tail := keep } with
      out := clientSends s n [.clientOut n (some (all.take (all.length - keep.length)))] } := by
  have due' : (s.fresh.trkAt n).release = some bs :: rest := due
  unfold stitchRelease
  dsimp only
  rw [due']
  dsimp only
  rw [sendClient_eq]
  simp only [List.isEmpty_iff]
  rfl

theorem answers_stitchRelease {m : SpanNo} {x : TrunkState} {l : List Output} (core : coreRuns s = true)
    (released : stitchRelease m.val s.fresh = { s.fresh.setTrk m.val x with out := l }) :
    Answers (.stitchRelease m) s (fun u => u.out = l ∧ u.trkAt m.val = x ∧ RegsBut [] s u) := by
  refine answers_powered core (f := stitchRelease m.val) rfl ?_
  rw [released]
  exact ⟨rfl, State.trkAt_setTrk_same (s := s.fresh) .., fun _ _ => rfl⟩

/-! ## The statement -/

/-- Settles O29: each command of the seal side and each release is taken apart into what it writes of its span. -/
theorem trunkSealSideRuns : Obligations.TrunkSealSideRuns := by
  intro s n core
  refine ⟨fun b => answers_clientBlock_enters core, answers_clientBlock_leavesOutIdle core,
    fun v b => answers_stitchBind_bound core, fun v => answers_stitchBind_unbound core,
    fun k v => answers_trunkBindingWrite, fun p rest due => ⟨?_, ?_⟩⟩
  · rintro rfl
    exact answers_stitchRelease core (stitchRelease_replaced due)
  · rintro bs rfl
    exact answers_stitchRelease core (stitchRelease_delivered due)

end Sys2Proof.Machine
end

section
/-! SUPPORT. Trunk spans: what ports, islands and raw defects that follow them leave of them and of the registers that
show their receivers. -/

namespace Sys2Proof.Machine

variable {s t u : State} {n : Nat}

/-! ## What leaves receivers as shown -/

/-- Trunk spans and Pattern are as before, and so are each receiver's state and the SEQ it shows. -/
structure TrunksShow (s u : State) : Prop extends TrunksStay s u where
  rx : ∀ n, rxState u n = rxState s n
  seqLo : ∀ n, u.rd (Reg.FRM_TRK_SEQ_LO n) = s.rd (Reg.FRM_TRK_SEQ_LO n)
  seqHi : ∀ n, u.rd (Reg.FRM_TRK_SEQ_HI n) = s.rd (Reg.FRM_TRK_SEQ_HI n)

theorem TrunksShow.refl (s : State) : TrunksShow s s := ⟨.refl s, fun _ => rfl, fun _ => rfl, fun _ => rfl⟩

theorem TrunksShow.trans (h : TrunksShow s t) (k : TrunksShow t u) : TrunksShow s u where
  toTrunksStay := h.toTrunksStay.trans k.toTrunksStay
  rx n := (k.rx n).trans (h.rx n)
  seqLo n := (k.seqLo n).trans (h.seqLo n)
  seqHi n := (k.seqHi n).trans (h.seqHi n)

theorem TrunksShow.ite {c : Prop} [Decidable c] (h : TrunksShow s t) (k : TrunksShow s u) :
    TrunksShow s (if c then t else u) := by
  split
  · exact h
  · exact k

theorem TrunksShow.foldl {α : Type} {f : State → α → State} (h : ∀ t x, TrunksShow t (f t x)) (l : List α) :
    TrunksShow s (l.foldl f s) :=
  List.foldlRecOn _ _ (.refl s) fun _ ht x _ => ht.trans (h _ x)

/-- Registers outside those of the trunk spans, from 0x8_3000 to 0x8_33FF, show nothing of a receiver. -/
theorem TrunksStay.shows (h : TrunksStay s t) (regs : ∀ a, 0x83000 ≤ a → a < 0x83400 → t.rd a = s.rd a) :
    TrunksShow s t where
  toTrunksStay := h
  rx n := by
    rw [rxState, State.rdF, regs _ (by unfold Reg.FRM_TRK_STATUS; omega) (by unfold Reg.FRM_TRK_STATUS; omega),
      rxState, State.rdF]
  seqLo n := regs _ (by unfold Reg.FRM_TRK_SEQ_LO; omega) (by unfold Reg.FRM_TRK_SEQ_LO; omega)
  seqHi n := regs _ (by unfold Reg.FRM_TRK_SEQ_HI; omega) (by unfold Reg.FRM_TRK_SEQ_HI; omega)

theorem trunksShow_wr {a : Nat} (v : Nat) (h : a < 0x83000 ∨ 0x83400 ≤ a) : TrunksShow s (s.wr a v) :=
  (trunksStay_wr a v).shows fun _ _ _ => State.rd_wr_ne s v (by omega)

theorem trunksShow_fab (x : FabState) : TrunksShow s { s with fab := x } := (trunksStay_fab x).shows fun _ _ _ => rfl

theorem trunksShow_bump64 {a : Nat} (k : Nat) (h : a + 4 < 0x83000 ∨ 0x83400 ≤ a) : TrunksShow s (s.bump64 a k) :=
  (trunksShow_wr _ (by omega)).trans (trunksShow_wr _ (by omega))

theorem trunksShow_trkCount (k off x : Nat) : TrunksShow s (trkCount k off x s) :=
  trunksShow_bump64 _ (.inr (by unfold Reg.FRM_TRK_PAGE; omega))

theorem trunksShow_raiseEvent {src : Nat} (b p3 : Nat)
    (h : (eventRegs src).1 < 0x83000 ∨ 0x83400 ≤ (eventRegs src).1) : TrunksShow s (raiseEvent src b p3 s) :=
  (trunksStay_raiseEvent src b p3).shows fun a lo hi => raiseEvent_rd b p3
    (by simp only [hostIfReg, Bool.or_eq_false_iff, Bool.and_eq_false_iff, decide_eq_false_iff_not]; omega) (by omega)

theorem trunksShow_trkEvent (k b : Nat) : TrunksShow s (trkEvent k b s) :=
  (trunksShow_wr (a := Reg.FRM_TRK_LAST) _ (by decide)).trans (trunksShow_raiseEvent (src := 4) b 0 (by decide))

theorem trunksShow_rawDefect (p b : Nat) (v : Bool) : TrunksShow s (rawDefect p b v s) :=
  trunksShow_wr _ (.inl (by unfold Reg.PEN_DEF_RAW; omega))

/-! ## Ports and islands follow (R98, R99, R345) -/

theorem trunksShow_syncHealth : TrunksShow s (syncHealth s) :=
  TrunksStay.shows (by obtain ⟨r, e⟩ := syncHealth_rest s; rw [e]; exact ⟨rfl, rfl⟩) fun a lo hi =>
    syncHealth_rd s fun m => by
      have out : ∀ b ∈ Reg.CLK_STATUS :: Reg.CPH_HEALTH :: Reg.CPH_CAP :: statusRegs, b < 0x83000 ∨ 0x83400 ≤ b := by
        decide
      have := out a m
      omega

theorem trunksShow_syncSpans : TrunksShow s (syncSpans s) :=
  (trunksShow_wr (a := Reg.CPH_ACTIVE) _ (by decide)).trans <|
    (trunksShow_wr (a := Reg.CPH_SHED) _ (by decide)).trans <|
      .foldl (fun _ k => trunksShow_wr _ (.inr (by unfold Reg.CPH_SHARE; omega))) _

theorem trunksShow_islStatus (i p k v : Nat) : TrunksShow s (s.wrF (Reg.CPH_ISL_STATUS i) p k v) :=
  trunksShow_wr _ (.inr (by unfold Reg.CPH_ISL_STATUS; omega))

theorem trunksShow_trimRecompute : TrunksShow s (trimRecompute s) := by
  have seen (f : FabState) : TrunksShow s { syncSpans (syncHealth s) with fab := f } :=
    (trunksShow_syncHealth.trans trunksShow_syncSpans).trans (trunksShow_fab f)
  have ends (v : State) (f : FabState) : TrunksShow v (syncHealth { v with fab := f }) :=
    (trunksShow_fab f).trans trunksShow_syncHealth
  unfold trimRecompute
  dsimp only
  split
  · refine (seen _).trans (.trans (.foldl (fun _ i => ?_) _) (ends _ _))
    exact trunksShow_islStatus ..
  · refine (seen _).trans (.trans (.foldl (fun _ i => ?_) _) (ends _ _))
    exact (trunksShow_islStatus ..).trans <| (trunksShow_islStatus ..).trans
      (trunksShow_wr _ (.inr (by unfold Reg.CPH_ISL_MV; omega)))

/-- The bits of STATUS beside RX_STATE say nothing of the receiver's state. -/
theorem trunksShow_statusBit {b : Nat} (k : Nat) (v : Bool) (lo : 2 ≤ b) (hi : b < 32) :
    TrunksShow s (s.setBit (Reg.FRM_TRK_STATUS k) b v) where
  toTrunksStay := trunksStay_wr _ _
  rx m := by
    by_cases same : Reg.FRM_TRK_STATUS m = Reg.FRM_TRK_STATUS k
    · rw [rxState, same, State.setBit, State.rdF_wrF_off _ _ _ _ _ (by omega) (.inl lo), ← same, rxState]
    · exact State.rdF_wrF_ne _ _ _ _ _ _ same
  seqLo m := State.rd_setBit_ne _ _ _ (by unfold Reg.FRM_TRK_SEQ_LO Reg.FRM_TRK_STATUS; omega)
  seqHi m := State.rd_setBit_ne _ _ _ (by unfold Reg.FRM_TRK_SEQ_HI Reg.FRM_TRK_STATUS; omega)

theorem trunksShow_syncPorts : TrunksShow s (syncPorts s) := by
  have ports : TrunksShow s ((List.range 64).foldl (fun s p => syncPort p s) s) :=
    .foldl (fun _ p => trunksShow_wr _ (.inl (by unfold Reg.PEN_PSTAT; omega))) _
  have rdi (w : State) : TrunksShow w ((List.range 32).foldl (fun s k => syncRdi k s) w) :=
    .foldl (fun _ k => (trunksShow_statusBit k _ (by decide) (by decide)).ite
      (trunksShow_statusBit k _ (by decide) (by decide))) _
  exact (ports.trans (rdi _)).trans trunksShow_trimRecompute

theorem trunksShow_syncMarkers : TrunksShow s (syncMarkers n s) :=
  (trunksShow_rawDefect ..).trans <| (trunksShow_rawDefect ..).trans (trunksShow_rawDefect ..)

/-! ## The receiver's state (R175) -/

/-- RX_STATE and CANDS as written. -/
def rxWritten (n v : Nat) (s : State) : State :=
  (s.wrF (Reg.FRM_TRK_STATUS n) 0 2 v).wrF (Reg.FRM_TRK_STATUS n) 2 3
    ((s.wrF (Reg.FRM_TRK_STATUS n) 0 2 v).trkAt n).cands.length

theorem trunksShow_setRxState (v : Nat) : TrunksShow (rxWritten n v s) (setRxState n v s) := by
  have shown (w : State) : TrunksShow w (if patMode w n == .trunk then syncMarkers n w else w) :=
    trunksShow_syncMarkers.ite (.refl w)
  exact (shown (rxWritten n v s)).trans trunksShow_syncPorts

theorem trunksStay_setRxState (v : Nat) : TrunksStay s (setRxState n v s) :=
  ((trunksStay_wr ..).trans (trunksStay_wr ..)).trans (trunksShow_setRxState v).toTrunksStay

theorem rxState_setRxState {v : Nat} (h : v < 4) : rxState (setRxState n v s) n = v := by
  rw [(trunksShow_setRxState v).rx, rxState, rxWritten, State.rdF_wrF_off _ _ _ _ _ (by decide) (.inl (by decide)),
    State.rdF_wrF_same _ _ _ _ _ (by decide), Nat.mod_eq_of_lt (show v < 2 ^ 2 from h)]

end Sys2Proof.Machine
end

section
/-! SUPPORT. The open side of a trunk span: markers, candidates, the lock, and the header and tag of a stitch. -/

namespace Sys2Proof.Machine

variable {s t u : State} {n : Nat}

/-! ## Losing the lock (R175) -/

/-- A trunk span whose receiver has lost what it had aligned to. -/
def unaligned (t : TrunkState) : TrunkState :=
  { t with cands := [], lock := none, badRun := 0, tagRun := 0, header := none, openTag := none, openCells := 0,
           openFailed := false, openWrong := [], openRan := [] }

theorem trkAt_dropOpenCells : (dropOpenCells n s).trkAt n = { s.trkAt n with
    openTag := none, openCells := 0, openFailed := false, openWrong := [], openRan := [] } := by
  unfold dropOpenCells
  dsimp only
  rw [State.trkAt_setTrk_same, (trunksStay_settleWasted _).trkAt, (trunksStay_fab _).trkAt]

theorem trkAt_dropLock (rx : Nat) : (dropLock n rx s).trkAt n = unaligned (s.trkAt n) := by
  unfold dropLock
  dsimp only
  generalize dropped : dropOpenCells n _ = v
  have aligned : v.trkAt n = unaligned (s.trkAt n) := by
    rw [← dropped, trkAt_dropOpenCells, State.trkAt_setTrk_same, unaligned]
  have left (c : Bool) (w : State) : TrunksStay w (if c then trkEvent n 1 (trkCount n 0x80 1 w) else w) :=
    ((trunksShow_trkCount ..).trans (trunksShow_trkEvent ..)).toTrunksStay.ite (.refl w)
  rw [((trunksStay_setRxState rx).trans (left _ _)).trkAt, aligned]

theorem rxState_dropLock {rx : Nat} (h : rx < 4) : rxState (dropLock n rx s) n = rx := by
  have left (c : Bool) (w : State) : TrunksShow w (if c then trkEvent n 1 (trkCount n 0x80 1 w) else w) :=
    ((trunksShow_trkCount ..).trans (trunksShow_trkEvent ..)).ite (.refl w)
  unfold dropLock
  dsimp only
  rw [(left _ _).rx, rxState_setRxState h]

/-! ## Markers (R161) -/

/-- Marker tracking of lane `l` of span `n`. -/
def laneAt (s : State) (n l : Nat) : LaneMark := Tbl.get (fun _ => ({} : LaneMark)) (s.trkAt n).lanes l

/-- Span `n` with marker tracking `k` on lane `l`, and what shows of it. -/
def laneTracked (n l : Nat) (k : LaneMark) (s : State) : State :=
  syncMarkers n (s.setTrk n { s.trkAt n with lanes := Tbl.set (fun _ => {}) (s.trkAt n).lanes l k })

theorem laneAt_laneTracked (l : Nat) (k : LaneMark) : laneAt (laneTracked n l k s) n l = k := by
  rw [laneAt, laneTracked, trunksShow_syncMarkers.trkAt, State.trkAt_setTrk_same, Tbl.get_set_same]

theorem TrunksStay.laneAt (h : TrunksStay s t) (l : Nat) : laneAt t n l = laneAt s n l := by
  rw [Machine.laneAt, h.trkAt, Machine.laneAt]

theorem laneAt_dropLock (rx l : Nat) : laneAt (dropLock n rx s) n l = laneAt s n l := by
  rw [laneAt, trkAt_dropLock, unaligned, laneAt]

/-- A marker block is tracked on its lane, and then the receiver goes by the lanes that hold their markers. -/
theorem markerBlock_eq {l pos : Nat} {m : Bytes} (trunk : patMode s n = .trunk) (lane : l < lineLanes s n)
    (word : m.take 8 = markerWord) : markerBlock n l pos m s =
    let w := laneTracked n l (laneMarker (lineType s n) pos m (laneAt s n l)) s
    if !trunkRuns w n then w
    else if markersHeld w n then (if rxState w n ≤ 1 then setRxState n 2 w else w)
    else if 2 ≤ rxState w n then dropLock n 1 w
    else setRxState n 1 w := by
  unfold markerBlock
  rw [if_neg (by simp [trunk, lane, word])]
  rfl

/-- Whatever the receiver does on a marker, the lane's tracking is that of the marker. -/
theorem laneAt_markerBlock {l pos : Nat} {m : Bytes} (trunk : patMode s n = .trunk) (lane : l < lineLanes s n)
    (word : m.take 8 = markerWord) :
    laneAt (markerBlock n l pos m s) n l = laneMarker (lineType s n) pos m (laneAt s n l) := by
  rw [markerBlock_eq trunk lane word]
  have tracked := laneAt_laneTracked (s := s) (n := n) l (laneMarker (lineType s n) pos m (laneAt s n l))
  dsimp only
  generalize laneTracked n l (laneMarker (lineType s n) pos m (laneAt s n l)) s = w at tracked ⊢
  refine Eq.trans ?_ tracked
  split
  · rfl
  split
  · exact TrunksStay.laneAt ((trunksStay_setRxState 2).ite (.refl w)) l
  split
  · exact laneAt_dropLock ..
  · exact (trunksStay_setRxState 1).laneAt l

theorem laneAt_markerLoss {l : Nat} (trunk : patMode s n = .trunk) (lane : l < lineLanes s n) :
    laneAt (markerLoss n l s) n l = {} := by
  have tracked := laneAt_laneTracked (s := s) (n := n) l {}
  unfold markerLoss
  rw [if_neg (by simp [trunk, lane])]
  refine Eq.trans ?_ tracked
  change laneAt (if 2 ≤ rxState (laneTracked n l {} s) n then dropLock n 1 (laneTracked n l {} s)
    else laneTracked n l {} s) n l = _
  generalize laneTracked n l {} s = w
  split
  · exact laneAt_dropLock ..
  · rfl

/-- A marker that stands one group after one followed before lock. -/
def Follows (type pos : Nat) (m : Bytes) (k : LaneMark) (x : MarkerSeen) : Prop :=
  k.lock = none ∧
  k.seen.find? (fun x => x.pos + groupBits type == pos && x.lane == byteAt m 8 && x.lanes == byteAt m 9) = some x

theorem laneMarker_third {type pos : Nat} {m : Bytes} {k : LaneMark} {x : MarkerSeen} (h : Follows type pos m k x)
    (run : 2 ≤ x.run) : ∃ y, (laneMarker type pos m k).lock = some y ∧ y.pos = pos ∧ y.group = beAt m 10 2 ∧
      y.lane = byteAt m 8 ∧ y.lanes = byteAt m 9 := by
  obtain ⟨free, found⟩ := h
  unfold laneMarker
  dsimp only
  rw [free]
  dsimp only
  rw [found]
  dsimp only
  rw [if_pos run]
  exact ⟨_, rfl, rfl, rfl, rfl, rfl⟩

theorem laneMarker_second {type pos : Nat} {m : Bytes} {k : LaneMark} {x : MarkerSeen} (h : Follows type pos m k x)
    (run : x.run < 2) : (laneMarker type pos m k).lock = none := by
  obtain ⟨free, found⟩ := h
  unfold laneMarker
  dsimp only
  rw [free]
  dsimp only
  rw [found]
  dsimp only
  rw [if_neg (by omega)]

theorem answers_markerBlock {k : SpanNo} {l : Fin 8} {pos : Nat} {m : Bytes} (core : coreRuns s = true)
    (trunk : patMode s k.val = .trunk) (lane : l.val < lineLanes s k.val) (word : m.take 8 = markerWord) :
    Answers (.markerBlock k l pos m) s (fun u =>
      laneAt u k.val l.val = laneMarker (lineType s k.val) pos m (laneAt s k.val l.val) ∧
      (∀ x, (laneAt s k.val l.val).lock = none →
        (laneAt s k.val l.val).seen.find? (fun x => x.pos + groupBits (lineType s k.val) == pos &&
          x.lane == byteAt m 8 && x.lanes == byteAt m 9) = some x →
        (2 ≤ x.run → ∃ y, (laneAt u k.val l.val).lock = some y ∧ y.pos = pos ∧ y.group = beAt m 10 2 ∧
          y.lane = byteAt m 8 ∧ y.lanes = byteAt m 9) ∧
        (x.run < 2 → (laneAt u k.val l.val).lock = none))) := by
  refine answers_powered core (f := markerBlock k.val l.val pos m) rfl ?_
  rw [laneAt_markerBlock (s := s.fresh) trunk lane word]
  exact ⟨rfl, fun x free found => ⟨laneMarker_third ⟨free, found⟩, laneMarker_second ⟨free, found⟩⟩⟩

/-! ## Candidates (R175) -/

theorem answers_stitchWordMatch {k : SpanNo} {pos : Nat} (core : coreRuns s = true) (hunt : rxState s k.val = 2)
    (room : (s.trkAt k.val).cands.length < 4) : Answers (.stitchWordMatch k pos) s (fun u =>
      (u.trkAt k.val).cands = (s.trkAt k.val).cands ++ [{ pos := pos }] ∧ rxState u k.val = 2) := by
  have hunt' : ¬ rxState s.fresh k.val ≠ 2 := not_not.mpr hunt
  have room' : ¬ 4 ≤ (s.fresh.trkAt k.val).cands.length := Nat.not_le.mpr room
  refine answers_powered core (f := wordMatch k.val pos) rfl ?_
  unfold wordMatch
  dsimp only
  rw [if_neg hunt', if_neg room']
  refine ⟨?_, rxState_setRxState (by decide)⟩
  rw [(trunksStay_setRxState 2).trkAt, State.trkAt_setTrk_same]
  rfl

/-! ## Headers kept for their tag (R177) -/

/-- A header in LOCK is kept, and the alignment stays. -/
structure HeaderKept (n : Nat) (raw : Bytes) (s u : State) : Prop where
  header : (u.trkAt n).header = some raw
  cands : (u.trkAt n).cands = (s.trkAt n).cands
  lock : (u.trkAt n).lock = (s.trkAt n).lock
  badRun : (u.trkAt n).badRun = (s.trkAt n).badRun
  rx : rxState u n = rxState s n

theorem headerKept_keepHeader (raw : Bytes) : HeaderKept n raw s (keepHeader n raw s) := by
  have kept (a b : Nat) : HeaderKept n raw s
      (s.setTrk n { s.trkAt n with header := some raw, headStamp := a, headStamp0 := b }) := by
    constructor
    case rx => rfl
    all_goals rw [State.trkAt_setTrk_same]
  have ready (sa : Nat) (w : State) (h : HeaderKept n raw s w) : HeaderKept n raw s (openCellsReady n sa w) := by
    have at_ (x : TrunkState) (f : FabState) : ({ w.setTrk n x with fab := f } : State).trkAt n = x :=
      State.trkAt_setTrk_same ..
    unfold openCellsReady
    dsimp only
    constructor
    case rx => exact h.rx
    all_goals rw [at_]
    · exact h.header
    · exact h.cands
    · exact h.lock
    · exact h.badRun
  unfold keepHeader
  dsimp only
  split
  · split
    · exact ready _ _ (kept ..)
    · exact kept ..
  · exact kept ..

/-! ## Headers in HUNT (R175, R176) -/

section
variable {pos : Nat} {raw : Bytes} {c : Candidate} (good : headerGood raw = true)
  (span : beAt (maskHeader raw) 8 2 = (s.trkAt n).peerSpan)
  (found : (s.trkAt n).cands.find? (fun c => c.pos + (if c.good = 0 then 0 else 1027) == pos) = some c)
  (goesOn : continuous c (byteAt (maskHeader raw) 10 / 128) (beAt (maskHeader raw) 12 6) = true)
include good span found goesOn

/-- A candidate after one more good header at `pos`. -/
def confirmed (pos : Nat) (raw : Bytes) (c : Candidate) : Candidate :=
  { pos := pos, good := c.good + 1, ks := byteAt (maskHeader raw) 10 / 128, seq := beAt (maskHeader raw) 12 6 }

theorem huntHeader_locks (third : 2 ≤ c.good) : let u := huntHeader n pos raw s
    rxState u n = 3 ∧ (u.trkAt n).cands = [] ∧ (u.trkAt n).header = some raw ∧
    (u.trkAt n).lock = some (confirmed pos raw c) := by
  unfold huntHeader
  dsimp only
  rw [found]
  dsimp only
  rw [if_pos (by simp [good, span, goesOn]), if_pos third]
  have event (w : State) : TrunksShow w (trkEvent n 0 w) := trunksShow_trkEvent n 0
  generalize locked : trkCount n 0x78 1 _ = v
  have aligned : v.trkAt n = { s.trkAt n with
      cands := [], lock := some (confirmed pos raw c), badRun := 0, tagRun := 0 } := by
    rw [← locked, (trunksStay_trkCount ..).trkAt, State.trkAt_setTrk_same, confirmed]
  have shown : (trkEvent n 0 (setRxState n 3 v)).trkAt n = v.trkAt n := by
    rw [(event _).trkAt, (trunksStay_setRxState 3).trkAt]
  have kept := headerKept_keepHeader (n := n) (s := trkEvent n 0 (setRxState n 3 v)) raw
  refine ⟨?_, ?_, kept.header, ?_⟩
  · rw [kept.rx, (event _).rx, rxState_setRxState (by decide)]
  · rw [kept.cands, shown, aligned]
  · rw [kept.lock, shown, aligned]

theorem huntHeader_goesOn (early : c.good < 2) : let u := huntHeader n pos raw s
    rxState u n = 2 ∧
    (u.trkAt n).cands = (s.trkAt n).cands.map (fun d => if d == c then confirmed pos raw c else d) := by
  unfold huntHeader
  dsimp only
  rw [found]
  dsimp only
  rw [if_pos (by simp [good, span, goesOn]), if_neg (by omega)]
  refine ⟨rxState_setRxState (by decide), ?_⟩
  rw [(trunksStay_setRxState 2).trkAt, State.trkAt_setTrk_same]
  rfl

end

theorem headerCheck_hunt {pos : Nat} {raw : Bytes} (hunt : rxState s n = 2) :
    headerCheck n pos raw s = huntHeader n pos raw s := by
  unfold headerCheck
  rw [hunt]
  rfl

theorem headerCheck_lock {pos : Nat} {raw : Bytes} (lock : rxState s n = 3) :
    headerCheck n pos raw s = lockHeader n pos raw s := by
  unfold headerCheck
  rw [lock]
  rfl

/-! ## Headers in LOCK (R175, R177, R178) -/

/-- A stitch replaced leaves a gap to be released, and its header and tag are done with. -/
theorem trkAt_badHeader (raw : Bytes) : (badHeader n raw s).trkAt n = { s.trkAt n with
    release := (s.trkAt n).release ++ [none], header := none, openTag := none } := by
  have replaced (off : Nat) : (replaceStitch n off s).trkAt n = { s.trkAt n with
      release := (s.trkAt n).release ++ [none], header := none, openTag := none } := by
    unfold replaceStitch
    dsimp only
    rw [State.trkAt_setTrk_same, (trunksStay_trkCount ..).trkAt]
  unfold badHeader
  split
  · exact replaced _
  · rw [(trunksShow_trkEvent ..).trkAt, replaced]

/-- A header is good and names the peer's span. -/
def headerPasses (s : State) (n : Nat) (raw : Bytes) : Bool :=
  headerGood raw && beAt (maskHeader raw) 8 2 == (s.trkAt n).peerSpan

theorem headerPasses_iff {raw : Bytes} : headerPasses s n raw = true ↔
    headerGood raw = true ∧ beAt (maskHeader raw) 8 2 = (s.trkAt n).peerSpan := by
  rw [headerPasses, Bool.and_eq_true, beq_iff_eq]

/-- Span `n` with its lock moved on to the header at `pos`, after `run` bad headers in a row. -/
def lockMoved (n pos run : Nat) (c : Candidate) (s : State) : State :=
  s.setTrk n { s.trkAt n with lock := some { c with pos := pos }, badRun := run }

section
variable {pos : Nat} {raw : Bytes} {c : Candidate} (locked : (s.trkAt n).lock = some c) (expected : pos = c.pos + 1027)
include locked expected

theorem lockHeader_expected : lockHeader n pos raw s =
    let run := if headerPasses s n raw then 0 else (s.trkAt n).badRun + 1
    if 4 ≤ run then dropLock n 2 (badHeader n raw (lockMoved n pos run c s))
    else keepHeader n raw (lockMoved n pos run c s) := by
  unfold lockHeader
  dsimp only
  rw [locked]
  dsimp only
  rw [if_neg (not_not.mpr expected)]
  rfl

/-- A header that leaves fewer than four bad ones in a row is kept. -/
theorem lockHeader_keeps {run : Nat} (counted : (if headerPasses s n raw then 0 else (s.trkAt n).badRun + 1) = run)
    (few : run < 4) : let u := lockHeader n pos raw s
    (u.trkAt n).badRun = run ∧ (u.trkAt n).lock = some { c with pos := pos } ∧ (u.trkAt n).header = some raw := by
  rw [lockHeader_expected locked expected]
  dsimp only
  rw [counted, if_neg (by omega)]
  have kept := headerKept_keepHeader (n := n) (s := lockMoved n pos run c s) raw
  refine ⟨?_, ?_, kept.header⟩
  · rw [kept.badRun, lockMoved, State.trkAt_setTrk_same]
  · rw [kept.lock, lockMoved, State.trkAt_setTrk_same]

/-- The fourth bad header in a row loses the lock, and its stitch is replaced. -/
theorem lockHeader_loses (bad : headerPasses s n raw = false) (many : 3 ≤ (s.trkAt n).badRun) :
    let u := lockHeader n pos raw s
    rxState u n = 2 ∧ (u.trkAt n).lock = none ∧ (u.trkAt n).header = none ∧
    (u.trkAt n).release = (s.trkAt n).release ++ [none] := by
  rw [lockHeader_expected locked expected, bad]
  dsimp only
  rw [if_neg Bool.false_ne_true, if_pos (by omega), trkAt_dropLock, trkAt_badHeader, lockMoved, State.trkAt_setTrk_same,
    rxState_dropLock (by decide)]
  exact ⟨rfl, rfl, rfl, rfl⟩

end

end Sys2Proof.Machine
end

section
/-! SUPPORT. The open side of a trunk span: the tag of a stitch, and the stitch that passes every check. -/

namespace Sys2Proof.Machine

variable {s t u : State} {n : Nat}

/-! ## Markers and headers answered (R161, R175, R177) -/

theorem answers_markerLockLoss {k : SpanNo} {l : Fin 8} (core : coreRuns s = true) (trunk : patMode s k.val = .trunk)
    (lane : l.val < lineLanes s k.val) : Answers (.markerLockLoss k l) s (fun u => laneAt u k.val l.val = {}) :=
  answers_powered core (f := markerLoss k.val l.val) rfl (laneAt_markerLoss (s := s.fresh) trunk lane)

theorem answers_headerCheck_hunt {k : SpanNo} {pos : Nat} {h1 h2 : Block257} {errored : Bool} {P : State → Prop}
    (core : coreRuns s = true) (hunt : rxState s k.val = 2)
    (h : P (huntHeader k.val pos (headerOf h1 h2 errored) s.fresh)) :
    Answers (.stitchHeaderCheck k pos h1 h2 errored) s P := by
  refine answers_powered core (f := headerCheck k.val pos (headerOf h1 h2 errored)) rfl ?_
  rwa [headerCheck_hunt (s := s.fresh) hunt]

theorem answers_headerCheck_lock {k : SpanNo} {pos : Nat} {h1 h2 : Block257} {errored : Bool} {P : State → Prop}
    (core : coreRuns s = true) (lock : rxState s k.val = 3)
    (h : P (lockHeader k.val pos (headerOf h1 h2 errored) s.fresh)) :
    Answers (.stitchHeaderCheck k pos h1 h2 errored) s P := by
  refine answers_powered core (f := headerCheck k.val pos (headerOf h1 h2 errored)) rfl ?_
  rwa [headerCheck_lock (s := s.fresh) lock]

/-! ## A stitch delivered (R177 to R179) -/

/-- Where the span corrects nothing, the blocks of a payload wait for their release as they came. -/
theorem openBlocks_uncorrected (p : Bytes) (off : tcMode s n = 0) : (openBlocks n p s).trkAt n =
    { s.trkAt n with release := (s.trkAt n).release ++ [some (blocksOfPayload p)] } := by
  have appended (bs : List Block66) (acc : List Block66 × State) :
      bs.foldl (fun acc b => (acc.1 ++ [b], acc.2)) acc = (acc.1 ++ bs, acc.2) := by
    induction bs generalizing acc with
    | nil => rw [List.foldl_nil, List.append_nil]
    | cons b bs ih => rw [List.foldl_cons, ih, List.append_assoc, List.singleton_append]
  have kept : s.drawn.trkAt n = s.trkAt n := rfl
  unfold openBlocks
  simp only [off, ne_eq, not_true_eq_false, false_and, if_false, appended, List.take_left, List.drop_left, kept]
  split
  case h_1 bs last =>
    rw [State.trkAt_setTrk_same]
    obtain ⟨l, shown⟩ := List.getLast?_eq_some_iff.mp last
    rw [shown, List.dropLast_concat, List.append_assoc]
    rfl
  case h_2 last =>
    rw [State.trkAt_setTrk_same]
  case h_3 last =>
    rw [State.trkAt_setTrk_same, List.getLast?_eq_none_iff.mp last]
    rfl

/-- What span `n` shows of a stitch delivered from slot `ks` with `seq` and payload `p`. -/
structure Delivered (n ks seq : Nat) (p : Bytes) (s u : State) : Prop where
  lastSlot : (u.trkAt n).lastSlot = some ks
  header : (u.trkAt n).header = none
  tagRun : (u.trkAt n).tagRun = 0
  release : tcMode s n = 0 → (u.trkAt n).release = (s.trkAt n).release ++ [some (blocksOfPayload p)]
  seqLo : u.rd (Reg.FRM_TRK_SEQ_LO n) = seq % 2 ^ 32
  seqHi : u.rd (Reg.FRM_TRK_SEQ_HI n) = seq / 2 ^ 32

theorem Delivered.shows {ks seq : Nat} {p : Bytes} (h : Delivered n ks seq p s t) (k : TrunksShow t u) :
    Delivered n ks seq p s u := by
  constructor
  case seqLo => rw [k.seqLo, h.seqLo]
  case seqHi => rw [k.seqHi, h.seqHi]
  all_goals rw [k.trkAt]
  · exact h.lastSlot
  · exact h.header
  · exact h.tagRun
  · exact h.release

theorem Delivered.from {ks seq : Nat} {p : Bytes} (h : Delivered n ks seq p t u) (k : TrunksStay s t) :
    Delivered n ks seq p s u where
  lastSlot := h.lastSlot
  header := h.header
  tagRun := h.tagRun
  release off := by rw [h.release (by rw [k.tcMode, off]), k.trkAt]
  seqLo := h.seqLo
  seqHi := h.seqHi

/-- The slot and SEQ of a stitch are shown (R179). -/
def seqShown (n ks seq : Nat) (s : State) : State :=
  ((s.wr (Reg.FRM_TRK_SEQ_LO n) (seq % 2 ^ 32)).wr (Reg.FRM_TRK_SEQ_HI n) (seq / 2 ^ 32)).setBit
    (Reg.FRM_TRK_STATUS n) 6 (ks == 1)

theorem seqShown_seqLo (ks seq : Nat) : (seqShown n ks seq s).rd (Reg.FRM_TRK_SEQ_LO n) = seq % 2 ^ 32 := by
  rw [seqShown, State.rd_setBit_ne _ _ _ (by unfold Reg.FRM_TRK_SEQ_LO Reg.FRM_TRK_STATUS; omega),
    State.rd_wr_ne _ _ (by unfold Reg.FRM_TRK_SEQ_LO Reg.FRM_TRK_SEQ_HI; omega), State.rd_wr_same, Nat.mod_mod]

theorem seqShown_seqHi (ks : Nat) {seq : Nat} (h : seq < 2 ^ 48) :
    (seqShown n ks seq s).rd (Reg.FRM_TRK_SEQ_HI n) = seq / 2 ^ 32 := by
  rw [seqShown, State.rd_setBit_ne _ _ _ (by unfold Reg.FRM_TRK_SEQ_HI Reg.FRM_TRK_STATUS; omega), State.rd_wr_same,
    Nat.mod_eq_of_lt (by omega)]

theorem trunksStay_seqShown (ks seq : Nat) : TrunksStay s (seqShown n ks seq s) := ⟨rfl, rfl⟩

/-- Once the blocks wait, the slot is noted, the header and tag are done with, and the registers show the stitch. -/
theorem delivered_shown {ks seq : Nat} {p : Bytes} {w v : State} (short : seq < 2 ^ 48)
    (noted : TrunksStay (openBlocks n p w) v) :
    Delivered n ks seq p w (seqShown n ks seq (v.setTrk n { v.trkAt n with
      lastSlot := some ks, tagRun := 0, header := none, openTag := none })) := by
  constructor
  case seqLo => exact seqShown_seqLo ..
  case seqHi => exact seqShown_seqHi _ short
  all_goals rw [(trunksStay_seqShown ..).trkAt, State.trkAt_setTrk_same]
  · intro off
    rw [noted.trkAt, openBlocks_uncorrected p off]

/-- Association, counters and defects as the stitch of slot `ks` with `seq` leaves them, before its blocks wait. -/
def stitchVerified (n ks seq : Nat) (s : State) : State :=
  let i := (s.trkAt n).boundRx.getD 0
  let a := s.saAt (scSa (s.scAt true i) ks)
  let jump := decide (a.pn < seq)
  let s := trkCount n 0x40 1 (rxVerified i (scSa (s.scAt true i) ks) a.gen seq s)
  let s := if jump then trkEvent n 3 (trkCount n 0x68 1 s) else s
  rawDefect (spanLine s n) 9 jump s

theorem trunksStay_stitchVerified (ks seq : Nat) : TrunksStay s (stitchVerified n ks seq s) := by
  have jumped (c : Bool) (w : State) : TrunksStay w (if c then trkEvent n 3 (trkCount n 0x68 1 w) else w) :=
    ((trunksShow_trkCount ..).trans (trunksShow_trkEvent ..)).toTrunksStay.ite (.refl w)
  exact ((trunksStay_rxVerified ..).trans (trunksStay_trkCount ..)).trans <|
    (jumped ..).trans (trunksStay_rawDefect ..)

theorem delivered_deliverStitch {ks seq : Nat} (cinch : Bool) (p : Bytes) (short : seq < 2 ^ 48) :
    Delivered n ks seq p s (deliverStitch n ks seq cinch p s) := by
  have noted (c : Prop) [Decidable c] (v : State) (x y : Nat) : TrunksStay v (if c then v else
      (v.wr (Reg.FRM_TRK_LASTSW n) x).wr (Reg.FRM_TRK_LASTSW_T n) y) :=
    .ite (.refl v) ((trunksStay_wr ..).trans (trunksStay_wr ..))
  exact (delivered_shown (w := stitchVerified n ks seq s) short (noted ..)).from (trunksStay_stitchVerified ks seq)

/-! ## The tag check (R177, R178) -/

theorem trunksStay_openRecord (seq : Nat) (fail : Bool) (tag raw : Bytes) (sa : Nat) :
    TrunksStay s (openRecord n seq fail tag raw sa s) := by
  have recordedIn (c : Bool) (r : Bytes) : TrunksStay s (if c then evrQueue r s else s) :=
    (trunksStay_evrQueue r).ite (.refl s)
  unfold openRecord
  dsimp only
  exact (recordedIn ..).trans (.ite (trunksStay_traceAdd ..) (.refl _))

/-- A tag check begins: the defects of the tag and of SEQ are cleared. -/
def defectsCleared (n : Nat) (s : State) : State :=
  rawDefect (spanLine s n) 9 false (rawDefect (spanLine s n) 10 false s)

theorem regsDiffer_rawDefect (p b : Nat) (v : Bool) : RegsDiffer s (rawDefect p b v s) := regsDiffer_setBit ..

theorem regsDiffer_setRdi (b : Bool) : RegsDiffer s (setRdi n b s) :=
  (regsDiffer_setBit ..).trans (regsDiffer_rawDefect ..)

theorem headerFails_eq (raw : Bytes) :
    (!headerGood raw || beAt (maskHeader raw) 8 2 != (s.trkAt n).peerSpan) = !headerPasses s n raw := by
  rw [headerPasses, Bool.not_and]
  rfl

section
variable {raw body : Bytes} (lock : rxState s n = 3) (done : (s.trkAt n).openCells = 0)
  (kept : (s.trkAt n).header = some raw)
include lock done kept

theorem stitchTagCheck_bad (bad : headerPasses s n raw = false) :
    stitchTagCheck n body s = syncPorts (badHeader n raw (defectsCleared n s)) := by
  have failed : (!headerGood raw || beAt (maskHeader raw) 8 2 != (s.trkAt n).peerSpan) = true := by
    rw [headerFails_eq, bad, Bool.not_false]
  unfold stitchTagCheck
  dsimp only
  rw [kept]
  dsimp only
  rw [if_neg (by simp [lock, done]), if_pos failed]
  rfl

/-- A stitch whose header is bad is replaced. -/
theorem stitchTagCheck_replaces (bad : headerPasses s n raw = false) : let u := stitchTagCheck n body s
    (u.trkAt n).release = (s.trkAt n).release ++ [none] ∧ (u.trkAt n).header = none := by
  dsimp only
  rw [stitchTagCheck_bad lock done kept bad, trunksShow_syncPorts.trkAt, trkAt_badHeader,
    ((trunksStay_rawDefect ..).trans (trunksStay_rawDefect ..) : TrunksStay s (defectsCleared n s)).trkAt]
  exact ⟨rfl, rfl⟩

/-- A stitch passes check 5 of R177: its cells all came back right, and its tag is that of its text. -/
theorem stitchTagCheck_delivers {sa : Nat} (good : headerPasses s n raw = true)
    (live : stitchSa s n (byteAt (maskHeader raw) 10 / 128) = some sa)
    (fresh : (s.saAt sa).pn ≤ beAt (maskHeader raw) 12 6) (whole : (s.trkAt n).openFailed = false)
    (opened : (s.trkAt n).openTag ≠ none) (right : (s.trkAt n).openWrong = [])
    (tagged : (gcmOpen (s.saAt sa).key (stitchIv (s.saAt sa).salt (s.trkAt n).peerSpan (beAt (maskHeader raw) 12 6))
      (maskHeader raw) (body.take 32896) (slice body 32896 16)).2 = true) :
    Delivered n (byteAt (maskHeader raw) 10 / 128) (beAt (maskHeader raw) 12 6)
      (gcmOpen (s.saAt sa).key (stitchIv (s.saAt sa).salt (s.trkAt n).peerSpan (beAt (maskHeader raw) 12 6))
        (maskHeader raw) (body.take 32896) (slice body 32896 16)).1 s (stitchTagCheck n body s) := by
  have passed : ¬(!headerGood raw || beAt (maskHeader raw) 8 2 != (s.trkAt n).peerSpan) = true := by
    rw [headerFails_eq, good]
    decide
  unfold stitchTagCheck
  dsimp only
  rw [kept]
  dsimp only
  rw [if_neg (by simp [lock, done]), if_neg passed]
  have regs : RegsDiffer s (setRdi n (Nat.testBit (byteAt (maskHeader raw) 10) 6) (defectsCleared n s)) :=
    ((regsDiffer_rawDefect ..).trans (regsDiffer_rawDefect ..)).trans (regsDiffer_setRdi _)
  rw [defectsCleared] at regs
  generalize setRdi n _ _ = w at regs ⊢
  have found : stitchSa w n (byteAt (maskHeader raw) 10 / 128) = some sa := by
    obtain ⟨r, rfl⟩ := regs
    exact live
  have same : w.saAt sa = s.saAt sa := by
    obtain ⟨r, rfl⟩ := regs
    rfl
  have stays : TrunksStay s w := by
    obtain ⟨r, rfl⟩ := regs
    exact ⟨rfl, rfl⟩
  rw [found]
  dsimp only
  rw [same, if_neg (Nat.not_lt.mpr fresh), right, miscells, List.foldl_nil, whole, Option.isSome_iff_ne_none.mpr opened]
  rw [List.isEmpty_nil, if_pos rfl, tagged]
  refine ((delivered_deliverStitch _ _ (beAt_lt ..)).from ?_).shows trunksShow_syncPorts
  exact stays.trans (trunksStay_openRecord ..)

end

/-! ## The statement -/

/-- Settles O30: what a marker, a stitch word, a header or a tag leaves of its span is read through the raw defects,
ports and islands that follow, none of which shows in the span or in the registers of its receiver. -/
theorem trunkOpenSideRuns : Obligations.TrunkOpenSideRuns := by
  unfold Obligations.TrunkOpenSideRuns
  intro s n core
  refine ⟨fun l pos m trunk lane => ⟨answers_markerBlock core trunk lane, answers_markerLockLoss core trunk lane⟩,
    fun pos hunt room => answers_stitchWordMatch core hunt room, ?hunt, ?lock, ?tag⟩
  case hunt =>
    intro pos h1 h2 errored c raw hunt good span found goesOn
    refine ⟨fun third => answers_headerCheck_hunt core hunt ?_, fun early => answers_headerCheck_hunt core hunt ?_⟩
    · obtain ⟨rx, cands, header, lock⟩ := huntHeader_locks (s := s.fresh) good span found goesOn third
      exact ⟨rx, cands, header, _, lock, rfl, rfl⟩
    · exact huntHeader_goesOn (s := s.fresh) good span found goesOn early
  case lock =>
    intro pos h1 h2 errored c raw good lock locked expected
    refine ⟨fun passes => answers_headerCheck_lock core lock ?_, fun bad few => answers_headerCheck_lock core lock ?_,
      fun bad many => answers_headerCheck_lock core lock ?_⟩
    · exact lockHeader_keeps (s := s.fresh) locked expected (if_pos (headerPasses_iff.mpr passes)) (by decide)
    · obtain ⟨run, moved, header⟩ :=
        lockHeader_keeps (s := s.fresh) locked expected (if_neg (mt headerPasses_iff.mp bad)) (Nat.succ_lt_succ few)
      exact ⟨run, header, moved⟩
    · exact lockHeader_loses (s := s.fresh) locked expected (Bool.eq_false_iff.mpr (mt headerPasses_iff.mp bad)) many
  case tag =>
    intro raw body lock done kept
    refine ⟨fun bad => ?_, fun sa => ?_⟩
    · refine answers_powered core (f := stitchTagCheck n.val body) rfl ?_
      exact stitchTagCheck_replaces (s := s.fresh) lock done kept (by rw [headerPasses, bad, Bool.false_and])
    · intro h a seq good span live fresh whole opened right tagged
      refine answers_powered core (f := stitchTagCheck n.val body) rfl ?_
      obtain ⟨slot, header, run, release, lo, hi⟩ := stitchTagCheck_delivers (s := s.fresh) lock done kept
        (headerPasses_iff.mpr ⟨good, span⟩) live fresh whole opened right tagged
      exact ⟨slot, header, run, release, lo, hi⟩

end Sys2Proof.Machine
end

section
/-! SUPPORT. Secure channels and associations: what is read of an entry after each write, and what an event, an emptied
slot or a requested fill leaves alone (R187 to R200). -/

namespace Sys2Proof.Machine

variable {s t u : State} {l m : List Nat}

/-! ## Entries after writes -/

theorem saAt_of_sec (h : t.sec = s.sec) (k : Nat) : t.saAt k = s.saAt k := by rw [State.saAt, h, State.saAt]

theorem scAt_of_sec (h : t.sec = s.sec) (rx : Bool) (j : Nat) : t.scAt rx j = s.scAt rx j := by
  rw [State.scAt, h, State.scAt]

theorem saAt_setSa (sa k : Nat) (a : SaEntry) : (s.setSa sa a).saAt k = if k = sa then a else s.saAt k :=
  Tbl.get_set ..

theorem saAt_setSa_ne {sa k : Nat} (a : SaEntry) (h : k ≠ sa) : (s.setSa sa a).saAt k = s.saAt k :=
  Tbl.get_set_ne _ _ _ h

@[simp] theorem scAt_setSa (sa : Nat) (a : SaEntry) (rx : Bool) (j : Nat) : (s.setSa sa a).scAt rx j = s.scAt rx j := rfl

@[simp] theorem saAt_setSc (rx : Bool) (i : Nat) (e : ScEntry) (k : Nat) : (s.setSc rx i e).saAt k = s.saAt k := by
  cases rx <;> rfl

@[simp] theorem scAt_setSc_same (rx : Bool) (i : Nat) (e : ScEntry) : (s.setSc rx i e).scAt rx i = e := by
  cases rx <;> exact Tbl.get_set_same ..

theorem scAt_setSc_ne {rx ry : Bool} {i j : Nat} (e : ScEntry) (h : (ry, j) ≠ (rx, i)) :
    (s.setSc rx i e).scAt ry j = s.scAt ry j := by
  cases rx <;> cases ry
  case false.true => rfl
  case true.false => rfl
  all_goals exact Tbl.get_set_ne _ _ _ (by simpa using h)

theorem setSc_eq (rx : Bool) (i : Nat) (e : ScEntry) : ∃ x y, s.setSc rx i e =
    { s with sec := { s.sec with tx := x, rx := y } } := by
  cases rx
  · exact ⟨_, s.sec.rx, rfl⟩
  · exact ⟨s.sec.tx, _, rfl⟩

theorem nextReady_congr (h : ∀ k, t.saAt k = s.saAt k) (e : ScEntry) : nextReady t e = nextReady s e := by
  rw [nextReady, h, nextReady]

/-! ## Registers outside the host interface -/

theorem CoreRegsBut.refl (l : List Nat) (s : State) : CoreRegsBut l s s := fun _ _ _ => rfl

theorem CoreRegsBut.trans (h : CoreRegsBut l s t) (k : CoreRegsBut l t u) : CoreRegsBut l s u := fun a hi ha =>
  (k a hi ha).trans (h a hi ha)

theorem CoreRegsBut.mono (h : CoreRegsBut l s t) (sub : l ⊆ m) : CoreRegsBut m s t := fun a hi ha =>
  h a hi fun x => ha (sub x)

theorem coreRegsBut_of_regs (h : t.regs = s.regs) : CoreRegsBut l s t := fun a _ _ => State.rd_of_regs h a

theorem OnlyHost.mono (h : OnlyHost l s t) (sub : l ⊆ m) : OnlyHost m s t := ⟨CoreRegsBut.mono h.1 sub, h.2⟩

theorem OnlyHost.sec (h : OnlyHost l s t) : t.sec = s.sec := by rw [h.2]

theorem onlyHost_wr_mem {a : Nat} (v : Nat) (h : a ∈ l) : OnlyHost l s (s.wr a v) :=
  ⟨fun _ _ hb => State.rd_wr_ne s v (ne_of_mem_of_not_mem h hb).symm, rfl⟩

/-! ## What an event leaves of the KEYQ operation that runs -/

/-- The KEYQ operation that runs, if one does, goes on. -/
structure KqGoesOn (s u : State) : Prop where
  run : u.hif.kqRun = s.hif.kqRun

theorem KqGoesOn.refl (s : State) : KqGoesOn s s := ⟨rfl⟩

theorem KqGoesOn.trans (h : KqGoesOn s t) (k : KqGoesOn t u) : KqGoesOn s u := ⟨k.run.trans h.run⟩

theorem KqGoesOn.ite {c : Prop} [Decidable c] (h : KqGoesOn s t) (k : KqGoesOn s u) :
    KqGoesOn s (if c then t else u) := by
  split
  · exact h
  · exact k

theorem kqGoesOn_hif {f : HostIf} (h : f.kqRun = s.hif.kqRun) : KqGoesOn s { s with hif := f } := ⟨h⟩

theorem kqGoesOn_wr (a v : Nat) : KqGoesOn s (s.wr a v) := ⟨rfl⟩

theorem kqGoesOn_emit (o : Output) : KqGoesOn s (s.emit o) := ⟨rfl⟩

theorem kqGoesOn_sendVector (v : Nat) : KqGoesOn s (sendVector v s) :=
  (kqGoesOn_emit _).ite (kqGoesOn_wr ..)

theorem kqGoesOn_moderated (v : Nat) (off held : Bool) (single : Prop) [Decidable single] {dirty started : HostIf}
    (hd : dirty.kqRun = s.hif.kqRun) (hs : started.kqRun = (sendVector v s).hif.kqRun) :
    KqGoesOn s (if off then s else if held then { s with hif := dirty }
      else if single then sendVector v s else { sendVector v s with hif := started }) :=
  (KqGoesOn.refl s).ite <| (kqGoesOn_hif hd).ite <|
    (kqGoesOn_sendVector v).ite ((kqGoesOn_sendVector v).trans (kqGoesOn_hif hs))

theorem kqGoesOn_raiseVector (v : Nat) : KqGoesOn s (raiseVector v s) :=
  (kqGoesOn_moderated 1 _ _ _ (by rfl) (by rfl)).ite
    ((kqGoesOn_moderated 2 _ _ _ (by rfl) (by rfl)).ite (kqGoesOn_sendVector v))

theorem kqGoesOn_eqWrite (src kind p0 p1 p2 p3 : Nat) : KqGoesOn s (eqWrite src kind p0 p1 p2 p3 s) := ⟨rfl⟩

theorem kqGoesOn_evqPost (src kind p0 p1 p2 p3 : Nat) : KqGoesOn s (evqPost src kind p0 p1 p2 p3 s) := by
  have lost (w : State) : KqGoesOn w (eqLose w) := KqGoesOn.ite ⟨rfl⟩ ⟨rfl⟩
  have overflow : KqGoesOn s (eqOverflow s) := by
    unfold eqOverflow
    exact (kqGoesOn_eqWrite ..).ite (.refl s)
  exact overflow.trans <| ((kqGoesOn_eqWrite ..).ite (lost _)).trans (kqGoesOn_raiseVector 1)

theorem kqGoesOn_evqPostLimited (key src kind p0 p1 p2 p3 : Nat) :
    KqGoesOn s (evqPostLimited key src kind p0 p1 p2 p3 s) :=
  ((kqGoesOn_evqPost ..).trans (kqGoesOn_hif (by rfl))).ite (.refl s)

theorem kqGoesOn_setOwed (key : Nat) (o : Option OwedEvent) : KqGoesOn s (setOwed key o s) := kqGoesOn_hif rfl

theorem kqGoesOn_postOwed (key : Nat) : KqGoesOn s (postOwed key s) := by
  unfold postOwed
  split
  case h_1 => exact .refl s
  case h_2 o _ =>
    have post : ∀ v src kind p0 p1 p2 p3,
        KqGoesOn v (evqPostLimited key src kind p0 p1 p2 p3 (setOwed key none v)) := fun _ _ _ _ _ _ _ =>
      (kqGoesOn_setOwed key none).trans (kqGoesOn_evqPostLimited ..)
    refine (kqGoesOn_setOwed ..).ite <| (KqGoesOn.refl s).ite ?_
    refine .trans (.ite ?vector (.refl s)) ((post ..).ite (.refl _))
    exact (kqGoesOn_raiseVector 6).trans (kqGoesOn_setOwed ..)

theorem kqGoesOn_raiseEvent (src b p3 : Nat) : KqGoesOn s (raiseEvent src b p3 s) :=
  (kqGoesOn_wr ..).trans ((kqGoesOn_setOwed ..).trans (kqGoesOn_postOwed _))

/-! ## Operations on associations and channels -/

/-- Beside the registers named, the registers and the state of the host interface, the channels with their associations
and an ALARM that is due, nothing differs, and the KEYQ operation that runs goes on. -/
structure SecOnly (l : List Nat) (s u : State) : Prop where
  regs : CoreRegsBut l s u
  rest : u = { s with regs := u.regs, hif := u.hif, sec := u.sec, chn := u.chn, out := u.out }
  run : KqGoesOn s u

theorem SecOnly.refl (l : List Nat) (s : State) : SecOnly l s s := ⟨.refl l s, rfl, .refl s⟩

theorem SecOnly.trans (h : SecOnly l s t) (k : SecOnly l t u) : SecOnly l s u where
  regs := h.regs.trans k.regs
  rest := k.rest.trans (by rw [h.rest])
  run := h.run.trans k.run

theorem SecOnly.ite {c : Prop} [Decidable c] (h : SecOnly l s t) (k : SecOnly l s u) :
    SecOnly l s (if c then t else u) := by
  split
  · exact h
  · exact k

theorem SecOnly.mono (h : SecOnly l s t) (sub : l ⊆ m) : SecOnly m s t := ⟨h.regs.mono sub, h.rest, h.run⟩

theorem SecOnly.key (h : SecOnly l s t) : t.key = s.key := by rw [h.rest]

theorem SecOnly.rd (h : SecOnly l s t) {a : Nat} (hi : hostIfReg a = false) (ha : a ∉ l) : t.rd a = s.rd a :=
  h.regs a hi ha

theorem SecOnly.bit (h : SecOnly l s t) {a : Nat} (n : Nat) (hi : hostIfReg a = false) (ha : a ∉ l) :
    t.bit a n = s.bit a n := by rw [State.bit, h.rd hi ha, State.bit]

theorem OnlyHost.secOnly (h : OnlyHost l s t) (k : KqGoesOn s t) : SecOnly l s t :=
  ⟨h.1, h.2.trans (by rw [h.2]), k⟩

theorem secOnly_wr {a : Nat} (v : Nat) (h : a ∈ l) : SecOnly l s (s.wr a v) := ⟨(onlyHost_wr_mem v h).1, rfl, kqGoesOn_wr ..⟩

theorem secOnly_sec (x : SecState) : SecOnly l s { s with sec := x } := ⟨coreRegsBut_of_regs rfl, rfl, ⟨rfl⟩⟩

theorem secOnly_setSa (sa : Nat) (a : SaEntry) : SecOnly l s (s.setSa sa a) := secOnly_sec _

theorem secOnly_setSc (rx : Bool) (i : Nat) (e : ScEntry) : SecOnly l s (s.setSc rx i e) := by
  obtain ⟨x, y, h⟩ := setSc_eq (s := s) rx i e
  rw [h]
  exact secOnly_sec _

/-! ## Events (R149, R221, R222) -/

theorem onlyHost_raiseEvent {src : Nat} (b p3 : Nat) (h : (eventRegs src).1 ∈ l) : OnlyHost l s (raiseEvent src b p3 s) :=
  (onlyHost_wr_mem _ h).trans (posts_raiseEvent src b p3).onlyHost

theorem onlyHost_secEvent (b i : Nat) (rx : Bool) : OnlyHost [Reg.SEC_LAST, Reg.SEC_EVT] s (secEvent b i rx s) :=
  (onlyHost_wr_mem _ (by decide)).trans (onlyHost_raiseEvent (src := 5) b 0 (by decide))

theorem secOnly_secEvent (b i : Nat) (rx : Bool) : SecOnly [Reg.SEC_LAST, Reg.SEC_EVT] s (secEvent b i rx s) :=
  (onlyHost_secEvent b i rx).secOnly ((kqGoesOn_wr ..).trans (kqGoesOn_raiseEvent ..))

@[simp] theorem secEvent_sec (b i : Nat) (rx : Bool) : (secEvent b i rx s).sec = s.sec := (onlyHost_secEvent b i rx).sec

/-- An event sets its bit and clears none. -/
theorem secEvent_bit {b : Nat} (i : Nat) (rx : Bool) (hb : b < 32) {n : Nat} (h : n = b ∨ s.bit Reg.SEC_EVT n = true) :
    (secEvent b i rx s).bit Reg.SEC_EVT n = true := by
  have posts := posts_raiseEvent (s := s.wr Reg.SEC_LAST (i + 2 ^ 15 * b2n rx + 2 ^ 16 * b + 2 ^ 31)) 5 b 0
  refine (congrArg (Nat.testBit · n) (posts.regs Reg.SEC_EVT (by decide))).trans ?_
  rcases h with rfl | h
  · exact State.bit_setBit_same _ _ _ _ hb
  · exact State.bit_setBit_true _ hb ((State.bit_wr_ne _ _ _ (by decide)).trans h)

theorem keeperAlarm_secOnly (bits : Nat) : SecOnly [Reg.KPR_ALARM] s (keeperAlarm bits s) := by
  have raised (v : Nat) : SecOnly [Reg.KPR_ALARM] s (raiseVector 4 (s.wr Reg.KPR_ALARM v)) :=
    (secOnly_wr v (by decide)).trans ((onlyHost_raiseVector 4).secOnly (kqGoesOn_raiseVector 4))
  have noted (new : Nat) (w : State) (x : ChnState) : SecOnly [Reg.KPR_ALARM] w
      { evqPostLimited (256 * 0x0E) 0x0E 0 new (w.rd Reg.KPR_ALARM) 0 0 w with chn := x } :=
    ((posts_evqPostLimited ..).onlyHost.secOnly (kqGoesOn_evqPostLimited ..)).trans ⟨coreRegsBut_of_regs rfl, rfl, ⟨rfl⟩⟩
  have emits (w : State) (o : Output) : SecOnly [Reg.KPR_ALARM] w (w.emit o) := ⟨coreRegsBut_of_regs rfl, rfl, ⟨rfl⟩⟩
  unfold keeperAlarm
  dsimp only
  split
  · exact .refl _ s
  · exact (((raised _).trans (noted ..)).trans (emits ..)).ite ((raised _).trans (noted ..))

theorem keeperAlarm_sec (bits : Nat) : (keeperAlarm bits s).sec = s.sec := by
  have noted (new p : Nat) (w : State) : (evqPostLimited (256 * 0x0E) 0x0E 0 new p 0 0 w).sec = w.sec := by
    rw [(posts_evqPostLimited ..).rest]
  have raised (w : State) : (raiseVector 4 w).sec = w.sec := by rw [(posts_raiseVector 4).rest]
  unfold keeperAlarm
  dsimp only
  split
  · rfl
  split
  · exact (noted ..).trans (raised _)
  · exact (noted ..).trans (raised _)

/-! ## Slots emptied (R205, R207, R220) -/

/-- What is left of an association in a slot that is emptied. -/
def emptied (a : SaEntry) : SaEntry :=
  { a with state := .empty, ready := false, key := [], salt := [], ssci := 0, orphan := false, journalling := none,
           bound := 0 }

theorem emptied_emptied (a : SaEntry) : emptied (emptied a) = emptied a := rfl

/-- The registers that emptying a slot writes. -/
def emptyRegs : List Nat := [Reg.SEC_LAST, Reg.SEC_EVT, Reg.SEC_ORPHAN_CLEARS]

theorem secOnly_countOrphan (sa : Nat) : SecOnly emptyRegs s (countOrphan sa s) := by
  have counted : SecOnly emptyRegs s (s.bump Reg.SEC_ORPHAN_CLEARS) := secOnly_wr _ (by decide)
  unfold countOrphan
  dsimp only
  split
  · split
    · exact counted.trans ((secOnly_secEvent ..).mono (by decide))
    · exact counted
  · exact .refl _ s

theorem countOrphan_sec (sa : Nat) : (countOrphan sa s).sec = s.sec := by
  unfold countOrphan
  dsimp only
  split
  · split
    · exact secEvent_sec ..
    · rfl
  · rfl

/-- An orphan is counted (R220). -/
theorem countOrphan_rd {sa : Nat} (h : (s.saAt sa).orphan = true) :
    (countOrphan sa s).rd Reg.SEC_ORPHAN_CLEARS = min (s.rd Reg.SEC_ORPHAN_CLEARS + 1) 0xFFFFFFFF := by
  unfold countOrphan
  dsimp only
  rw [if_pos h]
  split
  · rw [(secOnly_secEvent ..).rd (by decide) (by decide), State.rd_bump_same]
  · exact State.rd_bump_same ..

theorem countOrphan_bit {sa n : Nat} (h : s.bit Reg.SEC_EVT n = true) : (countOrphan sa s).bit Reg.SEC_EVT n = true := by
  have counted : (s.bump Reg.SEC_ORPHAN_CLEARS).bit Reg.SEC_EVT n = true := (State.bit_wr_ne s _ n (by decide)).trans h
  unfold countOrphan
  dsimp only
  split
  · split
    · exact secEvent_bit _ _ (by decide) (.inr counted)
    · exact counted
  · exact h

theorem secOnly_emptySlot (sa : Nat) : SecOnly emptyRegs s (emptySlot sa s) :=
  (secOnly_countOrphan sa).trans ((secOnly_setSa ..).trans (secOnly_sec _))

theorem saAt_emptySlot (sa k : Nat) : (emptySlot sa s).saAt k = if k = sa then emptied (s.saAt sa) else s.saAt k := by
  have counted := saAt_of_sec (countOrphan_sec (s := s) sa)
  refine (saAt_setSa ..).trans ?_
  rw [counted, counted]
  rfl

theorem saAt_emptySlot_same (sa : Nat) : (emptySlot sa s).saAt sa = emptied (s.saAt sa) := by
  rw [saAt_emptySlot, if_pos rfl]

@[simp] theorem scAt_emptySlot (sa : Nat) (rx : Bool) (j : Nat) : (emptySlot sa s).scAt rx j = s.scAt rx j :=
  scAt_of_sec (countOrphan_sec sa) rx j

theorem emptySlot_orphanCount {sa : Nat} (h : (s.saAt sa).orphan = true) :
    (emptySlot sa s).rd Reg.SEC_ORPHAN_CLEARS = min (s.rd Reg.SEC_ORPHAN_CLEARS + 1) 0xFFFFFFFF := countOrphan_rd h

theorem emptySlot_bit {sa n : Nat} (h : s.bit Reg.SEC_EVT n = true) : (emptySlot sa s).bit Reg.SEC_EVT n = true :=
  countOrphan_bit h

/-! ## Slots filled (R199, R200) -/

/-- An association whose fill is requested. -/
def requested (f : FillReq) (s : State) : SaEntry :=
  { s.saAt f.sa with
    state := .filling, ready := false, epoch := f.epoch, derived := f.delivered.isNone, orphan := false,
    parent := scParent (s.scAt f.rx f.sc), cipher := nextCipher (s.scAt f.rx f.sc), bound := 0, gen := s.sec.nextGen,
    former := ((s.saAt f.sa).gen, (s.saAt f.sa).pn) }

theorem saAt_requestFill (f : FillReq) (k : Nat) :
    (requestFill f s).saAt k = if k = f.sa then requested f s else s.saAt k := saAt_setSa ..

@[simp] theorem scAt_requestFill (f : FillReq) (rx : Bool) (j : Nat) : (requestFill f s).scAt rx j = s.scAt rx j := rfl

theorem requestFill_regs (f : FillReq) : (requestFill f s).regs = s.regs := rfl

theorem secOnly_requestFill (f : FillReq) : SecOnly [] s (requestFill f s) := (secOnly_setSa ..).trans (secOnly_sec _)

/-- A refill requests the fill of one slot, which is empty, or does nothing. -/
theorem refill_cases (rx : Bool) (i : Nat) (s : State) :
    refill rx i s = s ∨ ∃ f, (s.saAt f.sa).state = .empty ∧ refill rx i s = requestFill f s := by
  unfold refill
  dsimp only
  split
  · exact .inl rfl
  next k _ =>
    split
    next due =>
      simp only [Bool.and_eq_true, beq_iff_eq] at due
      obtain ⟨⟨⟨-, empty⟩, -⟩, -⟩ := due
      exact .inr ⟨⟨scSa (s.scAt rx i) k, i, rx, (s.scAt rx i).epoch + 1, none, false, 0⟩, empty, rfl⟩
    · exact .inl rfl

theorem refill_regs (rx : Bool) (i : Nat) : (refill rx i s).regs = s.regs := by
  rcases refill_cases rx i s with h | ⟨f, -, h⟩ <;> rw [h]
  exact requestFill_regs f

theorem secOnly_refill (rx : Bool) (i : Nat) : SecOnly [] s (refill rx i s) := by
  rcases refill_cases rx i s with h | ⟨f, -, h⟩ <;> rw [h]
  · exact .refl _ s
  · exact secOnly_requestFill f

@[simp] theorem scAt_refill (rx : Bool) (i : Nat) (ry : Bool) (j : Nat) : (refill rx i s).scAt ry j = s.scAt ry j := by
  rcases refill_cases rx i s with h | ⟨f, -, h⟩ <;> rw [h]
  exact scAt_requestFill ..

/-- A slot that holds an association is not refilled. -/
theorem saAt_refill_held (rx : Bool) (i : Nat) {k : Nat} (h : (s.saAt k).state ≠ .empty) :
    (refill rx i s).saAt k = s.saAt k := by
  rcases refill_cases rx i s with e | ⟨f, empty, e⟩ <;> rw [e]
  rw [saAt_requestFill, if_neg (by rintro rfl; exact h empty)]

/-! ## Slots whose key is cleared -/

/-- The slot has no key, is not READY and is at most being filled. -/
structure Cleared (a : SaEntry) : Prop where
  key : a.key = []
  ready : a.ready = false
  state : a.state = .empty ∨ a.state = .filling
  orphan : a.orphan = false

theorem cleared_emptied (a : SaEntry) : Cleared (emptied a) := ⟨rfl, rfl, .inl rfl, rfl⟩

theorem cleared_emptySlot (sa : Nat) : Cleared ((emptySlot sa s).saAt sa) := by
  rw [saAt_emptySlot_same]
  exact cleared_emptied _

theorem Cleared.emptySlot {k : Nat} (h : Cleared (s.saAt k)) (sa : Nat) : Cleared ((emptySlot sa s).saAt k) := by
  rw [saAt_emptySlot]
  split
  · exact cleared_emptied _
  · exact h

theorem Cleared.refill {k : Nat} (h : Cleared (s.saAt k)) (rx : Bool) (i : Nat) : Cleared ((refill rx i s).saAt k) := by
  rcases refill_cases rx i s with e | ⟨f, -, e⟩ <;> rw [e]
  · exact h
  · rw [saAt_requestFill]
    split
    next same =>
      subst same
      exact ⟨h.key, rfl, .inr rfl, rfl⟩
    · exact h

theorem cleared_emptyAndRefill (rx : Bool) (i sa : Nat) : Cleared ((emptyAndRefill rx i sa s).saAt sa) :=
  (cleared_emptySlot sa).refill rx i

end Sys2Proof.Machine
end

section
/-! SUPPORT. Epoch triggers and key gap: what they change of a transmit SC and of the associations (R201 to R203, R211,
R217 to R219). -/

namespace Sys2Proof.Machine

variable {s t u : State} {i : Nat}

/-! ## What a trigger and key gap can change -/

/-- The registers that entering or leaving key gap writes. -/
def gapRegs : List Nat :=
  Reg.KPR_ALARM :: Reg.SEC_GAP_ENTRIES :: emptyRegs ++ (List.range 512).map Reg.SEC_TXGAP

theorem emptyRegs_subset_gapRegs : emptyRegs ⊆ gapRegs := by
  unfold gapRegs
  exact fun _ h => List.mem_append_left _ (List.mem_cons_of_mem _ (List.mem_cons_of_mem _ h))

theorem txGap_mem_gapRegs (n : Nat) : Reg.SEC_TXGAP n ∈ gapRegs := by
  have wraps : Reg.SEC_TXGAP n = Reg.SEC_TXGAP (n % 512) := by
    unfold Reg.SEC_TXGAP
    rw [Nat.mod_mod]
  rw [wraps]
  exact List.mem_append_right _ (List.mem_map_of_mem (List.mem_range.mpr (Nat.mod_lt _ (by decide))))

/-- A register of `gapRegs` is the keeper's alarm or lies in the block of the channels. -/
theorem range_of_mem_gapRegs {a : Nat} (h : a ∈ gapRegs) : a = Reg.KPR_ALARM ∨ a < 0x140000 := by
  rcases List.mem_append.mp h with h | h
  · exact (by decide : ∀ a ∈ Reg.KPR_ALARM :: Reg.SEC_GAP_ENTRIES :: emptyRegs, a = Reg.KPR_ALARM ∨ a < 0x140000) a h
  · obtain ⟨n, -, rfl⟩ := List.mem_map.mp h
    exact .inr (by unfold Reg.SEC_TXGAP; omega)

/-- A trigger of transmit SC `i` or its key gap changes that SC's trigger, gap and current slot, empties slots, and
writes the registers that say so. -/
structure GapOnly (i : Nat) (s u : State) : Prop where
  only : SecOnly gapRegs s u
  sec : u.sec = { s.sec with tx := u.sec.tx, sa := u.sec.sa, fills := u.sec.fills, filling := u.sec.filling }
  slots : ∀ k, u.saAt k = s.saAt k ∨ u.saAt k = emptied (s.saAt k)
  others : ∀ j, j ≠ i → u.scAt false j = s.scAt false j
  entry : ∃ c g b x, u.scAt false i = { s.scAt false i with cur := c, gap := g, trigger := b, cinch := x }

theorem GapOnly.refl (i : Nat) (s : State) : GapOnly i s s :=
  ⟨.refl _ s, rfl, fun _ => .inl rfl, fun _ _ => rfl, _, _, _, _, rfl⟩

theorem GapOnly.trans (h : GapOnly i s t) (k : GapOnly i t u) : GapOnly i s u where
  only := h.only.trans k.only
  sec := k.sec.trans (by rw [h.sec])
  slots n := by
    rcases k.slots n with e | e <;> rcases h.slots n with d | d
    · exact .inl (e.trans d)
    · exact .inr (e.trans d)
    · exact .inr (by rw [e, d])
    · exact .inr (by rw [e, d, emptied_emptied])
  others j hj := (k.others j hj).trans (h.others j hj)
  entry := by
    obtain ⟨_, _, _, _, e⟩ := h.entry
    obtain ⟨_, _, _, _, d⟩ := k.entry
    exact ⟨_, _, _, _, by rw [d, e]⟩

theorem GapOnly.ite {c : Prop} [Decidable c] (h : GapOnly i s t) (k : GapOnly i s u) :
    GapOnly i s (if c then t else u) := by
  split
  · exact h
  · exact k

theorem GapOnly.cleared (h : GapOnly i s u) {k : Nat} (c : Cleared (s.saAt k)) : Cleared (u.saAt k) := by
  rcases h.slots k with e | e <;> rw [e]
  · exact c
  · exact cleared_emptied _

theorem GapOnly.rx (h : GapOnly i s u) (j : Nat) : u.scAt true j = s.scAt true j := by
  rw [State.scAt, h.sec, State.scAt]
  rfl

theorem gapOnly_of_sec {l : List Nat} (h : SecOnly l s u) (sub : l ⊆ gapRegs) (sec : u.sec = s.sec) : GapOnly i s u where
  only := h.mono sub
  sec := by rw [sec]
  slots k := .inl (saAt_of_sec sec k)
  others j _ := scAt_of_sec sec false j
  entry := ⟨_, _, _, _, scAt_of_sec sec false i⟩

theorem gapOnly_wr {a : Nat} (v : Nat) (h : a ∈ gapRegs) : GapOnly i s (s.wr a v) :=
  gapOnly_of_sec (secOnly_wr v h) (List.Subset.refl _) rfl

theorem gapOnly_secEvent (b j : Nat) (rx : Bool) : GapOnly i s (secEvent b j rx s) :=
  gapOnly_of_sec (secOnly_secEvent ..) (by decide) (secEvent_sec ..)

theorem gapOnly_keeperAlarm (bits : Nat) : GapOnly i s (keeperAlarm bits s) :=
  gapOnly_of_sec (keeperAlarm_secOnly bits) (by decide) (keeperAlarm_sec bits)

theorem gapOnly_setSc (c : Option Nat) (g b x : Bool) : GapOnly i s
    (s.setSc false i { s.scAt false i with cur := c, gap := g, trigger := b, cinch := x }) where
  only := secOnly_setSc ..
  sec := rfl
  slots k := .inl (saAt_setSc ..)
  others j hj := scAt_setSc_ne _ (by simpa using hj)
  entry := ⟨c, g, b, x, scAt_setSc_same ..⟩

theorem gapOnly_emptySlot (sa : Nat) : GapOnly i s (emptySlot sa s) where
  only := (secOnly_emptySlot sa).mono emptyRegs_subset_gapRegs
  sec := by
    unfold emptySlot State.setSa
    dsimp only
    rw [countOrphan_sec]
  slots k := by
    rw [saAt_emptySlot]
    split
    next same => exact .inr (by rw [same])
    · exact .inl rfl
  others j _ := scAt_emptySlot ..
  entry := ⟨_, _, _, _, scAt_emptySlot ..⟩

/-! ## Key gap (R217 to R219) -/

theorem gapOnly_gapEmpty : GapOnly i s (gapEmpty i s) := by
  unfold gapEmpty
  dsimp only
  split
  · exact .trans ((gapOnly_emptySlot _).ite (.refl i s)) (gapOnly_setSc ..)
  · exact .refl i s

theorem scAt_gapEmpty : (gapEmpty i s).scAt false i = { s.scAt false i with cur := none } := by
  unfold gapEmpty
  dsimp only
  split
  · rw [scAt_setSc_same]
    split
    · rw [scAt_emptySlot]
    · rfl
  next none =>
    cases h : s.scAt false i
    rw [h] at none
    subst none
    rfl

/-- The current slot is emptied where the SC is in key gap without Hold, or with the hold limit passed (R218). -/
theorem saAt_gapEmpty {c : Nat} (cur : (s.scAt false i).cur = some c)
    (live : (s.saAt (scSa (s.scAt false i) c)).state = .current) :
    Cleared ((gapEmpty i s).saAt (scSa (s.scAt false i) c)) := by
  unfold gapEmpty
  dsimp only
  rw [cur]
  dsimp only
  rw [saAt_setSc, live, if_pos (by rfl)]
  exact cleared_emptySlot _

/-- Key gap of an SC counted and shown. -/
def gapShown (i : Nat) (s : State) : State :=
  setGapBit i true ((s.setSc false i { s.scAt false i with gap := true }).bump Reg.SEC_GAP_ENTRIES)

/-- Key gap counted, shown and reported; of class 7 traffic to the keeper too. -/
def gapReported (i : Nat) (s : State) : State :=
  let w := secEvent 3 i false (gapShown i s)
  if isK7 w false i then keeperAlarm (2 ^ 10) w else w

theorem enterGap_in (h : (s.scAt false i).gap = true) : enterGap i s = s := by
  unfold enterGap
  dsimp only
  rw [if_pos h]

theorem enterGap_eq (h : (s.scAt false i).gap = false) : enterGap i s =
    if (gapReported i s).bit Reg.KPR_GAP 0 then gapReported i s else gapEmpty i (gapReported i s) := by
  unfold enterGap
  dsimp only
  rw [h, if_neg Bool.false_ne_true]
  rfl

theorem gapOnly_gapShown : GapOnly i s (gapShown i s) :=
  (gapOnly_setSc _ true _ _).trans ((gapOnly_wr _ (by decide)).trans (gapOnly_wr _ (txGap_mem_gapRegs _)))

theorem gapOnly_reports : GapOnly i (gapShown i s) (gapReported i s) :=
  .trans (gapOnly_secEvent 3 i false) ((gapOnly_keeperAlarm _).ite (.refl ..))

/-- What follows the entry into key gap leaves its count and its bit. -/
theorem secOnly_gapReported : SecOnly (Reg.KPR_ALARM :: emptyRegs) (gapShown i s) (gapReported i s) :=
  ((secOnly_secEvent 3 i false).mono (by decide)).trans <|
    ((keeperAlarm_secOnly _).mono (by decide)).ite (.refl ..)

theorem gapReported_sec : (gapReported i s).sec = (gapShown i s).sec := by
  unfold gapReported
  dsimp only
  split
  · exact (keeperAlarm_sec _).trans (secEvent_sec ..)
  · exact secEvent_sec ..

theorem gapOnly_enterGap : GapOnly i s (enterGap i s) := by
  cases h : (s.scAt false i).gap
  · rw [enterGap_eq h]
    have reported : GapOnly i s (gapReported i s) := gapOnly_gapShown.trans gapOnly_reports
    exact reported.ite (reported.trans gapOnly_gapEmpty)
  · rw [enterGap_in h]
    exact .refl i s

/-- An SC that enters key gap, or is in it, keeps all of its entry but the current slot. -/
theorem scAt_enterGap : ∃ c, (enterGap i s).scAt false i = { s.scAt false i with gap := true, cur := c } := by
  cases h : (s.scAt false i).gap
  · have shown : (gapReported i s).scAt false i = { s.scAt false i with gap := true } :=
      (scAt_of_sec gapReported_sec ..).trans (scAt_setSc_same ..)
    rw [enterGap_eq h]
    split
    · exact ⟨_, shown⟩
    · exact ⟨none, by rw [scAt_gapEmpty, shown]⟩
  · rw [enterGap_in h, ← h]
    exact ⟨_, rfl⟩

theorem secOnly_gapEmpty : SecOnly emptyRegs s (gapEmpty i s) := by
  unfold gapEmpty
  dsimp only
  split
  · exact ((secOnly_emptySlot _).ite (.refl ..)).trans (secOnly_setSc ..)
  · exact .refl ..

/-- Entering key gap counts and shows; with Hold every association stays (R217, R218). -/
theorem enterGap_shows (h : (s.scAt false i).gap = false) :
    (enterGap i s).bit (Reg.SEC_TXGAP (i / 32)) (i % 32) = true ∧
    (enterGap i s).rd Reg.SEC_GAP_ENTRIES = min (s.rd Reg.SEC_GAP_ENTRIES + 1) 0xFFFFFFFF ∧
    (s.bit Reg.KPR_GAP 0 = true → (enterGap i s).sec.sa = s.sec.sa) := by
  have later : SecOnly (Reg.KPR_ALARM :: emptyRegs) (gapShown i s) (enterGap i s) := by
    rw [enterGap_eq h]
    exact secOnly_gapReported.ite (secOnly_gapReported.trans (secOnly_gapEmpty.mono (by decide)))
  have lo : 0x101000 ≤ Reg.SEC_TXGAP (i / 32) := by unfold Reg.SEC_TXGAP; omega
  have hi : Reg.SEC_TXGAP (i / 32) < 0x102000 := by unfold Reg.SEC_TXGAP; omega
  refine ⟨?bit, ?count, fun hold => ?hold⟩
  case bit =>
    rw [later.bit _ (by simp [hostIfReg]; omega) fun m => by
      have below := (by decide : ∀ a ∈ Reg.KPR_ALARM :: emptyRegs, a < 0x101000 ∨ 0x102000 ≤ a) _ m
      omega]
    exact State.bit_setBit_same _ _ _ _ (Nat.mod_lt _ (by decide))
  case count =>
    rw [later.rd (by decide) (by decide)]
    refine (State.rd_setBit_ne _ _ _ (by unfold Reg.SEC_TXGAP Reg.SEC_GAP_ENTRIES; omega)).trans ?_
    rw [State.rd_bump_same]
    rfl
  case hold =>
    have shown : (gapReported i s).bit Reg.KPR_GAP 0 = true := by
      rw [secOnly_gapReported.bit _ (by decide) (by decide), ← hold]
      exact ((gapOnly_gapShown (i := i)).only.bit 0 (by decide) fun m => by
        rcases range_of_mem_gapRegs m with e | e <;> revert e <;> decide)
    rw [enterGap_eq h, if_pos shown, gapReported_sec]
    rfl

theorem gapOnly_gapCheck : GapOnly i s (gapCheck i s) := gapOnly_enterGap.ite (.refl i s)

/-! ## Triggers (R201, R202) -/

/-- Triggers after the first are absorbed. -/
theorem fireTrigger_absorbed (h : (s.scAt false i).trigger = true) (x : Bool) : fireTrigger i x s = s := by
  unfold fireTrigger
  dsimp only
  rw [if_pos h]

/-- The state in which a trigger finds out whether the next slot is READY. -/
def triggered (i : Nat) (x : Bool) (s : State) : State :=
  s.setSc false i { s.scAt false i with trigger := true, cinch := x }

theorem fireTrigger_eq (h : (s.scAt false i).trigger = false) (x : Bool) : fireTrigger i x s =
    if nextReady s (s.scAt false i) && !s.sec.isolated then triggered i x s else enterGap i (triggered i x s) := by
  unfold fireTrigger
  dsimp only
  rw [h, if_neg Bool.false_ne_true, nextReady_congr fun k => saAt_setSc ..]
  rfl

theorem gapOnly_fireTrigger (x : Bool) : GapOnly i s (fireTrigger i x s) := by
  cases h : (s.scAt false i).trigger
  · rw [fireTrigger_eq h]
    have set : GapOnly i s (triggered i x s) := gapOnly_setSc ..
    exact set.ite (set.trans gapOnly_enterGap)
  · rw [fireTrigger_absorbed h]
    exact .refl i s

theorem fireTrigger_triggers (h : (s.scAt false i).trigger = false) (x : Bool) :
    ((fireTrigger i x s).scAt false i).trigger = true ∧ ((fireTrigger i x s).scAt false i).cinch = x := by
  have set : (triggered i x s).scAt false i = { s.scAt false i with trigger := true, cinch := x } := scAt_setSc_same ..
  rw [fireTrigger_eq h]
  split
  · rw [set]
    exact ⟨rfl, rfl⟩
  · obtain ⟨c, e⟩ := scAt_enterGap (i := i) (s := triggered i x s)
    rw [e, set]
    exact ⟨rfl, rfl⟩

theorem fireTrigger_trigger (x : Bool) : ((fireTrigger i x s).scAt false i).trigger = true := by
  cases h : (s.scAt false i).trigger
  · exact (fireTrigger_triggers h x).1
  · rw [fireTrigger_absorbed h, h]

theorem nextReady_triggers (ready : nextReady s (s.scAt false i) = true) (idle : (s.scAt false i).trigger = false)
    (joined : s.sec.isolated = false) (x : Bool) : fireTrigger i x s = triggered i x s := by
  rw [fireTrigger_eq idle, ready, joined]
  rfl

theorem noneReady_gaps (none : nextReady s (s.scAt false i) = false) (idle : (s.scAt false i).trigger = false) (x : Bool) :
    fireTrigger i x s = enterGap i (triggered i x s) := by
  rw [fireTrigger_eq idle, none]
  rfl

end Sys2Proof.Machine
end

section
/-! SUPPORT. The rows that end an epoch: limits, host triggers and cinch instants (R201 to R203). -/

namespace Sys2Proof.Machine

variable {s t u : State} {i : Nat}

/-! ## What a trigger comes to -/

/-- A trigger with a READY next slot waits for a binding. -/
def TriggerWaits (i : Nat) (s u : State) : Prop :=
  u = s.fresh.setSc false i { s.scAt false i with trigger := true, cinch := false }

/-- A trigger without one enters key gap. -/
def TriggerGaps (i : Nat) (s u : State) : Prop :=
  (u.scAt false i).trigger = true ∧ (u.scAt false i).gap = true ∧
  u.bit (Reg.SEC_TXGAP (i / 32)) (i % 32) = true ∧
  u.rd Reg.SEC_GAP_ENTRIES = min (s.rd Reg.SEC_GAP_ENTRIES + 1) 0xFFFFFFFF ∧
  (s.bit Reg.KPR_GAP 0 = true → u.sec.sa = s.sec.sa)

theorem fireTrigger_waits (idle : (s.scAt false i).trigger = false) (joined : s.sec.isolated = false)
    (ready : nextReady s (s.scAt false i) = true) : TriggerWaits i s (fireTrigger i false s.fresh) :=
  nextReady_triggers (s := s.fresh) ready idle joined false

theorem fireTrigger_gaps (idle : (s.scAt false i).trigger = false) (none : nextReady s (s.scAt false i) = false)
    (flowing : (s.scAt false i).gap = false) : TriggerGaps i s (fireTrigger i false s.fresh) := by
  have set : (triggered i false s.fresh).scAt false i = { s.scAt false i with trigger := true, cinch := false } :=
    scAt_setSc_same ..
  obtain ⟨c, entry⟩ := scAt_enterGap (i := i) (s := triggered i false s.fresh)
  obtain ⟨shown, counted, held⟩ := enterGap_shows (i := i) (s := triggered i false s.fresh) (by rw [set]; exact flowing)
  rw [noneReady_gaps (s := s.fresh) none idle]
  exact ⟨by rw [entry, set], by rw [entry], shown, counted, held⟩

/-! ## Limits and host triggers -/

theorem countExpire_fires (used : (s.scAt false i).inUse = true) (cur : (s.scAt false i).cur.isSome = true)
    (limited : field (scWord (s.scAt false i) 6) 0 24 ≠ 0)
    (reached : field (scWord (s.scAt false i) 6) 0 24 * 65536 ≤ (s.scAt false i).count) :
    countExpire i s = fireTrigger i false s := by
  unfold countExpire
  dsimp only
  rw [if_pos]
  simp only [used, cur, decide_eq_true limited, decide_eq_true reached, Bool.and_self]

theorem timeExpire_fires (used : (s.scAt false i).inUse = true) (cur : (s.scAt false i).cur.isSome = true)
    (limited : field (scWord (s.scAt false i) 7) 0 20 ≠ 0) : timeExpire i s = fireTrigger i false s := by
  unfold timeExpire
  dsimp only
  rw [if_pos]
  simp only [used, cur, decide_eq_true limited, Bool.and_self]

theorem pnSoft_eq {sa : Nat} (used : (s.scAt false i).inUse = true) (cur : curSa s i = some sa)
    (reached : (pnLimits (s.saAt sa).cipher (scTrunk s (s.scAt false i))).1 ≤ (s.saAt sa).pn) :
    pnSoft i s = if nextReady s (s.scAt false i) then fireTrigger i false s else secEvent 5 i false s := by
  unfold pnSoft
  dsimp only
  rw [cur]
  dsimp only
  rw [used, decide_eq_true reached, if_pos (by rfl)]

/-- A soft limit without a READY slot is only reported (R201). -/
theorem secEvent_reports (b : Nat) (hb : b < 32) : (secEvent b i false s.fresh).bit Reg.SEC_EVT b = true ∧
    OnlyHost [Reg.SEC_LAST, Reg.SEC_EVT] s (secEvent b i false s.fresh) :=
  ⟨secEvent_bit _ _ hb (.inl rfl), .trans ⟨fun _ _ _ => rfl, rfl⟩ (onlyHost_secEvent ..)⟩

section
variable {v : Word} (strobe : v.toNat.testBit 31 = true) (names : v.toNat % 16384 = i)
include strobe names

theorem hostTrigger_unused (free : (s.scAt false i).inUse = false) :
    hostTrigger v.toNat s = s.wr Reg.SEC_EPOCH_STATUS 2 := by
  unfold hostTrigger
  dsimp only
  rw [strobe, names, free]
  rfl

theorem hostTrigger_ready (used : (s.scAt false i).inUse = true) (ready : nextReady s (s.scAt false i) = true)
    (joined : s.sec.isolated = false) :
    hostTrigger v.toNat s = fireTrigger i false (s.wr Reg.SEC_EPOCH_STATUS 0) := by
  unfold hostTrigger
  dsimp only
  rw [strobe, names, used, ready, joined]
  rfl

theorem hostTrigger_refused (used : (s.scAt false i).inUse = true) (none : nextReady s (s.scAt false i) = false) :
    hostTrigger v.toNat s = s.wr Reg.SEC_EPOCH_STATUS 1 := by
  unfold hostTrigger
  dsimp only
  rw [strobe, names, used, none]
  rfl

end

/-! ## Cinch instants (R202) -/

theorem Tbl.mem_of_find {α : Type} {t : Tbl α} {n : Nat} {v : α} (h : Tbl.find t n = some v) : (n, v) ∈ t := by
  induction t with
  | nil => cases h
  | cons e t ih =>
    obtain ⟨k, w⟩ := e
    by_cases same : k = n
    · rw [Tbl.find, if_pos same] at h
      rw [same, Option.some.inj h]
      exact List.mem_cons_self
    · rw [Tbl.find, if_neg same] at h
      exact List.mem_cons_of_mem _ (ih h)

theorem Tbl.mem_of_get_ne {α : Type} {d : Nat → α} {t : Tbl α} {n : Nat} (h : Tbl.get d t n ≠ d n) :
    (n, Tbl.get d t n) ∈ t := by
  unfold Tbl.get at h ⊢
  split at h
  next found => exact Tbl.mem_of_find found
  · exact absurd rfl h

theorem mem_txKeys (used : (s.scAt false i).inUse = true) : i ∈ Tbl.keys s.sec.tx :=
  List.mem_map_of_mem (f := Prod.fst) <| Tbl.mem_of_get_ne (d := fun _ => ({} : ScEntry)) fun e => by
    rw [State.scAt, if_neg Bool.false_ne_true, e] at used
    cases used

/-- A cinch instant triggers the SC of this entry: in use with CINCH_EN, with a current SA and no trigger waiting. -/
def takesCinch (e : ScEntry) : Bool := e.inUse && (scWord e 0).testBit 8 && e.cur.isSome && !e.trigger

/-- What a cinch instant makes of one SC. -/
def cinchStep (s : State) (j : Nat) : State :=
  if (s.scAt false j).inUse && (scWord (s.scAt false j) 0).testBit 8 && (s.scAt false j).cur.isSome then
    fireTrigger j true s
  else s

theorem cinchAll_eq : cinchAll s = (Tbl.keys s.sec.tx).foldl cinchStep s := rfl

theorem gapOnly_cinchStep (j : Nat) : GapOnly j s (cinchStep s j) := (gapOnly_fireTrigger true).ite (.refl j s)

theorem cinchStep_refused (h : takesCinch (s.scAt false i) = false) : cinchStep s i = s := by
  unfold cinchStep
  split
  next taken =>
    rw [takesCinch, taken, Bool.true_and, Bool.not_eq_false'] at h
    exact fireTrigger_absorbed h true
  · rfl

theorem cinchStep_taken (h : takesCinch (s.scAt false i) = true) :
    ((cinchStep s i).scAt false i).trigger = true ∧ ((cinchStep s i).scAt false i).cinch = true := by
  rw [takesCinch, Bool.and_eq_true, Bool.not_eq_true'] at h
  rw [cinchStep, if_pos h.1]
  exact fireTrigger_triggers h.2 true

theorem cinchFold_refused {l : List Nat} (h : takesCinch (s.scAt false i) = false) :
    (l.foldl cinchStep s).scAt false i = s.scAt false i := by
  induction l generalizing s with
  | nil => rfl
  | cons j l ih =>
    have stays : (cinchStep s j).scAt false i = s.scAt false i := by
      by_cases same : j = i
      · rw [same, cinchStep_refused h]
      · exact (gapOnly_cinchStep j).others i (Ne.symm same)
    rw [List.foldl_cons, ih (by rw [stays, h]), stays]

theorem cinchFold_taken {l : List Nat} (h : takesCinch (s.scAt false i) = true) (mem : i ∈ l) :
    ((l.foldl cinchStep s).scAt false i).trigger = true ∧ ((l.foldl cinchStep s).scAt false i).cinch = true := by
  induction l generalizing s with
  | nil => cases mem
  | cons j l ih =>
    rw [List.foldl_cons]
    by_cases same : j = i
    · subst same
      have taken := cinchStep_taken h
      rw [cinchFold_refused (by rw [takesCinch, taken.1, Bool.not_true, Bool.and_false])]
      exact taken
    · have stays := (gapOnly_cinchStep (s := s) j).others i (Ne.symm same)
      exact ih (by rw [stays, h]) ((List.mem_cons.mp mem).resolve_left (Ne.symm same))

theorem cinchFold_cinchAt (l : List Nat) : (l.foldl cinchStep s).sec.cinchAt = s.sec.cinchAt := by
  induction l generalizing s with
  | nil => rfl
  | cons j l ih => rw [List.foldl_cons, ih, (gapOnly_cinchStep j).sec]

/-- At a cinch instant each SC that takes it is triggered, and any other keeps its entry. -/
theorem cinchInstant_shows {c : Nat} {rest : List Nat} (due : s.sec.cinchAt = c :: rest) :
    (cinchInstant s).sec.cinchAt = rest ∧
    (takesCinch (s.scAt false i) = true →
      ((cinchInstant s).scAt false i).trigger = true ∧ ((cinchInstant s).scAt false i).cinch = true) ∧
    (takesCinch (s.scAt false i) = false → (cinchInstant s).scAt false i = s.scAt false i) := by
  unfold cinchInstant
  rw [due]
  dsimp only
  rw [cinchAll_eq]
  refine ⟨cinchFold_cinchAt _, fun takes => ?_, fun refuses => cinchFold_refused refuses⟩
  have used : (s.scAt false i).inUse = true := by
    rw [takesCinch, Bool.and_assoc, Bool.and_assoc, Bool.and_eq_true] at takes
    exact takes.1
  exact cinchFold_taken takes (mem_txKeys used)

/-! ## The statement -/

section
variable {i : TxSc} (core : coreRuns s = true)
include core

theorem answers_count (P : State → State → Prop) (fired : P s (fireTrigger i.val false s.fresh))
    (used : (s.scAt false i.val).inUse = true) (cur : (s.scAt false i.val).cur.isSome = true)
    (limited : field (scWord (s.scAt false i.val) 6) 0 24 ≠ 0)
    (reached : field (scWord (s.scAt false i.val) 6) 0 24 * 65536 ≤ (s.scAt false i.val).count) :
    Answers (.epochCountExpire i) s (P s) := by
  refine answers_powered core (f := countExpire i.val) rfl ?_
  rw [countExpire_fires (s := s.fresh) used cur limited reached]
  exact fired

theorem answers_time (P : State → State → Prop) (fired : P s (fireTrigger i.val false s.fresh))
    (used : (s.scAt false i.val).inUse = true) (cur : (s.scAt false i.val).cur.isSome = true)
    (limited : field (scWord (s.scAt false i.val) 7) 0 20 ≠ 0) : Answers (.epochTimeExpire i) s (P s) := by
  refine answers_powered core (f := timeExpire i.val) rfl ?_
  rw [timeExpire_fires (s := s.fresh) used cur limited]
  exact fired

end

/-- Settles O32: a trigger that finds no READY slot enters key gap, whose bit and count the report that follows leaves;
a cinch instant is followed through the table, where the steps of other SCs leave an entry as it is. -/
theorem triggersEndTheEpoch : Obligations.TriggersEndTheEpoch := by
  unfold Obligations.TriggersEndTheEpoch
  intro s i core e ended gapped
  refine ⟨fun used idle joined => ⟨fun ready => ?ready, fun none flowing => ?gap⟩, fun free v served strobe names => ?unused,
    fun c rest due => ?cinch⟩
  case ready =>
    have waits := fireTrigger_waits idle joined ready
    refine ⟨answers_count core (TriggerWaits i.val) waits used, answers_time core (TriggerWaits i.val) waits used,
      fun sa cur reached => ?_, fun v served strobe names => ?_⟩
    · refine answers_powered core (f := pnSoft i.val) rfl ?_
      rw [pnSoft_eq (s := s.fresh) used cur reached, if_pos (by exact ready)]
      exact waits
    · refine answers_hostWrite served (f := hostTrigger v.toNat) rfl ?_
      rw [hostTrigger_ready (s := s.fresh) strobe names used ready joined]
      exact nextReady_triggers (s := s.fresh.wr Reg.SEC_EPOCH_STATUS 0) ready idle joined false
  case gap =>
    have gaps := fireTrigger_gaps idle none flowing
    refine ⟨answers_count core (TriggerGaps i.val) gaps used, answers_time core (TriggerGaps i.val) gaps used,
      fun sa cur reached => ?_, fun v served strobe names => ?_⟩
    · refine answers_powered core (f := pnSoft i.val) rfl ?_
      rw [pnSoft_eq (s := s.fresh) used cur reached, if_neg (by exact Bool.eq_false_iff.mp none)]
      exact secEvent_reports 5 (by decide)
    · refine answers_hostWrite served (f := hostTrigger v.toNat) rfl ?_
      exact hostTrigger_refused (s := s.fresh) strobe names used none
  case unused =>
    refine answers_hostWrite served (f := hostTrigger v.toNat) rfl ?_
    exact hostTrigger_unused (s := s.fresh) strobe names free
  case cinch =>
    refine answers_powered core (f := cinchInstant) rfl ?_
    obtain ⟨left, takes, refuses⟩ := cinchInstant_shows (i := i.val) (s := s.fresh) due
    refine ⟨left, fun used enabled cur idle => takes ?_, fun h => refuses ?_⟩
    · simp only [takesCinch, Bool.and_eq_true]
      exact ⟨⟨⟨used, enabled⟩, cur⟩, Bool.not_eq_true' _ ▸ idle⟩
    · rcases h with h | h | h | h <;> simp only [takesCinch, show s.fresh.scAt false i.val = e from rfl, h,
        Bool.false_and, Bool.and_false, Bool.not_true]

end Sys2Proof.Machine
end

section
/-! SUPPORT. The switch of a transmit SC to its READY slot, and the ends of keys: what is left in each slot (R205 to R207,
R211, R217, R218, R220). -/

namespace Sys2Proof.Machine

variable {s t u : State} {i : Nat}

/-! ## Making a slot current (R205, R206) -/

theorem journalSc_sec (rx : Bool) (j : Nat) : (journalSc rx j s).sec = s.sec := by
  unfold journalSc
  dsimp only
  split <;> rfl

theorem saAt_exitGap (k : Nat) : (exitGap i s).saAt k = s.saAt k := by
  unfold exitGap
  dsimp only
  split
  · rfl
  · exact (saAt_of_sec (secEvent_sec ..) k).trans (saAt_setSc ..)

theorem scAt_exitGap : (exitGap i s).scAt false i = { s.scAt false i with gap := false } := by
  unfold exitGap
  dsimp only
  split
  next out =>
    have same (e : ScEntry) (h : e.gap = false) : e = { e with gap := false } := by
      cases e
      cases h
      rfl
    exact same _ ((Bool.not_eq_true' _).mp out)
  · exact (scAt_of_sec (secEvent_sec ..) ..).trans (scAt_setSc_same ..)

theorem saAt_applyPending (rx : Bool) (j k : Nat) : (applyPending rx j s).saAt k = s.saAt k := by
  unfold applyPending
  dsimp only
  split
  · exact (saAt_of_sec (journalSc_sec ..) k).trans (saAt_setSc ..)
  · rfl

/-- A pending MODIFY takes effect (R195). -/
theorem scAt_applyPending (rx : Bool) (j : Nat) : (applyPending rx j s).scAt rx j =
    { s.scAt rx j with words := (s.scAt rx j).pending.getD (s.scAt rx j).words, pending := none } := by
  unfold applyPending
  dsimp only
  split
  next w held => rw [scAt_of_sec (journalSc_sec ..), scAt_setSc_same, held, Option.getD_some]
  next held => rw [held, Option.getD_none, ← held]

/-- The entry of a transmit SC that has just made a slot current. -/
def currentEntry (slot epoch : Nat) (e : ScEntry) : ScEntry :=
  { e with words := e.pending.getD e.words, pending := none, cur := some slot, epoch := epoch, started := true,
           trigger := false, cinch := false, cinchStitch := e.cinch, count := 0, gap := false }

theorem scAt_makeCurrent (slot : Nat) : (makeCurrent i slot s).scAt false i =
    currentEntry slot (s.saAt (scSa (s.scAt false i) slot)).epoch (s.scAt false i) := by
  unfold makeCurrent
  dsimp only
  refine (scAt_of_sec (journalSc_sec ..) ..).trans ?_
  rw [scAt_applyPending, scAt_exitGap, scAt_setSc_same]
  rfl

theorem saAt_makeCurrent (slot k : Nat) : (makeCurrent i slot s).saAt k =
    if k = scSa (s.scAt false i) slot then { s.saAt (scSa (s.scAt false i) slot) with state := .current }
    else s.saAt k := by
  unfold makeCurrent
  dsimp only
  refine (saAt_of_sec (journalSc_sec ..) k).trans ?_
  rw [saAt_applyPending, saAt_exitGap, saAt_setSc, saAt_setSa]

theorem saAt_makeCurrent_ne {slot k : Nat} (h : k ≠ scSa (s.scAt false i) slot) :
    (makeCurrent i slot s).saAt k = s.saAt k := by rw [saAt_makeCurrent, if_neg h]

/-! ## The switch (R206) -/

/-- The switch counted and reported: the new slot is current, and the old one stands as it was. -/
def switched (i : Nat) (s : State) : State :=
  secEvent 0 i false ((makeCurrent i (nextSlot (s.scAt false i)) s).bump Reg.SEC_TX_SWITCHES)

/-- The old slot of a switch drains, or is emptied when nothing bound to it is left. -/
def switchLeaves (i : Nat) (old : Option Nat) (s : State) : State :=
  match old with
  | some sa =>
    if (s.saAt sa).state == .current then
      if (s.saAt sa).bound = 0 then emptyAndRefill false i sa s else s.setSa sa { s.saAt sa with state := .draining }
    else refill false i s
  | none => refill false i s

theorem txSwitch_eq : txSwitch i s =
    switchLeaves i ((s.scAt false i).cur.map (scSa (s.scAt false i))) (switched i s) := rfl

theorem saAt_switched (k : Nat) : (switched i s).saAt k = (makeCurrent i (nextSlot (s.scAt false i)) s).saAt k :=
  saAt_of_sec (secEvent_sec ..) k

theorem scAt_switched : (switched i s).scAt false i = currentEntry (nextSlot (s.scAt false i))
    (s.saAt (scSa (s.scAt false i) (nextSlot (s.scAt false i)))).epoch (s.scAt false i) :=
  (scAt_of_sec (secEvent_sec ..) ..).trans (scAt_makeCurrent _)

theorem scAt_switchLeaves (old : Option Nat) : (switchLeaves i old s).scAt false i = s.scAt false i := by
  unfold switchLeaves
  split
  · split
    · split
      · exact (scAt_refill ..).trans (scAt_emptySlot ..)
      · rfl
    · exact scAt_refill ..
  · exact scAt_refill ..

/-- Any other slot that holds an association keeps it. -/
theorem saAt_switchLeaves_held {old : Option Nat} {k : Nat} (other : ∀ sa, old = some sa → sa ≠ k)
    (held : (s.saAt k).state ≠ .empty) : (switchLeaves i old s).saAt k = s.saAt k := by
  unfold switchLeaves
  split
  next sa =>
    have ne : k ≠ sa := (other sa rfl).symm
    have emptied : (emptySlot sa s).saAt k = s.saAt k := by rw [saAt_emptySlot, if_neg ne]
    split
    · split
      · exact (saAt_refill_held _ _ (by rw [emptied]; exact held)).trans emptied
      · exact saAt_setSa_ne _ ne
    · exact saAt_refill_held _ _ held
  · exact saAt_refill_held _ _ held

theorem saAt_switchLeaves_draining {sa : Nat} (live : (s.saAt sa).state = .current) (bound : (s.saAt sa).bound ≠ 0) :
    (switchLeaves i (some sa) s).saAt sa = { s.saAt sa with state := .draining } := by
  unfold switchLeaves
  dsimp only
  rw [live, if_pos (by rfl), if_neg bound, saAt_setSa_same]

theorem cleared_switchLeaves {sa : Nat} (live : (s.saAt sa).state = .current) (bound : (s.saAt sa).bound = 0) :
    Cleared ((switchLeaves i (some sa) s).saAt sa) := by
  unfold switchLeaves
  dsimp only
  rw [live, if_pos (by rfl), if_pos bound]
  exact cleared_emptyAndRefill ..

/-- A binding that finds a trigger and a READY slot goes on as one after the switch. -/
theorem bindTx_switches (class7 : Bool) (used : (s.scAt false i).inUse = true)
    (due : (s.scAt false i).trigger = true) (ready : nextReady s (s.scAt false i) = true)
    (joined : s.sec.isolated = false) : bindTx i class7 s = bindTx i class7 (txSwitch i s) := by
  have entry : (txSwitch i s).scAt false i = currentEntry (nextSlot (s.scAt false i))
      (s.saAt (scSa (s.scAt false i) (nextSlot (s.scAt false i)))).epoch (s.scAt false i) := by
    rw [txSwitch_eq, scAt_switchLeaves, scAt_switched]
  have met : ((txSwitch i s).scAt false i).trigger = false := by rw [entry]; rfl
  have stays : ((txSwitch i s).scAt false i).inUse = true := by rw [entry]; exact used
  unfold bindTx
  dsimp only
  rw [used, due, ready, joined, met, stays]
  rfl

/-- Settles O33: the new slot is current before the old one is dealt with, and a slot that holds an association is
neither emptied nor refilled with it. -/
theorem bindingSwitchesToTheReadySlot : Obligations.BindingSwitchesToTheReadySlot := by
  unfold Obligations.BindingSwitchesToTheReadySlot
  intro s i class7 e new used due ready joined apart u
  have entry : u.scAt false i = currentEntry (nextSlot e) (s.saAt new).epoch e := by
    rw [show u = _ from txSwitch_eq, scAt_switchLeaves, scAt_switched]
  have made : (switched i s).saAt new = { s.saAt new with state := .current } := by
    rw [saAt_switched, saAt_makeCurrent, if_pos rfl]
  have live : u.saAt new = { s.saAt new with state := .current } := by
    have held : ((switched i s).saAt new).state ≠ .empty := by
      rw [made]
      exact SlotState.noConfusion
    refine (saAt_switchLeaves_held (fun sa h => ?_) held).trans made
    obtain ⟨c, cur, rfl⟩ := Option.map_eq_some_iff.mp h
    exact apart c cur
  rw [live, entry]
  refine ⟨bindTx_switches class7 used due ready joined, rfl, rfl, rfl, rfl, rfl, rfl, rfl, fun c cur old => ?_⟩
  have left : u = switchLeaves i (some (scSa e c)) (switched i s) := by rw [show u = _ from txSwitch_eq, cur]; rfl
  have stood : (switched i s).saAt (scSa e c) = s.saAt (scSa e c) := by
    rw [saAt_switched, saAt_makeCurrent_ne (apart c cur)]
  rw [left]
  refine ⟨fun bound => ?_, fun bound => (cleared_switchLeaves (by rw [stood, old]) (by rw [stood, bound])).key⟩
  rw [saAt_switchLeaves_draining (by rw [stood, old]) (by rwa [stood]), stood]

/-! ## Keys that end (R205, R207, R211, R217, R218, R220) -/

/-- An SC of entry `e` whose current slot was that of `sa` has no current SA. -/
def currentLost (rx : Bool) (i sa : Nat) (e : ScEntry) (s : State) : State :=
  if e.cur == some (slotOf e sa) then s.setSc rx i { e with cur := none } else s

theorem saAt_currentLost (rx : Bool) (sa : Nat) (e : ScEntry) (k : Nat) :
    (currentLost rx i sa e s).saAt k = s.saAt k := by
  unfold currentLost
  split
  · exact saAt_setSc ..
  · rfl

theorem secOnly_currentLost (rx : Bool) (sa : Nat) (e : ScEntry) : SecOnly [] s (currentLost rx i sa e s) :=
  (secOnly_setSc ..).ite (.refl ..)

/-- The state of a transmit SC whose SA is spent, when its epoch has ended. -/
def spentEpoch (i sa : Nat) (s : State) : State :=
  fireTrigger i false (currentLost false i sa (s.scAt false i) (emptySlot sa s))

theorem saSpent_eq (sa : Nat) : saSpent i sa s =
    if nextReady (spentEpoch i sa s) ((spentEpoch i sa s).scAt false i) && !(spentEpoch i sa s).sec.isolated then spentEpoch i sa s
    else enterGap i (spentEpoch i sa s) := rfl

/-- An SA that is spent leaves its slot, and its epoch ends (R205, R211, R215). -/
theorem saSpent_shows (sa : Nat) : Cleared ((saSpent i sa s).saAt sa) ∧ ((saSpent i sa s).scAt false i).trigger = true := by
  have lost : Cleared ((currentLost false i sa (s.scAt false i) (emptySlot sa s)).saAt sa) := by
    rw [saAt_currentLost]
    exact cleared_emptySlot sa
  have cleared : Cleared ((spentEpoch i sa s).saAt sa) := (gapOnly_fireTrigger false).cleared lost
  have triggered : ((spentEpoch i sa s).scAt false i).trigger = true := fireTrigger_trigger false
  rw [saSpent_eq]
  split
  · exact ⟨cleared, triggered⟩
  · obtain ⟨c, entry⟩ := scAt_enterGap (i := i) (s := spentEpoch i sa s)
    exact ⟨gapOnly_enterGap.cleared cleared, by rw [entry]; exact triggered⟩

theorem pnHard_spends {sa : Nat} (cur : curSa s i = some sa) (used : (s.scAt false i).inUse = true)
    (past : (pnLimits (s.saAt sa).cipher (scTrunk s (s.scAt false i))).2 < (s.saAt sa).pn) :
    pnHard i s = saSpent i sa s := by
  unfold pnHard
  dsimp only
  rw [cur]
  dsimp only
  rw [used, decide_eq_true past, if_pos (by rfl)]

section
variable {sa : Nat} {rx : Bool} (owner : (s.saAt sa).owner = some (i, rx)) (orphan : (s.saAt sa).orphan = true)
  (live : (s.saAt sa).state = .current ∨ (s.saAt sa).state = .old)
include owner orphan live

/-- An orphaned receive SA at the end of its grace leaves its slot, which a derived SC refills. -/
theorem orphanExpire_rx (h : rx = true) :
    orphanExpire sa s = refill true i (currentLost true i sa (s.scAt true i) (emptySlot sa s)) := by
  subst h
  unfold orphanExpire
  dsimp only
  rw [owner]
  dsimp only
  rw [orphan, if_pos (by rcases live with h | h <;> rw [h] <;> rfl), if_pos rfl]
  rfl

theorem orphanExpire_tx (h : rx = false) : orphanExpire sa s = saSpent i sa s := by
  subst h
  unfold orphanExpire
  dsimp only
  rw [owner]
  dsimp only
  rw [orphan, if_pos (by rcases live with h | h <;> rw [h] <;> rfl), if_neg Bool.false_ne_true]

end

/-- Slots retired leave what is cleared cleared, and the event stands. -/
theorem retireRx_shows (sa : Nat) : Cleared ((retireRx i sa s).saAt sa) ∧ (retireRx i sa s).bit Reg.SEC_EVT 2 = true := by
  have reported : (secEvent 2 i true (s.bump Reg.SEC_RETIRES)).bit Reg.SEC_EVT 2 = true :=
    secEvent_bit _ _ (by decide) (.inl rfl)
  refine ⟨cleared_emptyAndRefill .., ?_⟩
  unfold retireRx emptyAndRefill
  rw [State.bit, State.rd_of_regs (refill_regs ..), ← State.bit]
  exact emptySlot_bit reported

theorem Cleared.retireRx {k : Nat} (h : Cleared (s.saAt k)) (sa : Nat) : Cleared ((retireRx i sa s).saAt k) :=
  Cleared.refill (Cleared.emptySlot (by rw [saAt_of_sec (secEvent_sec ..)]; exact h) sa) ..

/-- A slot that holds another association keeps it when one is retired. -/
theorem saAt_retireRx_held {sa k : Nat} (other : k ≠ sa) (held : (s.saAt k).state ≠ .empty) :
    (retireRx i sa s).saAt k = s.saAt k := by
  have emptied : (emptySlot sa (secEvent 2 i true (s.bump Reg.SEC_RETIRES))).saAt k = s.saAt k := by
    rw [saAt_emptySlot, if_neg other]
    exact saAt_of_sec (secEvent_sec ..) k
  exact (saAt_refill_held _ _ (by rw [emptied]; exact held)).trans emptied

/-- The overlap timer retires the SA of a slot that is OLD. -/
def overlapStep (i sa : Nat) (s : State) : State := if (s.saAt sa).state == .old then retireRx i sa s else s

theorem overlapExpire_eq (used : (s.scAt true i).inUse = true) : overlapExpire i s =
    overlapStep i (scSa (s.scAt true i) 1) (overlapStep i (scSa (s.scAt true i) 0) s) := by
  unfold overlapExpire
  dsimp only
  rw [if_pos used]
  rfl

theorem overlapStep_old {sa : Nat} (old : (s.saAt sa).state = .old) :
    Cleared ((overlapStep i sa s).saAt sa) ∧ (overlapStep i sa s).bit Reg.SEC_EVT 2 = true := by
  rw [overlapStep, old, if_pos (by rfl)]
  exact retireRx_shows sa

theorem overlapStep_cleared {sa k : Nat} (cleared : Cleared (s.saAt k)) (shown : s.bit Reg.SEC_EVT 2 = true) :
    Cleared ((overlapStep i sa s).saAt k) ∧ (overlapStep i sa s).bit Reg.SEC_EVT 2 = true := by
  unfold overlapStep
  split
  · exact ⟨cleared.retireRx sa, (retireRx_shows sa).2⟩
  · exact ⟨cleared, shown⟩

theorem saAt_overlapStep_held {sa k : Nat} (other : k ≠ sa) (held : (s.saAt k).state ≠ .empty) :
    (overlapStep i sa s).saAt k = s.saAt k := by
  unfold overlapStep
  split
  · exact saAt_retireRx_held other held
  · rfl

/-- Both slots of the SC are looked at, and the one that is OLD ends whatever the other was. -/
theorem overlapExpire_shows {slot : Nat} (lt : slot < 2) (used : (s.scAt true i).inUse = true)
    (old : (s.saAt (scSa (s.scAt true i) slot)).state = .old) :
    Cleared ((overlapExpire i s).saAt (scSa (s.scAt true i) slot)) ∧ (overlapExpire i s).bit Reg.SEC_EVT 2 = true := by
  rw [overlapExpire_eq used]
  by_cases first : scSa (s.scAt true i) slot = scSa (s.scAt true i) 0
  · rw [first] at old ⊢
    obtain ⟨cleared, shown⟩ := overlapStep_old (i := i) old
    exact overlapStep_cleared cleared shown
  · have second : slot = 1 := by
      rcases Nat.lt_succ_iff_lt_or_eq.mp lt with h | h
      · rw [Nat.lt_one_iff.mp h] at first
        exact absurd rfl first
      · exact h
    subst second
    exact overlapStep_old (by rw [saAt_overlapStep_held first (by rw [old]; decide), old])

/-! ## The statement -/

/-- Settles O35: each end empties the slot, and what follows in the same step can at most ask for its next fill, which
leaves it without a key. -/
theorem expiredKeysAreCleared : Obligations.ExpiredKeysAreCleared := by
  unfold Obligations.ExpiredKeysAreCleared
  intro s core cleared
  have clears {sa : Nat} {u : State} (h : Cleared (u.saAt sa)) : cleared sa u := ⟨h.key, h.ready, h.state⟩
  refine ⟨fun i sa cur used past => ?hard, fun sa i rx owner orphan live => ?orphan, fun i slot lt used old => ?overlap,
    fun i c gap cur live => ?hold, fun i flowing => ?flowing⟩
  case hard =>
    refine answers_powered core (f := pnHard i.val) rfl ?_
    rw [pnHard_spends (s := s.fresh) cur used past]
    exact (saSpent_shows sa).imp_left clears
  case orphan =>
    refine answers_powered core (f := orphanExpire sa.val) rfl ?_
    cases rx with
    | false =>
      rw [orphanExpire_tx (s := s.fresh) owner orphan live rfl]
      have spent := (saSpent_shows (i := i) (s := s.fresh) sa.val).1
      exact ⟨clears spent, spent.orphan, fun h => by cases h⟩
    | true =>
      have slot : Cleared ((orphanExpire sa.val s.fresh).saAt sa.val) := by
        rw [orphanExpire_rx (s := s.fresh) owner orphan live rfl]
        refine Cleared.refill ?_ ..
        rw [saAt_currentLost]
        exact cleared_emptySlot _
      refine ⟨clears slot, slot.orphan, fun _ => ?_⟩
      rw [orphanExpire_rx (s := s.fresh) owner orphan live rfl, State.rd_of_regs (refill_regs ..),
        (secOnly_currentLost ..).rd (by decide) List.not_mem_nil]
      exact emptySlot_orphanCount orphan
  case overlap =>
    refine answers_powered core (f := overlapExpire i.val) rfl ?_
    exact (overlapExpire_shows (s := s.fresh) lt used old).imp_left clears
  case hold =>
    refine answers_powered core (f := holdLimit i.val) rfl ?_
    rw [holdLimit, if_pos (by exact gap), scAt_gapEmpty]
    exact ⟨clears (saAt_gapEmpty (s := s.fresh) cur live), rfl, gap⟩
  case flowing =>
    refine answers_powered core (f := holdLimit i.val) rfl ?_
    rw [holdLimit, if_neg (by rw [show (s.fresh.scAt false i.val).gap = false from flowing]; decide)]

end Sys2Proof.Machine
end

section
/-! SUPPORT. The SECW commit: the check, what each operation leaves of the tables, and the end of the check (R193 to
R196). -/

namespace Sys2Proof.Machine

variable {s t u : State}

/-! ## The journal writes no register and no table -/

theorem journalMark_sec (sa b : Nat) : (journalMark sa b s).sec = s.sec := by
  unfold journalMark
  split <;> rfl

theorem journalMark_regs (sa b : Nat) : (journalMark sa b s).regs = s.regs := by
  unfold journalMark
  split <;> rfl

theorem journalSc_regs (rx : Bool) (i : Nat) : (journalSc rx i s).regs = s.regs := by
  unfold journalSc
  dsimp only
  split <;> rfl

theorem setSc_regs (rx : Bool) (i : Nat) (e : ScEntry) : (s.setSc rx i e).regs = s.regs := by
  cases rx <;> rfl

theorem setSc_sa (rx : Bool) (i : Nat) (e : ScEntry) : (s.setSc rx i e).sec.sa = s.sec.sa := by
  cases rx <;> rfl

/-- An SC and its two MARKs journalled anew (R195, R196, R210). -/
def scJournalled (rx : Bool) (i : Nat) (e : ScEntry) (s : State) : State :=
  journalSc rx i (journalMark (scSa e 0) 0 (journalMark (scSa e 1) 0 s))

theorem scJournalled_sec (rx : Bool) (i : Nat) (e : ScEntry) : (scJournalled rx i e s).sec = s.sec :=
  (journalSc_sec ..).trans ((journalMark_sec ..).trans (journalMark_sec ..))

theorem scJournalled_regs (rx : Bool) (i : Nat) (e : ScEntry) : (scJournalled rx i e s).regs = s.regs :=
  (journalSc_regs ..).trans ((journalMark_regs ..).trans (journalMark_regs ..))

/-! ## The commit (R193, R194) -/

/-- The commit of `op` is the row of that operation. -/
theorem exec_commit {op : Nat} {c : Instr}
    (h : (op, c) ∈ [(0, Instr.scwCommitNoOp), (1, .scCreate), (2, .scModify), (3, .scDelete)]) (s : State) :
    exec c s = powered (hostWrite Reg.SEC_SCW_COMMIT (secwCommitOp op)) s := by
  simp only [List.mem_cons, Prod.mk.injEq, List.not_mem_nil, or_false] at h
  rcases h with ⟨rfl, rfl⟩ | ⟨rfl, rfl⟩ | ⟨rfl, rfl⟩ | ⟨rfl, rfl⟩ <;> rfl

/-- A check begun with its code. -/
def checkBegun (code : Nat) (s : State) : State :=
  { s with sec := { s.sec with scwCode := code } }.setBit Reg.SEC_SCW_STATUS 0 true

theorem regsBut_checkBegun (code : Nat) : RegsBut [Reg.SEC_SCW_STATUS] s (checkBegun code s) :=
  regsBut_wr (s := { s with sec := { s.sec with scwCode := code } }) Reg.SEC_SCW_STATUS _

theorem checkBegun_busy (code : Nat) : (checkBegun code s).bit Reg.SEC_SCW_STATUS 0 = true :=
  State.bit_setBit_same _ _ _ _ (by decide)

/-- A commit that is accepted acts at once, and the standby is told. -/
def scActed (i : Nat) (rx : Bool) (code : Nat) (t : State) : State := checkBegun code (t.mirror (HrnMsg.sc i rx))

/-- What a commit does to the channel it selects. -/
def commitEffect (s : State) : State :=
  if secwCode s = 1 then scStage (s.bit Reg.SEC_SCW_SEL 16) (s.rdF Reg.SEC_SCW_SEL 0 16) (stagedWords s) s
  else if secwCode s = 0 then
    if s.rdF Reg.SEC_SCW_OP 0 2 = 1 then
      scInstall (s.bit Reg.SEC_SCW_SEL 16) (s.rdF Reg.SEC_SCW_SEL 0 16) (stagedWords s) s
    else scRemove (s.bit Reg.SEC_SCW_SEL 16) (s.rdF Reg.SEC_SCW_SEL 0 16) s
  else s

theorem secwCommit_idle (idle : s.bit Reg.SEC_SCW_STATUS 0 = false) : secwCommit s = checkBegun (secwCode s)
    (if secwCode s < 2 then (commitEffect s).mirror (HrnMsg.sc (s.rdF Reg.SEC_SCW_SEL 0 16) (s.bit Reg.SEC_SCW_SEL 16))
     else commitEffect s) := by
  rw [secwCommit, idle, if_neg Bool.false_ne_true]
  rfl

section
variable {op : Nat} (named : s.rdF Reg.SEC_SCW_OP 0 2 = op)
include named

theorem secwCommitOp_busy (busy : s.bit Reg.SEC_SCW_STATUS 0 = true) :
    secwCommitOp op s = s.setBit Reg.SEC_SCW_STATUS 1 true := by
  rw [secwCommitOp, if_pos named, secwCommit, if_pos busy]

variable (idle : s.bit Reg.SEC_SCW_STATUS 0 = false)
include idle

theorem secwCommitOp_failed (bad : 2 ≤ secwCode s) : secwCommitOp op s = checkBegun (secwCode s) s := by
  rw [secwCommitOp, if_pos named, secwCommit_idle idle, if_neg (by omega), commitEffect, if_neg (by omega),
    if_neg (by omega)]

theorem secwCommitOp_create (h : op = 1) (good : secwCode s = 0) :
    secwCommitOp op s = scActed (s.rdF Reg.SEC_SCW_SEL 0 16) (s.bit Reg.SEC_SCW_SEL 16) 0
      (scInstall (s.bit Reg.SEC_SCW_SEL 16) (s.rdF Reg.SEC_SCW_SEL 0 16) (stagedWords s) s) := by
  rw [secwCommitOp, if_pos named, secwCommit_idle idle, if_pos (by omega), commitEffect, if_neg (by omega),
    if_pos good, if_pos (by omega), good]
  rfl

theorem secwCommitOp_modify (good : secwCode s = 1) :
    secwCommitOp op s = scActed (s.rdF Reg.SEC_SCW_SEL 0 16) (s.bit Reg.SEC_SCW_SEL 16) 1
      (scStage (s.bit Reg.SEC_SCW_SEL 16) (s.rdF Reg.SEC_SCW_SEL 0 16) (stagedWords s) s) := by
  rw [secwCommitOp, if_pos named, secwCommit_idle idle, if_pos (by omega), commitEffect, if_pos good, good]
  rfl

theorem secwCommitOp_delete (h : op = 3) (good : secwCode s = 0) :
    secwCommitOp op s = scActed (s.rdF Reg.SEC_SCW_SEL 0 16) (s.bit Reg.SEC_SCW_SEL 16) 0
      (scRemove (s.bit Reg.SEC_SCW_SEL 16) (s.rdF Reg.SEC_SCW_SEL 0 16) s) := by
  rw [secwCommitOp, if_pos named, secwCommit_idle idle, if_pos (by omega), commitEffect, if_neg (by omega),
    if_pos good, if_neg (by omega), good]
  rfl

end

/-- What is left when an operation that was accepted has acted. -/
theorem scActed_shows (i : Nat) (rx : Bool) (code : Nat) (t : State) :
    (∀ ry j, (scActed i rx code t).scAt ry j = t.scAt ry j) ∧ (∀ k, (scActed i rx code t).saAt k = t.saAt k) ∧
    (scActed i rx code t).sec = { t.sec with scwCode := code } ∧
    (scActed i rx code t).bit Reg.SEC_SCW_STATUS 0 = true ∧
    RegsBut [Reg.SEC_SCW_STATUS] t (scActed i rx code t) :=
  ⟨fun _ _ => rfl, fun _ => rfl, rfl, checkBegun_busy code, regsBut_checkBegun (s := t.mirror _) code⟩

/-! ## CREATE (R195) -/

theorem ne_and_of_ite_eq {α : Type} {c : Prop} [Decidable c] {a b z : α} (h : (if c then a else b) = z) (ne : a ≠ z) :
    ¬c ∧ b = z := by
  by_cases hc : c
  · rw [if_pos hc] at h
    exact absurd h ne
  · rw [if_neg hc] at h
    exact ⟨hc, h⟩

/-- A CREATE that passes the check names two SA entries (R194, code 0x16). -/
theorem secwCode_apart (op : s.rdF Reg.SEC_SCW_OP 0 2 = 1) (good : secwCode s = 0) :
    scSa { words := stagedWords s } 0 ≠ scSa { words := stagedWords s } 1 := by
  unfold secwCode at good
  dsimp only at good
  obtain ⟨-, good⟩ := ne_and_of_ite_eq good (by decide)
  obtain ⟨-, good⟩ := ne_and_of_ite_eq good (by decide)
  obtain ⟨-, good⟩ := ne_and_of_ite_eq good (by decide)
  obtain ⟨-, good⟩ := ne_and_of_ite_eq good (by decide)
  obtain ⟨-, good⟩ := ne_and_of_ite_eq good (by decide)
  obtain ⟨-, good⟩ := ne_and_of_ite_eq good (by decide)
  obtain ⟨-, good⟩ := ne_and_of_ite_eq good (by decide)
  obtain ⟨apart, -⟩ := ne_and_of_ite_eq good (by decide)
  intro same
  refine apart ?_
  simp only [op, same, beq_self_eq_true, Bool.true_or, Bool.true_and]

/-- A new SC with its two slots EMPTY, before it is journalled. -/
def scMade (rx : Bool) (i : Nat) (e : ScEntry) (s : State) : State :=
  let s := s.setSc rx i e
  let s := s.setSa (scSa e 0) (freshSa (s.saAt (scSa e 0)) (some (i, rx)))
  s.setSa (scSa e 1) (freshSa (s.saAt (scSa e 1)) (some (i, rx)))

theorem scInstall_eq (rx : Bool) (i : Nat) (w : List Nat) : scInstall rx i w s =
    scJournalled rx i { inUse := true, words := w } (scMade rx i { inUse := true, words := w } s) := rfl

theorem saAt_scMade {rx : Bool} {i k : Nat} {e : ScEntry} (apart : scSa e 0 ≠ scSa e 1) (lt : k < 2) :
    (scMade rx i e s).saAt (scSa e k) = freshSa (s.saAt (scSa e k)) (some (i, rx)) := by
  unfold scMade
  dsimp only
  rcases Nat.lt_succ_iff_lt_or_eq.mp lt with h | rfl
  · rw [Nat.lt_one_iff.mp h, saAt_setSa_ne _ apart, saAt_setSa_same, saAt_setSc]
  · rw [saAt_setSa_same, saAt_setSa_ne _ apart.symm, saAt_setSc]

theorem scMade_regs (rx : Bool) (i : Nat) (e : ScEntry) : (scMade rx i e s).regs = s.regs := setSc_regs ..

/-! ## MODIFY (R195) -/

/-- A MODIFY held pending. -/
def modifyHeld (rx : Bool) (i : Nat) (w : List Nat) (s : State) : State :=
  s.setSc rx i { s.scAt rx i with pending := some w }

/-- A slot that becomes current together with a pending MODIFY. -/
def comesNext (e : ScEntry) (s : State) (slot : Nat) : Bool :=
  e.cur != some slot && ((s.saAt (scSa e slot)).state == .filling || (s.saAt (scSa e slot)).state == .ready)

/-- Such a slot goes on under another suite of its key length. -/
def reciphered (c : Nat) (e : ScEntry) (s : State) (slot : Nat) : State :=
  if comesNext e s slot then s.setSa (scSa e slot) (recipher c s (s.saAt (scSa e slot))) else s

/-- Such a slot is cleared by a change of key length. -/
def nextCleared (e : ScEntry) (s : State) (slot : Nat) : State :=
  if comesNext e s slot then emptySlot (scSa e slot) s else s

/-- A change of key length: the next slot cleared and asked for anew. -/
def lengthChanged (rx : Bool) (i : Nat) (w : List Nat) (s : State) : State :=
  refill rx i (nextCleared (s.scAt rx i) (nextCleared (s.scAt rx i) (modifyHeld rx i w s) 0) 1)

theorem scStage_eq (rx : Bool) (i : Nat) (w : List Nat) : scStage rx i w s =
    if keyLen (field (w.getD 0 0) 0 2) = keyLen (nextCipher (s.scAt rx i)) then
      if field (w.getD 0 0) 0 2 = nextCipher (s.scAt rx i) then modifyHeld rx i w s
      else (reciphered (field (w.getD 0 0) 0 2) (s.scAt rx i)
        (reciphered (field (w.getD 0 0) 0 2) (s.scAt rx i) (modifyHeld rx i w s) 0) 1).drawn
    else if rx then lengthChanged rx i w s else gapCheck i (lengthChanged rx i w s) := rfl

theorem scAt_modifyHeld (rx : Bool) (i : Nat) (w : List Nat) :
    (modifyHeld rx i w s).scAt rx i = { s.scAt rx i with pending := some w } := scAt_setSc_same ..

theorem scAt_lengthChanged (rx : Bool) (i : Nat) (w : List Nat) :
    (lengthChanged rx i w s).scAt rx i = { s.scAt rx i with pending := some w } := by
  have cleared (e : ScEntry) (t : State) (slot : Nat) : (nextCleared e t slot).scAt rx i = t.scAt rx i := by
    unfold nextCleared
    split
    · exact scAt_emptySlot ..
    · rfl
  rw [lengthChanged, scAt_refill, cleared, cleared, scAt_modifyHeld]

/-- A MODIFY is held pending whatever becomes of the next slot. -/
theorem scAt_scStage (rx : Bool) (i : Nat) (w : List Nat) : ((scStage rx i w s).scAt rx i).pending = some w ∧
    ((scStage rx i w s).scAt rx i).words = (s.scAt rx i).words ∧
    ((scStage rx i w s).scAt rx i).inUse = (s.scAt rx i).inUse := by
  have suite (c : Nat) (e : ScEntry) (t : State) (slot : Nat) : (reciphered c e t slot).scAt rx i = t.scAt rx i := by
    unfold reciphered
    split <;> rfl
  rw [scStage_eq]
  split
  · split
    · rw [scAt_modifyHeld]
      exact ⟨rfl, rfl, rfl⟩
    · rw [show ∀ t : State, t.drawn.scAt rx i = t.scAt rx i from fun _ => rfl, suite, suite, scAt_modifyHeld]
      exact ⟨rfl, rfl, rfl⟩
  · cases rx with
    | true =>
      rw [if_pos rfl, scAt_lengthChanged]
      exact ⟨rfl, rfl, rfl⟩
    | false =>
      obtain ⟨_, _, _, _, entry⟩ := (gapOnly_gapCheck (i := i) (s := lengthChanged false i w s)).entry
      rw [if_neg Bool.false_ne_true, entry, scAt_lengthChanged]
      exact ⟨rfl, rfl, rfl⟩

theorem saAt_reciphered_ne {c slot k : Nat} {e : ScEntry} (h : k ≠ scSa e slot) :
    (reciphered c e s slot).saAt k = s.saAt k := by
  unfold reciphered
  split
  · exact saAt_setSa_ne _ h
  · rfl

theorem saAt_reciphered {c slot : Nat} {e : ScEntry} (h : comesNext e s slot = true) :
    (reciphered c e s slot).saAt (scSa e slot) = recipher c s (s.saAt (scSa e slot)) := by
  rw [reciphered, if_pos h, saAt_setSa_same]

theorem reciphered_regs (c slot : Nat) (e : ScEntry) : (reciphered c e s slot).regs = s.regs := by
  unfold reciphered
  split <;> rfl

theorem comesNext_ready {e : ScEntry} {slot : Nat} (other : e.cur ≠ some slot)
    (ready : (s.saAt (scSa e slot)).state = .ready) : comesNext e s slot = true := by
  rw [comesNext, ready, bne_iff_ne.mpr other]
  rfl

section
variable {rx : Bool} {i : Nat} {w : List Nat}
  (same : keyLen (field (w.getD 0 0) 0 2) = keyLen (nextCipher (s.scAt rx i)))
include same

/-- Within a key length a MODIFY only holds its words, and a READY next slot stays READY under the new suite. -/
theorem scStage_same : (scStage rx i w s).scAt rx i = { s.scAt rx i with pending := some w } ∧
    (scStage rx i w s).regs = s.regs ∧
    (field (w.getD 0 0) 0 2 = nextCipher (s.scAt rx i) → (scStage rx i w s).sec.sa = s.sec.sa) := by
  rw [scStage_eq, if_pos same]
  split
  next keeps => exact ⟨scAt_modifyHeld .., setSc_regs .., fun _ => setSc_sa ..⟩
  next changes =>
    refine ⟨?_, (reciphered_regs ..).trans ((reciphered_regs ..).trans (setSc_regs ..)), fun h => absurd h changes⟩
    have suite (c : Nat) (e : ScEntry) (t : State) (slot : Nat) : (reciphered c e t slot).scAt rx i = t.scAt rx i := by
      unfold reciphered
      split <;> rfl
    exact (suite ..).trans ((suite ..).trans (scAt_modifyHeld ..))

theorem saAt_scStage_ready {k : Nat} (lt : k < 2) (other : (s.scAt rx i).cur ≠ some k)
    (apart : scSa (s.scAt rx i) k ≠ scSa (s.scAt rx i) (1 - k)) (ready : (s.saAt (scSa (s.scAt rx i) k)).state = .ready) :
    let a := (scStage rx i w s).saAt (scSa (s.scAt rx i) k)
    a.state = .ready ∧ a.key = (s.saAt (scSa (s.scAt rx i) k)).key ∧
    (field (w.getD 0 0) 0 2 ≠ nextCipher (s.scAt rx i) → a.cipher = field (w.getD 0 0) 0 2) := by
  have held (j : Nat) : (modifyHeld rx i w s).saAt j = s.saAt j := saAt_setSc ..
  dsimp only
  rw [scStage_eq, if_pos same]
  split
  next keeps =>
    rw [held]
    exact ⟨ready, rfl, fun h => absurd keeps h⟩
  next changes =>
    rw [show ∀ (t : State) j, t.drawn.saAt j = t.saAt j from fun _ _ => rfl]
    rcases Nat.lt_succ_iff_lt_or_eq.mp lt with h | rfl
    · rw [Nat.lt_one_iff.mp h] at apart ready other ⊢
      rw [saAt_reciphered_ne apart, saAt_reciphered (comesNext_ready other (by rw [held, ready])), held]
      exact ⟨ready, rfl, fun _ => rfl⟩
    · have first (c : Nat) := (saAt_reciphered_ne (s := modifyHeld rx i w s) (c := c) apart).trans (held _)
      rw [saAt_reciphered (comesNext_ready other (by rw [first, ready])), first]
      exact ⟨ready, rfl, fun _ => rfl⟩

end

/-! ## DELETE (R196) -/

/-- A slot emptied and without an owner. -/
def freed (sa : Nat) (s : State) : State := (emptySlot sa s).setSa sa (freshSa ((emptySlot sa s).saAt sa) none)

theorem saAt_freed (sa k : Nat) : (freed sa s).saAt k = if k = sa then freshSa (s.saAt sa) none else s.saAt k := by
  rw [freed, saAt_setSa, saAt_emptySlot_same, saAt_emptySlot]
  split <;> rfl

theorem freshSa_freshSa (a : SaEntry) (o p : Option (Nat × Bool)) : freshSa (freshSa a o) p = freshSa a p := rfl

theorem scAt_freed (sa : Nat) (rx : Bool) (j : Nat) : (freed sa s).scAt rx j = s.scAt rx j := scAt_emptySlot ..

theorem secOnly_freed (sa : Nat) : SecOnly emptyRegs s (freed sa s) := (secOnly_emptySlot sa).trans (secOnly_setSa ..)

/-- A deleted SC with both its slots free, before it is journalled. -/
def scGone (rx : Bool) (i : Nat) (s : State) : State :=
  let e := s.scAt rx i
  let t := (freed (scSa e 1) (freed (scSa e 0) s)).setSc rx i { deleted := true }
  if rx then t else setGapBit i false t

theorem scRemove_eq (rx : Bool) (i : Nat) : scRemove rx i s = scJournalled rx i (s.scAt rx i) (scGone rx i s) := rfl

theorem scGone_sec (rx : Bool) (i : Nat) : (scGone rx i s).sec =
    ((freed (scSa (s.scAt rx i) 1) (freed (scSa (s.scAt rx i) 0) s)).setSc rx i { deleted := true }).sec := by
  cases rx <;> rfl

theorem saAt_scGone (rx : Bool) (i : Nat) {k : Nat} (lt : k < 2) :
    (scGone rx i s).saAt (scSa (s.scAt rx i) k) = freshSa (s.saAt (scSa (s.scAt rx i) k)) none := by
  rw [saAt_of_sec (scGone_sec rx i), saAt_setSc, saAt_freed, saAt_freed, saAt_freed]
  rcases Nat.lt_succ_iff_lt_or_eq.mp lt with h | rfl
  · rw [Nat.lt_one_iff.mp h, if_pos rfl]
    split
    next same => rw [if_pos same.symm, freshSa_freshSa]
    · rfl
  · rw [if_pos rfl]
    split
    next same => rw [← same, freshSa_freshSa]
    · rfl

theorem scAt_scGone (rx : Bool) (i : Nat) : (scGone rx i s).scAt rx i = { deleted := true } := by
  rw [scAt_of_sec (scGone_sec rx i), scAt_setSc_same]

theorem scAt_scGone_ne {rx ry : Bool} {i j : Nat} (h : (ry, j) ≠ (rx, i)) :
    (scGone rx i s).scAt ry j = s.scAt ry j := by
  rw [scAt_of_sec (scGone_sec rx i), scAt_setSc_ne _ h, scAt_freed, scAt_freed]

theorem coreRegsBut_scGone (rx : Bool) (i : Nat) :
    CoreRegsBut (Reg.SEC_TXGAP (i / 32) :: emptyRegs) s (scGone rx i s) := by
  have freed : SecOnly (Reg.SEC_TXGAP (i / 32) :: emptyRegs) s
      ((freed (scSa (s.scAt rx i) 1) (freed (scSa (s.scAt rx i) 0) s)).setSc rx i { deleted := true }) :=
    (((secOnly_freed _).trans (secOnly_freed _)).mono (List.subset_cons_self ..)).trans (secOnly_setSc ..)
  unfold scGone
  dsimp only
  exact (freed.ite (freed.trans (secOnly_wr _ List.mem_cons_self))).regs

/-! ## The end of the check (R193) -/

theorem answers_scwResult (core : coreRuns s = true) (busy : s.bit Reg.SEC_SCW_STATUS 0 = true) :
    Answers .scwResult s (fun u =>
      u.bit Reg.SEC_SCW_STATUS 0 = false ∧ u.rdF Reg.SEC_SCW_STATUS 8 8 = s.sec.scwCode % 256 ∧
      OnlyRegs [Reg.SEC_SCW_STATUS] s u) := by
  refine answers_powered core (f := scwResult) rfl ?_
  rw [scwResult, if_pos (by exact busy)]
  refine ⟨State.bit_setBit_same _ _ _ _ (by decide), ?_, onlyRegs_fresh.trans ((onlyRegs_wrF 8 8 _ (by decide)).trans
    (onlyRegs_setBit 0 false (by decide)))⟩
  rw [State.setBit, State.rdF_wrF_off _ _ _ _ _ (by decide) (by decide), State.rdF_wrF_same _ _ _ _ _ (by decide)]
  rfl

end Sys2Proof.Machine
end

section
/-! SUPPORT. The readback registers of an SC and of an SA (R221). -/

namespace Sys2Proof.Machine

variable {s : State}

/-! ## Registers written one after another -/

/-- Each of several registers, written in turn, reads as the value written. -/
theorem rd_foldl_wr {f g : Nat → Nat} {l : List Nat} (inj : ∀ j ∈ l, ∀ k ∈ l, f j = f k → j = k) {k : Nat} (mem : k ∈ l) :
    (l.foldl (fun s k => s.wr (f k) (g k)) s).rd (f k) = g k % 2 ^ 32 := by
  induction l generalizing s with
  | nil => cases mem
  | cons j l ih =>
    rw [List.foldl_cons]
    by_cases later : k ∈ l
    · exact ih (fun a ha b hb => inj a (List.mem_cons_of_mem _ ha) b (List.mem_cons_of_mem _ hb)) later
    · obtain rfl := (List.mem_cons.mp mem).resolve_right later
      rw [rd_foldl_of_forall l fun t m hm => State.rd_wr_ne t _ fun e =>
        later (inj k mem m (List.mem_cons_of_mem _ hm) e ▸ hm), State.rd_wr_same]

/-! ## An SC (R221) -/

/-- SEC_SCR_STATE as its bits: in use, the current slot, and six flags. -/
theorem scState_bits : ∀ c < 2, ∀ k r g h p t : Bool,
    let v := b2n true + 2 * c + 4 * b2n k + 8 * b2n r + 16 * b2n g + 32 * b2n h + 64 * b2n p + 128 * b2n t
    (v % 2 ^ 32).testBit 0 = true ∧ field (v % 2 ^ 32) 1 1 = c ∧ (v % 2 ^ 32).testBit 2 = k ∧
    (v % 2 ^ 32).testBit 3 = r ∧ (v % 2 ^ 32).testBit 4 = g ∧ (v % 2 ^ 32).testBit 6 = p := by decide

/-- The words of an SC as a readback loads them. -/
def scWordsLoaded (v : Nat) (s : State) : State :=
  (List.range 8).foldl (fun t k => t.wr (Reg.SEC_SCR_W k) (scWord (s.scAt (v.testBit 16) (v % 65536)) k))
    (s.wr Reg.SEC_SCR_SEL (v % 2 ^ 17))

theorem scReadback_eq (v : Nat) : scReadback v s = ((scWordsLoaded v s).wr Reg.SEC_SCR_STATE
    (if (s.scAt (v.testBit 16) (v % 65536)).inUse then scState (scWordsLoaded v s) (v.testBit 16) (v % 65536) else 0)).wr
    Reg.SEC_SCR_EPOCH (s.scAt (v.testBit 16) (v % 65536)).epoch := rfl

theorem onlyRegs_scWordsLoaded (v : Nat) :
    OnlyRegs (Reg.SEC_SCR_SEL :: (List.range 8).map Reg.SEC_SCR_W) s (scWordsLoaded v s) :=
  List.foldlRecOn _ _ (onlyRegs_wr _ List.mem_cons_self) fun _ ht _ hk =>
    ht.trans (onlyRegs_wr _ (List.mem_cons_of_mem _ (List.mem_map_of_mem hk)))

theorem scWordsLoaded_rd (v : Nat) {k : Nat} (lt : k < 8) :
    (scWordsLoaded v s).rd (Reg.SEC_SCR_W k) = scWord (s.scAt (v.testBit 16) (v % 65536)) k % 2 ^ 32 :=
  rd_foldl_wr (f := Reg.SEC_SCR_W) (g := scWord (s.scAt (v.testBit 16) (v % 65536))) (by decide) (List.mem_range.mpr lt)

theorem scWordsLoaded_sec (v : Nat) : (scWordsLoaded v s).sec = s.sec := by rw [(onlyRegs_scWordsLoaded v).2]

theorem scReadback_words (v : Nat) {k : Nat} (lt : k < 8) :
    (scReadback v s).rd (Reg.SEC_SCR_W k) = scWord (s.scAt (v.testBit 16) (v % 65536)) k % 2 ^ 32 := by
  have apart : Reg.SEC_SCR_W k ≠ Reg.SEC_SCR_EPOCH ∧ Reg.SEC_SCR_W k ≠ Reg.SEC_SCR_STATE := by
    unfold Reg.SEC_SCR_W Reg.SEC_SCR_EPOCH Reg.SEC_SCR_STATE
    omega
  rw [scReadback_eq, State.rd_wr_ne _ _ apart.1, State.rd_wr_ne _ _ apart.2, scWordsLoaded_rd v lt]

theorem scReadback_state (v : Nat) : (scReadback v s).rd Reg.SEC_SCR_STATE =
    (if (s.scAt (v.testBit 16) (v % 65536)).inUse then scState (scWordsLoaded v s) (v.testBit 16) (v % 65536) else 0) %
      2 ^ 32 := by
  rw [scReadback_eq, State.rd_wr_ne _ _ (by decide), State.rd_wr_same]

theorem onlyRegs_scReadback (v : Nat) : OnlyRegs
    (Reg.SEC_SCR_SEL :: Reg.SEC_SCR_STATE :: Reg.SEC_SCR_EPOCH :: (List.range 8).map Reg.SEC_SCR_W) s (scReadback v s) := by
  have loaded := onlyRegs_scWordsLoaded (s := s) v
  have wider : OnlyRegs (Reg.SEC_SCR_SEL :: Reg.SEC_SCR_STATE :: Reg.SEC_SCR_EPOCH :: (List.range 8).map Reg.SEC_SCR_W) s
      (scWordsLoaded v s) :=
    ⟨fun a ha => loaded.1 a fun m => ha (by
      rcases List.mem_cons.mp m with h | h
      · exact h ▸ List.mem_cons_self
      · exact List.mem_cons_of_mem _ (List.mem_cons_of_mem _ (List.mem_cons_of_mem _ h))), loaded.2⟩
  exact wider.trans ((onlyRegs_wr _ (by simp)).trans (onlyRegs_wr _ (by simp)))

theorem answers_scReadback {v : Word} (served : Served s Reg.SEC_SCR_SEL) :
    let e := s.scAt (v.toNat.testBit 16) (v.toNat % 65536)
    Answers (.scReadbackSelect v) s (fun u =>
      (∀ k < 8, u.rd (Reg.SEC_SCR_W k) = scWord e k % 2 ^ 32) ∧ u.rd Reg.SEC_SCR_EPOCH = e.epoch % 2 ^ 32 ∧
      (e.inUse = true → e.cur.getD 0 < 2 → u.bit Reg.SEC_SCR_STATE 0 = true ∧
        u.rdF Reg.SEC_SCR_STATE 1 1 = e.cur.getD 0 ∧ u.bit Reg.SEC_SCR_STATE 2 = hasCurrent s e ∧
        u.bit Reg.SEC_SCR_STATE 3 = nextReady s e ∧ u.bit Reg.SEC_SCR_STATE 4 = e.gap ∧
        u.bit Reg.SEC_SCR_STATE 6 = e.pending.isSome) ∧
      (e.inUse = false → u.rd Reg.SEC_SCR_STATE = 0) ∧
      OnlyRegs (Reg.SEC_SCR_SEL :: Reg.SEC_SCR_STATE :: Reg.SEC_SCR_EPOCH :: (List.range 8).map Reg.SEC_SCR_W) s u) := by
  intro e
  refine answers_hostWrite served (f := scReadback v.toNat) rfl ?_
  refine ⟨fun k lt => scReadback_words (s := s.fresh) _ lt, State.rd_wr_same .., fun used slot => ?_, fun free => ?_,
    onlyRegs_fresh.trans (onlyRegs_scReadback _)⟩
  · have sec : (scWordsLoaded v.toNat s.fresh).sec = s.sec := scWordsLoaded_sec (s := s.fresh) _
    have entry : (scWordsLoaded v.toNat s.fresh).scAt (v.toNat.testBit 16) (v.toNat % 65536) = e := scAt_of_sec sec ..
    have live : hasCurrent (scWordsLoaded v.toNat s.fresh) e = hasCurrent s e := by
      unfold hasCurrent
      split
      · rw [saAt_of_sec sec]
      · rfl
    simp only [State.bit, State.rdF]
    rw [scReadback_state (s := s.fresh), if_pos (by exact used), scState, entry, used, live,
      nextReady_congr (saAt_of_sec sec)]
    exact scState_bits _ slot ..
  · rw [scReadback_state (s := s.fresh), if_neg (by exact Bool.eq_false_iff.mp free), Nat.zero_mod]

/-! ## An SA (R221) -/

theorem slotCode_lt (x : SlotState) : slotCode x < 8 := by cases x <;> decide

/-- SEC_SAR_STATE begins with the slot state and READY. -/
theorem saState_low (a : SaEntry) : ∃ n, saState a = slotCode a.state + 8 * b2n a.ready + 16 * n := by
  unfold saState
  split
  next i rx _ => exact ⟨a.epoch % 4 + 4 * b2n a.derived + 8 * b2n a.orphan +
    16 * b2n (a.state != .empty && keyLen a.cipher == 32) + 2 ^ 12 * i + 2 ^ 27 * b2n rx, by ring⟩
  · exact ⟨a.epoch % 4 + 4 * b2n a.derived + 8 * b2n a.orphan +
      16 * b2n (a.state != .empty && keyLen a.cipher == 32), by ring⟩

theorem saState_reads (a : SaEntry) : field (saState a % 2 ^ 32) 0 3 = slotCode a.state ∧
    (saState a % 2 ^ 32).testBit 3 = a.ready := by
  obtain ⟨n, h⟩ := saState_low a
  have lt := slotCode_lt a.state
  rw [testBit_eq_field, field_eq, field_eq, h]
  cases a.ready <;> simp only [b2n, if_pos, if_neg Bool.false_ne_true] <;> refine ⟨by omega, ?_⟩
  · exact decide_eq_false (by omega)
  · exact decide_eq_true (by omega)

/-- The registers that a readback of an SA loads. -/
def sarRegs : List Nat := [Reg.SEC_SAR_SEL, Reg.SEC_SAR_STATE, Reg.SEC_SAR_EPOCH, Reg.SEC_SAR_PN 0, Reg.SEC_SAR_PN 0 + 4,
  Reg.SEC_SAR_MARK_LO, Reg.SEC_SAR_MARK_HI, Reg.SEC_SAR_SSCI]

theorem onlyRegs_saReadback (v : Nat) : OnlyRegs sarRegs s (saReadback v s) := by
  have stored (a x : Nat) (h : a ∈ sarRegs) (w : State) : OnlyRegs sarRegs w (w.wr a x) := onlyRegs_wr x h
  unfold saReadback State.wr64
  dsimp only
  exact ((stored Reg.SEC_SAR_SEL _ (by decide) s).trans <| (stored Reg.SEC_SAR_STATE _ (by decide) _).trans <|
    (stored Reg.SEC_SAR_EPOCH _ (by decide) _).trans <| (stored (Reg.SEC_SAR_PN 0) _ (by decide) _).trans <|
    (stored (Reg.SEC_SAR_PN 0 + 4) _ (by decide) _).trans <| (stored Reg.SEC_SAR_MARK_LO _ (by decide) _).trans <|
    (stored Reg.SEC_SAR_MARK_HI _ (by decide) _).trans (stored Reg.SEC_SAR_SSCI _ (by decide) _))

theorem State.rd64_wr_ne {a b : Nat} (v : Nat) (h : b ≠ a ∧ b + 4 ≠ a) : (s.wr a v).rd64 b = s.rd64 b := by
  rw [State.rd64, State.rd_wr_ne _ _ h.1, State.rd_wr_ne _ _ h.2, State.rd64]

theorem saReadback_rd (v : Nat) : let a := s.saAt (v % 65536)
    (saReadback v s).rd Reg.SEC_SAR_STATE = saState a % 2 ^ 32 ∧
    (saReadback v s).rd Reg.SEC_SAR_EPOCH = a.epoch % 2 ^ 32 ∧
    (saReadback v s).rd64 (Reg.SEC_SAR_PN 0) = a.pn % 2 ^ 64 ∧
    (saReadback v s).rd Reg.SEC_SAR_SSCI = a.ssci % 2 ^ 32 := by
  have later (a : Nat) (h : a ∉ [Reg.SEC_SAR_PN 0, Reg.SEC_SAR_PN 0 + 4, Reg.SEC_SAR_MARK_LO, Reg.SEC_SAR_MARK_HI,
      Reg.SEC_SAR_SSCI]) : (saReadback v s).rd a = (((s.wr Reg.SEC_SAR_SEL (v % 65536)).wr Reg.SEC_SAR_STATE
        (saState (s.saAt (v % 65536)))).wr Reg.SEC_SAR_EPOCH (s.saAt (v % 65536)).epoch).rd a := by
    simp only [List.mem_cons, List.not_mem_nil, or_false, not_or] at h
    obtain ⟨lo, hi, markLo, markHi, ssci⟩ := h
    exact (State.rd_wr_ne _ _ ssci).trans <| (State.rd_wr_ne _ _ markHi).trans <| (State.rd_wr_ne _ _ markLo).trans <|
      (State.rd_wr_ne _ _ hi).trans (State.rd_wr_ne _ _ lo)
  refine ⟨?_, ?_, ?_, State.rd_wr_same ..⟩
  · rw [later _ (by decide), State.rd_wr_ne _ _ (by decide), State.rd_wr_same]
  · rw [later _ (by decide), State.rd_wr_same]
  · unfold saReadback
    dsimp only
    rw [State.rd64_wr_ne _ (by decide), State.rd64_wr_ne _ (by decide), State.rd64_wr_ne _ (by decide),
      State.rd64_wr64_same]
    rfl

/-! ## The statement -/

/-- Settles O31: an operation that is accepted writes its SC and the associations of its two slots, which the journal,
the message to the standby and the code of the check leave as they are. -/
theorem channelCommitsAreCheckedThenActedOn : Obligations.ChannelCommitsAreCheckedThenActedOn := by
  unfold Obligations.ChannelCommitsAreCheckedThenActedOn
  intro s
  refine ⟨?commit, fun core busy => answers_scwResult core busy, fun v served => answers_scReadback served, ?sa⟩
  case' commit =>
    intro served i rx w e
    refine ⟨fun op c row named => ⟨fun busy => ?busy, fun idle bad => ?failed⟩,
      fun op idle good => ?create, fun op idle good => ?modify, fun op idle good => ?delete⟩
  case busy =>
    refine answers_hostWrite served (exec_commit row s) ?_
    rw [secwCommitOp_busy (s := s.fresh) named busy]
    exact ⟨State.bit_setBit_same _ _ _ _ (by decide), onlyRegs_fresh.trans (onlyRegs_setBit 1 true (by decide))⟩
  case failed =>
    refine answers_hostWrite served (exec_commit row s) ?_
    rw [secwCommitOp_failed (s := s.fresh) named idle bad]
    exact ⟨checkBegun_busy _, rfl, regsBut_checkBegun (s := s.fresh) _, rfl⟩
  case create =>
    refine answers_hostWrite served (f := secwCommitOp 1) rfl ?_
    rw [secwCommitOp_create (s := s.fresh) op idle rfl good]
    obtain ⟨scs, sas, sec, busy, regs⟩ := scActed_shows i rx 0 (scInstall rx i w s.fresh)
    have made : (scInstall rx i w s.fresh).sec = (scMade rx i { inUse := true, words := w } s.fresh).sec :=
      scJournalled_sec ..
    have entry (ry : Bool) (j : Nat) : (scActed i rx 0 (scInstall rx i w s.fresh)).scAt ry j =
        (s.fresh.setSc rx i { inUse := true, words := w }).scAt ry j := (scs ry j).trans (scAt_of_sec made ry j)
    refine ⟨(entry ..).trans (scAt_setSc_same ..), fun k lt => ?_,
      fun j ne => (entry ..).trans (scAt_setSc_ne _ (by simpa using ne)),
      fun j => (entry ..).trans (scAt_setSc_ne _ (by cases rx <;> simp)), congrArg SecState.scwCode sec, busy, fun a ha => ?_⟩
    · have slot : (scActed i rx 0 (scInstall rx i w s.fresh)).saAt (scSa { words := w } k) =
          freshSa (s.saAt (scSa { words := w } k)) (some (i, rx)) := by
        refine (sas _).trans ((saAt_of_sec made _).trans ?_)
        exact saAt_scMade (e := { inUse := true, words := w }) (s := s.fresh) (secwCode_apart (s := s) op good) lt
      exact ⟨slot, congrArg SaEntry.state slot, congrArg SaEntry.key slot⟩
    · exact (regs a ha).trans (State.rd_of_regs ((scJournalled_regs ..).trans (scMade_regs ..)) a)
  case modify =>
    refine answers_hostWrite served (f := secwCommitOp 2) rfl ?_
    rw [secwCommitOp_modify (s := s.fresh) op idle good]
    obtain ⟨scs, sas, sec, -, regs⟩ := scActed_shows i rx 1 (scStage rx i w s.fresh)
    obtain ⟨pending, words, used⟩ := scAt_scStage (s := s.fresh) rx i w
    have entry := scs rx i
    refine ⟨(congrArg ScEntry.pending entry).trans pending, (congrArg ScEntry.words entry).trans words,
      (congrArg ScEntry.inUse entry).trans used, fun same => ?_⟩
    obtain ⟨held, kept, suite⟩ := scStage_same (s := s.fresh) (rx := rx) (i := i) (w := w) same
    refine ⟨entry.trans held, fun a ha => (regs a ha).trans (State.rd_of_regs kept a),
      fun keeps => (congrArg SecState.sa sec).trans (suite keeps), fun k lt other apart ready => ?_⟩
    have slot := sas (scSa e k)
    obtain ⟨state, key, cipher⟩ := saAt_scStage_ready (s := s.fresh) same lt other apart ready
    exact ⟨(congrArg SaEntry.state slot).trans state, (congrArg SaEntry.key slot).trans key,
      fun changes => (congrArg SaEntry.cipher slot).trans (cipher changes)⟩
  case delete =>
    refine answers_hostWrite served (f := secwCommitOp 3) rfl ?_
    rw [secwCommitOp_delete (s := s.fresh) op idle rfl good]
    obtain ⟨scs, sas, -, -, regs⟩ := scActed_shows i rx 0 (scRemove rx i s.fresh)
    have gone : (scRemove rx i s.fresh).sec = (scGone rx i s.fresh).sec := scJournalled_sec ..
    have entry (ry : Bool) (j : Nat) : (scActed i rx 0 (scRemove rx i s.fresh)).scAt ry j =
        (scGone rx i s.fresh).scAt ry j := (scs ry j).trans (scAt_of_sec gone ry j)
    refine ⟨(entry ..).trans (scAt_scGone ..), fun j ne => (entry ..).trans (scAt_scGone_ne (by simpa using ne)),
      fun j => (entry ..).trans (scAt_scGone_ne (by cases rx <;> simp)), fun k lt => ?_, ?_⟩
    · have slot : (scActed i rx 0 (scRemove rx i s.fresh)).saAt (scSa e k) = freshSa (s.saAt (scSa e k)) none :=
        (sas _).trans ((saAt_of_sec gone _).trans (saAt_scGone (s := s.fresh) rx i lt))
      exact ⟨slot, congrArg SaEntry.key slot⟩
    · intro a hi ha
      have status : a ∉ [Reg.SEC_SCW_STATUS] := fun m => ha (by rw [List.mem_singleton.mp m]; exact List.mem_cons_self)
      refine (regs a status).trans ((State.rd_of_regs (scJournalled_regs ..) a).trans ?_)
      exact coreRegsBut_scGone (s := s.fresh) rx i a hi fun m => ha (List.mem_cons_of_mem _ m)
  case sa =>
    intro v served a
    refine answers_hostWrite served (f := saReadback v.toNat) rfl ?_
    obtain ⟨state, epoch, pn, ssci⟩ := saReadback_rd (s := s.fresh) v.toNat
    obtain ⟨slot, ready⟩ := saState_reads (s.saAt (v.toNat % 65536))
    refine ⟨?_, ?_, epoch, pn, ssci, onlyRegs_fresh.trans (onlyRegs_saReadback _)⟩
    · rw [State.rdF, state]
      exact slot
    · rw [State.bit, state]
      exact ready

end Sys2Proof.Machine
end

section
/-! SUPPORT. The key sequencer: a fill taken up, a slot made READY, and the MARKs of the journal (R198, R199, R210, R212
to R214). -/

namespace Sys2Proof.Machine

variable {s t u : State} {f : FillReq}

/-! ## MARKs in the journal (R210) -/

theorem journalledMark_journalMark (sa b : Nat) (opened : s.key.vaultOpen = true) :
    journalledMark (journalMark sa b s) sa = b := by
  rw [journalMark, if_pos opened]
  exact Tbl.get_set_same ..

theorem journalMark_shut (sa b : Nat) (shut : s.key.vaultOpen = false) : journalMark sa b s = s := by
  rw [journalMark, shut, if_neg Bool.false_ne_true]

theorem vaultQuiet_of_pwr (h : t.pwr = s.pwr) : vaultQuiet t = vaultQuiet s := by rw [vaultQuiet, h, vaultQuiet]

theorem journalMark_pwr (sa b : Nat) : (journalMark sa b s).pwr = s.pwr := by
  unfold journalMark
  split <;> rfl

/-- The next block of a MARK is written unless one is being written, it is no further on, or no write may start. -/
theorem saAt_startMark {sa b : Nat} (idle : (s.saAt sa).journalling = none) : (startMark sa b s).saAt sa =
    { s.saAt sa with journalling := if (decide ((s.saAt sa).mark < b) && !vaultQuiet s) = true then some b else none } := by
  unfold startMark
  dsimp only
  rw [idle]
  split
  next stays =>
    rw [if_neg, ← idle]
    intro h
    simp only [Option.isSome_none, Bool.false_or, Bool.or_eq_true, decide_eq_true_eq] at stays
    rw [Bool.and_eq_true, decide_eq_true_eq, Bool.not_eq_true'] at h
    rcases stays with le | quiet
    · omega
    · rw [h.2] at quiet
      cases quiet
  next starts =>
    rw [if_pos, saAt_setSa_same]
    simp only [Option.isSome_none, Bool.false_or, Bool.or_eq_true, decide_eq_true_eq, not_or, Nat.not_le] at starts
    rw [decide_eq_true starts.1, Bool.eq_false_iff.mpr starts.2]
    rfl

theorem startMark_key (sa b : Nat) : (startMark sa b s).key = s.key := by
  unfold startMark
  dsimp only
  split <;> rfl

theorem startMark_regs (sa b : Nat) : (startMark sa b s).regs = s.regs := by
  unfold startMark
  dsimp only
  split <;> rfl

/-- A MARK write that has ended: it stands in the slot and in the vault, and the partner is told. -/
def markWritten (sa b : Nat) (s : State) : State :=
  journalMark sa b ((s.setSa sa { s.saAt sa with mark := b, journalling := none }).mirror (HrnMsg.mark sa b))

theorem markDone_eq {sa b : Nat} (writing : (s.saAt sa).journalling = some b) : markDone sa s =
    if (s.saAt sa).owner.any Prod.snd then startMark sa ((s.saAt sa).pn / 2 ^ 24) (markWritten sa b s)
    else markWritten sa b s := by
  unfold markDone markWritten
  dsimp only
  rw [writing]
  dsimp only
  generalize journalMark sa b _ = written
  cases (s.saAt sa).owner with
  | none => rfl
  | some o =>
    obtain ⟨i, rx⟩ := o
    cases rx <;> rfl

theorem saAt_markWritten (sa b : Nat) :
    (markWritten sa b s).saAt sa = { s.saAt sa with mark := b, journalling := none } :=
  (saAt_of_sec (journalMark_sec ..) sa).trans (saAt_setSa_same ..)

theorem vaultQuiet_markWritten (sa b : Nat) : vaultQuiet (markWritten sa b s) = vaultQuiet s :=
  vaultQuiet_of_pwr (journalMark_pwr ..)

theorem saAt_markDone {sa b : Nat} (writing : (s.saAt sa).journalling = some b) : (markDone sa s).saAt sa =
    { s.saAt sa with mark := b, journalling := if ((s.saAt sa).owner.any Prod.snd &&
      decide (b < (s.saAt sa).pn / 2 ^ 24) && !vaultQuiet s) = true then some ((s.saAt sa).pn / 2 ^ 24) else none } := by
  have written := saAt_markWritten (s := s) sa b
  rw [markDone_eq writing]
  split
  next receive =>
    rw [saAt_startMark (by rw [written]), written, vaultQuiet_markWritten, receive, Bool.true_and]
  next transmit => rw [written, Bool.eq_false_iff.mpr transmit, Bool.false_and, Bool.false_and, if_neg Bool.false_ne_true]

theorem markDone_journal {sa b : Nat} (writing : (s.saAt sa).journalling = some b) :
    (markDone sa s).key = (markWritten sa b s).key ∧ (markDone sa s).regs = s.regs := by
  rw [markDone_eq writing]
  split
  · exact ⟨startMark_key .., (startMark_regs ..).trans (journalMark_regs ..)⟩
  · exact ⟨rfl, journalMark_regs ..⟩

/-! ## A fill taken up (R198, R199) -/

/-- The state in which a derivation is counted. -/
def deriveCounted (f : FillReq) (s : State) : State := if f.delivered.isNone then s.bump Reg.SEC_DERIVES else s

/-- The key, salt and SSCI that a fill delivers or derives (R198). -/
def fillKey (f : FillReq) (s : State) : Bytes × Bytes × Nat :=
  match f.delivered with
  | some d => d
  | none =>
    let d := deriveSa (s.parentAt (s.saAt f.sa).parent).key (scSci (s.scAt f.rx f.sc)) f.epoch (s.saAt f.sa).cipher
    (d.1, d.2, scWord (s.scAt f.rx f.sc) 4)

/-- The first MARK of a fill; a standby keeps the one that its partner sent (R212, R214). -/
def firstMark (f : FillReq) (s : State) : Nat :=
  if pairState s = 3 then max (s.saAt f.sa).mark f.resume else f.resume

/-- The slot with its key and its MARK. -/
def keyStored (f : FillReq) (s : State) : State :=
  (deriveCounted f s).setSa f.sa { s.saAt f.sa with
    key := (fillKey f s).1, salt := (fillKey f s).2.1, ssci := (fillKey f s).2.2, mark := firstMark f s }

/-- A MARK that its partner has not acknowledged is sent to it. -/
def markSent (sa m : Nat) (s : State) : State :=
  { s with hrn := { s.hrn with ackedMark := Tbl.set (fun _ => 0) s.hrn.ackedMark sa 0 } }.mirror (HrnMsg.mark sa m)

/-- A fill with its key under fresh masks, counted. -/
def fillCounted (f : FillReq) (s : State) : State :=
  pmcCount 0x0601 0xFF 1 (freshMasks (6 * f.sa) 6 (keyStored f s))

/-- A fill whose acknowledgement is due. -/
def keyMasked (f : FillReq) (s : State) : State := markSent f.sa (firstMark f s) (fillCounted f s)

/-- The fill is the one that the sequencer works on. -/
def fillTaken (f : FillReq) (rest : List FillReq) (s : State) : State :=
  { keyMasked f s with sec := { (keyMasked f s).sec with fills := rest, filling := some f } }

theorem pairState_deriveCounted : pairState (deriveCounted f s) = pairState s := by
  unfold deriveCounted
  split
  · exact State.rdF_wr_ne _ _ _ _ (by decide)
  · rfl

theorem fillStart_takes {rest : List FillReq} (free : s.sec.filling = none) (queued : s.sec.fills = f :: rest)
    (random : drbgOff s = false) (calm : s.key.zeroizing = none) (open_ : vaultQuiet s = false) :
    fillStart s = journalMark f.sa (firstMark f s) (fillTaken f rest s) := by
  have mark : (if pairState (deriveCounted f s) = 3 then max (s.saAt f.sa).mark f.resume else f.resume) =
      firstMark f s := by
    rw [pairState_deriveCounted]
    rfl
  unfold fillTaken keyMasked markSent fillCounted keyStored
  dsimp only
  rw [← mark]
  unfold fillStart
  rw [free, queued]
  dsimp only
  rw [random, calm, open_, if_neg (by decide)]
  rfl

theorem markSent_key (sa m : Nat) : (markSent sa m s).key = s.key := rfl

theorem markSent_sec (sa m : Nat) : (markSent sa m s).sec = s.sec := rfl

theorem markSent_regs (sa m : Nat) : (markSent sa m s).regs = s.regs := rfl

theorem freshMasks_open (a n : Nat) : (freshMasks a n s).key.vaultOpen = s.key.vaultOpen := rfl

theorem freshMasks_sec (a n : Nat) : (freshMasks a n s).sec = s.sec := rfl

theorem freshMasks_regs (a n : Nat) : (freshMasks a n s).regs = s.regs := rfl

theorem keyStored_open : (keyStored f s).key.vaultOpen = s.key.vaultOpen := by
  unfold keyStored deriveCounted
  split <;> rfl

theorem fillCounted_sec : (fillCounted f s).sec = (keyStored f s).sec :=
  (pmcCount_sec ..).trans (freshMasks_sec ..)

theorem fillCounted_open : (fillCounted f s).key.vaultOpen = s.key.vaultOpen := by
  unfold fillCounted
  rw [(framesStay_pmcCount ..).key, freshMasks_open, keyStored_open]

theorem fillCounted_derives : (fillCounted f s).rd Reg.SEC_DERIVES = (deriveCounted f s).rd Reg.SEC_DERIVES := by
  unfold fillCounted
  rw [regsOutside_pmcCount 0x0601 0xFF 1 Reg.SEC_DERIVES (by decide)]
  exact (State.rd_of_regs (freshMasks_regs ..) _).trans (State.rd_of_regs rfl _)

theorem keyMasked_sec : (keyMasked f s).sec = (keyStored f s).sec := (markSent_sec ..).trans fillCounted_sec

theorem keyMasked_opened : (keyMasked f s).key.vaultOpen = s.key.vaultOpen := by
  rw [keyMasked, markSent_key, fillCounted_open]

theorem keyMasked_derives : (keyMasked f s).rd Reg.SEC_DERIVES = (deriveCounted f s).rd Reg.SEC_DERIVES :=
  (State.rd_of_regs (markSent_regs ..) _).trans fillCounted_derives

theorem saAt_fillTaken (rest : List FillReq) : (fillTaken f rest s).saAt f.sa = { s.saAt f.sa with
    key := (fillKey f s).1, salt := (fillKey f s).2.1, ssci := (fillKey f s).2.2, mark := firstMark f s } :=
  (saAt_of_sec (s := keyStored f s) keyMasked_sec f.sa : (keyMasked f s).saAt f.sa = _).trans (saAt_setSa_same ..)

/-- What the sequencer has done when it has taken up a fill. -/
theorem fillTaken_shows (rest : List FillReq) :
    let u := journalMark f.sa (firstMark f s) (fillTaken f rest s)
    u.sec.filling = some f ∧ u.sec.fills = rest ∧
    u.saAt f.sa = { s.saAt f.sa with key := (fillKey f s).1, salt := (fillKey f s).2.1, ssci := (fillKey f s).2.2,
                                     mark := firstMark f s } ∧
    u.rd Reg.SEC_DERIVES = (deriveCounted f s).rd Reg.SEC_DERIVES ∧
    (s.key.vaultOpen = true → journalledMark u f.sa = firstMark f s) := by
  have sec := journalMark_sec (s := fillTaken f rest s) f.sa (firstMark f s)
  exact ⟨congrArg SecState.filling sec, congrArg SecState.fills sec,
    (saAt_of_sec sec _).trans (saAt_fillTaken rest), (State.rd_of_regs (journalMark_regs ..) _).trans keyMasked_derives,
    fun opened => journalledMark_journalMark _ _ (keyMasked_opened.trans opened)⟩

/-! ## A slot READY (R199, R207, R212) -/

/-- The first PN of a fill. -/
def firstPn (f : FillReq) : Nat :=
  if f.rx then max 1 (f.resume * 2 ^ 24) else if f.resume = 0 then 1 else f.resume * 2 ^ 24

/-- A slot that is filled, before what the SC makes of it. -/
def slotFilled (f : FillReq) (s : State) : State :=
  let t := s.setSa f.sa { s.saAt f.sa with state := .ready, ready := true, pn := firstPn f }
  { t with sec := { t.sec with filling := none } }

theorem saAt_slotFilled :
    (slotFilled f s).saAt f.sa = { s.saAt f.sa with state := .ready, ready := true, pn := firstPn f } := saAt_setSa_same ..

theorem fillReady_rx (rx : f.rx = true) (none : (s.scAt true f.sc).cur = none) : fillReady f s = slotFilled f s := by
  unfold fillReady slotFilled firstPn
  dsimp only
  rw [rx, none]
  rfl

theorem fillReady_tx (tx : f.rx = false) (makes : f.makeCurrent = true) (none : (s.scAt false f.sc).cur = none) :
    fillReady f s =
      refill false f.sc (makeCurrent f.sc (slotOf (s.scAt false f.sc) f.sa) (slotFilled f s)) := by
  unfold fillReady slotFilled firstPn
  dsimp only
  rw [tx, makes, none]
  refine (if_neg Bool.false_ne_true).trans ((if_pos ?_).trans ?_)
  · rw [Bool.true_and]
    exact congrArg Option.isNone none
  · rfl

/-- A transmit slot that becomes the current one as it is filled. -/
theorem saAt_fillReady_tx (tx : f.rx = false) (makes : f.makeCurrent = true) (none : (s.scAt false f.sc).cur = none)
    (slot : scSa (s.scAt false f.sc) (slotOf (s.scAt false f.sc) f.sa) = f.sa) :
    (fillReady f s).saAt f.sa = { s.saAt f.sa with state := .current, ready := true, pn := firstPn f } ∧
    ((fillReady f s).scAt false f.sc).cur = some (slotOf (s.scAt false f.sc) f.sa) := by
  have made : (makeCurrent f.sc (slotOf (s.scAt false f.sc) f.sa) (slotFilled f s)).saAt f.sa =
      { s.saAt f.sa with state := .current, ready := true, pn := firstPn f } := by
    rw [saAt_makeCurrent, show (slotFilled f s).scAt false f.sc = s.scAt false f.sc from rfl, slot, if_pos rfl,
      saAt_slotFilled]
  rw [fillReady_tx tx makes none]
  refine ⟨(saAt_refill_held _ _ (by rw [made]; exact SlotState.noConfusion)).trans made, ?_⟩
  rw [scAt_refill, scAt_makeCurrent]
  rfl

/-! ## What the statement asks of each step -/

theorem fillKey_delivered {d : Bytes × Bytes × Nat} (h : f.delivered = some d) : fillKey f s = d := by rw [fillKey, h]

theorem fillKey_derived (h : f.delivered = none) : ((fillKey f s).1, (fillKey f s).2.1) =
    deriveSa (s.parentAt (s.saAt f.sa).parent).key (scSci (s.scAt f.rx f.sc)) f.epoch (s.saAt f.sa).cipher := by
  rw [fillKey, h]

theorem deriveCounted_delivered {d : Bytes × Bytes × Nat} (h : f.delivered = some d) : deriveCounted f s = s := by
  rw [deriveCounted, h]
  rfl

theorem deriveCounted_derived (h : f.delivered = none) :
    (deriveCounted f s).rd Reg.SEC_DERIVES = min (s.rd Reg.SEC_DERIVES + 1) 0xFFFFFFFF := by
  rw [deriveCounted, h]
  exact State.rd_bump_same ..

theorem fillDone_waits (h : s.sec.filling = some f) (need : needsAck s = true)
    (unacked : Tbl.get (fun _ => 0) s.hrn.ackedMark f.sa ≤ f.resume) : fillDone s = s := by
  rw [fillDone, h]
  exact if_pos (by rw [need, decide_eq_true unacked]; rfl)

theorem fillDone_ready (h : s.sec.filling = some f) (need : needsAck s = false) : fillDone s = fillReady f s := by
  rw [fillDone, h]
  exact if_neg (by rw [need]; exact Bool.false_ne_true)

theorem markDone_vault {sa b : Nat} (writing : (s.saAt sa).journalling = some b) :
    (s.key.vaultOpen = true → journalledMark (markDone sa s) sa = b) ∧
    (s.key.vaultOpen = false → (markDone sa s).key = s.key) := by
  obtain ⟨key, -⟩ := markDone_journal writing
  refine ⟨fun opened => ?_, fun shut => ?_⟩
  · rw [journalledMark, key]
    exact journalledMark_journalMark sa b opened
  · rw [key, markWritten, journalMark_shut]
    · rfl
    · exact shut

/-! ## The statement -/

/-- Settles O34: the fill taken up, the slot it makes READY, and the end of a MARK's write, each by what it leaves in
the slot and in the vault. -/
theorem slotsFillAndMarksAreJournalled : Obligations.SlotsFillAndMarksAreJournalled := by
  unfold Obligations.SlotsFillAndMarksAreJournalled
  intro s core first
  refine ⟨fun f rest free queued sound up calm quiet => ?takes, fun f filling => ⟨fun need unacked => ?waits,
    fun rx none free => ?receive, fun tx makes none free slot => ?transmit⟩, fun sa b writing => ?mark⟩
  case takes =>
    refine answers_powered core (f := fillStart) rfl ?_
    have random : drbgOff s.fresh = false := by
      rw [drbgOff, show s.fresh.bit Reg.KEY_STATUS 2 = false from sound, show s.fresh.key.drbgDown = false from up]
      rfl
    rw [fillStart_takes (s := s.fresh) free queued random calm quiet]
    obtain ⟨working, left, slot, derives, journalled⟩ := fillTaken_shows (f := f) (s := s.fresh) rest
    refine ⟨working, left, by rw [slot]; rfl, by rw [slot]; rfl, fun d delivered => ?_, fun derived => ⟨?_, ?_⟩, journalled⟩
    · rw [slot, derives, deriveCounted_delivered delivered, fillKey_delivered delivered]
      exact ⟨rfl, rfl, rfl, rfl⟩
    · rw [slot]
      exact fillKey_derived derived
    · rw [derives]
      exact deriveCounted_derived derived
  case waits =>
    exact answers_powered core (f := fillDone) rfl (fillDone_waits filling need unacked)
  case receive =>
    refine answers_powered core (f := fillDone) rfl ?_
    rw [fillDone_ready (s := s.fresh) filling (by exact free), fillReady_rx rx (by exact none)]
    refine ⟨rfl, saAt_slotFilled.trans ?_⟩
    rw [firstPn, if_pos rx]
    rfl
  case transmit =>
    refine answers_powered core (f := fillDone) rfl ?_
    rw [fillDone_ready (s := s.fresh) filling (by exact free)]
    obtain ⟨current, selected⟩ := saAt_fillReady_tx (s := s.fresh) tx makes none slot
    rw [current]
    refine ⟨rfl, rfl, ?_, selected⟩
    dsimp only
    rw [firstPn, if_neg (by rw [tx]; decide)]
  case mark =>
    refine answers_powered core (f := markDone sa.val) rfl ?_
    obtain ⟨-, regs⟩ := markDone_journal (s := s.fresh) writing
    obtain ⟨opened, shut⟩ := markDone_vault (s := s.fresh) writing
    exact ⟨saAt_markDone (s := s.fresh) writing, opened, shut, fun a _ => State.rd_of_regs regs a⟩

end Sys2Proof.Machine
end

section
/-! SUPPORT. KEYQ: the operation that runs, what its end leaves, and the completion it writes (R235, R236, R422, R424). -/

namespace Sys2Proof.Machine

variable {s t u : State} {b : Bytes} {l : List Nat} {tag op code : Nat} {value : Bytes}

/-! ## The operation that runs -/

theorem kqRunOp_runs (h : KqRuns s b op) (f : Desc → State → State) : kqRunOp op f s = f (descOf b) s := by
  obtain ⟨-, run, wait, code, pass⟩ := h
  unfold kqRunOp
  rw [run, wait]
  dsimp only
  rw [if_neg (fun other => other.elim (fun h => h code) Bool.noConfusion), if_neg (fun failed => failed pass)]

theorem KqRuns.run (h : KqRuns s b op) : s.hif.kqRun = some b := by
  obtain ⟨-, run, -⟩ := h
  exact run

theorem KqRuns.wait (h : KqRuns s b op) : s.sec.kqWait = [] := by
  obtain ⟨-, -, wait, -⟩ := h
  exact wait

theorem KqRuns.core (h : KqRuns s b op) : coreRuns s = true := by
  obtain ⟨core, -⟩ := h
  exact core

/-- Events and register writes on the way to its end leave the operation that runs as it is. -/
theorem KqGoesOn.runs (h : KqGoesOn s t) (run : s.hif.kqRun = some b) : t.hif.kqRun = some b := h.run.trans run

/-! ## The end of an operation -/

/-- HIF_KQ_LAST is written, and the completion unless a reset of the interface met the operation. -/
def kqAnswered (tag op code : Nat) (value : Bytes) (s : State) : State :=
  let t := s.wr Reg.HIF_KQ_LAST (tag + 2 ^ 16 * op + 2 ^ 24 * code)
  if t.hif.kqMute then t else kqPost tag op code (if code = 0 then value else []) t

/-- The bits of HIF_KQ_STATUS at the end of an operation. -/
def kqRested (s : State) : State :=
  let t := s.setBit Reg.HIF_KQ_STATUS 2 false
  if t.hif.kqStopping then t.setBit Reg.HIF_KQ_STATUS 0 false else t

theorem kqFinish_eq : kqFinish tag op code value s =
    { kqRested (kqAnswered tag op code value s) with
      hif := { (kqRested (kqAnswered tag op code value s)).hif with kqRun := none, kqMute := false, kqStopping := false },
      sec := { (kqRested (kqAnswered tag op code value s)).sec with kqWait := [] } } := rfl

theorem kqPost_counts : (kqPost tag op code value s).rdF Reg.HIF_KQ_STATUS 16 16 = (kqHead s + 1) % 65536 :=
  (congrArg (field · 16 16) ((posts_raiseVector 2).regs Reg.HIF_KQ_STATUS (by decide))).trans
    (State.rdF_wrF_same _ _ _ _ _ (by decide))

theorem kqPost_writes :
    .dmaWrite (kqCbase s + 16 * (kqHead s % kqSize s)) (kqRecord (kqSize s) (kqHead s) tag op code value) ∈
      (kqPost tag op code value s).out :=
  (posts_raiseVector 2).out _ (List.mem_append_right _ (List.mem_singleton.mpr rfl))

theorem onlyHost_kqPost : OnlyHost l s (kqPost tag op code value s) :=
  (onlyHost_emit _).trans ((onlyHost_wr _ (by decide)).trans (onlyHost_raiseVector 2))

theorem kqPost_last : (kqPost tag op code value s).rd Reg.HIF_KQ_LAST = s.rd Reg.HIF_KQ_LAST :=
  ((posts_raiseVector 2).regs _ (by decide)).trans (State.rd_wr_ne _ _ (by decide))

theorem kqAnswered_last :
    (kqAnswered tag op code value s).rd Reg.HIF_KQ_LAST = (tag + 2 ^ 16 * op + 2 ^ 24 * code) % 2 ^ 32 := by
  unfold kqAnswered
  dsimp only
  split
  · exact State.rd_wr_same ..
  · exact kqPost_last.trans (State.rd_wr_same ..)

theorem onlyHost_kqAnswered : OnlyHost l s (kqAnswered tag op code value s) := by
  have last : OnlyHost l s (s.wr Reg.HIF_KQ_LAST (tag + 2 ^ 16 * op + 2 ^ 24 * code)) := onlyHost_wr _ (by decide)
  unfold kqAnswered
  dsimp only
  split
  · exact last
  · exact last.trans onlyHost_kqPost

theorem onlyHost_kqRested : OnlyHost l s (kqRested s) := by
  have idle : OnlyHost l s (s.setBit Reg.HIF_KQ_STATUS 2 false) := onlyHost_setBit _ _ (by decide)
  unfold kqRested
  dsimp only
  split
  · exact idle.trans (onlyHost_setBit _ _ (by decide))
  · exact idle

theorem kqRested_rd {a : Nat} (h : a ≠ Reg.HIF_KQ_STATUS) : (kqRested s).rd a = s.rd a := by
  unfold kqRested
  dsimp only
  split
  · exact (State.rd_setBit_ne _ _ _ h).trans (State.rd_setBit_ne _ _ _ h)
  · exact State.rd_setBit_ne _ _ _ h

theorem kqRested_idle : (kqRested s).bit Reg.HIF_KQ_STATUS 2 = false := by
  have idle : (s.setBit Reg.HIF_KQ_STATUS 2 false).bit Reg.HIF_KQ_STATUS 2 = false :=
    State.bit_setBit_same _ _ _ _ (by decide)
  unfold kqRested
  dsimp only
  split
  · exact (State.bit_setBit_off _ _ _ _ _ (by decide) (by decide)).trans idle
  · exact idle

theorem kqRested_head : (kqRested s).rdF Reg.HIF_KQ_STATUS 16 16 = s.rdF Reg.HIF_KQ_STATUS 16 16 := by
  have off (n : Nat) (w : State) (h : n < 16) :
      (w.setBit Reg.HIF_KQ_STATUS n false).rdF Reg.HIF_KQ_STATUS 16 16 = w.rdF Reg.HIF_KQ_STATUS 16 16 :=
    State.rdF_wrF_off _ _ _ _ _ (by omega) (by omega)
  unfold kqRested
  dsimp only
  split
  · exact (off 0 _ (by decide)).trans (off 2 _ (by decide))
  · exact off 2 _ (by decide)

theorem kqRested_out : (kqRested s).out = s.out := by
  unfold kqRested
  dsimp only
  split <;> rfl

/-- An operation has ended: beside the host interface only its wait for fills may differ. -/
structure KqDone (d : Desc) (code : Nat) (s u : State) : Prop where
  last : u.rd Reg.HIF_KQ_LAST = (d.tag + 2 ^ 16 * d.op + 2 ^ 24 * code) % 2 ^ 32
  run : u.hif.kqRun = none
  regs : CoreRegsBut [] s u
  rest : u = { s with regs := u.regs, hif := u.hif, sec := { s.sec with kqWait := [] }, out := u.out }

variable {d : Desc}

theorem KqDone.key (h : KqDone d code s u) : u.key = s.key := by rw [h.rest]

theorem KqDone.sec (h : KqDone d code s u) : u.sec = { s.sec with kqWait := [] } := by rw [h.rest]

theorem KqDone.saAt (h : KqDone d code s u) (sa : Nat) : u.saAt sa = s.saAt sa := by
  rw [State.saAt, h.sec]
  rfl

theorem KqDone.parentAt (h : KqDone d code s u) (i : Nat) : u.parentAt i = s.parentAt i := by
  rw [State.parentAt, h.key, State.parentAt]

theorem KqDone.rd (h : KqDone d code s u) {a : Nat} (core : hostIfReg a = false) : u.rd a = s.rd a :=
  h.regs a core List.not_mem_nil

theorem KqDone.bit (h : KqDone d code s u) {a : Nat} (n : Nat) (core : hostIfReg a = false) : u.bit a n = s.bit a n := by
  rw [State.bit, h.rd core, State.bit]

/-- An operation that waited for nothing leaves the channels as they were. -/
theorem KqDone.sec_eq (h : KqDone d code s u) (wait : s.sec.kqWait = []) : u.sec = s.sec := by
  rw [h.sec, ← wait]

theorem KqDone.onlyHost (h : KqDone d code s u) (wait : s.sec.kqWait = []) : OnlyHost [] s u :=
  ⟨h.regs, h.rest.trans (by rw [← h.sec, h.sec_eq wait])⟩

theorem kqComplete_done (run : s.hif.kqRun = some b) (code : Nat) (value : Bytes) :
    KqDone (descOf b) code s (kqComplete code value s) := by
  have host := (onlyHost_kqAnswered (l := []) (tag := (descOf b).tag) (op := (descOf b).op) (code := code)
    (value := value) (s := s)).trans onlyHost_kqRested
  rw [kqComplete, run]
  dsimp only
  rw [kqFinish_eq]
  exact ⟨(kqRested_rd (by decide)).trans kqAnswered_last, rfl, host.1, by rw [host.2]⟩

/-- The registers that say where a completion is written. -/
def kqRegs : List Nat := [Reg.HIF_KQ_CTRL, Reg.HIF_KQ_STATUS, Reg.HIF_KQ_CBASE_LO, Reg.HIF_KQ_CBASE_HI]

theorem kqHead_congr (regs : ∀ a ∈ kqRegs, t.rd a = s.rd a) : kqHead t = kqHead s :=
  congrArg (field · 16 16) (regs _ (by decide))

theorem kqCbase_congr (regs : ∀ a ∈ kqRegs, t.rd a = s.rd a) : kqCbase t = kqCbase s := by
  rw [kqCbase, regs _ (by decide), regs _ (by decide), kqCbase]

theorem kqSize_congr (regs : ∀ a ∈ kqRegs, t.rd a = s.rd a) : kqSize t = kqSize s :=
  congrArg (fun v => 2 ^ (field v 1 4 + 4)) (regs _ (by decide))

/-- Where an operation's completion goes is what the state held before what else the operation wrote. -/
theorem KqEnded.of_regs (h : KqEnded d code value t u) (hif : t.hif = s.hif) (regs : ∀ a ∈ kqRegs, t.rd a = s.rd a) :
    KqEnded d code value s u := by
  unfold KqEnded at h ⊢
  rwa [hif, kqHead_congr regs, kqCbase_congr regs, kqSize_congr regs] at h

theorem kqAnswered_posts (loud : s.hif.kqMute = false) :
    (kqAnswered tag op code value s).rdF Reg.HIF_KQ_STATUS 16 16 = (kqHead s + 1) % 65536 ∧
    .dmaWrite (kqCbase s + 16 * (kqHead s % kqSize s))
      (kqRecord (kqSize s) (kqHead s) tag op code (if code = 0 then value else [])) ∈
        (kqAnswered tag op code value s).out := by
  have logged : ∀ a ∈ kqRegs, (s.wr Reg.HIF_KQ_LAST (tag + 2 ^ 16 * op + 2 ^ 24 * code)).rd a = s.rd a := fun a ha =>
    State.rd_wr_ne _ _ (ne_of_mem_of_not_mem ha (by decide))
  have posted : kqAnswered tag op code value s = kqPost tag op code (if code = 0 then value else [])
      (s.wr Reg.HIF_KQ_LAST (tag + 2 ^ 16 * op + 2 ^ 24 * code)) :=
    if_neg (by exact Bool.eq_false_iff.mp loud)
  have counted := kqPost_counts (tag := tag) (op := op) (code := code) (value := if code = 0 then value else [])
    (s := s.wr Reg.HIF_KQ_LAST (tag + 2 ^ 16 * op + 2 ^ 24 * code))
  have written := kqPost_writes (tag := tag) (op := op) (code := code) (value := if code = 0 then value else [])
    (s := s.wr Reg.HIF_KQ_LAST (tag + 2 ^ 16 * op + 2 ^ 24 * code))
  rw [kqHead_congr logged] at counted written
  rw [kqCbase_congr logged, kqSize_congr logged] at written
  rw [posted]
  exact ⟨counted, written⟩

theorem kqComplete_ended (run : s.hif.kqRun = some b) (code : Nat) (value : Bytes) :
    KqEnded (descOf b) code value s (kqComplete code value s) := by
  obtain ⟨last, idle, -, rest⟩ := kqComplete_done run code value
  have wait : (kqComplete code value s).sec.kqWait = [] := by rw [rest]
  rw [kqComplete, run] at last idle wait ⊢
  refine ⟨last, idle, wait, kqRested_idle, fun loud => ?_⟩
  obtain ⟨counted, written⟩ := kqAnswered_posts (tag := (descOf b).tag) (op := (descOf b).op) (code := code)
    (value := value) loud
  exact ⟨kqRested_head.trans counted, kqRested_out.symm ▸ written⟩

/-! ## The input of an operation (R237, R233, R234) -/

theorem kqInput_reads {d : Desc} (ok : InputOk d) (x : Bytes) :
    kqInput d (.data x) s = (s.emit (.dmaRead d.inAddr d.inLen), some (exactly d.inLen x)) := by
  obtain ⟨given, aligned⟩ := ok
  unfold kqInput
  rw [if_neg (fun h => h.elim given (· aligned))]

theorem kqInput_state {d : Desc} {x r : Bytes} (h : kqInput d (.data x) s = (t, some r)) :
    t = s.emit (.dmaRead d.inAddr d.inLen) := by
  unfold kqInput at h
  split at h
  · cases h
  · cases h
    rfl

/-- Input that unwraps has only been read. -/
theorem unwrapInput_state {d : Desc} {x : Bytes} {slot size type dir index : Nat} {v : Option Nat} :
    (unwrapInput d (.data x) slot size type dir index v s).code = 0 →
    (unwrapInput d (.data x) slot size type dir index v s).state = s.emit (.dmaRead d.inAddr d.inLen) := by
  unfold unwrapInput
  dsimp only
  split
  next noKey => exact nofun
  split
  next unread => exact nofun
  next read =>
    split
    next noLength => exact nofun
    split
    next forged => exact nofun
    next p _ =>
      generalize (byteAt p 0 == type && byteAt p 1 % 2 == dir && beAt p 2 2 == index && _) = same
      split
      · exact fun _ => kqInput_state read
      next misbound => exact nofun

end Sys2Proof.Machine
end

section
/-! SUPPORT. SA_INSTALL, SA_DERIVE and SA_RETIRE (R197, R200, R236, R238). -/

namespace Sys2Proof.Machine

variable {s t u : State} {b : Bytes} {rx : Bool} {i : Nat}

/-! ## Fills that an operation waits for -/

/-- The operation that runs waits for the fills of some slots. -/
def kqWaits (sas : List Nat) (s : State) : State := { s with sec := { s.sec with kqWait := sas } }

theorem rd_kqWaits (sas : List Nat) (a : Nat) : (kqWaits sas s).rd a = s.rd a := rfl

theorem rd_requestFill (f : FillReq) (a : Nat) : (requestFill f s).rd a = s.rd a :=
  State.rd_of_regs (requestFill_regs f) a

theorem applyPending_fills : (applyPending rx i s).sec.fills = s.sec.fills := by
  unfold applyPending
  dsimp only
  split
  · rw [journalSc_sec]
    cases rx <;> rfl
  · rfl

theorem applyPending_hif : (applyPending rx i s).hif = s.hif := by
  have journalled (w : State) : (journalSc rx i w).hif = w.hif := by
    unfold journalSc
    split <;> rfl
  unfold applyPending
  dsimp only
  split
  · rw [journalled]
    cases rx <;> rfl
  · rfl

theorem applyPending_none (h : (s.scAt rx i).pending = none) : applyPending rx i s = s := by
  rw [applyPending, h]

theorem saAt_requestFill_same (f : FillReq) :
    ((requestFill f s).saAt f.sa).state = .filling ∧ ((requestFill f s).saAt f.sa).epoch = f.epoch ∧
    ((requestFill f s).saAt f.sa).derived = f.delivered.isNone := by
  rw [saAt_requestFill, if_pos rfl]
  exact ⟨rfl, rfl, rfl⟩

theorem saAt_requestFill_ne (f : FillReq) {k : Nat} (h : k ≠ f.sa) : (requestFill f s).saAt k = s.saAt k := by
  rw [saAt_requestFill, if_neg h]

theorem requestFill_fills (f : FillReq) : (requestFill f s).sec.fills = s.sec.fills ++ [f] := rfl

/-! ## SA_INSTALL (R197) -/

/-- SA_INSTALL that passes its checks asks for the fill of its slot. -/
theorem saInstall_asks {x : Bytes} (runs : KqRuns s b 4) :
    let d := descOf b
    let i := d.arg0 % 65536
    let rx := d.arg0.testBit 16
    let e := s.scAt rx i
    let sa := scSa e d.arg1;
    e.inUse = true → scDerived e = false → (s.saAt sa).state = .empty → epochOk s e d.arg1 = true →
    (unwrapInput d (.data x) (field d.arg0 20 4) (32 + keyLen (nextCipher e)) 0x53 (b2n rx) i (some d.arg1) s).code = 0 →
    ∃ f t, saInstall (.data x) s = kqWaits [sa] (requestFill f t) ∧ f.sa = sa ∧ f.epoch = d.arg1 ∧
      t.hif = s.hif ∧ t.sec.fills = s.sec.fills := by
  intro d i rx e sa used given empty next pass
  unfold saInstall
  rw [kqRunOp_runs runs]
  dsimp only
  rw [if_neg (by rw [used]; exact Bool.false_ne_true), if_neg (by rw [given]; exact Bool.false_ne_true),
    unwrapInput_state pass, if_neg (fun failed => failed pass),
    if_neg (by rw [show ((s.emit _).saAt sa).state = .empty from empty]; decide),
    if_neg (by rw [show epochOk (s.emit _) e d.arg1 = true from next]; exact Bool.false_ne_true)]
  refine ⟨_, _, rfl, rfl, rfl, ?_⟩
  split
  · exact ⟨applyPending_hif, applyPending_fills⟩
  · exact ⟨rfl, rfl⟩

/-! ## SA_DERIVE (R200) -/

/-- The fill that SA_DERIVE asks for. -/
def deriveFill (d : Desc) (s : State) : FillReq :=
  let i := d.arg0 % 65536
  let rx := d.arg0.testBit 16
  let e := s.scAt rx i
  ⟨scSa e d.arg1, i, rx, d.arg1, none, !rx && !hasCurrent s e, resumeMark s rx e (scSa e d.arg1) d.arg1⟩

/-- The fill of the next epoch, which SA_DERIVE asks for too on an SC without a current SA. -/
def deriveNext (d : Desc) (s : State) : FillReq :=
  let i := d.arg0 % 65536
  let rx := d.arg0.testBit 16
  ⟨scSa (s.scAt rx i) (d.arg1 + 1), i, rx, d.arg1 + 1, none, false, 0⟩

theorem saDerive_next (runs : KqRuns s b 5) :
    let d := descOf b
    let e := s.scAt (d.arg0.testBit 16) (d.arg0 % 65536);
    e.inUse = true → scDerived e = true → hasCurrent s e = true → (s.parentAt (scParent e)).valid = true →
    (s.saAt (scSa e d.arg1)).state = .empty → d.arg1 = e.epoch + 1 →
    saDerive s = kqWaits [scSa e d.arg1] (requestFill (deriveFill d s) s) := by
  intro d e used derived current valid empty next
  have nextOk : epochOk s e d.arg1 = true := by
    rw [epochOk, if_pos current, next, beq_self_eq_true]
  have only : ¬(!hasCurrent s e) = true := by
    rw [current]
    exact Bool.false_ne_true
  have one (x y : Bool) : ¬(!hasCurrent s e && x && y) = true := by
    rw [current]
    exact Bool.false_ne_true
  unfold saDerive
  rw [kqRunOp_runs runs]
  dsimp only
  rw [if_neg (by rw [used]; exact Bool.false_ne_true), if_neg (by rw [derived]; exact Bool.false_ne_true)]
  have parentOk (p : Nat) (h : p = scParent e) : ¬(!(s.parentAt p).valid) = true := by
    rw [h, valid]
    exact Bool.false_ne_true
  rw [if_neg (parentOk _ (by rw [current]; split <;> rfl)), if_neg (by rw [empty]; decide),
    if_neg (by rw [nextOk]; exact Bool.false_ne_true), if_neg only, if_neg (one _ _), if_neg (one _ _)]
  rfl

theorem saDerive_anew (runs : KqRuns s b 5) :
    let d := descOf b
    let e := s.scAt (d.arg0.testBit 16) (d.arg0 % 65536);
    e.inUse = true → scDerived e = true → hasCurrent s e = false → e.pending = none →
    (s.parentAt (scParent e)).valid = true → (s.saAt (scSa e d.arg1)).state = .empty →
    (s.saAt (scSa e (d.arg1 + 1))).state = .empty → scSa e (d.arg1 + 1) ≠ scSa e d.arg1 →
    e.epoch ≤ d.arg1 → d.arg1 < 0xFFFFFFFF →
    saDerive s = kqWaits [scSa e d.arg1, scSa e (d.arg1 + 1)]
      (requestFill (deriveNext d s) (requestFill (deriveFill d s) s)) := by
  intro d e used derived idle settled valid empty nextEmpty other later lt
  have nextOk : epochOk s e d.arg1 = true := by
    rw [epochOk, if_neg (by rw [idle]; exact Bool.false_ne_true), decide_eq_true later]
  have anew : (!hasCurrent s e) = true := by
    rw [idle]
    rfl
  have both (f : FillReq) (h : f.sa = scSa e d.arg1) : (!hasCurrent s e &&
      ((requestFill f s).saAt (scSa e (d.arg1 + 1))).state == .empty && decide (d.arg1 < 0xFFFFFFFF)) = true := by
    rw [idle, saAt_requestFill, if_neg (by rwa [h]), nextEmpty, decide_eq_true lt]
    rfl
  unfold saDerive
  rw [kqRunOp_runs runs]
  dsimp only
  rw [if_neg (by rw [used]; exact Bool.false_ne_true), if_neg (by rw [derived]; exact Bool.false_ne_true), settled]
  dsimp only
  rw [if_neg (by rw [valid]; exact Bool.false_ne_true), if_neg (by rw [empty]; decide),
    if_neg (by rw [nextOk]; exact Bool.false_ne_true), if_pos anew, applyPending_none settled]
  rw [if_pos (both _ (by rfl)), if_pos (both _ (by rfl))]
  rfl

/-! ## SA_RETIRE (R238) -/

theorem kqGoesOn_emptyAndRefill (sa : Nat) : KqGoesOn s (emptyAndRefill rx i sa s) :=
  (secOnly_emptySlot sa).run.trans (secOnly_refill rx i).run

theorem kqGoesOn_retireRx (sa : Nat) : KqGoesOn s (retireRx i sa s) :=
  (kqGoesOn_wr ..).trans ((secOnly_secEvent 2 i true).run.trans (kqGoesOn_emptyAndRefill sa))

/-- The slots that SA_RETIRE clears. -/
def Retirable (rx : Bool) (a : SaEntry) : Prop := (rx = true ∧ a.state = .old) ∨ (rx = false ∧ a.state = .ready)

theorem saRetire_clears (runs : KqRuns s b 6) :
    let rx := (descOf b).arg0.testBit 16
    let e := s.scAt rx ((descOf b).arg0 % 65536)
    let sa := scSa e (descOf b).arg1;
    e.inUse = true → Retirable rx (s.saAt sa) →
    ∃ t, saRetire s = kqComplete 0 [] t ∧ KqGoesOn s t ∧ Cleared (t.saAt sa) := by
  intro rx e sa used retirable
  unfold saRetire
  rw [kqRunOp_runs runs]
  dsimp only
  rw [if_neg (by rw [used]; exact Bool.false_ne_true)]
  rcases retirable with ⟨receive, old⟩ | ⟨transmit, ready⟩
  · rw [if_pos (show (rx && (s.saAt sa).state == .old) = true by rw [receive, old]; rfl)]
    exact ⟨_, rfl, kqGoesOn_retireRx sa, (retireRx_shows sa).1⟩
  · rw [if_neg (show ¬(rx && (s.saAt sa).state == .old) = true by rw [transmit]; exact Bool.false_ne_true),
      if_pos (show (!rx && (s.saAt sa).state == .ready) = true by rw [transmit, ready]; rfl)]
    exact ⟨_, rfl, (kqGoesOn_emptyAndRefill sa).trans gapOnly_gapCheck.only.run,
      gapOnly_gapCheck.cleared (cleared_emptyAndRefill ..)⟩

theorem saRetire_refuses (runs : KqRuns s b 6) :
    let rx := (descOf b).arg0.testBit 16
    let e := s.scAt rx ((descOf b).arg0 % 65536)
    let sa := scSa e (descOf b).arg1;
    e.inUse = true → ¬Retirable rx (s.saAt sa) → saRetire s = kqComplete 0x44 [] s := by
  intro rx e sa used refused
  have old : ¬(rx && (s.saAt sa).state == .old) = true := fun h => by
    rw [Bool.and_eq_true, beq_iff_eq] at h
    exact refused (.inl h)
  have ready : ¬(!rx && (s.saAt sa).state == .ready) = true := fun h => by
    rw [Bool.and_eq_true, Bool.not_eq_true', beq_iff_eq] at h
    exact refused (.inr h)
  unfold saRetire
  rw [kqRunOp_runs runs]
  dsimp only
  rw [if_neg (by rw [used]; exact Bool.false_ne_true), if_neg old, if_neg ready]

/-! ## The statement -/

/-- Settles O38: what each operation asks for or clears, and what it waits for. -/
theorem keyqDeliversAndRetiresSas : Obligations.KeyqDeliversAndRetiresSas := by
  unfold Obligations.KeyqDeliversAndRetiresSas
  intro s b x d i rx e sa
  refine ⟨fun runs used given empty next pass => ?install, fun runs used derived idle settled valid empty nextEmpty
    other later lt => ?anew, fun runs used derived current valid empty next => ?next,
    fun runs used => ⟨fun retirable => ?clears, fun refused => ?refuses⟩⟩
  case install =>
    refine answers_powered runs.core (f := saInstall (.data x)) rfl ?_
    obtain ⟨f, t, asks, slot, epoch, hif, fills⟩ := saInstall_asks (s := s.fresh) runs used given empty next pass
    obtain ⟨filling, taken, -⟩ := saAt_requestFill_same (s := t) f
    rw [slot] at filling taken
    rw [asks]
    refine ⟨filling, taken.trans epoch, rfl, (congrArg HostIf.kqRun hif).trans runs.run, ?_⟩
    refine (congrArg List.length (requestFill_fills (s := t) f)).trans ?_
    rw [fills, List.length_append]
    rfl
  case anew =>
    refine answers_powered runs.core (f := saDerive) rfl ?_
    rw [saDerive_anew (s := s.fresh) runs used derived idle settled valid empty nextEmpty other later lt]
    obtain ⟨filling, epoch, derives⟩ := saAt_requestFill_same (s := s.fresh) (deriveFill d s.fresh)
    obtain ⟨filling', epoch', -⟩ :=
      saAt_requestFill_same (s := requestFill (deriveFill d s.fresh) s.fresh) (deriveNext d s.fresh)
    have kept : (requestFill (deriveNext d s.fresh) (requestFill (deriveFill d s.fresh) s.fresh)).saAt sa =
        (requestFill (deriveFill d s.fresh) s.fresh).saAt sa :=
      saAt_requestFill_ne _ (Ne.symm other)
    exact ⟨(congrArg SaEntry.state kept).trans filling, (congrArg SaEntry.epoch kept).trans epoch,
      (congrArg SaEntry.derived kept).trans derives, filling', epoch', rfl, runs.run,
      fun a _ => (rd_kqWaits ..).trans ((rd_requestFill ..).trans (rd_requestFill ..))⟩
  case next =>
    refine answers_powered runs.core (f := saDerive) rfl ?_
    rw [saDerive_next (s := s.fresh) runs used derived current valid empty next]
    obtain ⟨filling, epoch, derives⟩ := saAt_requestFill_same (s := s.fresh) (deriveFill d s.fresh)
    exact ⟨filling, epoch, derives, rfl, runs.run, fun a _ => (rd_kqWaits ..).trans (rd_requestFill ..)⟩
  case clears =>
    refine answers_powered runs.core (f := saRetire) rfl ?_
    obtain ⟨t, clears, on, cleared⟩ := saRetire_clears (s := s.fresh) runs used retirable
    have done := kqComplete_done (on.runs runs.run) 0 []
    rw [clears, done.saAt]
    exact ⟨cleared.key, cleared.ready, done.last, done.run⟩
  case refuses =>
    refine answers_powered runs.core (f := saRetire) rfl ?_
    rw [saRetire_refuses (s := s.fresh) runs used refused]
    exact ⟨kqComplete_ended (s := s.fresh) runs.run .., (kqComplete_done (s := s.fresh) runs.run ..).onlyHost runs.wait⟩

end Sys2Proof.Machine
end

section
/-! SUPPORT. TK_ACCEPT, PARENT_LOAD, PARENT_INVALIDATE and VAULT_COMMIT (R220, R230, R231, R242 to R244). -/

namespace Sys2Proof.Machine

variable {s t u : State} {b : Bytes} {l : List Nat} {i k sa : Nat}

/-! ## What the steps of these operations leave -/

theorem SecOnly.foldl {α : Type} {f : State → α → State} (step : ∀ w a, SecOnly l w (f w a)) (as : List α) (s : State) :
    SecOnly l s (as.foldl f s) := by
  induction as generalizing s with
  | nil => exact .refl l s
  | cons a as ih => exact (step s a).trans (ih (f s a))

theorem SecOnly.parentAt (h : SecOnly l s t) (i : Nat) : t.parentAt i = s.parentAt i := by
  rw [State.parentAt, h.key, State.parentAt]

theorem onlyHost_keyEvent (n : Nat) : OnlyHost [Reg.KEY_EVT] s (keyEvent n s) := onlyHost_raiseEvent n _ (by decide)

theorem secOnly_keyEvent (n : Nat) : SecOnly [Reg.KEY_EVT] s (keyEvent n s) :=
  (onlyHost_keyEvent n).secOnly (kqGoesOn_raiseEvent ..)

theorem keyEvent_sec (n : Nat) : (keyEvent n s).sec = s.sec := (onlyHost_keyEvent n).sec

/-! ## Parents (R242, R244) -/

/-- The bits that show which parents are valid are the key store's own. -/
theorem parentValid_core (n : Nat) : hostIfReg (Reg.KEY_PARENT_VALID n) = false ∧
    Reg.KEY_PARENT_VALID n ∉ gapRegs ∧ Reg.KEY_PARENT_VALID n ≠ Reg.KEY_EVT := by
  have range : 0x140100 ≤ Reg.KEY_PARENT_VALID n ∧ Reg.KEY_PARENT_VALID n < 0x140300 := by
    unfold Reg.KEY_PARENT_VALID
    omega
  refine ⟨?_, fun h => ?_, by rw [show Reg.KEY_EVT = 0x14003C from rfl]; omega⟩
  · unfold hostIfReg
    rw [Bool.or_eq_false_iff, Bool.and_eq_false_iff, Bool.and_eq_false_iff, decide_eq_false_iff_not,
      decide_eq_false_iff_not, decide_eq_false_iff_not, decide_eq_false_iff_not]
    omega
  · rcases range_of_mem_gapRegs h with alarm | below
    · rw [show Reg.KPR_ALARM = 0x300004 from rfl] at alarm
      omega
    · omega

theorem setParent_shows (i : Nat) (p : Parent) (s : State) : (setParent i p s).parentAt i = p ∧
    (∀ k, k ≠ i → (setParent i p s).parentAt k = s.parentAt k) ∧
    (setParent i p s).bit (Reg.KEY_PARENT_VALID (i / 32)) (i % 32) = p.valid :=
  ⟨Tbl.get_set_same .., fun _ h => Tbl.get_set_ne _ _ _ h, State.bit_setBit_same _ _ _ _ (Nat.mod_lt _ (by decide))⟩

theorem secOnly_refillParent : SecOnly [] s (refillParent i s) := by
  have refills (rx : Bool) (w : State) (j : Nat) :
      SecOnly [] w (if scParent (w.scAt rx j) = i then refill rx j w else w) := (secOnly_refill rx j).ite (.refl _ w)
  exact (SecOnly.foldl (refills false) _ _).trans (.foldl (refills true) _ _)

/-- The parent that PARENT_LOAD unwraps (R242). -/
def loadedParent (plain : Bytes) : Parent := { valid := true, id := beAt plain 4 4, key := slice plain 8 32 }

/-- The state in which the parent is loaded, before the fills that it allows. -/
def parentLoaded (d : Desc) (plain : Bytes) (s : State) : State :=
  setParent (d.arg0 % 4096) (loadedParent plain)
    (freshMasks (parentWord (d.arg0 % 4096)) 4 (s.emit (.dmaRead d.inAddr d.inLen)))

theorem freshMasks_parentAt (a n k : Nat) : (freshMasks a n s).parentAt k = s.parentAt k := rfl

theorem parentLoaded_shows (d : Desc) (plain : Bytes) (s : State) :
    (parentLoaded d plain s).parentAt (d.arg0 % 4096) = loadedParent plain ∧
    (∀ k, k ≠ d.arg0 % 4096 → (parentLoaded d plain s).parentAt k = s.parentAt k) ∧
    (parentLoaded d plain s).bit (Reg.KEY_PARENT_VALID (d.arg0 % 4096 / 32)) (d.arg0 % 4096 % 32) = true := by
  obtain ⟨stored, others, shown⟩ := setParent_shows (d.arg0 % 4096) (loadedParent plain)
    (freshMasks (parentWord (d.arg0 % 4096)) 4 (s.emit (.dmaRead d.inAddr d.inLen)))
  exact ⟨stored, fun k other => (others k other).trans (freshMasks_parentAt ..), shown⟩

theorem parentLoad_loads {x : Bytes} (runs : KqRuns s b 2) :
    let d := descOf b
    let v := unwrapInput d (.data x) (field d.arg0 16 4) 48 0x50 0 (d.arg0 % 4096) none s;
    (s.parentAt (d.arg0 % 4096)).valid = false → v.code = 0 →
    parentLoad (.data x) s = kqComplete 0 [] (refillParent (d.arg0 % 4096) (parentLoaded d v.plain s)) := by
  intro d v free pass
  unfold parentLoad
  rw [kqRunOp_runs runs]
  dsimp only
  rw [if_neg (by rw [free]; exact Bool.false_ne_true), if_neg (fun failed => failed pass), unwrapInput_state pass]
  rfl

theorem parentLoad_ends {x : Bytes} (runs : KqRuns s b 2) :
    let d := descOf b
    let i := d.arg0 % 4096
    let v := unwrapInput d (.data x) (field d.arg0 16 4) 48 0x50 0 i none s
    let u := parentLoad (.data x) s;
    (s.parentAt i).valid = false → v.code = 0 →
    u.parentAt i = loadedParent v.plain ∧ u.bit (Reg.KEY_PARENT_VALID (i / 32)) (i % 32) = true ∧
    (∀ k, k ≠ i → u.parentAt k = s.parentAt k) ∧ ∃ t, KqDone d 0 t u := by
  intro d i v u free pass
  obtain ⟨stored, others, shown⟩ := parentLoaded_shows d v.plain s
  obtain ⟨core, -, -⟩ := parentValid_core (i / 32)
  have refills := secOnly_refillParent (i := i) (s := parentLoaded d v.plain s)
  have done := kqComplete_done (refills.run.runs runs.run) 0 []
  rw [← parentLoad_loads runs free pass] at done
  exact ⟨(done.parentAt i).trans ((refills.parentAt i).trans stored),
    (done.bit _ core).trans ((refills.bit _ core List.not_mem_nil).trans shown),
    fun k other => (done.parentAt k).trans ((refills.parentAt k).trans (others k other)), _, done⟩

/-- An SA is an orphan, or its slot is empty. -/
def OrphanOrEmpty (a : SaEntry) : Prop := a.orphan = true ∨ a.state = .empty

theorem GapOnly.orphanOrEmpty (h : GapOnly i s u) (o : OrphanOrEmpty (s.saAt k)) : OrphanOrEmpty (u.saAt k) := by
  rcases h.slots k with e | e <;> rw [e]
  · exact o
  · exact .inr rfl

/-- An SA that becomes an orphan may empty its slot, with the key gap that follows. -/
theorem orphanSa_gap (sa : Nat) (s : State) :
    ∃ i, GapOnly i (s.setSa sa { s.saAt sa with orphan := true }) (orphanSa sa s) := by
  unfold orphanSa
  dsimp only
  split
  · split
    next i rx _ => exact ⟨i, (gapOnly_emptySlot sa).trans (.ite (.refl i _) gapOnly_gapCheck)⟩
    · exact ⟨0, gapOnly_emptySlot sa⟩
  · exact ⟨0, .refl ..⟩

theorem secOnly_orphanSa (sa : Nat) (s : State) : SecOnly gapRegs s (orphanSa sa s) := by
  obtain ⟨_, gap⟩ := orphanSa_gap sa s
  exact (secOnly_setSa ..).trans gap.only

theorem orphanSa_orphans (sa : Nat) (s : State) : OrphanOrEmpty ((orphanSa sa s).saAt sa) := by
  obtain ⟨_, gap⟩ := orphanSa_gap sa s
  exact gap.orphanOrEmpty (by rw [saAt_setSa_same]; exact .inl rfl)

theorem OrphanOrEmpty.orphanSa (h : OrphanOrEmpty (s.saAt k)) (sa : Nat) :
    OrphanOrEmpty ((orphanSa sa s).saAt k) := by
  by_cases same : k = sa
  · rw [same]
    exact orphanSa_orphans sa s
  · obtain ⟨_, gap⟩ := orphanSa_gap sa s
    exact gap.orphanOrEmpty (by rwa [saAt_setSa_ne _ same])

theorem orphanOrEmpty_foldl (sas : List Nat) (s : State) (h : k ∈ sas ∨ OrphanOrEmpty (s.saAt k)) :
    OrphanOrEmpty ((sas.foldl (fun s a => orphanSa a s) s).saAt k) := by
  induction sas generalizing s with
  | nil => exact h.resolve_left List.not_mem_nil
  | cons a as ih =>
    refine ih _ ?_
    rcases h with mem | already
    · rcases List.mem_cons.mp mem with rfl | rest
      · exact .inr (orphanSa_orphans k s)
      · exact .inl rest
    · exact .inr (already.orphanSa a)

/-- The SAs of a parent that are not empty. -/
def parentSas (i : Nat) (s : State) : List Nat :=
  (s.sec.sa.filter (fun e => e.2.derived && e.2.parent == i && e.2.state != .empty)).map Prod.fst

theorem mem_parentSas (derived : (s.saAt sa).derived = true) (parent : (s.saAt sa).parent = i)
    (live : (s.saAt sa).state ≠ .empty) : sa ∈ parentSas i s := by
  have entry : (sa, s.saAt sa) ∈ s.sec.sa := Tbl.mem_of_get_ne (d := fun _ => ({} : SaEntry)) fun e => by
    rw [State.saAt, e] at derived
    cases derived
  refine List.mem_map.mpr ⟨(sa, s.saAt sa), List.mem_filter.mpr ⟨entry, ?_⟩, rfl⟩
  simp [derived, parent, live]

/-- The parent is no longer valid, in the vault too where its tombstone is written. -/
def buried (i : Nat) (written : Bool) (s : State) : State :=
  let t := setParent i {} s
  if t.key.vaultOpen && written then
    t.putVault .parents (fun v => { v with parents := Tbl.set (fun _ => {}) v.parents i {} })
  else t

/-- The parent is no longer valid and its SAs are orphans. -/
def parentLost (i : Nat) (written : Bool) (s : State) : State :=
  keyEvent 5 ((parentSas i s).foldl (fun s a => orphanSa a s) (buried i written s))

theorem buried_shows (i : Nat) (written : Bool) (s : State) : (buried i written s).parentAt i = {} ∧
    (buried i written s).bit (Reg.KEY_PARENT_VALID (i / 32)) (i % 32) = false ∧
    (s.key.vaultOpen = true → written = true →
      Tbl.get (fun _ => ({} : Parent)) (buried i written s).key.vault.parents i = {}) := by
  obtain ⟨gone, -, shown⟩ := setParent_shows i {} s
  unfold buried
  dsimp only
  split
  · exact ⟨gone, shown, fun _ _ => Tbl.get_set_same (fun _ => ({} : Parent)) s.key.vault.parents i {}⟩
  next kept => exact ⟨gone, shown, fun opened ok => absurd (by rw [ok]; exact congrArg (· && true) opened) kept⟩

theorem buried_leaves (i : Nat) (written : Bool) (s : State) : (buried i written s).sec = s.sec ∧
    (buried i written s).hif = s.hif ∧ (buried i written s).key.vaultOpen = s.key.vaultOpen := by
  unfold buried
  dsimp only
  split <;> exact ⟨rfl, rfl, rfl⟩

theorem secOnly_parentLost (i : Nat) (written : Bool) (s : State) :
    SecOnly (Reg.KEY_EVT :: gapRegs) (buried i written s) (parentLost i written s) :=
  .trans ((SecOnly.foldl (fun w a => secOnly_orphanSa a w) ..).mono (List.subset_cons_self ..))
    ((secOnly_keyEvent 5).mono (List.cons_subset_cons _ (List.nil_subset _)))

theorem parentLost_orphans (written : Bool) (derived : (s.saAt sa).derived = true) (parent : (s.saAt sa).parent = i) :
    OrphanOrEmpty ((parentLost i written s).saAt sa) := by
  obtain ⟨sec, -, -⟩ := buried_leaves i written s
  rw [parentLost, saAt_of_sec (keyEvent_sec 5)]
  refine orphanOrEmpty_foldl _ _ ?_
  rw [saAt_of_sec sec]
  by_cases empty : (s.saAt sa).state = .empty
  · exact .inr (.inr empty)
  · exact .inl (mem_parentSas derived parent empty)

theorem parentInvalidate_loses (written : Bool) (runs : KqRuns s b 3) :
    let i := (descOf b).arg0 % 4096;
    (s.parentAt i).valid = true → vaultQuiet s = false →
    parentInvalidate written s = if (s.key.vaultOpen && !written) = true then kqComplete 0x50 [] (parentLost i written s)
      else kqComplete 0 (leBytes 8 (parentSas i s).length) (parentLost i written s) := by
  intro i valid loud
  have opened : (parentLost i written s).key.vaultOpen = s.key.vaultOpen := by
    rw [(secOnly_parentLost i written s).key]
    exact (buried_leaves i written s).2.2
  unfold parentInvalidate
  rw [kqRunOp_runs runs]
  dsimp only
  rw [if_neg (by rw [valid]; exact Bool.false_ne_true), if_neg (by rw [loud]; exact Bool.false_ne_true), ← opened]
  rfl

/-- The code that PARENT_INVALIDATE ends with: the tombstone of a vault that is open may not be written. -/
theorem parentInvalidate_done (written : Bool) (runs : KqRuns s b 3)
    (valid : (s.parentAt ((descOf b).arg0 % 4096)).valid = true) (loud : vaultQuiet s = false) :
    KqDone (descOf b) (if (s.key.vaultOpen && !written) = true then 0x50 else 0)
      (parentLost ((descOf b).arg0 % 4096) written s) (parentInvalidate written s) := by
  obtain ⟨-, hif, -⟩ := buried_leaves ((descOf b).arg0 % 4096) written s
  have run := (secOnly_parentLost ((descOf b).arg0 % 4096) written s).run.runs
    ((congrArg HostIf.kqRun hif).trans runs.run)
  rw [parentInvalidate_loses written runs valid loud]
  split
  · exact kqComplete_done run ..
  · exact kqComplete_done run ..

/-- What is left of a parent and its SAs when its invalidation ends, whatever the code. -/
theorem parentLost_ends (written : Bool) {code : Nat} (d : Desc) (done : KqDone d code (parentLost i written s) u) :
    u.parentAt i = {} ∧ u.bit (Reg.KEY_PARENT_VALID (i / 32)) (i % 32) = false ∧
    (∀ sa, (s.saAt sa).derived = true → (s.saAt sa).parent = i → OrphanOrEmpty (u.saAt sa)) ∧
    (s.key.vaultOpen = true → written = true → Tbl.get (fun _ => ({} : Parent)) u.key.vault.parents i = {}) := by
  obtain ⟨gone, shown, tomb⟩ := buried_shows i written s
  obtain ⟨core, noGap, noEvent⟩ := parentValid_core (i / 32)
  have lost := secOnly_parentLost i written s
  refine ⟨(done.parentAt i).trans ((lost.parentAt i).trans gone), ?_, fun sa derived parent => ?_, fun opened ok => ?_⟩
  · rw [done.bit _ core, lost.bit _ core (List.not_mem_cons_of_ne_of_not_mem noEvent noGap), shown]
  · rw [done.saAt]
    exact parentLost_orphans written derived parent
  · rw [done.key, lost.key]
    exact tomb opened ok

/-! ## Transport keys (R230, R231) -/

/-- A transport key in its slot, with the masks of the words that hold it. -/
def transportStored (slot : Nat) (tk : Bytes) (s : State) : State :=
  let t := freshMasks (transportWord slot) 4 (loadIdentity s)
  { t with key := { t.key with transport := Tbl.set (fun _ => []) t.key.transport slot tk } }

/-- The key that TK_ACCEPT makes of its request (R231). -/
def acceptedKey (s : State) (r : Bytes) : Bytes :=
  hybridKey (slice r 0x18 32) (slice r 0x38 97) (slice r 0xA0 1568)
    ([0x4D#8, 0x59#8, 0x54#8, 0x4B#8] ++ beBytes 4 s.unit ++ beBytes 1 (byteAt r 8) ++ beBytes 8 (leAt r 0x10 8))

theorem freshMasks_leaves (a n : Nat) (s : State) : (freshMasks a n s).key.transport = s.key.transport ∧
    (freshMasks a n s).key.record = s.key.record ∧ (freshMasks a n s).hif = s.hif ∧ (freshMasks a n s).sec = s.sec :=
  ⟨rfl, rfl, rfl, rfl⟩

theorem loadIdentity_leaves : (loadIdentity s).key.transport = s.key.transport ∧
    (loadIdentity s).key.record = s.key.record ∧ (loadIdentity s).hif = s.hif ∧ (loadIdentity s).sec = s.sec := by
  unfold loadIdentity
  split
  · exact ⟨rfl, rfl, rfl, rfl⟩
  · unfold State.setBit State.wrF State.wr
    dsimp only
    exact freshMasks_leaves ..

theorem transportStored_shows (slot : Nat) (tk : Bytes) :
    (transportStored slot tk s).key.transport = Tbl.set (fun _ => []) s.key.transport slot tk ∧
    (transportStored slot tk s).key.record = s.key.record ∧ (transportStored slot tk s).hif = s.hif ∧
    (transportStored slot tk s).sec = s.sec := by
  obtain ⟨transport, record, hif, sec⟩ := loadIdentity_leaves (s := s)
  obtain ⟨transport', record', hif', sec'⟩ := freshMasks_leaves (transportWord slot) 4 (loadIdentity s)
  unfold transportStored
  dsimp only
  exact ⟨congrArg (Tbl.set (fun _ => []) · slot tk) (transport'.trans transport), record'.trans record, hif'.trans hif,
    sec'.trans sec⟩

theorem syncKey_leaves (s : State) : (syncKey s).key = s.key ∧ (syncKey s).hif = s.hif ∧ (syncKey s).sec = s.sec :=
  ⟨rfl, rfl, rfl⟩

theorem tkFloor_of_record (h : t.key.record = s.key.record) : tkFloor t = tkFloor s := by rw [tkFloor, h, tkFloor]

theorem setRecord_shows {f : EnrolRecord → EnrolRecord} {r : EnrolRecord} (h : s.key.record = some r) :
    (setRecord f s).key.record = some (f r) ∧ (setRecord f s).key.transport = s.key.transport ∧
    (setRecord f s).hif = s.hif ∧ (setRecord f s).sec = s.sec := by
  rw [setRecord, h]
  exact ⟨rfl, rfl, rfl, rfl⟩

/-- A new TK_FLOOR in the enrolment record. -/
def floored (seq : Nat) (s : State) : State := syncKey (setRecord (fun e => { e with tkFloor := seq }) s)

theorem floored_shows {seq : Nat} (enrolled : s.key.record.isSome = true) : tkFloor (floored seq s) = seq ∧
    (floored seq s).key.transport = s.key.transport ∧ (floored seq s).hif = s.hif ∧ (floored seq s).sec = s.sec := by
  obtain ⟨r, record⟩ := Option.isSome_iff_exists.mp enrolled
  obtain ⟨raised, transport, hif, sec⟩ := setRecord_shows (f := fun e => { e with tkFloor := seq }) record
  obtain ⟨key, hif', sec'⟩ := syncKey_leaves (setRecord (fun e => { e with tkFloor := seq }) s)
  refine ⟨?_, (congrArg KeyState.transport key).trans transport, hif'.trans hif, sec'.trans sec⟩
  rw [floored, tkFloor, key, raised]
  rfl

/-- A request that passes every check is signed under the enrolled key, so the part has a record. -/
theorem enrolled_of_tkCode {d : Desc} {r : Bytes} (pass : tkCode s d r = 0) : s.key.record.isSome = true := by
  obtain ⟨-, lifecycle⟩ := ne_and_of_ite_eq pass (by decide)
  obtain ⟨-, keys⟩ := ne_and_of_ite_eq lifecycle (by decide)
  obtain ⟨hash, -⟩ := ne_and_of_ite_eq keys (by decide)
  cases record : s.key.record with
  | none => exact absurd (by rw [record]; exact Option.some_ne_none _) hash
  | some _ => rfl

section
variable {x : Bytes}

/-- The state in which a request that passes has its key in its slot. -/
def accepted (d : Desc) (r : Bytes) (s : State) : State :=
  transportStored (byteAt r 8) (acceptedKey s r) (s.emit (.dmaRead d.inAddr d.inLen))

theorem tkAccept_unwritten (runs : KqRuns s b 1) (readable : InputOk (descOf b))
    (pass : tkCode s (descOf b) (exactly (descOf b).inLen x) = 0) : tkAccept (.data x) false s =
      kqComplete 0x50 [] (syncKey (accepted (descOf b) (exactly (descOf b).inLen x) s)) := by
  unfold tkAccept
  rw [kqRunOp_runs runs, kqInput_reads readable]
  dsimp only
  rw [if_neg (show ¬tkCode (s.emit _) _ _ ≠ 0 from fun failed => failed pass), if_pos (by rfl)]
  rfl

theorem tkAccept_written (runs : KqRuns s b 1) (readable : InputOk (descOf b))
    (pass : tkCode s (descOf b) (exactly (descOf b).inLen x) = 0) : ∃ v, tkAccept (.data x) true s =
      kqComplete 0 v (keyEvent 4 (floored (leAt (exactly (descOf b).inLen x) 0x10 8)
        (accepted (descOf b) (exactly (descOf b).inLen x) s))) := by
  unfold tkAccept
  rw [kqRunOp_runs runs, kqInput_reads readable]
  dsimp only
  rw [if_neg (show ¬tkCode (s.emit _) _ _ ≠ 0 from fun failed => failed pass), if_neg (by exact Bool.false_ne_true)]
  exact ⟨_, rfl⟩

/-- A TK_FLOOR that the enrolment record does not take stays as it was. -/
theorem tkAccept_unwritten_ends (runs : KqRuns s b 1) (readable : InputOk (descOf b))
    (pass : tkCode s (descOf b) (exactly (descOf b).inLen x) = 0) :
    tkFloor (tkAccept (.data x) false s) = tkFloor s ∧ ∃ t, KqDone (descOf b) 0x50 t (tkAccept (.data x) false s) := by
  obtain ⟨-, record, hif, -⟩ := transportStored_shows (byteAt (exactly (descOf b).inLen x) 8)
    (acceptedKey s (exactly (descOf b).inLen x)) (s := s.emit (.dmaRead (descOf b).inAddr (descOf b).inLen))
  obtain ⟨key, hif', -⟩ := syncKey_leaves (accepted (descOf b) (exactly (descOf b).inLen x) s)
  have done := kqComplete_done ((congrArg HostIf.kqRun (hif'.trans hif)).trans runs.run) 0x50 []
  rw [tkAccept_unwritten runs readable pass]
  exact ⟨tkFloor_of_record ((congrArg KeyState.record (done.key.trans key)).trans record), _, done⟩

/-- A TK_FLOOR that the enrolment record takes stands with the key in its slot. -/
theorem tkAccept_written_ends (runs : KqRuns s b 1) (readable : InputOk (descOf b))
    (pass : tkCode s (descOf b) (exactly (descOf b).inLen x) = 0) :
    let r := exactly (descOf b).inLen x
    let u := tkAccept (.data x) true s;
    u.key.transport = Tbl.set (fun _ => []) s.key.transport (byteAt r 8) (acceptedKey s r) ∧
    tkFloor u = leAt r 0x10 8 ∧ u.sec = s.sec ∧ ∃ t, KqDone (descOf b) 0 t u := by
  intro r u
  obtain ⟨v, ends⟩ := tkAccept_written runs readable pass
  obtain ⟨transport, record, hif, sec⟩ := transportStored_shows (byteAt r 8) (acceptedKey s r)
    (s := s.emit (.dmaRead (descOf b).inAddr (descOf b).inLen))
  obtain ⟨floor, transport', hif', sec'⟩ := floored_shows (s := accepted (descOf b) r s) (seq := leAt r 0x10 8)
    ((congrArg Option.isSome record).trans (enrolled_of_tkCode pass))
  have noted := secOnly_keyEvent (s := floored (leAt r 0x10 8) (accepted (descOf b) r s)) 4
  have unwaiting : (keyEvent 4 (floored (leAt r 0x10 8) (accepted (descOf b) r s))).sec = s.sec :=
    (keyEvent_sec 4).trans (sec'.trans sec)
  have done := kqComplete_done (noted.run.runs ((congrArg HostIf.kqRun (hif'.trans hif)).trans runs.run)) 0 v
  rw [← ends] at done
  have key := done.key.trans noted.key
  exact ⟨(congrArg KeyState.transport key).trans (transport'.trans transport),
    (tkFloor_of_record (congrArg KeyState.record key)).trans floor,
    (done.sec_eq (by rw [unwaiting, runs.wait])).trans unwaiting, _, done⟩

end

/-! ## The vault's generation (R243) -/

/-- The valid parents of a new generation. -/
def committed (s : State) : Tbl Parent := s.key.parents.map (fun e => (e.1, { e.2 with committed := true }))

/-- The vault with its new generation. -/
def nextVault (s : State) : State :=
  { s with key := { s.key with parents := committed s } }.putVault .parents
    (fun v => { v with parents := committed s, gen := s.key.vault.gen + 1 })

theorem nextVault_shows : (nextVault s).key.vault.gen = s.key.vault.gen + 1 ∧
    (nextVault s).key.vault.parents = committed s ∧ (nextVault s).hif = s.hif ∧ (nextVault s).sec = s.sec ∧
    (nextVault s).regs = s.regs := ⟨rfl, rfl, rfl, rfl, rfl⟩

theorem syncKey_gen (s : State) : (syncKey s).rd Reg.KEY_VAULT_GEN = s.key.vault.gen % 2 ^ 32 := State.rd_wr_same ..

theorem syncKey_rd_ne {a : Nat}
    (h : a ∉ [Reg.KEY_TK_VALID, Reg.KEY_TK_FLOOR 0, Reg.KEY_TK_FLOOR 1, Reg.KEY_VAULT_GEN]) :
    (syncKey s).rd a = s.rd a := by
  simp only [List.mem_cons, List.not_mem_nil, or_false, not_or] at h
  obtain ⟨valid, low, high, gen⟩ := h
  exact (State.rd_wr_ne _ _ gen).trans <| (State.rd_wr_ne _ _ high).trans <| (State.rd_wr_ne _ _ low).trans
    (State.rd_wr_ne _ _ valid)

theorem syncKey_kqRegs {a : Nat} (h : a ∈ kqRegs) : (syncKey s).rd a = s.rd a :=
  syncKey_rd_ne ((by decide : ∀ a ∈ kqRegs,
    a ∉ [Reg.KEY_TK_VALID, Reg.KEY_TK_FLOOR 0, Reg.KEY_TK_FLOOR 1, Reg.KEY_VAULT_GEN]) a h)

theorem vaultCommit_shut (verified : Bool) (runs : KqRuns s b 7) (shut : s.key.vaultOpen = false) :
    vaultCommit verified s = kqComplete 0x51 [] s := by
  unfold vaultCommit
  rw [kqRunOp_runs runs]
  exact if_pos (by rw [shut]; rfl)

theorem vaultCommit_open (verified : Bool) (runs : KqRuns s b 7) (opened : s.key.vaultOpen = true)
    (loud : vaultQuiet s = false) : vaultCommit verified s = if verified then
      kqComplete 0 (leBytes 8 (s.key.vault.gen + 1)) (syncKey (nextVault s)) else kqComplete 0x50 [] s := by
  unfold vaultCommit
  rw [kqRunOp_runs runs]
  dsimp only
  rw [if_neg (by rw [opened]; exact Bool.false_ne_true), if_neg (by rw [loud]; exact Bool.false_ne_true)]
  cases verified <;> rfl

/-- The registers that show the key store are written before an operation's end, which says where it went. -/
theorem vaultCommit_ends (runs : KqRuns s b 7) (opened : s.key.vaultOpen = true) (loud : vaultQuiet s = false) :
    let u := vaultCommit true s;
    KqEnded (descOf b) 0 (leBytes 8 (s.key.vault.gen + 1)) s u ∧ u.key.vault.gen = s.key.vault.gen + 1 ∧
    u.rd Reg.KEY_VAULT_GEN = (s.key.vault.gen + 1) % 2 ^ 32 ∧ u.key.vault.parents = committed s ∧ u.sec = s.sec := by
  intro u
  obtain ⟨gen, parents, hif, sec, regs⟩ := nextVault_shows (s := s)
  obtain ⟨key, hif', sec'⟩ := syncKey_leaves (nextVault s)
  have ends : u = kqComplete 0 (leBytes 8 (s.key.vault.gen + 1)) (syncKey (nextVault s)) :=
    vaultCommit_open true runs opened loud
  have run : (syncKey (nextVault s)).hif.kqRun = some b := (congrArg HostIf.kqRun (hif'.trans hif)).trans runs.run
  have ended := kqComplete_ended run 0 (leBytes 8 (s.key.vault.gen + 1))
  have done := kqComplete_done run 0 (leBytes 8 (s.key.vault.gen + 1))
  rw [← ends] at ended done
  have unwaiting : (syncKey (nextVault s)).sec = s.sec := sec'.trans sec
  refine ⟨ended.of_regs (hif'.trans hif) fun a ha => (syncKey_kqRegs ha).trans (State.rd_of_regs regs a),
    ?_, ?_, ?_, (done.sec_eq (by rw [unwaiting, runs.wait])).trans unwaiting⟩
  · rw [done.key, key, gen]
  · rw [done.rd (by decide), syncKey_gen, gen]
  · rw [done.key, key, parents]

/-! ## The statement -/

/-- Settles O37: each operation by what it leaves in the key store, with the end it comes to. -/
theorem transportKeysAndParents : Obligations.TransportKeysAndParents := by
  unfold Obligations.TransportKeysAndParents
  intro s b x d
  refine ⟨fun runs readable => ?accept, fun runs free => ?load, fun ok runs valid loud => ?invalidate,
    fun runs => ⟨fun shut => ?shut, fun opened loud => ⟨?failed, ?committed⟩⟩⟩
  case accept =>
    intro r pass
    constructor
    · refine answers_powered runs.core (f := tkAccept (.data x) false) rfl ?_
      obtain ⟨floor, t, done⟩ := tkAccept_unwritten_ends (s := s.fresh) runs readable pass
      exact ⟨floor, done.run, done.last⟩
    · refine answers_powered runs.core (f := tkAccept (.data x) true) rfl ?_
      obtain ⟨transport, floor, sec, t, done⟩ := tkAccept_written_ends (s := s.fresh) runs readable pass
      dsimp only
      rw [transport]
      exact ⟨Tbl.get_set_same .., floor, fun k other => Tbl.get_set_ne _ _ _ other, done.last, done.run, sec⟩
  case load =>
    intro v pass
    refine answers_powered runs.core (f := parentLoad (.data x)) rfl ?_
    obtain ⟨loaded, shown, others, t, done⟩ := parentLoad_ends (s := s.fresh) runs free pass
    exact ⟨loaded, shown, others, done.last, done.run⟩
  case invalidate =>
    refine answers_powered runs.core (f := parentInvalidate ok) rfl ?_
    have done := parentInvalidate_done (s := s.fresh) ok runs valid loud
    obtain ⟨gone, shown, orphans, tomb⟩ := parentLost_ends ok d done
    refine ⟨gone, shown, orphans, tomb, done.last.trans ?_, done.run⟩
    simp only [mul_ite, mul_zero, Bool.and_eq_true, Bool.not_eq_true']
    rfl
  case shut =>
    refine answers_powered runs.core (f := vaultCommit true) rfl ?_
    rw [vaultCommit_shut (s := s.fresh) true runs shut]
    exact ⟨kqComplete_ended (s := s.fresh) runs.run .., (kqComplete_done (s := s.fresh) runs.run ..).onlyHost runs.wait⟩
  case failed =>
    refine answers_powered runs.core (f := vaultCommit false) rfl ?_
    rw [vaultCommit_open (s := s.fresh) false runs opened loud]
    exact ⟨kqComplete_ended (s := s.fresh) runs.run .., (kqComplete_done (s := s.fresh) runs.run ..).onlyHost runs.wait⟩
  case committed =>
    exact answers_powered runs.core (f := vaultCommit true) rfl (vaultCommit_ends (s := s.fresh) runs opened loud)

end Sys2Proof.Machine
end

section
/-! SUPPORT. ATTEST, KEY_QUERY and KEEPER_KEY_ROLL (R239, R240, R252, R259). -/

namespace Sys2Proof.Machine

variable {s t : State} {b x : Bytes} {d : Desc}

/-! ## SHA-384 gives 48 bytes -/

theorem shaRound_length {st : List (BitVec 64)} (h : st.length = 8) (kw : BitVec 64 × BitVec 64) :
    (shaRound st kw).length = 8 := by
  unfold shaRound
  split
  · rfl
  · exact h

theorem shaBlock_length {st : List (BitVec 64)} (h : st.length = 8) (blk : Bytes) : (shaBlock st blk).length = 8 := by
  have rounds (l : List (BitVec 64 × BitVec 64)) : (l.foldl shaRound st).length = 8 :=
    List.foldlRecOn (motive := fun w => w.length = 8) l shaRound h fun _ hs kw _ => shaRound_length hs kw
  rw [shaBlock, List.length_zipWith, h, rounds, min_self]

theorem shaIV_length : shaIV.length = 8 := by decide +kernel

theorem sha384_length (b : Bytes) : (sha384 b).length = 48 := by
  have words (l : List Bytes) : (l.foldl shaBlock shaIV).length = 8 :=
    List.foldlRecOn (motive := fun w => w.length = 8) l shaBlock shaIV_length fun _ hs blk _ => shaBlock_length hs blk
  simp only [sha384, List.length_flatMap, beBytes_length, List.map_const', List.sum_replicate, List.length_take, words]
  rfl

/-! ## The statement of ATTEST (R259) -/

theorem exactly_length (n : Nat) (bs : Bytes) : (exactly n bs).length = n := by
  rw [exactly, padTo, zeros, List.length_take, List.length_append, List.length_replicate]
  omega

theorem zeros_length (n : Nat) : (zeros n).length = n := List.length_replicate

theorem fwDigest_length (s : State) : (fwDigest s).length = 48 := by
  unfold fwDigest
  split
  · exact zeros_length 48
  · exact exactly_length ..

theorem attestBody_length (s : State) (nonce : Bytes) : (attestBody s nonce).length = 272 := by
  unfold attestBody
  generalize identityPublic = keys
  simp only [List.length_append, leBytes_length, exactly_length, zeros_length, fwDigest_length, sha384_length,
    List.length_cons, List.length_nil]

theorem dualSign_body {n : Nat} {body : Bytes} (h : body.length = n) (ctx : Bytes) (size : Nat) :
    (dualSign s body ctx size).take n = body := by
  rw [dualSign, padTo, List.append_assoc, List.append_assoc, List.take_append_of_le_length h.ge, ← h, List.take_length]

/-! ## What loading the identity keys leaves of what is attested (R227) -/

/-- Two states that differ in no more than KEY_STATUS, masks, draws and outputs. -/
structure LoadsKeys (s t : State) : Prop where
  regs : RegsBut [Reg.KEY_STATUS] s t
  rest : t = { s with regs := t.regs, key := { s.key with masks := t.key.masks }, rng := t.rng, out := t.out }

theorem LoadsKeys.trans {u : State} (h : LoadsKeys s t) (k : LoadsKeys t u) : LoadsKeys s u :=
  ⟨fun a ha => (k.regs a ha).trans (h.regs a ha), k.rest.trans (by rw [h.rest])⟩

theorem loadsKeys_freshMasks (a n : Nat) : LoadsKeys s (freshMasks a n s) := ⟨fun _ _ => rfl, rfl⟩

theorem loadsKeys_setBit (n : Nat) (v : Bool) : LoadsKeys s (s.setBit Reg.KEY_STATUS n v) :=
  ⟨fun _ ha => State.rd_setBit_ne _ _ _ (List.ne_of_not_mem_cons ha), rfl⟩

theorem loadsKeys_loadIdentity (s : State) : LoadsKeys s (loadIdentity s) := by
  unfold loadIdentity
  split
  · exact ⟨fun _ _ => rfl, rfl⟩
  · exact (loadsKeys_freshMasks ..).trans (loadsKeys_setBit ..)

theorem LoadsKeys.rd (h : LoadsKeys s t) {a : Nat} (ha : a ≠ Reg.KEY_STATUS) : t.rd a = s.rd a :=
  h.regs a (List.not_mem_cons_of_ne_of_not_mem ha List.not_mem_nil)

theorem LoadsKeys.imageBytes (h : LoadsKeys s t) : imageBytes t = imageBytes s :=
  congrArg List.flatten <| List.map_congr_left fun i _ => congrArg (leBytes 4) <| h.rd <| by
    unfold Reg.KPR_C7_FLAGS Reg.KEY_STATUS
    omega

theorem LoadsKeys.chainPos (h : LoadsKeys s t) : chainPos t = chainPos s := by
  rw [Machine.chainPos, State.bit, State.bit, State.rdF, h.rd (a := Reg.CHN_STATUS) (by decide)]
  rfl

theorem LoadsKeys.fwDigest (h : LoadsKeys s t) : fwDigest t = fwDigest s := by
  have pwr : t.pwr = s.pwr := by rw [h.rest]
  rw [Machine.fwDigest, State.bit, pwr, h.rd (a := Reg.PWR_FW_STATUS) (by decide)]
  rfl

theorem LoadsKeys.attestBody (h : LoadsKeys s t) (nonce : Bytes) : attestBody t nonce = attestBody s nonce := by
  have unit : t.unit = s.unit := by rw [h.rest]; rfl
  have lifecycle : t.lifecycle = s.lifecycle := by rw [h.rest]; rfl
  have fuses : fuseCfg t = fuseCfg s := by rw [h.rest]; rfl
  have kpr : t.kpr = s.kpr := by rw [h.rest]
  have pat : t.pat = s.pat := by rw [h.rest]
  unfold Machine.attestBody
  rw [unit, lifecycle, fuses, kpr, pat, h.chainPos, h.fwDigest, h.imageBytes, State.rdF, State.rdF,
    h.rd (a := Reg.GLB_ID_PART) (by decide), h.rd (a := Reg.KEY_ZCOUNT) (by decide),
    h.rd (a := Reg.GLB_FWVER) (by decide), h.rd (a := Reg.TB_NS 0) (by decide), h.rd (a := Reg.TB_WRAP 0) (by decide)]

/-! ## Output buffers (R240, R410) -/

theorem kqGoesOn_logError {cause : Nat} (h : cause ≠ 2 ∧ cause ≠ 4) (bar2 isWrite : Bool) (addr : Nat) :
    KqGoesOn s (logError cause bar2 isWrite addr s) := by
  have noted : KqGoesOn s (errorNoted cause bar2 isWrite addr s) :=
    (KqGoesOn.ite (kqGoesOn_wr ..) ((kqGoesOn_wr ..).trans (kqGoesOn_wr ..))).trans (kqGoesOn_wr ..)
  rw [logError_eq h]
  exact noted.trans ((kqGoesOn_evqPostLimited ..).trans (kqGoesOn_sendVector 0))

/-- The outputs of an operation stay when it ends. -/
theorem kqComplete_keepsOut {code : Nat} {value : Bytes} {o : Output} (h : o ∈ s.out) :
    o ∈ (kqComplete code value s).out := by
  have answered (tag op : Nat) : o ∈ (kqAnswered tag op code value s).out := by
    unfold kqAnswered
    dsimp only
    split
    · exact h
    · exact (posts_raiseVector 2).out o (List.mem_append_left _ h)
  unfold kqComplete
  split
  · exact h
  · rw [kqFinish_eq]
    exact kqRested_out.symm ▸ answered ..

/-- A buffer that takes nothing is BAD_BUFFER. -/
theorem kqWritten_undelivered (run : s.hif.kqRun = some b) (n : Nat) :
    (kqWritten false n s).hif.kqRun = none ∧
    (kqWritten false n s).rd Reg.HIF_KQ_LAST = ((descOf b).tag + 2 ^ 16 * (descOf b).op + 2 ^ 24 * 3) % 2 ^ 32 := by
  have done := kqComplete_done ((kqGoesOn_logError (cause := 7) (by decide) true true 0).runs run) 3 []
  exact ⟨done.run, done.last⟩

theorem kqWritten_delivered (run : s.hif.kqRun = some b) (wait : s.sec.kqWait = []) (n : Nat) :
    (kqWritten true n s).rd Reg.HIF_KQ_LAST = ((descOf b).tag + 2 ^ 16 * (descOf b).op) % 2 ^ 32 ∧
    (kqWritten true n s).hif.kqRun = none ∧ (∀ o ∈ s.out, o ∈ (kqWritten true n s).out) ∧
    (kqWritten true n s).sec = s.sec := by
  have done := kqComplete_done run 0 (leBytes 8 n)
  exact ⟨done.last, done.run, fun _ h => kqComplete_keepsOut h, done.sec_eq wait⟩

/-! ## ATTEST (R259) -/

/-- The state in which the statement `st` has been written to the output buffer. -/
def stated (d : Desc) (st : Bytes) (s : State) : State := s.drawn.drawn.emit (.dmaWrite d.outAddr st)

/-- The state in which a statement is signed. -/
def signing (d : Desc) (s : State) : State := loadIdentity (s.emit (.dmaRead d.inAddr d.inLen))

theorem attest_states (delivered : Bool) (runs : KqRuns s b 8) (readable : InputOk (descOf b))
    (len : (descOf b).inLen = 32) (room : kqOutOk (descOf b) 5000 = true) :
    ∃ st : Bytes, attest (.data x) delivered s = kqWritten delivered 5000 (stated (descOf b) st (signing (descOf b) s)) ∧
      st.take 272 = attestBody s (exactly 32 x) := by
  have fits : ¬((descOf b).inLen ≠ 32 ∨ (!kqOutOk (descOf b) 5000) = true) := by
    rw [room, len]
    decide
  have body : attestBody (signing (descOf b) s) (exactly (descOf b).inLen x) = attestBody s (exactly 32 x) := by
    rw [signing, (loadsKeys_loadIdentity _).attestBody, len]
    rfl
  unfold attest
  rw [kqRunOp_runs runs, if_neg fits, kqInput_reads readable]
  exact ⟨_, rfl, (dualSign_body (attestBody_length ..) ..).trans body⟩

theorem mem_emit_out (s : State) (o : Output) : o ∈ (s.emit o).out :=
  List.mem_append_right _ (List.mem_singleton.mpr rfl)

theorem signing_leaves (d : Desc) (s : State) : (signing d s).hif = s.hif ∧ (signing d s).sec = s.sec := by
  obtain ⟨-, -, hif, sec⟩ := loadIdentity_leaves (s := s.emit (.dmaRead d.inAddr d.inLen))
  exact ⟨hif, sec⟩

theorem stated_shows (d : Desc) (st : Bytes) (s : State) : (stated d st s).hif = s.hif ∧
    (stated d st s).sec = s.sec ∧ .dmaWrite d.outAddr st ∈ (stated d st s).out :=
  ⟨rfl, rfl, mem_emit_out ..⟩

/-! ## KEY_QUERY (R239) -/

theorem keyQuery_runs {fn : Nat} (runs : KqRuns s b 9) (h : (descOf b).arg0 = fn) (lt : fn < 4)
    (f : Desc → State → State) : keyQuery fn f s = f (descOf b) s := by
  unfold keyQuery
  rw [runs.run]
  dsimp only
  rw [if_neg (by rw [h, Nat.mod_eq_of_lt lt]; exact fun other => other.2 rfl), kqRunOp_runs runs]

theorem queryIdentity_answers (delivered : Bool) (runs : KqRuns s b 9) (fn : (descOf b).arg0 = 0)
    (room : kqOutOk (descOf b) 4353 = true) : queryIdentity delivered s =
      kqWritten delivered 4353 ((loadIdentity s).emit (.dmaWrite (descOf b).outAddr identityPublic)) := by
  unfold queryIdentity
  rw [keyQuery_runs runs fn (by decide), if_neg (by rw [room]; exact Bool.false_ne_true)]

/-- A query that reads the state ends with what it reads. -/
theorem kqComplete_queries (runs : KqRuns s b 9) (value : Bytes) :
    OnlyHost [] s (kqComplete 0 value s) ∧ KqEnded (descOf b) 0 value s (kqComplete 0 value s) :=
  ⟨(kqComplete_done runs.run ..).onlyHost runs.wait, kqComplete_ended runs.run ..⟩

/-! ## KEEPER_KEY_ROLL (R252) -/

/-- The working copy of the keeper key. -/
def putCopy (key : Bytes) (s : State) : State := { s with key := { s.key with keeperCopy := key } }

theorem putCopy_shows (key : Bytes) (s : State) : (putCopy key s).key.keeperCopy = key ∧
    (putCopy key s).key.record = s.key.record ∧ (putCopy key s).hif = s.hif ∧ (putCopy key s).sec = s.sec :=
  ⟨rfl, rfl, rfl, rfl⟩

/-- The keeper key is replaced, in its working copy and in the enrolment record. -/
def keyRolled (gen : Nat) (key : Bytes) (s : State) : State :=
  setRecord (fun e => { e with keeperKey := key, keyGen := gen }) (putCopy key (freshMasks keeperWord 4 s))

/-- The enrolment record that was in force is kept beside the new one (R251). -/
theorem setRecord_key {f : EnrolRecord → EnrolRecord} {r : EnrolRecord} (h : s.key.record = some r) :
    (setRecord f s).key =
      { s.key with record := some (f r), recordOld := some r, recordCtr := s.key.recordCtr + 1 } := by
  rw [setRecord, h]
  dsimp only
  rw [writeRecord, h]

theorem keyRolled_shows {r : EnrolRecord} (record : s.key.record = some r) (gen : Nat) (key : Bytes) :
    (keyRolled gen key s).key.record = some { r with keeperKey := key, keyGen := gen } ∧
    (keyRolled gen key s).key.keeperCopy = key ∧ (keyRolled gen key s).key.recordOld = some r ∧
    (keyRolled gen key s).hif = s.hif ∧ (keyRolled gen key s).sec = s.sec := by
  obtain ⟨-, kept, hif, sec⟩ := freshMasks_leaves keeperWord 4 s
  obtain ⟨copy, same, hif', sec'⟩ := putCopy_shows key (freshMasks keeperWord 4 s)
  have record' := same.trans (kept.trans record)
  have keys := setRecord_key (f := fun e => { e with keeperKey := key, keyGen := gen }) record'
  obtain ⟨-, -, hif'', sec''⟩ := setRecord_shows (f := fun e => { e with keeperKey := key, keyGen := gen })
    record'
  rw [keyRolled, keys]
  exact ⟨rfl, copy, rfl, hif''.trans (hif'.trans hif), sec''.trans (sec'.trans sec)⟩

theorem syncGen_leaves (s : State) : (syncGen s).key = s.key ∧ (syncGen s).hif = s.hif ∧ (syncGen s).sec = s.sec := by
  unfold syncGen
  split <;> exact ⟨rfl, rfl, rfl⟩

/-- The input of KEEPER_KEY_ROLL, unwrapped. -/
def rollInput (d : Desc) (x : Bytes) (s : State) : Unwrapped :=
  unwrapInput d (.data x) (field d.arg0 16 4) 48 0x4B 0 0 (some d.arg1) s

theorem keeperKeyRoll_of {r : EnrolRecord} (written : Bool) (runs : KqRuns s b 10)
    (pass : (rollInput (descOf b) x s).code = 0) (record : s.key.record = some r) :
    let d := descOf b
    let t := s.emit (.dmaRead d.inAddr d.inLen);
    keeperKeyRoll (.data x) written s = if d.arg1 ≤ r.keyGen then kqComplete 0x60 [] t
      else if !written then kqComplete 0x50 [] t
      else kqComplete 0 (leBytes 8 d.arg1) (syncGen (keyRolled d.arg1 (slice (rollInput d x s).plain 8 32) t)) := by
  intro d t
  have gen : (t.key.record.map EnrolRecord.keyGen).getD 0 = r.keyGen := by
    rw [show t.key.record = some r from record]
    rfl
  unfold keeperKeyRoll
  rw [kqRunOp_runs runs]
  dsimp only
  rw [if_neg (fun failed => failed pass), unwrapInput_state pass, gen]
  rfl

/-- A roll that is refused changes no key. -/
theorem kqComplete_afterRead (runs : KqRuns s b 10) (code : Nat) (o : Output) :
    KqEnded (descOf b) code [] s (kqComplete code [] (s.emit o)) ∧ (kqComplete code [] (s.emit o)).key = s.key :=
  ⟨(kqComplete_ended (s := s.emit o) runs.run ..).of_regs rfl fun _ _ => rfl,
    (kqComplete_done (s := s.emit o) runs.run ..).key⟩

theorem keeperKeyRoll_refused {r : EnrolRecord} (written : Bool) (runs : KqRuns s b 10)
    (pass : (rollInput (descOf b) x s).code = 0) (record : s.key.record = some r) (old : (descOf b).arg1 ≤ r.keyGen) :
    KqEnded (descOf b) 0x60 [] s (keeperKeyRoll (.data x) written s) ∧
    (keeperKeyRoll (.data x) written s).key = s.key := by
  rw [keeperKeyRoll_of written runs pass record, if_pos old]
  exact kqComplete_afterRead runs ..

theorem keeperKeyRoll_unwritten {r : EnrolRecord} (runs : KqRuns s b 10)
    (pass : (rollInput (descOf b) x s).code = 0) (record : s.key.record = some r) (new : r.keyGen < (descOf b).arg1) :
    KqEnded (descOf b) 0x50 [] s (keeperKeyRoll (.data x) false s) ∧ (keeperKeyRoll (.data x) false s).key = s.key := by
  rw [keeperKeyRoll_of false runs pass record, if_neg new.not_ge, if_pos (by rfl)]
  exact kqComplete_afterRead runs ..

theorem keeperKeyRoll_rolls {r : EnrolRecord} (runs : KqRuns s b 10)
    (pass : (rollInput (descOf b) x s).code = 0) (record : s.key.record = some r) (new : r.keyGen < (descOf b).arg1) :
    let d := descOf b
    let key := slice (rollInput d x s).plain 8 32
    let u := keeperKeyRoll (.data x) true s;
    u.key.record = some { r with keeperKey := key, keyGen := d.arg1 } ∧ u.key.keeperCopy = key ∧
    u.key.recordOld = some r ∧ u.rd Reg.HIF_KQ_LAST = (d.tag + 2 ^ 16 * d.op) % 2 ^ 32 ∧ u.sec = s.sec := by
  intro d key u
  obtain ⟨rolled, copy, old, hif, sec⟩ := keyRolled_shows (s := s.emit (.dmaRead d.inAddr d.inLen)) record d.arg1 key
  obtain ⟨key', hif', sec'⟩ := syncGen_leaves (keyRolled d.arg1 key (s.emit (.dmaRead d.inAddr d.inLen)))
  have done := kqComplete_done ((congrArg HostIf.kqRun (hif'.trans hif)).trans runs.run) 0 (leBytes 8 d.arg1)
  have ends : u = _ := (keeperKeyRoll_of true runs pass record).trans (if_neg new.not_ge)
  rw [if_neg (by exact Bool.false_ne_true)] at ends
  rw [← ends] at done
  have unwaiting := sec'.trans sec
  have keys := done.key.trans key'
  exact ⟨(congrArg KeyState.record keys).trans rolled, (congrArg KeyState.keeperCopy keys).trans copy,
    (congrArg KeyState.recordOld keys).trans old, done.last,
    (done.sec_eq ((congrArg SecState.kqWait unwaiting).trans runs.wait)).trans unwaiting⟩

/-! ## The statement -/

/-- Settles O39: each operation by what it writes to its buffer or to the key store, and the end it comes to. -/
theorem keyqAttestsQueriesAndRolls : Obligations.KeyqAttestsQueriesAndRolls := by
  unfold Obligations.KeyqAttestsQueriesAndRolls
  intro s b x d
  refine ⟨fun runs readable len room => ?attest, fun runs => ⟨fun fn room => ?identity, fun fn => ?parent,
    fun fn => ?transport, fun fn => ?status⟩, fun runs => ?roll⟩
  case attest =>
    constructor
    · refine answers_powered runs.core (f := attest (.data x) false) rfl ?_
      obtain ⟨hif, -⟩ := signing_leaves d s.fresh
      obtain ⟨st, states, -⟩ := attest_states (s := s.fresh) (x := x) false runs readable len room
      obtain ⟨hif', -, -⟩ := stated_shows d st (signing d s.fresh)
      rw [states]
      exact kqWritten_undelivered ((congrArg HostIf.kqRun (hif'.trans hif)).trans runs.run) 5000
    · refine answers_powered runs.core (f := attest (.data x) true) rfl ?_
      obtain ⟨hif, sec⟩ := signing_leaves d s.fresh
      obtain ⟨st, states, body⟩ := attest_states (s := s.fresh) (x := x) true runs readable len room
      obtain ⟨hif', sec', out⟩ := stated_shows d st (signing d s.fresh)
      obtain ⟨last, ended, keeps, -⟩ := kqWritten_delivered ((congrArg HostIf.kqRun (hif'.trans hif)).trans runs.run)
        ((congrArg SecState.kqWait (sec'.trans sec)).trans runs.wait) 5000
      rw [states]
      exact ⟨last, ended, st, keeps _ out, body⟩
  case identity =>
    obtain ⟨-, -, hif, sec⟩ := loadIdentity_leaves (s := s.fresh)
    have run := (congrArg HostIf.kqRun hif).trans runs.run
    constructor
    · refine answers_powered runs.core (f := queryIdentity false) rfl ?_
      rw [queryIdentity_answers (s := s.fresh) false runs fn room]
      exact kqWritten_undelivered (s := (loadIdentity s.fresh).emit _) run 4353
    · refine answers_powered runs.core (f := queryIdentity true) rfl ?_
      rw [queryIdentity_answers (s := s.fresh) true runs fn room]
      obtain ⟨last, ended, keeps, stays⟩ := kqWritten_delivered
        (s := (loadIdentity s.fresh).emit (.dmaWrite d.outAddr identityPublic)) run
        ((congrArg SecState.kqWait sec).trans runs.wait) 4353
      exact ⟨last, ended, keeps _ (mem_emit_out ..), stays.trans sec⟩
  case parent =>
    refine answers_powered runs.core (f := queryParent) rfl ?_
    rw [queryParent, keyQuery_runs (s := s.fresh) runs fn (by decide)]
    exact kqComplete_queries (s := s.fresh) runs _
  case transport =>
    refine answers_powered runs.core (f := queryTransport) rfl ?_
    rw [queryTransport, keyQuery_runs (s := s.fresh) runs fn (by decide)]
    exact kqComplete_queries (s := s.fresh) runs _
  case status =>
    refine answers_powered runs.core (f := queryStatus) rfl ?_
    rw [queryStatus, keyQuery_runs (s := s.fresh) runs fn (by decide)]
    exact kqComplete_queries (s := s.fresh) runs _
  case roll =>
    intro v pass r record
    refine ⟨fun new => ⟨?rolls, ?unwritten⟩, fun old ok => ?refused⟩
    case rolls =>
      exact answers_powered runs.core (f := keeperKeyRoll (.data x) true) rfl
        (keeperKeyRoll_rolls (s := s.fresh) runs pass record new)
    case unwritten =>
      exact answers_powered runs.core (f := keeperKeyRoll (.data x) false) rfl
        (keeperKeyRoll_unwritten (s := s.fresh) runs pass record new)
    case refused =>
      exact answers_powered runs.core (f := keeperKeyRoll (.data x) ok) rfl
        (keeperKeyRoll_refused (s := s.fresh) ok runs pass record old)

end Sys2Proof.Machine
end

section
/-! SUPPORT. Key-store events and keeper alarms, the DRBG, re-masking and the identity keys (R227, R228, R246, R247,
R256, R263, R382, R449). -/

namespace Sys2Proof.Machine

variable {s t u : State} {n : Nat}

/-! ## Events of the key store (R263) -/

theorem keyEvent_posts (n : Nat) : Posts (s.setBit Reg.KEY_EVT n true) (keyEvent n s) := posts_raiseEvent 6 n _

theorem keyEvent_bit (h : n < 32) : (keyEvent n s).bit Reg.KEY_EVT n = true :=
  (congrArg (Nat.testBit · n) ((keyEvent_posts n).regs Reg.KEY_EVT (by decide))).trans (State.bit_setBit_same _ _ _ _ h)

/-! ## Keeper alarms (R449) -/

theorem alarms_testBit {bits old : Nat} (h : bits.testBit n = true) (lt : n < 12) :
    (old ||| bits &&& (0xFFF ^^^ (old &&& 0xFFF))).testBit n = true := by
  have low : Nat.testBit 0xFFF n = true := (Nat.testBit_two_pow_sub_one 12 n).trans (decide_eq_true lt)
  rw [Nat.testBit_or, Nat.testBit_and, Nat.testBit_xor, Nat.testBit_and, h, low]
  cases old.testBit n <;> rfl

/-- An alarm joins those that are latched. -/
theorem keeperAlarm_rd (bits : Nat) : (keeperAlarm bits s).rd Reg.KPR_ALARM =
    (s.rd Reg.KPR_ALARM ||| bits &&& (0xFFF ^^^ (s.rd Reg.KPR_ALARM &&& 0xFFF))) % 2 ^ 32 := by
  have latched (v new : Nat) : let w := raiseVector 4 (s.wr Reg.KPR_ALARM v);
      (evqPostLimited (256 * 0x0E) 0x0E 0 new (w.rd Reg.KPR_ALARM) 0 0 w).rd Reg.KPR_ALARM = v % 2 ^ 32 :=
    ((posts_evqPostLimited ..).regs _ (by decide)).trans <|
      ((posts_raiseVector 4).regs _ (by decide)).trans (State.rd_wr_same ..)
  unfold keeperAlarm
  dsimp only
  split
  next none => rw [none, Nat.or_zero, Nat.mod_eq_of_lt (State.rd_lt s _)]
  split
  · exact latched ..
  · exact latched ..

theorem keeperAlarm_bit {bits : Nat} (h : bits.testBit n = true) (lt : n < 12) :
    (keeperAlarm bits s).bit Reg.KPR_ALARM n = true := by
  rw [State.bit, keeperAlarm_rd, Nat.testBit_mod_two_pow, alarms_testBit h lt, decide_eq_true (by omega), Bool.true_and]

/-- An event of the key store and a keeper alarm: what they set, and what they leave. -/
theorem keeperAlarm_keyEvent {a e : Nat} (ha : a < 12) (he : e < 32) :
    let u := keeperAlarm (2 ^ a) (keyEvent e s);
    u.bit Reg.KEY_EVT e = true ∧ u.bit Reg.KPR_ALARM a = true ∧ SecOnly [Reg.KEY_EVT, Reg.KPR_ALARM] s u := by
  have alarm := keeperAlarm_secOnly (s := keyEvent e s) (2 ^ a)
  exact ⟨(alarm.bit e (by decide) (by decide)).trans (keyEvent_bit he), keeperAlarm_bit (Nat.testBit_two_pow_self) ha,
    ((secOnly_keyEvent e).mono (by decide)).trans (alarm.mono (by decide))⟩

/-! ## Health of the DRBG (R228) -/

/-- What a failed test shows of itself, before its event and its alarm. -/
def failShown (s : State) : State := (s.setBit Reg.KEY_STATUS 2 true).bump Reg.KEY_DRBG_FAILS

theorem failShown_shows : (failShown s).bit Reg.KEY_STATUS 2 = true ∧
    (failShown s).rd Reg.KEY_DRBG_FAILS = min (s.rd Reg.KEY_DRBG_FAILS + 1) 0xFFFFFFFF ∧
    OnlyRegs [Reg.KEY_STATUS, Reg.KEY_DRBG_FAILS] s (failShown s) := by
  refine ⟨?_, ?_, (onlyRegs_setBit _ _ (by decide)).trans (onlyRegs_wr _ (by decide))⟩
  · exact (State.bit_wr_ne _ _ _ (by decide)).trans (State.bit_setBit_same _ _ _ _ (by decide))
  · rw [failShown, State.rd_bump_same, State.rd_setBit_ne _ _ _ (by decide)]

theorem drbgFail_shows : let u := drbgFail s;
    u.bit Reg.KEY_STATUS 2 = true ∧ u.rd Reg.KEY_DRBG_FAILS = min (s.rd Reg.KEY_DRBG_FAILS + 1) 0xFFFFFFFF ∧
    u.bit Reg.KEY_EVT 2 = true ∧ u.bit Reg.KPR_ALARM 7 = true ∧ u.key = s.key ∧
    CoreRegsBut [Reg.KEY_STATUS, Reg.KEY_DRBG_FAILS, Reg.KEY_EVT, Reg.KPR_ALARM] s u := by
  obtain ⟨down, count, only⟩ := failShown_shows (s := s)
  obtain ⟨event, alarm, rest⟩ := keeperAlarm_keyEvent (s := failShown s) (a := 7) (e := 2) (by decide) (by decide)
  have shown : CoreRegsBut [Reg.KEY_STATUS, Reg.KEY_DRBG_FAILS] s (failShown s) := fun a _ ha => only.1 a ha
  exact ⟨(rest.bit 2 (by decide) (by decide)).trans down, (rest.rd (by decide) (by decide)).trans count, event, alarm,
    rest.key.trans only.key, (shown.mono (by decide)).trans (rest.regs.mono (by decide))⟩

theorem drbgRetry_passes (down : s.bit Reg.KEY_STATUS 2 = true) (kept : s.kpr.challengeDue = false) :
    drbgRetry true s =
      ({ s with key := { s.key with drbgDraw := s.rng + 1 } }.drawn).setBit Reg.KEY_STATUS 2 false := by
  unfold drbgRetry newChallengeDue
  rw [if_pos (by rw [down]; rfl)]
  exact if_neg (by exact Bool.eq_false_iff.mp kept)

/-! ## Instantiation after a zeroize (R246, R256, R382) -/

/-- The key store and the DRAM key are as they were. -/
structure KeysStay (s u : State) : Prop where
  key : u.key = s.key
  dram : u.evr.dramKey = s.evr.dramKey

theorem KeysStay.refl (s : State) : KeysStay s s := ⟨rfl, rfl⟩

theorem KeysStay.trans (h : KeysStay s t) (k : KeysStay t u) : KeysStay s u := ⟨k.key.trans h.key, k.dram.trans h.dram⟩

theorem KeysStay.ite {c : Prop} [Decidable c] (h : KeysStay s t) (k : KeysStay s u) :
    KeysStay s (if c then t else u) := by
  split
  · exact h
  · exact k

theorem KeysStay.wr {a v : Nat} (h : KeysStay s t) : KeysStay s (t.wr a v) := ⟨h.key, h.dram⟩

theorem KeysStay.wr64 {a v : Nat} (h : KeysStay s t) : KeysStay s (t.wr64 a v) := ⟨h.key, h.dram⟩

theorem keysStay_drawn : KeysStay s s.drawn := ⟨rfl, rfl⟩

theorem keysStay_kpr (k : KprState) : KeysStay s { s with kpr := k } := ⟨rfl, rfl⟩

theorem keysStay_evr {e : EvrState} (h : e.dramKey = s.evr.dramKey) : KeysStay s { s with evr := e } := ⟨rfl, h⟩

theorem keysStay_wrBytes (a : Nat) (bs : Bytes) : KeysStay s (s.wrBytes a bs) :=
  List.foldlRecOn _ _ (KeysStay.refl s) fun _ h _ _ => h.wr

theorem keysStay_evrEvent (b p3 : Nat) : KeysStay s (evrEvent b p3 s) := by
  have posts : Posts (s.setBit Reg.EVR_EVT b true) (evrEvent b p3 s) := posts_raiseEvent 0x0C b p3
  exact ⟨by rw [posts.rest]; rfl, by rw [posts.rest]; rfl⟩

theorem keysStay_writeCkpt (frozen : Bool) : KeysStay s (writeCkpt frozen s) := by
  unfold writeCkpt
  exact .trans (.wr (keysStay_evr (by rfl))) (keysStay_drawn.trans keysStay_drawn)

theorem keysStay_ringPut (rec : Bytes) : KeysStay s (ringPut rec s) := by
  unfold ringPut
  dsimp only
  refine KeysStay.trans ?_ (KeysStay.ite (keysStay_writeCkpt _) (.refl _))
  exact .wr64 (.wr64 (keysStay_evr (by rfl)))

theorem keysStay_writeStart (reason : Nat) : KeysStay s (writeStart reason s) := by
  unfold writeStart
  split
  · exact .refl s
  · exact keysStay_drawn.trans ((keysStay_wrBytes ..).trans ((keysStay_evr (by rfl)).trans (keysStay_ringPut ..)))

theorem keysStay_openRing (reason : Nat) : KeysStay s (openRing reason s) := by
  have event (w : State) : KeysStay w (if reason = 0 then w else evrEvent 1 0 w) :=
    (KeysStay.refl w).ite (keysStay_evrEvent ..)
  unfold openRing
  dsimp only
  refine KeysStay.trans ?_ (KeysStay.ite (keysStay_writeStart _) (.refl _))
  refine KeysStay.trans ?_ (event _)
  exact .wr (.wr64 (.wr64 (.wr64 (.wr (.wr64 (keysStay_evr (by rfl)))))))

theorem keysStay_newChallenge : KeysStay s (newChallenge s) := by
  unfold newChallenge
  split
  · exact keysStay_kpr _
  · exact (keysStay_kpr _).trans ((keysStay_wrBytes ..).trans keysStay_drawn)

theorem keysStay_newChallengeDue : KeysStay s (newChallengeDue s) := keysStay_newChallenge.ite (.refl s)

theorem drawDram_key (n : Nat) (s : State) : (drawDram n s).key = s.key := by
  induction n generalizing s with
  | zero => rfl
  | succ n ih =>
    unfold drawDram
    dsimp only
    split
    · exact ih _
    · rfl

/-- Two halves that differ are the DRAM key. -/
theorem drawDram_first (n : Nat) (h : (s.drbg 64).take 32 ≠ (s.drbg 64).drop 32) :
    (drawDram (n + 1) s).evr.dramKey = s.drbg 64 := by
  unfold drawDram
  dsimp only
  rw [if_neg (by rw [beq_iff_eq]; exact h)]
  rfl

/-- The bytes of a draw of the DRBG. -/
def drawBytes (draw n : Nat) : Bytes := (List.range n).map (fun j => Config.drbgByte draw j)

theorem startDrbg_key : (startDrbg s).key = { s.key with
    drbgDown := false, drbgDraw := s.rng + 1, permD := drawBytes (s.rng + 1) 16, permM := drawBytes (s.rng + 2) 16 } :=
  drawDram_key ..

theorem startDrbg_dram (h : (drawBytes (s.rng + 3) 64).take 32 ≠ (drawBytes (s.rng + 3) 64).drop 32) :
    (startDrbg s).evr.dramKey = drawBytes (s.rng + 3) 64 := drawDram_first 255 h

theorem drbgUp_starts (down : s.key.drbgDown = true) (idle : s.key.zeroizing = none) :
    KeysStay (startDrbg s) (drbgUp s) := by
  unfold drbgUp
  rw [if_neg (by rw [down, idle]; decide)]
  exact keysStay_newChallengeDue.trans (keysStay_openRing 3)

/-! ## Re-masking (R247) -/

/-- One word has been given a new mask. -/
def remasked (s : State) : State :=
  { s with key := { s.key with
    masks := Tbl.modify (fun _ => (0 : BitVec 64)) s.key.masks s.key.remaskPos (· ^^^ BitVec.ofNat 64 (leNat (s.drbg 8)))
    remaskPos := s.key.remaskPos + 1 } }.drawn

theorem remaskWord_within (on : s.bit Reg.KEY_STATUS 0 = true) (live : drbgOff s = false) (idle : s.key.zeroizing = none)
    (pass : s.bit Reg.KEY_STATUS 1 = true) (within : s.key.remaskPos + 1 ≠ bankWords) : remaskWord s = remasked s := by
  unfold remaskWord
  rw [if_neg (by rw [on, live, idle]; decide), if_pos pass]
  exact if_neg within

theorem remasked_word (w : Nat) : Tbl.get (fun _ => (0 : BitVec 64)) (remasked s).key.masks w =
    Tbl.get (fun _ => 0) s.key.masks w ^^^
      (if w = s.key.remaskPos then BitVec.ofNat 64 (leNat (s.drbg 8)) else 0) := by
  refine (Tbl.get_set ..).trans ?_
  split
  next same => rw [same]
  next => exact (BitVec.xor_zero).symm

/-! ## The identity keys (R227) -/

theorem identityExpire_unused (h : ∀ b, s.hif.kqRun = some b → usesIdentity (descOf b) = false) :
    identityExpire s = s.setBit Reg.KEY_STATUS 6 false := by
  unfold identityExpire
  split
  next b run => exact if_neg (Bool.eq_false_iff.mp (h b run))
  next => rfl

theorem identityExpire_used {b : Bytes} (run : s.hif.kqRun = some b) (used : usesIdentity (descOf b) = true) :
    identityExpire s = s := by
  rw [identityExpire, run]
  exact if_pos used

/-! ## The statement -/

/-- Settles O41: the DRBG fails, passes its retry and is instantiated again; a word is re-masked; the identity keys go. -/
theorem randomBitsAndMasks : Obligations.RandomBitsAndMasks := by
  unfold Obligations.RandomBitsAndMasks
  intro s core
  refine ⟨answers_powered core (f := drbgFail) rfl drbgFail_shows, fun down kept => ⟨?passes, ?fails⟩,
    fun down idle => ?instantiated, fun on live idle pass within => ?remask, fun unused => ?unused,
    fun b run used => ?used⟩
  case passes =>
    refine answers_powered core (f := drbgRetry true) rfl ?_
    rw [drbgRetry_passes (s := s.fresh) down kept]
    exact ⟨State.bit_setBit_same _ _ _ _ (by decide), rfl, rfl,
      fun a ha => State.rd_setBit_ne _ _ _ (List.ne_of_not_mem_cons ha)⟩
  case fails =>
    refine answers_powered core (f := drbgRetry false) rfl ?_
    rw [drbgRetry, Bool.and_false]
    rfl
  case instantiated =>
    refine answers_powered core (f := drbgUp) rfl ?_
    obtain ⟨key, dram⟩ := drbgUp_starts (s := s.fresh) down idle
    rw [startDrbg_key] at key
    rw [key, dram]
    exact ⟨rfl, rfl, rfl, rfl, startDrbg_dram (s := s.fresh)⟩
  case remask =>
    refine answers_powered core (f := remaskWord) rfl ?_
    rw [remaskWord_within (s := s.fresh) on live idle pass within]
    exact ⟨rfl, rfl, remasked_word (s := s.fresh), fun _ _ => rfl⟩
  case unused =>
    exact answers_powered core (f := identityExpire) rfl (identityExpire_unused (s := s.fresh) unused)
  case used =>
    exact answers_powered core (f := identityExpire) rfl (identityExpire_used (s := s.fresh) run used)

end Sys2Proof.Machine
end

section
/-! SUPPORT. The reading of descriptors, the OVERFLOW record, and vectors unmasked, held off and tested (R236, R419 to
R421, R428, R429, R433). -/

namespace Sys2Proof.Machine

variable {s : State} {b : Bytes} {l : List Nat} {v : Nat}

/-! ## What vectors and event records leave of the queues (R420, R428) -/

@[simp] theorem sendVector_hif (v : Nat) : (sendVector v s).hif = s.hif := by
  unfold sendVector
  split <;> rfl

/-- Beside Pending Bits and the holdoffs, what the host interface holds of itself is as it was. -/
structure VectorOnly (s u : State) : Prop where
  regs : RegsBut [Reg.IRQ_PBA 0, Reg.IRQ_PBA 1] s u
  hif : ∃ h1 h2 d1 d2, u.hif = { s.hif with hold1 := h1, hold2 := h2, dirty1 := d1, dirty2 := d2 }

theorem VectorOnly.refl (s : State) : VectorOnly s s := ⟨fun _ _ => rfl, _, _, _, _, rfl⟩

theorem vectorOnly_sendVector (v : Nat) : VectorOnly s (sendVector v s) := by
  have two : Reg.IRQ_PBA (v / 32) ∈ [Reg.IRQ_PBA 0, Reg.IRQ_PBA 1] := by
    simp only [Reg.IRQ_PBA, List.mem_cons, List.not_mem_nil, or_false]
    omega
  refine ⟨fun a ha => ?_, _, _, _, _, sendVector_hif v⟩
  unfold sendVector
  split
  · rfl
  · exact State.rd_setBit_ne _ _ _ (ne_of_mem_of_not_mem two ha).symm

theorem VectorOnly.holds {u w : State} (h : VectorOnly s u) (regs : w.regs = u.regs) (h1 h2 d1 d2 : Bool)
    (hif : w.hif = { u.hif with hold1 := h1, hold2 := h2, dirty1 := d1, dirty2 := d2 }) : VectorOnly s w := by
  obtain ⟨_, _, _, _, same⟩ := h.hif
  exact ⟨fun a ha => (State.rd_of_regs regs a).trans (h.regs a ha), h1, h2, d1, d2, by rw [hif, same]⟩

/-- A moderated vector is off, held off, sent, or sent with a holdoff started (R420). -/
theorem vectorOnly_raiseVector (v : Nat) : VectorOnly s (raiseVector v s) := by
  have sent := vectorOnly_sendVector (s := s) v
  unfold raiseVector
  split
  next one =>
    subst one
    split
    · exact .refl s
    split
    · exact (VectorOnly.refl s).holds rfl s.hif.hold1 s.hif.hold2 true s.hif.dirty2 rfl
    dsimp only
    split
    · exact sent
    · exact sent.holds rfl true _ false _ rfl
  split
  next two =>
    subst two
    split
    · exact .refl s
    split
    · exact (VectorOnly.refl s).holds rfl s.hif.hold1 s.hif.hold2 s.hif.dirty1 true rfl
    dsimp only
    split
    · exact sent
    · exact sent.holds rfl _ true _ false rfl
  · exact sent

theorem VectorOnly.lost {u : State} (h : VectorOnly s u) : u.hif.eqLostSince = s.hif.eqLostSince := by
  obtain ⟨_, _, _, _, same⟩ := h.hif
  rw [same]

theorem VectorOnly.mute {u : State} (h : VectorOnly s u) : u.hif.kqMute = s.hif.kqMute := by
  obtain ⟨_, _, _, _, same⟩ := h.hif
  rw [same]

theorem eqOverflow_mute : (eqOverflow s).hif.kqMute = s.hif.kqMute := by
  unfold eqOverflow
  split <;> rfl

theorem evqPost_mute (src kind p0 p1 p2 p3 : Nat) : (evqPost src kind p0 p1 p2 p3 s).hif.kqMute = s.hif.kqMute := by
  have lost (w : State) : (eqLose w).hif.kqMute = w.hif.kqMute := by
    unfold eqLose
    dsimp only
    split <;> rfl
  unfold evqPost
  dsimp only
  rw [(vectorOnly_raiseVector 1).mute]
  split
  · exact eqOverflow_mute
  · exact (lost _).trans eqOverflow_mute

theorem evqPostLimited_mute (key src kind p0 p1 p2 p3 : Nat) :
    (evqPostLimited key src kind p0 p1 p2 p3 s).hif.kqMute = s.hif.kqMute := by
  unfold evqPostLimited
  split
  · exact evqPost_mute ..
  · rfl

/-- A logged error leaves it to KEYQ whether the operation that runs writes a completion. -/
theorem logError_mute {cause : Nat} (h : cause ≠ 2 ∧ cause ≠ 4) (bar2 isWrite : Bool) (addr : Nat) :
    (logError cause bar2 isWrite addr s).hif.kqMute = s.hif.kqMute := by
  have noted : (errorNoted cause bar2 isWrite addr s).hif = s.hif := by
    rw [errorNoted, State.bump_hif]
    split
    · rw [State.setBit_hif]
    · rw [State.wr_hif, State.wr_hif]
  rw [logError_eq h, sendVector_hif, errorPosted, hifEvent, evqPostLimited_mute, noted]

/-! ## Descriptors (R236, R421) -/

/-- The next descriptor has been read. -/
def descriptorRead (s : State) : State :=
  s.emit (.dmaRead (s.rd Reg.HIF_KQ_BASE_LO + 2 ^ 32 * s.rd Reg.HIF_KQ_BASE_HI + 64 * (kqHead s % kqSize s)) 64)

/-- A descriptor waits to be read: KEYQ is enabled, nothing runs, and one more is submitted than completed. -/
def DescriptorDue (s : State) : Prop :=
  s.bit Reg.HIF_KQ_CTRL 0 = true ∧ s.hif.kqRun = none ∧ s.hif.kqAccepted ≠ kqHead s

theorem kqStart_due (due : DescriptorDue s) (d : DmaData) : kqStart d s =
    match d with
    | .error => kqFinish 0 0 3 [] (logError 7 true false 0 (descriptorRead s))
    | .data b => { descriptorRead s with hif := { (descriptorRead s).hif with kqRun := some (exactly 64 b) } }.setBit
        Reg.HIF_KQ_STATUS 2 true := by
  obtain ⟨on, idle, submitted⟩ := due
  have reads : ¬(!s.bit Reg.HIF_KQ_CTRL 0 || s.hif.kqRun.isSome || s.hif.kqAccepted == kqHead s) = true := by
    rw [on, idle, beq_false_of_ne submitted]
    decide
  unfold kqStart
  rw [if_neg reads]
  cases d <;> rfl

theorem kqStart_runs (due : DescriptorDue s) (b : Bytes) : let u := kqStart (.data b) s;
    u.hif = { s.hif with kqRun := some (exactly 64 b) } ∧ u.bit Reg.HIF_KQ_STATUS 2 = true ∧ OnlyHost l s u := by
  rw [kqStart_due due]
  exact ⟨rfl, State.bit_setBit_same _ _ _ _ (by decide),
    ((onlyHost_emit _).trans (onlyHost_hif _)).trans (onlyHost_setBit _ _ (by decide))⟩

theorem kqAnswered_errorCount {tag op code : Nat} {value : Bytes} :
    (kqAnswered tag op code value s).rd Reg.HIF_ERRCNT = s.rd Reg.HIF_ERRCNT := by
  unfold kqAnswered
  dsimp only
  split
  · exact State.rd_wr_ne _ _ (by decide)
  · exact ((posts_raiseVector 2).regs _ (by decide)).trans <|
      (State.rd_wrF_ne _ _ _ _ (by decide)).trans (State.rd_wr_ne _ _ (by decide))

/-- What a completion shows of an operation with no descriptor to name. -/
theorem kqFinish_shows (tag op code : Nat) (value : Bytes) : let u := kqFinish tag op code value s;
    u.rd Reg.HIF_KQ_LAST = (tag + 2 ^ 16 * op + 2 ^ 24 * code) % 2 ^ 32 ∧ u.hif.kqRun = none ∧
    (s.hif.kqMute = false → kqHead u = (kqHead s + 1) % 65536) ∧ u.rd Reg.HIF_ERRCNT = s.rd Reg.HIF_ERRCNT := by
  rw [kqFinish_eq]
  exact ⟨(kqRested_rd (by decide)).trans kqAnswered_last, rfl,
    fun loud => kqRested_head.trans (kqAnswered_posts loud).1, (kqRested_rd (by decide)).trans kqAnswered_errorCount⟩

theorem logError_head {cause : Nat} (h : cause ≠ 2 ∧ cause ≠ 4) (bar2 isWrite : Bool) (addr : Nat) :
    kqHead (logError cause bar2 isWrite addr s) = kqHead s :=
  congrArg (field · 16 16) <| ((posts_logError h bar2 isWrite addr).regs Reg.HIF_KQ_STATUS (by decide)).trans
    ((onlyRegs_errorNoted ..).1 Reg.HIF_KQ_STATUS (by decide))

theorem kqStart_fails (due : DescriptorDue s) : let u := kqStart .error s;
    u.rd Reg.HIF_KQ_LAST = 3 * 2 ^ 24 ∧ u.hif.kqRun = none ∧
    (s.hif.kqMute = false → kqHead u = (kqHead s + 1) % 65536) ∧
    u.rd Reg.HIF_ERRCNT = min (s.rd Reg.HIF_ERRCNT + 1) 0xFFFFFFFF := by
  obtain ⟨last, ended, counted, errors⟩ := kqFinish_shows (s := logError 7 true false 0 (descriptorRead s)) 0 0 3 []
  rw [logError_mute (by decide), logError_head (by decide)] at counted
  rw [logError_count (by decide)] at errors
  rw [kqStart_due due]
  exact ⟨last, ended, counted, errors⟩

/-! ## The OVERFLOW record (R428) -/

theorem eqWrite_tail (src kind p0 p1 p2 p3 : Nat) :
    (eqWrite src kind p0 p1 p2 p3 s).rd Reg.HIF_EQ_TAIL = (s.rd Reg.HIF_EQ_TAIL + 1) % 2 ^ 32 := by
  unfold eqWrite eqStatus
  dsimp only
  rw [State.rd_setBit_ne _ _ _ (by decide)]
  exact (State.rd_wr_same ..).trans (Nat.mod_mod ..)

theorem eqWrite_writes (src kind p0 p1 p2 p3 : Nat) :
    .dmaWrite (eqBase s + 32 * (s.rd Reg.HIF_EQ_TAIL % eqSize s))
      (eqRecord s (eqSize s) (s.rd Reg.HIF_EQ_TAIL) src kind p0 p1 p2 p3) ∈ (eqWrite src kind p0 p1 p2 p3 s).out :=
  List.mem_append_right _ (List.mem_singleton.mpr rfl)

/-- The record goes out, and its vector after it. -/
theorem eqOverflowRecord_due (on : s.bit Reg.HIF_EQ_CTRL 0 = true) (lost : 0 < s.hif.eqLostSince)
    (room : 2 ≤ eqRoom s) : eqOverflowRecord s = raiseVector 1 (eqWrite 0x0D 0 s.hif.eqLostSince 0 0 0 s) := by
  have written : eqOverflow s = eqWrite 0x0D 0 s.hif.eqLostSince 0 0 0 s :=
    if_pos (by rw [on, decide_eq_true lost, decide_eq_true room]; rfl)
  have moved : (eqWrite 0x0D 0 s.hif.eqLostSince 0 0 0 s).rd Reg.HIF_EQ_TAIL ≠ s.rd Reg.HIF_EQ_TAIL := by
    have lt := State.rd_lt s Reg.HIF_EQ_TAIL
    rw [eqWrite_tail]
    omega
  rw [eqOverflowRecord, written]
  exact if_neg moved

theorem eqOverflowRecord_shows (on : s.bit Reg.HIF_EQ_CTRL 0 = true) (lost : 0 < s.hif.eqLostSince)
    (room : 2 ≤ eqRoom s) : let u := eqOverflowRecord s;
    u.rd Reg.HIF_EQ_TAIL = (s.rd Reg.HIF_EQ_TAIL + 1) % 2 ^ 32 ∧ u.hif.eqLostSince = 0 ∧
    .dmaWrite (eqBase s + 32 * (s.rd Reg.HIF_EQ_TAIL % eqSize s))
      (eqRecord s (eqSize s) (s.rd Reg.HIF_EQ_TAIL) 0x0D 0 s.hif.eqLostSince 0 0 0) ∈ u.out ∧ OnlyHost l s u := by
  rw [eqOverflowRecord_due on lost room]
  exact ⟨((vectorOnly_raiseVector 1).regs _ (by decide)).trans (eqWrite_tail ..), (vectorOnly_raiseVector 1).lost.trans rfl,
    (posts_raiseVector 1).out _ (eqWrite_writes ..), (onlyHost_eqWrite ..).trans (onlyHost_raiseVector 1)⟩

/-! ## Vectors (R419, R420, R433) -/

theorem irqPba_ne_msixCtrl (i v : Nat) : Reg.IRQ_PBA i ≠ Reg.IRQ_MSIX_CTRL v := by
  unfold Reg.IRQ_PBA Reg.IRQ_MSIX_CTRL
  omega

/-- Unmasking clears the mask; the message that was pending, and it alone, is sent and is pending no more (R419). -/
theorem vectorUnmask_shows (on : s.hif.msixEnable = true) (quiet : s.out = []) : let u := vectorUnmask v s;
    u.bit (Reg.IRQ_MSIX_CTRL v) 0 = false ∧ u.bit (Reg.IRQ_PBA (v / 32)) (v % 32) = false ∧
    (s.bit (Reg.IRQ_PBA (v / 32)) (v % 32) = true → u.out = [.msix v]) ∧
    (s.bit (Reg.IRQ_PBA (v / 32)) (v % 32) = false → u.out = []) ∧
    OnlyRegs [Reg.IRQ_MSIX_CTRL v, Reg.IRQ_PBA (v / 32)] s u := by
  have apart := irqPba_ne_msixCtrl (v / 32) v
  have mask : (s.setBit (Reg.IRQ_MSIX_CTRL v) 0 false).bit (Reg.IRQ_MSIX_CTRL v) 0 = false :=
    State.bit_setBit_same _ _ _ _ (by decide)
  have pends : (s.setBit (Reg.IRQ_MSIX_CTRL v) 0 false).bit (Reg.IRQ_PBA (v / 32)) (v % 32) =
      s.bit (Reg.IRQ_PBA (v / 32)) (v % 32) := State.bit_setBit_ne _ _ _ _ apart
  have unmasked : OnlyRegs [Reg.IRQ_MSIX_CTRL v, Reg.IRQ_PBA (v / 32)] s (s.setBit (Reg.IRQ_MSIX_CTRL v) 0 false) :=
    onlyRegs_setBit _ _ (List.mem_cons_self ..)
  unfold vectorUnmask
  dsimp only
  rw [pends, State.setBit_hif, on, Bool.and_true]
  cases pending : s.bit (Reg.IRQ_PBA (v / 32)) (v % 32) with
  | false =>
    rw [if_neg Bool.false_ne_true]
    exact ⟨mask, pends.trans pending, nofun, fun _ => quiet, unmasked⟩
  | true =>
    rw [if_pos rfl]
    refine ⟨(State.bit_setBit_ne _ _ _ _ apart.symm).trans mask, State.bit_setBit_same _ _ _ _ (Nat.mod_lt _ (by decide)),
      fun _ => ?_, nofun, ?_⟩
    · rw [State.emit_out, State.setBit_out, State.setBit_out, quiet]
      rfl
    · exact unmasked.trans ((onlyRegs_setBit _ _ (by simp)).trans (onlyRegs_emit _))

/-- A vector's message is sent, or its Pending Bit is set. -/
def VectorRaised (v : Nat) (u : State) : Prop := .msix v ∈ u.out ∨ u.bit (Reg.IRQ_PBA (v / 32)) (v % 32) = true

/-- A vector that is sent, with or without a new holdoff, is raised. -/
theorem vectorRaised_moderated (v : Nat) (single : Prop) [Decidable single] (started : HostIf) :
    VectorRaised v (if single then sendVector v s else { sendVector v s with hif := started }) := by
  split
  · exact sendVector_sent v
  · exact sendVector_sent v

/-- An enabled vector 1 that is not held off is raised, and starts the holdoff that is set. -/
theorem raiseVector_events (on : s.bit Reg.HIF_EQ_CTRL 5 = true) (free : s.hif.hold1 = false)
    (clean : s.hif.dirty1 = false) : let u := raiseVector 1 s;
    u.hif.dirty1 = false ∧ u.hif.hold1 = (s.rd Reg.HIF_EQ_HOLDOFF != 0) ∧ VectorRaised 1 u := by
  unfold raiseVector
  rw [if_pos rfl, if_neg (by rw [on]; decide), if_neg (by rw [free]; decide)]
  refine ⟨?_, ?_, vectorRaised_moderated 1 ..⟩
  · split
    · rw [sendVector_hif, clean]
    · rfl
  · split
    next none => rw [sendVector_hif, free, none]; rfl
    next some => exact (bne_iff_ne.mpr some).symm

/-- An enabled vector 2 that is not held off is raised, and starts the holdoff that is set. -/
theorem raiseVector_keys (on : s.bit Reg.HIF_KQ_CTRL 5 = true) (free : s.hif.hold2 = false)
    (clean : s.hif.dirty2 = false) : let u := raiseVector 2 s;
    u.hif.dirty2 = false ∧ u.hif.hold2 = (s.rd Reg.HIF_KQ_HOLDOFF != 0) ∧ VectorRaised 2 u := by
  unfold raiseVector
  rw [if_neg (by decide), if_pos rfl, if_neg (by rw [on]; decide), if_neg (by rw [free]; decide)]
  refine ⟨?_, ?_, vectorRaised_moderated 2 ..⟩
  · split
    · rw [sendVector_hif, clean]
    · rfl
  · split
    next none => rw [sendVector_hif, free, none]; rfl
    next some => exact (bne_iff_ne.mpr some).symm

/-- The holdoff of vector 1 has ended, with nothing written in it yet. -/
def eventsReleased (s : State) : State := { s with hif := { s.hif with hold1 := false, dirty1 := false } }

/-- The holdoff of vector 2 has ended, with nothing written in it yet. -/
def keysReleased (s : State) : State := { s with hif := { s.hif with hold2 := false, dirty2 := false } }

theorem holdoffExpire_events (held : s.hif.hold1 = true) (dirty : s.hif.dirty1 = true) :
    holdoffExpire false s = raiseVector 1 (eventsReleased s) := by
  unfold holdoffExpire
  dsimp only
  rw [if_neg Bool.false_ne_true, if_neg (by rw [held]; decide), if_pos dirty]
  rfl

theorem holdoffExpire_keys (held : s.hif.hold2 = true) (dirty : s.hif.dirty2 = true) :
    holdoffExpire true s = raiseVector 2 (keysReleased s) := by
  unfold holdoffExpire
  dsimp only
  rw [if_pos rfl, if_neg (by rw [held]; decide), if_pos dirty]
  rfl

theorem irqTest_sends {n : Nat} (ask : v.testBit 31 = true) (vector : field v 0 6 = n) (lt : n < 40) (ne1 : n ≠ 1)
    (ne2 : n ≠ 2) : irqTest v s = sendVector n s := by
  unfold irqTest raiseVector
  rw [vector, if_pos (by rw [ask, decide_eq_true lt]; rfl), if_neg ne1, if_neg ne2]

/-! ## The statement -/

/-- Settles O15: a descriptor and its failed read, the OVERFLOW record, a vector unmasked, both holdoffs, the test. -/
theorem queuesAndVectorsRun : Obligations.QueuesAndVectorsRun := by
  unfold Obligations.QueuesAndVectorsRun
  intro s core
  refine ⟨fun on idle submitted => ⟨fun b => ?data, ?error⟩, fun on lost room => ?overflow, fun v served on => ?unmask,
    fun held dirty on => ?events, fun held dirty on => ?keys, fun v served ask lt ne1 ne2 => ?test⟩
  case data =>
    exact answers_powered core (f := kqStart (.data b)) rfl (kqStart_runs (s := s.fresh) ⟨on, idle, submitted⟩ b)
  case error =>
    exact answers_powered core (f := kqStart .error) rfl (kqStart_fails (s := s.fresh) ⟨on, idle, submitted⟩)
  case overflow =>
    exact answers_powered core (f := eqOverflowRecord) rfl (eqOverflowRecord_shows (s := s.fresh) on lost room)
  case unmask =>
    exact answers_hostWrite served (f := vectorUnmask v.val) rfl (vectorUnmask_shows (s := s.fresh) on rfl)
  case events =>
    refine answers_powered core (f := holdoffExpire false) rfl ?_
    obtain ⟨clean, holds, raised⟩ := raiseVector_events (s := eventsReleased s.fresh) on rfl rfl
    rw [holdoffExpire_events (s := s.fresh) held dirty]
    exact ⟨clean, holds, raised, .trans (t := eventsReleased s) (onlyHost_hif _) (onlyHost_raiseVector 1)⟩
  case keys =>
    refine answers_powered core (f := holdoffExpire true) rfl ?_
    obtain ⟨clean, holds, raised⟩ := raiseVector_keys (s := keysReleased s.fresh) on rfl rfl
    rw [holdoffExpire_keys (s := s.fresh) held dirty]
    exact ⟨clean, holds, raised, .trans (t := keysReleased s) (onlyHost_hif _) (onlyHost_raiseVector 2)⟩
  case test =>
    refine answers_hostWrite served (f := irqTest v.toNat) rfl ?_
    rw [irqTest_sends (s := s.fresh) ask rfl lt ne1 ne2]
    exact ⟨sendVector_sent _, onlyHost_sendVector _⟩

end Sys2Proof.Machine
end

section
/-! SUPPORT. What the end of all traffic leaves of the key store: every step of it keeps the key store, the vault and
the cleared keys as they are (R114, R146, R255). -/

namespace Sys2Proof.Machine

variable {s t u : State}

/-! ## The key store is kept -/

/-- The registers of the key store but KEY_STATUS, which shows the vault and the enrolment too. -/
def storeReg (a : Nat) : Bool := decide (0x140000 < a) && decide (a < 0x180000)

/-- The key store, the Pattern, the power state and the keys elsewhere are as they were, no cleared association takes a
key again, the registers of the key store and ZDONE stay, and a vector 5 that was raised stays raised. -/
structure StoreKept (s u : State) : Prop where
  key : u.key = s.key
  pat : u.pat = s.pat
  pwr : u.pwr = s.pwr
  dram : u.evr.dramKey = s.evr.dramKey
  harness : u.hrn.key = s.hrn.key
  slots : ∀ i, (s.saAt i).key = [] → (u.saAt i).key = []
  used : ∀ rx i, (u.scAt rx i).inUse = (s.scAt rx i).inUse
  regs : ∀ a, storeReg a = true → u.rd a = s.rd a
  zdone : u.bit Reg.KEY_STATUS 5 = s.bit Reg.KEY_STATUS 5
  raised : VectorRaised 5 s → VectorRaised 5 u

theorem StoreKept.refl (s : State) : StoreKept s s :=
  ⟨rfl, rfl, rfl, rfl, rfl, fun _ h => h, fun _ _ => rfl, fun _ _ => rfl, rfl, fun h => h⟩

theorem StoreKept.trans (h : StoreKept s t) (k : StoreKept t u) : StoreKept s u where
  key := k.key.trans h.key
  pat := k.pat.trans h.pat
  pwr := k.pwr.trans h.pwr
  dram := k.dram.trans h.dram
  harness := k.harness.trans h.harness
  slots i e := k.slots i (h.slots i e)
  used rx i := (k.used rx i).trans (h.used rx i)
  regs a ha := (k.regs a ha).trans (h.regs a ha)
  zdone := k.zdone.trans h.zdone
  raised r := k.raised (h.raised r)

theorem StoreKept.ite {c : Prop} [Decidable c] (h : StoreKept s t) (k : StoreKept s u) :
    StoreKept s (if c then t else u) := by
  split
  · exact h
  · exact k

theorem StoreKept.foldl {α : Type} {f : State → α → State} (h : ∀ t x, StoreKept t (f t x)) (l : List α) :
    StoreKept s (l.foldl f s) :=
  List.foldlRecOn _ _ (.refl s) fun _ ht x _ => ht.trans (h _ x)

theorem StoreKept.bit (h : StoreKept s t) {a n : Nat} (ha : storeReg a = true) : t.bit a n = s.bit a n :=
  congrArg (Nat.testBit · n) (h.regs a ha)

/-- A register that is neither the key store's nor a Pending Bit's. -/
abbrev Loose (a : Nat) : Prop := (a < 0x8800 ∨ 0x8808 ≤ a) ∧ (a < 0x140000 ∨ 0x180000 ≤ a)

theorem Loose.ne_store {a b : Nat} (h : Loose a) (hb : storeReg b = true) : b ≠ a := by
  rw [storeReg, Bool.and_eq_true, decide_eq_true_eq, decide_eq_true_eq] at hb
  omega

theorem storeKept_wr {a : Nat} (v : Nat) (h : Loose a) : StoreKept s (s.wr a v) where
  key := rfl
  pat := rfl
  pwr := rfl
  dram := rfl
  harness := rfl
  slots _ e := e
  used _ _ := rfl
  regs _ hb := State.rd_wr_ne s v (h.ne_store hb)
  zdone := State.bit_wr_ne s v 5 (by unfold Reg.KEY_STATUS; omega)
  raised r := r.imp_right (State.bit_wr_ne s v _ (by unfold Reg.IRQ_PBA; omega)).trans

theorem storeKept_bump64 {a : Nat} (n : Nat) (h : Loose a) (h4 : Loose (a + 4)) : StoreKept s (s.bump64 a n) :=
  (storeKept_wr _ h).trans (storeKept_wr _ h4)

theorem storeKept_penCount (p n : Nat) {off : Nat} (h : off < 0x1000) : StoreKept s (penCount p off n s) :=
  storeKept_bump64 _ (by unfold Reg.PEN_PAGE; omega) (by unfold Reg.PEN_PAGE; omega)

theorem storeKept_frmCount (k n : Nat) {off : Nat} (h : off < 0x1000) : StoreKept s (frmCount k off n s) :=
  storeKept_bump64 _ (by unfold Reg.FRM_PAGE; omega) (by unfold Reg.FRM_PAGE; omega)

theorem storeKept_fab (x : FabState) : StoreKept s { s with fab := x } :=
  ⟨rfl, rfl, rfl, rfl, rfl, fun _ h => h, fun _ _ => rfl, fun _ _ => rfl, rfl, fun h => h⟩

theorem storeKept_sch (x : SchState) : StoreKept s { s with sch := x } :=
  ⟨rfl, rfl, rfl, rfl, rfl, fun _ h => h, fun _ _ => rfl, fun _ _ => rfl, rfl, fun h => h⟩

theorem storeKept_cls (x : ClsState) : StoreKept s { s with cls := x } :=
  ⟨rfl, rfl, rfl, rfl, rfl, fun _ h => h, fun _ _ => rfl, fun _ _ => rfl, rfl, fun h => h⟩

theorem storeKept_chn (x : ChnState) : StoreKept s { s with chn := x } :=
  ⟨rfl, rfl, rfl, rfl, rfl, fun _ h => h, fun _ _ => rfl, fun _ _ => rfl, rfl, fun h => h⟩

theorem storeKept_pmc (x : PmcState) : StoreKept s { s with pmc := x } :=
  ⟨rfl, rfl, rfl, rfl, rfl, fun _ h => h, fun _ _ => rfl, fun _ _ => rfl, rfl, fun h => h⟩

theorem storeKept_emit (o : Output) : StoreKept s (s.emit o) :=
  ⟨rfl, rfl, rfl, rfl, rfl, fun _ h => h, fun _ _ => rfl, fun _ _ => rfl, rfl, fun h => h.imp_left (List.mem_append_left _)⟩

theorem storeKept_mirror (m : HrnMsg) : StoreKept s (s.mirror m) :=
  ⟨rfl, rfl, rfl, rfl, rfl, fun _ h => h, fun _ _ => rfl, fun _ _ => rfl, rfl, fun h => h⟩

theorem storeKept_setTrk (n : Nat) (x : TrunkState) : StoreKept s (s.setTrk n x) :=
  ⟨rfl, rfl, rfl, rfl, rfl, fun _ h => h, fun _ _ => rfl, fun _ _ => rfl, rfl, fun h => h⟩

/-- An entry whose key was cleared may be written with its key still cleared. -/
theorem storeKept_setSa (i : Nat) (e : SaEntry) (h : (s.saAt i).key = [] → e.key = []) :
    StoreKept s (s.setSa i e) where
  key := rfl
  pat := rfl
  pwr := rfl
  dram := rfl
  harness := rfl
  slots k clear := by
    rw [saAt_setSa]
    split
    next same => exact h (same ▸ clear)
    next => exact clear
  used _ _ := rfl
  regs _ _ := rfl
  zdone := rfl
  raised r := r

/-- What is asked of fills is not the keys themselves. -/
theorem storeKept_sec (x : SecState) (sa : x.sa = s.sec.sa) (tx : x.tx = s.sec.tx) (rx : x.rx = s.sec.rx) :
    StoreKept s { s with sec := x } where
  key := rfl
  pat := rfl
  pwr := rfl
  dram := rfl
  harness := rfl
  slots i e := by rw [State.saAt, sa]; exact e
  used r i := by rw [State.scAt, tx, rx, State.scAt]
  regs _ _ := rfl
  zdone := rfl
  raised r := r

/-! ## Vectors, events and alarms (R149, R420, R428, R449) -/

theorem Posts.storeKept (h : Posts s t) : StoreKept s t := by
  have out : ∀ a ∈ postedRegs, storeReg a = false ∧ a ≠ Reg.KEY_STATUS := by decide
  have sec : t.sec = s.sec := by rw [h.rest]
  refine ⟨by rw [h.rest], by rw [h.rest], by rw [h.rest], by rw [h.rest], by rw [h.rest],
    fun i e => (saAt_of_sec sec i).symm ▸ e, fun rx i => by rw [scAt_of_sec sec], fun a ha => h.regs a fun m => ?_, ?_, ?_⟩
  · rw [(out a m).1] at ha
    contradiction
  · exact congrArg (Nat.testBit · 5) (h.regs _ fun m => (out _ m).2 rfl)
  · exact Or.imp (h.out _) (h.pending 0 5)

theorem storeKept_raiseEvent {src : Nat} (b p3 : Nat) (h : Loose (eventRegs src).1) :
    StoreKept s (raiseEvent src b p3 s) :=
  (storeKept_wr _ h).trans (posts_raiseEvent src b p3).storeKept

theorem storeKept_frmEvent (b : Nat) : StoreKept s (frmEvent b s) := storeKept_raiseEvent (src := 3) b 0 (by decide)

theorem storeKept_trkEvent (n b : Nat) : StoreKept s (trkEvent n b s) :=
  (storeKept_wr (a := Reg.FRM_TRK_LAST) _ (by decide)).trans (storeKept_raiseEvent (src := 4) b 0 (by decide))

theorem storeKept_secEvent (b sc : Nat) (rx : Bool) : StoreKept s (secEvent b sc rx s) :=
  (storeKept_wr (a := Reg.SEC_LAST) _ (by decide)).trans (storeKept_raiseEvent (src := 5) b 0 (by decide))

theorem storeKept_clsEvent (b : Nat) : StoreKept s (clsEvent b s) := storeKept_raiseEvent (src := 7) b 0 (by decide)

theorem storeKept_schEvent (b p : Nat) (client : Bool) (c : Nat) : StoreKept s (schEvent b p client c s) :=
  (storeKept_wr (a := Reg.SCH_LAST) _ (by decide)).trans (storeKept_raiseEvent (src := 8) b 0 (by decide))

theorem storeKept_keeperAlarm (bits : Nat) : StoreKept s (keeperAlarm bits s) := by
  have raised (v : Nat) (w : State) : StoreKept w (raiseVector 4 (w.wr Reg.KPR_ALARM v)) :=
    (storeKept_wr _ (by decide)).trans (posts_raiseVector 4).storeKept
  have noted (new : Nat) (w : State) (x : ChnState) : StoreKept w
      { evqPostLimited (256 * 0x0E) 0x0E 0 new (w.rd Reg.KPR_ALARM) 0 0 w with chn := x } :=
    (posts_evqPostLimited ..).storeKept.trans (storeKept_chn _)
  unfold keeperAlarm
  dsimp only
  split
  · exact .refl s
  · exact (((raised ..).trans (noted ..)).trans (storeKept_emit _)).ite ((raised ..).trans (noted ..))

theorem storeKept_checkBypass : StoreKept s (checkBypass s) := (storeKept_keeperAlarm _).ite (.refl s)

/-! ## Programmable counters (R483 to R486) -/

theorem storeKept_pmcWrap (n : Nat) : StoreKept s (pmcWrap n s) :=
  (storeKept_wr _ (by unfold Reg.PMC_OVF; omega)).trans <|
    (storeKept_wr (a := Reg.PMC_LAST) _ (by decide)).trans (storeKept_raiseEvent (src := 0x11) 0 0 (by decide))

theorem storeKept_pmcAdd (n x : Nat) : StoreKept s (pmcAdd n x s) := by
  have cnt (m v : Nat) (w : State) : StoreKept w (w.wr (Reg.PMC_CNT m) v) :=
    storeKept_wr v (by unfold Reg.PMC_CNT; omega)
  have low := cnt n ((s.rd (Reg.PMC_CNT n) + x) % 2 ^ 32) s
  have high := fun y => low.trans (cnt (n + 1) y _)
  exact low.ite <| ((high _).ite ((high _).trans (storeKept_pmcWrap _))).ite (low.trans (storeKept_pmcWrap _))

theorem storeKept_pmcCount (event inst x : Nat) : StoreKept s (pmcCount event inst x s) :=
  .foldl (fun t n => ((storeKept_pmcAdd n x).ite (storeKept_pmc _)).ite (.refl t)) _

/-! ## Associations let go of (R205) -/

theorem storeKept_emptySlot (sa : Nat) : StoreKept s (emptySlot sa s) := by
  have clears (w : State) : StoreKept w (w.bump Reg.SEC_ORPHAN_CLEARS) := storeKept_wr _ (by decide)
  have orphan : StoreKept s (countOrphan sa s) := by
    unfold countOrphan
    dsimp only
    split
    · split
      · exact (clears _).trans (storeKept_secEvent ..)
      · exact clears _
    · exact .refl s
  exact orphan.trans ((storeKept_setSa _ _ fun _ => rfl).trans (storeKept_sec _ rfl rfl rfl))

theorem storeKept_refill (rx : Bool) (i : Nat) : StoreKept s (refill rx i s) := by
  rcases refill_cases rx i s with h | ⟨f, -, h⟩ <;> rw [h]
  · exact .refl s
  · exact (storeKept_setSa f.sa (requested f s) fun e => e).trans (storeKept_sec _ rfl rfl rfl)

theorem storeKept_unbind (sa gen : Nat) : StoreKept s (unbind sa gen s) := by
  have bound (n : Nat) : StoreKept s (s.setSa sa { s.saAt sa with bound := n }) := storeKept_setSa _ _ fun e => e
  unfold unbind
  dsimp only
  split
  · exact .refl s
  split
  · split
    · exact (bound _).trans ((storeKept_emptySlot _).trans (storeKept_refill ..))
    · exact (bound _).trans (storeKept_emptySlot _)
  · exact bound _

/-! ## Frames end (R114, R146, R313) -/

theorem storeKept_syncTags : StoreKept s (syncTags s) := by
  have free (n : Nat) : StoreKept s (s.wr Reg.CPH_TAG_FREE n) := storeKept_wr _ (by decide)
  unfold syncTags
  exact ((free _).trans (storeKept_raiseEvent (src := 2) 4 0 (by decide))).ite (free _)

theorem storeKept_unqueue (id c : Nat) (l : List Nat) : StoreKept s (l.foldl (fun s p => unqueue id p c s) s) :=
  .foldl (fun _ _ => storeKept_sch _) l

theorem storeKept_removeFrame (id : Nat) : StoreKept s (removeFrame id s) := by
  have freed (w : State) (x : SchState) : StoreKept w { (dropReady id w).freeFrame id with sch := x } :=
    (storeKept_fab _).trans ((storeKept_sch _).trans (storeKept_sch x))
  unfold removeFrame
  dsimp only
  refine (StoreKept.refl s).ite (.trans ?_ storeKept_syncTags)
  split
  · exact ((storeKept_unqueue ..).trans (freed ..)).ite
      (((storeKept_unqueue ..).trans (freed ..)).trans (storeKept_unbind ..))
  · exact (storeKept_unqueue ..).trans (freed ..)

theorem storeKept_lastFail (span : Nat) (opening : Bool) (cause : Nat) (stomped : Bool) (sc : Option Nat) :
    StoreKept s (lastFail span opening cause stomped sc s) :=
  (storeKept_wr (a := Reg.FRM_LAST_FAIL) _ (by decide)).trans (storeKept_wr (a := Reg.FRM_LAST_SC) _ (by decide))

theorem storeKept_abortRecord (f : Frame) : StoreKept s (abortRecord f s) :=
  (StoreKept.refl s).ite (storeKept_lastFail ..)

theorem loose_pmcIsl (i k : Nat) : Loose (Reg.PMC_ISL i k) ∧ Loose (Reg.PMC_ISL i k + 4) := by
  unfold Reg.PMC_ISL
  omega

theorem storeKept_settleWasted (ran : List Nat) : StoreKept s (settleWasted ran s) := by
  have moved (i r : Nat) (w : State) : StoreKept w ((w.wr64 (Reg.PMC_ISL i 0) r).bump64 (Reg.PMC_ISL i 2)) :=
    ((storeKept_wr _ (loose_pmcIsl i 0).1).trans (storeKept_wr _ (loose_pmcIsl i 0).2)).trans
      (storeKept_bump64 _ (loose_pmcIsl i 2).1 (loose_pmcIsl i 2).2)
  exact .foldl (fun t i => (StoreKept.refl t).ite (moved i _ t)) ran

theorem storeKept_stompFrame (id cause : Nat) : StoreKept s (stompFrame id cause s) := by
  have off (f : Frame) : (if f.opening then 0x88 else 0x18) < 0x1000 := by split <;> decide
  have counted (f : Frame) (w : State) : StoreKept w
      (if f.counted then w else frmCount f.span (if f.opening then 0x88 else 0x18) 1 w) :=
    (StoreKept.refl w).ite (storeKept_frmCount _ _ (off f))
  have settled (f : Frame) (w : State) :
      StoreKept w (frmEvent 0 (settleWasted f.ran (pmcCount 0x0302 f.span 1 (w.bump Reg.FRM_STOMPS)))) :=
    (storeKept_wr (a := Reg.FRM_STOMPS) _ (by decide)).trans <|
      (storeKept_pmcCount ..).trans ((storeKept_settleWasted _).trans (storeKept_frmEvent 0))
  have marked (f g : Frame) : StoreKept s
      (((f.outs.filter (fun p => !f.heads.contains p)).foldl (fun s p => unqueue id p f.cls s) s).setFrame id g) :=
    (storeKept_unqueue ..).trans (storeKept_sch _)
  unfold stompFrame
  dsimp only
  refine (StoreKept.refl s).ite (.ite (marked ..) ?_)
  exact (marked ..).trans ((storeKept_lastFail ..).trans ((counted ..).trans (settled ..)))

theorem storeKept_endFrame (id cause : Nat) {counted : State → State} (h : ∀ w, StoreKept w (counted w)) :
    StoreKept s (endFrame id cause counted s) :=
  (StoreKept.refl s).ite (((storeKept_removeFrame id).trans (h _)).ite (storeKept_stompFrame id cause))

theorem storeKept_endAllFrames (on : Nat → Bool) : StoreKept s (endAllFrames on s) :=
  .foldl (fun _ id => storeKept_endFrame id 0xC fun _ => storeKept_abortRecord _) _

theorem storeKept_flushFabric : StoreKept s (flushFabric s) := (storeKept_fab _).trans storeKept_syncTags

theorem storeKept_loseSpilled (p c : Nat) (f : Frame) : StoreKept s (loseSpilled p c f s) := by
  have lost (w : State) : StoreKept w (w.bump Reg.SCH_SPILL_LOST) := storeKept_wr _ (by decide)
  have client (w : State) : StoreKept w (w.bump (Reg.SCH_CDROPS p c)) := storeKept_wr _ (by unfold Reg.SCH_CDROPS; omega)
  have line (w : State) : StoreKept w (w.bump (Reg.SCH_LDROPS (p - 32) c)) :=
    storeKept_wr _ (by unfold Reg.SCH_LDROPS; omega)
  have dropped (w : State) : StoreKept w (dropCount p c w) := ((client w).ite (line w)).trans (storeKept_schEvent ..)
  have counted := ((lost s).trans (storeKept_schEvent 5 (p % 32) false c)).trans (dropped _)
  unfold loseSpilled
  dsimp only
  split
  · exact counted.trans (storeKept_unbind ..)
  · exact counted

theorem storeKept_loseSpill (on : Nat → Bool) : StoreKept s (loseSpill on s) := by
  have spilled (k : Nat) (l : List Frame) (w : State) :
      StoreKept w (l.foldl (fun s f => loseSpilled (k / 8) (k % 8) f s) w) :=
    .foldl (fun _ f => storeKept_loseSpilled _ _ f) l
  exact .trans (.foldl (fun _ _ => (storeKept_sch _).trans (spilled ..)) _)
    (storeKept_wr (a := Reg.SCH_SPILL_USED) _ (by decide))

end Sys2Proof.Machine
end
section
/-! SUPPORT. Emptying the peer table, and spans and ports that follow, keep the key store (R99, R175, R281, R291). -/

namespace Sys2Proof.Machine

variable {s t u : State}

/-! ## The peer table and its engine (R281 to R291) -/

theorem storeKept_syncCls : StoreKept s (syncCls s) :=
  (storeKept_wr (a := Reg.CLS_ENTRIES) _ (by decide)).trans <|
    (storeKept_wr (a := Reg.CLS_LEARNQ) _ (by decide)).trans (storeKept_wr (a := Reg.CLS_PREFIXES) _ (by decide))

theorem storeKept_setPeer (i : Nat) (e : Bytes) : StoreKept s (s.setPeer i e) :=
  (StoreKept.refl s).ite ((storeKept_cls _).trans storeKept_syncCls)

theorem storeKept_peerInsert (e : Bytes) : StoreKept s (peerInsert e s).1 := by
  unfold peerInsert
  dsimp only
  split
  · exact .refl s
  split
  · exact storeKept_setPeer ..
  split
  · exact .refl s
  · exact (storeKept_cls _).trans (storeKept_setPeer ..)

theorem storeKept_clearPlaces (l : List Nat) : StoreKept s (clearPlaces l s) :=
  .foldl (fun _ _ => (storeKept_setPeer ..).trans (storeKept_mirror _)) l

theorem storeKept_agerWork (b : Nat) : StoreKept s (agerWork b s) :=
  (StoreKept.refl s).ite ((storeKept_clearPlaces _).trans (storeKept_wr (a := Reg.CLS_AGED) _ (by decide)))

theorem storeKept_clsRun (c : ClsCmd) : StoreKept s (clsRun c s) :=
  (storeKept_cls _).trans (storeKept_wr (a := Reg.CLS_CMD_STATUS) _ (by decide))

theorem storeKept_insertWork : StoreKept s (insertWork s) := by
  unfold insertWork
  dsimp only
  refine (storeKept_clsRun _).ite ?_
  split
  · exact (storeKept_peerInsert _).trans ((storeKept_clsRun _).trans (storeKept_mirror _))
  · exact storeKept_peerInsert _
  · exact (storeKept_peerInsert _).trans (storeKept_clsRun _)

theorem storeKept_updateWork : StoreKept s (updateWork s) := by
  unfold updateWork
  dsimp only
  split
  · exact storeKept_clsRun _
  · exact (storeKept_setPeer ..).trans ((storeKept_clsRun _).trans (storeKept_mirror _))

theorem storeKept_deleteWork : StoreKept s (deleteWork s) := by
  unfold deleteWork
  split
  · exact storeKept_clsRun _
  · exact (storeKept_clearPlaces _).trans (storeKept_clsRun _)

theorem storeKept_commandWork : StoreKept s (commandWork s) := by
  unfold commandWork
  split
  · exact .refl s
  · exact storeKept_insertWork.ite (storeKept_updateWork.ite storeKept_deleteWork)

theorem storeKept_commitWork (b : Nat) : StoreKept s (commitWork b s) := by
  have unlocked : StoreKept s (unlock b s) := storeKept_cls _
  have violated (w : State) : StoreKept w (winViol w) :=
    (storeKept_wr (a := Reg.CLS_WIN_VIOL) _ (by decide)).trans (storeKept_clsEvent 4)
  unfold commitWork
  split
  · exact .refl s
  dsimp only
  exact (unlocked.trans (violated _)).ite <| unlocked.ite <|
    unlocked.trans (.trans (.foldl (fun _ _ => storeKept_setPeer ..) _) (storeKept_cls _))

theorem storeKept_mirroredWork (op : Nat) (e : Bytes) : StoreKept s (mirroredWork op e s) := by
  unfold mirroredWork
  split
  · exact storeKept_setPeer ..
  · exact storeKept_setPeer ..
  · exact .refl s
  · exact storeKept_peerInsert e

theorem storeKept_runJob (j : EngineJob) : StoreKept s (runJob j s) := by
  unfold runJob
  split
  · exact storeKept_commandWork
  · exact storeKept_agerWork _
  · exact storeKept_commitWork _
  · exact (storeKept_mirroredWork ..).ite ((storeKept_mirroredWork ..).trans (storeKept_cls _))

theorem storeKept_engineRun (n : Nat) : StoreKept s (engineRun n s) := by
  induction n generalizing s with
  | zero => exact .refl s
  | succ n ih =>
    unfold engineRun
    split
    · exact .refl s
    · exact (storeKept_cls _).trans ((storeKept_runJob _).trans ih)

theorem storeKept_emptyPeers : StoreKept s (emptyPeers s) :=
  (storeKept_cls _).trans (storeKept_syncCls.trans (storeKept_engineRun _))

/-! ## Registers that follow others (R98, R99, R456) -/

/-- KEY_STATUS follows the vault and the enrolment in two bits, and in no other. -/
theorem syncStatus_zdone : (syncStatus s).bit Reg.KEY_STATUS 5 = s.bit Reg.KEY_STATUS 5 := by
  unfold syncStatus
  dsimp only
  rw [State.bit_wr_ne _ _ _ (by decide), State.bit_setBit_ne _ _ _ _ (by decide), State.wrF,
    State.bit_wr_ne _ _ _ (by decide), State.bit_setBit_off _ _ _ _ _ (by decide) (by decide),
    State.bit_setBit_off _ _ _ _ _ (by decide) (by decide), State.wrF, State.bit_wr_ne _ _ _ (by decide),
    State.bit_wr_ne _ _ _ (by decide)]

theorem storeKept_syncStatus : StoreKept s (syncStatus s) := by
  have out : ∀ a ∈ statusRegs, storeReg a = false := by decide
  have regs (a : Nat) (ha : storeReg a = true) : (syncStatus s).rd a = s.rd a :=
    syncStatus_rd s fun m => by simp [out a m] at ha
  have zdone := syncStatus_zdone (s := s)
  have pending : (syncStatus s).rd (Reg.IRQ_PBA 0) = s.rd (Reg.IRQ_PBA 0) := syncStatus_rd s (by decide)
  obtain ⟨r, e⟩ := syncStatus_rest s
  rw [e] at regs zdone pending ⊢
  exact ⟨rfl, rfl, rfl, rfl, rfl, fun _ h => h, fun _ _ => rfl, regs, zdone,
    Or.imp_right (congrArg (Nat.testBit · 5) pending).trans⟩

theorem storeKept_syncHealth : StoreKept s (syncHealth s) :=
  (storeKept_wr (a := Reg.CLK_STATUS) _ (by decide)).trans <| (storeKept_wr (a := Reg.CPH_HEALTH) _ (by decide)).trans <|
    (storeKept_wr (a := Reg.CPH_CAP) _ (by decide)).trans storeKept_syncStatus

theorem storeKept_syncSpans : StoreKept s (syncSpans s) :=
  (storeKept_wr (a := Reg.CPH_ACTIVE) _ (by decide)).trans <| (storeKept_wr (a := Reg.CPH_SHED) _ (by decide)).trans <|
    .foldl (fun _ n => storeKept_wr _ (by unfold Reg.CPH_SHARE; omega)) _

theorem loose_islStatus (i : Nat) : Loose (Reg.CPH_ISL_STATUS i) := by
  unfold Reg.CPH_ISL_STATUS
  omega

theorem storeKept_trimRecompute : StoreKept s (trimRecompute s) := by
  have shown : StoreKept s (syncSpans (syncHealth s)) := storeKept_syncHealth.trans storeKept_syncSpans
  have seen (f : FabState) : StoreKept s { syncSpans (syncHealth s) with fab := f } := shown.trans (storeKept_fab f)
  have ends (v : State) (f : FabState) : StoreKept v (syncHealth { v with fab := f }) :=
    (storeKept_fab f).trans storeKept_syncHealth
  unfold trimRecompute
  dsimp only
  split
  · refine (seen _).trans (.trans (.foldl (fun _ i => ?_) _) (ends _ _))
    exact storeKept_wr _ (loose_islStatus i)
  · refine (seen _).trans (.trans (.foldl (fun _ i => ?_) _) (ends _ _))
    exact (storeKept_wr _ (loose_islStatus i)).trans <| (storeKept_wr _ (loose_islStatus i)).trans
      (storeKept_wr _ (by unfold Reg.CPH_ISL_MV; omega))

theorem storeKept_trkStatus (n p x v : Nat) : StoreKept s (s.wrF (Reg.FRM_TRK_STATUS n) p x v) :=
  storeKept_wr _ (by unfold Reg.FRM_TRK_STATUS; omega)

theorem storeKept_syncPorts : StoreKept s (syncPorts s) := by
  have ports : StoreKept s ((List.range 64).foldl (fun s p => syncPort p s) s) :=
    .foldl (fun _ p => storeKept_wr _ (by unfold Reg.PEN_PSTAT; omega)) _
  have rdi (w : State) : StoreKept w ((List.range 32).foldl (fun s n => syncRdi n s) w) :=
    .foldl (fun _ _ => (storeKept_trkStatus ..).ite (storeKept_trkStatus ..)) _
  exact (ports.trans (rdi _)).trans storeKept_trimRecompute

/-! ## Trunk spans that start and stop (R175, R182) -/

theorem storeKept_setRxState (n v : Nat) : StoreKept s (setRxState n v s) := by
  have raw (p b : Nat) (x : Bool) (w : State) : StoreKept w (rawDefect p b x w) :=
    storeKept_wr _ (by unfold Reg.PEN_DEF_RAW; omega)
  have markers (w : State) : StoreKept w (syncMarkers n w) := (raw ..).trans ((raw ..).trans (raw ..))
  have shown (w : State) : StoreKept w (if patMode w n == .trunk then syncMarkers n w else w) := (markers w).ite (.refl w)
  unfold setRxState
  dsimp only
  refine .trans ?_ storeKept_syncPorts
  exact ((storeKept_trkStatus ..).trans (storeKept_trkStatus ..)).trans (shown _)

theorem storeKept_trunkStop (n : Nat) : StoreKept s (trunkStop n s) := by
  have letGo (l : List (Nat × Nat)) (w : State) : StoreKept w (l.foldl (fun s a => unbind a.1 a.2 s) w) :=
    .foldl (fun _ a => storeKept_unbind a.1 a.2) l
  unfold trunkStop
  dsimp only
  refine .trans ?_ (storeKept_setRxState n 0)
  refine .trans ?_ ((storeKept_trkStatus ..).trans (storeKept_trkStatus ..))
  refine .trans ?_ ((letGo _ _).trans (storeKept_fab _))
  exact (storeKept_setTrk n _).trans ((storeKept_trkEvent n 1).ite (.refl _))

theorem storeKept_followTrunks : StoreKept s (followTrunks s) :=
  .foldl (fun t _ => .ite (.refl t) <| .ite ((storeKept_setRxState ..).ite (.refl t)) <|
    .ite (.refl t) (storeKept_trunkStop _)) _

theorem storeKept_fanOut : StoreKept s (fanOut s) := (StoreKept.refl s).ite (storeKept_chn _)

end Sys2Proof.Machine
end
section
/-! SUPPORT. The zeroize: the keys are gone once it has begun, and its record is made once it is done (R254 to R257). -/

namespace Sys2Proof.Machine

variable {s t u w : State} {src m ns n : Nat} {r : EnrolRecord}

/-! ## Registers of the key store that a zeroize rewrites (R65, R237, R255) -/

/-- Only registers differ, and neither the sources present nor the cause of the zeroize. -/
structure Reshown (s u : State) : Prop where
  rest : RegsDiffer s u
  kept : ∀ a ∈ [Reg.KEY_TAMPER, Reg.KEY_ZSRC], u.rd a = s.rd a

theorem Reshown.trans (h : Reshown s t) (k : Reshown t u) : Reshown s u :=
  ⟨h.rest.trans k.rest, fun a ha => (k.kept a ha).trans (h.kept a ha)⟩

theorem Reshown.foldl {α : Type} {f : State → α → State} (h : ∀ t x, Reshown t (f t x)) (l : List α) :
    Reshown s (l.foldl f s) :=
  List.foldlRecOn _ _ ⟨.refl s, fun _ _ => rfl⟩ fun _ ht x _ => ht.trans (h _ x)

theorem reshown_wr {a : Nat} (v : Nat) (h : a ≠ Reg.KEY_TAMPER ∧ a ≠ Reg.KEY_ZSRC) : Reshown s (s.wr a v) := by
  refine ⟨regsDiffer_wr .., fun b hb => State.rd_wr_ne s v fun e => ?_⟩
  simp only [List.mem_cons, List.not_mem_nil, or_false] at hb
  exact hb.elim (e ▸ h.1) (e ▸ h.2)

theorem reshown_syncSlots : Reshown s (syncSlots s) := by
  have slot (i a b : Nat) (v : State) :
      Reshown v ((v.wr (Reg.PAT_SLOT_INFO i) a).wr (Reg.PAT_SLOT_SERIAL i) b) := by
    refine (reshown_wr _ ?_).trans (reshown_wr _ ?_)
    · unfold Reg.PAT_SLOT_INFO Reg.KEY_TAMPER Reg.KEY_ZSRC; omega
    · unfold Reg.PAT_SLOT_SERIAL Reg.KEY_TAMPER Reg.KEY_ZSRC; omega
  refine .foldl (fun v i => ?_) _
  split
  · exact slot ..
  · exact slot ..

theorem reshown_syncKey : Reshown s (syncKey s) :=
  (reshown_wr (a := Reg.KEY_TK_VALID) _ (by decide)).trans <|
    ((reshown_wr (a := Reg.KEY_TK_FLOOR 0) _ (by decide)).trans
      (reshown_wr (a := Reg.KEY_TK_FLOOR 1) _ (by decide))).trans
      (reshown_wr (a := Reg.KEY_VAULT_GEN) _ (by decide))

/-! ## The keys are gone (R255) -/

/-- Every key, parent, transport key and the vault are gone, and no association or channel is left. -/
structure KeysGone (u : State) : Prop where
  vaultOpen : u.key.vaultOpen = false
  vault : u.key.vault = {}
  parents : u.key.parents = []
  transport : u.key.transport = []
  keeper : u.key.keeperCopy = []
  permD : u.key.permD = []
  permM : u.key.permM = []
  down : u.key.drbgDown = true
  dram : u.evr.dramKey = []
  harness : u.hrn.key = []
  slots : ∀ i, (u.saAt i).key = []
  unused : ∀ rx i, (u.scAt rx i).inUse = false

theorem KeysGone.of_parts (h : KeysGone s) (key : u.key = s.key) (dram : u.evr.dramKey = s.evr.dramKey)
    (harness : u.hrn.key = s.hrn.key) (slots : ∀ i, (s.saAt i).key = [] → (u.saAt i).key = [])
    (used : ∀ rx i, (u.scAt rx i).inUse = (s.scAt rx i).inUse) : KeysGone u where
  vaultOpen := key ▸ h.vaultOpen
  vault := key ▸ h.vault
  parents := key ▸ h.parents
  transport := key ▸ h.transport
  keeper := key ▸ h.keeper
  permD := key ▸ h.permD
  permM := key ▸ h.permM
  down := key ▸ h.down
  dram := dram.trans h.dram
  harness := harness.trans h.harness
  slots i := slots i (h.slots i)
  unused rx i := (used rx i).trans (h.unused rx i)

theorem StoreKept.keysGone (k : StoreKept s u) (h : KeysGone s) : KeysGone u :=
  h.of_parts k.key k.dram k.harness k.slots k.used

/-- What a zeroize leaves, before the registers follow. -/
def keysCleared (s : State) : State :=
  { s with
    key := { s.key with
      vaultOpen := false, vaultKey := [], vault := {}, parents := [], transport := [], masks := [], remaskPos := 0,
      keeperCopy := [], permD := [], permM := [], drbgDraw := 0, drbgDown := true }
    evr := { s.evr with dramKey := [] }
    sec := { s.sec with tx := [], rx := [], sa := [], fills := [], filling := none, kqWait := [] }
    hrn := { s.hrn with key := [], ackedMark := [] } }

theorem keysGone_keysCleared : KeysGone (keysCleared s) :=
  ⟨rfl, rfl, rfl, rfl, rfl, rfl, rfl, rfl, rfl, rfl, fun _ => rfl, fun rx _ => by cases rx <;> rfl⟩

theorem Reshown.storeSame (h : Reshown s u) : u.key = s.key ∧ u.pat = s.pat := by
  rw [h.rest.eq]
  exact ⟨rfl, rfl⟩

/-- The clearing: what it leaves of the keys, and what it keeps. -/
theorem clearKeys_shows : KeysGone (clearKeys s) ∧ (clearKeys s).key.zeroizing = s.key.zeroizing ∧
    (clearKeys s).pat = s.pat ∧ ∀ a ∈ [Reg.KEY_TAMPER, Reg.KEY_ZSRC], (clearKeys s).rd a = s.rd a := by
  have gaps : Reshown s ((Tbl.keys s.sec.tx).foldl (fun s i => setGapBit i false s) s) :=
    .foldl (fun _ _ => reshown_wr _ (by unfold Reg.SEC_TXGAP Reg.KEY_TAMPER Reg.KEY_ZSRC; omega)) _
  have parents (v : State) : Reshown v ((List.range 128).foldl (fun s i => s.wr (Reg.KEY_PARENT_VALID i) 0) v) :=
    .foldl (fun _ _ => reshown_wr _ (by unfold Reg.KEY_PARENT_VALID Reg.KEY_TAMPER Reg.KEY_ZSRC; omega)) _
  have shown (v : State) :
      Reshown v (syncSlots (syncKey ((v.setBit Reg.KEY_STATUS 1 false).setBit Reg.KEY_STATUS 6 false))) :=
    ((reshown_wr _ (by decide)).trans (reshown_wr _ (by decide))).trans (reshown_syncKey.trans reshown_syncSlots)
  unfold clearKeys
  dsimp only
  generalize (Tbl.keys s.sec.tx).foldl (fun s i => setGapBit i false s) s = v at gaps ⊢
  have after := (parents (keysCleared v)).trans (shown _)
  obtain ⟨key, pat⟩ := gaps.storeSame
  refine ⟨?_, ?_, ?_, fun a ha => (after.kept a ha).trans (gaps.kept a ha)⟩
  · obtain ⟨_, e⟩ := after.rest
    exact e ▸ keysGone_keysCleared.of_parts rfl rfl rfl (fun _ h => h) fun _ _ => rfl
  · exact (congrArg KeyState.zeroizing after.storeSame.1).trans (congrArg (·.zeroizing) key)
  · exact after.storeSame.2.trans pat

/-! ## A zeroize begins (R254, R257) -/

/-- A KEYQ operation that runs ends; the sources that are present and what is staged stay. -/
theorem endKeyq_keeps : (endKeyq s).pat = s.pat ∧ (endKeyq s).rd Reg.KEY_TAMPER = s.rd Reg.KEY_TAMPER := by
  unfold endKeyq
  split
  · exact ⟨rfl, rfl⟩
  next b run =>
    have done (c : Nat) := kqComplete_done run c []
    exact ⟨by rw [(done _).rest], (done _).rd (by decide)⟩

theorem runMode_zeroizing (h : u.key.zeroizing = some m) (n : Nat) : runMode u n = .discard := by
  have all : allDiscard u = true := by simp [allDiscard, h]
  unfold runMode
  rw [all]
  rfl

/-- A zeroize of source `src` has begun: `s` is what stood before. -/
structure Begun (src : Nat) (s u : State) : Prop where
  gone : KeysGone u
  running : u.key.zeroizing = some (2 ^ src)
  cause : u.rd Reg.KEY_ZSRC = 2 ^ src
  present : u.rd Reg.KEY_TAMPER = s.rd Reg.KEY_TAMPER
  staged : s.pat.cut = none → u.pat.staged = none

/-- The zeroize is noted, with its cause. -/
def zeroizeNoted (src : Nat) (s : State) : State :=
  { s with key := { s.key with zeroizing := some (2 ^ src) } }.wr Reg.KEY_ZSRC (2 ^ src)

theorem StoreKept.begun (k : StoreKept t u) (h : Begun src s t) : Begun src s u where
  gone := k.keysGone h.gone
  running := k.key ▸ h.running
  cause := (k.regs _ (by decide)).trans h.cause
  present := (k.regs _ (by decide)).trans h.present
  staged cut := k.pat ▸ h.staged cut

/-- With the frames ended the keys go, the tables empty, and what was staged is abandoned. -/
theorem begun_abandoned (lt : src < 32) : Begun src s (abandonStaged (emptyPeers (loseSpill (fun _ => true)
    (clearKeys (endAllFrames (fun _ => true) (zeroizeNoted src (endKeyq s))))))) := by
  obtain ⟨pat, tamper⟩ := endKeyq_keeps (s := s)
  have ended := storeKept_endAllFrames (s := zeroizeNoted src (endKeyq s)) (fun _ => true)
  generalize endAllFrames (fun _ => true) (zeroizeNoted src (endKeyq s)) = e at ended ⊢
  obtain ⟨gone, running, patCleared, regs⟩ := clearKeys_shows (s := e)
  have emptied : StoreKept (clearKeys e) (emptyPeers (loseSpill (fun _ => true) (clearKeys e))) :=
    (storeKept_loseSpill _).trans storeKept_emptyPeers
  generalize emptyPeers (loseSpill (fun _ => true) (clearKeys e)) = v at emptied ⊢
  have kept {a : Nat} (store : storeReg a = true) (staged : a ∉ stagedRegs)
      (shown : a ∈ [Reg.KEY_TAMPER, Reg.KEY_ZSRC]) : (abandonStaged v).rd a = (zeroizeNoted src (endKeyq s)).rd a :=
    (abandonStaged_rd staged).trans <| (emptied.regs a store).trans <| (regs a shown).trans (ended.regs a store)
  have begunPat : v.pat = s.pat := emptied.pat.trans (patCleared.trans (ended.pat.trans pat))
  refine ⟨?_, ?_, ?_, ?_, fun cut => abandonStaged_staged (begunPat ▸ cut)⟩
  · rw [abandonStaged_rest]
    exact (emptied.keysGone gone).of_parts rfl rfl rfl (fun _ h => h) fun _ _ => rfl
  · rw [abandonStaged_key, emptied.key, running, ended.key]
    rfl
  · refine (kept (by decide) (by decide) (by decide)).trans ((State.rd_wr_same ..).trans (Nat.mod_eq_of_lt ?_))
    exact Nat.pow_lt_pow_right (by decide) lt
  · exact (kept (by decide) (by decide) (by decide)).trans ((State.rd_wr_ne _ _ (by decide)).trans tamper)

theorem begun_zeroizeFrom (idle : s.key.zeroizing = none) (lt : src < 32) : Begun src s (zeroizeFrom src s) := by
  have followed := (storeKept_syncStatus.trans (storeKept_followTrunks.trans storeKept_syncPorts)).begun
    (begun_abandoned (s := s) lt)
  unfold zeroizeFrom
  rw [idle]
  dsimp only
  split
  · exact followed
  · exact storeKept_fanOut.begun followed

/-! ## The tamper sources (R254) -/

/-- With the rails up, a source acts as it becomes present. -/
theorem tamperSource_up (off : s.pwr.mode ≠ .off) (battery : s.pwr.mode ≠ .battery) (stopping : s.pwr.mode ≠ .stopping)
    (present : Bool) : tamperSource src present s =
      if present && !s.bit Reg.KEY_TAMPER src then tamperRise src (s.setBit Reg.KEY_TAMPER src present)
      else s.setBit Reg.KEY_TAMPER src present := by
  unfold tamperSource
  dsimp only
  split
  · contradiction
  · contradiction
  · contradiction
  · rfl

theorem tamperSource_rises (off : s.pwr.mode ≠ .off) (battery : s.pwr.mode ≠ .battery)
    (stopping : s.pwr.mode ≠ .stopping) (absent : s.bit Reg.KEY_TAMPER src = false) :
    tamperSource src true s = tamperRise src (s.setBit Reg.KEY_TAMPER src true) :=
  (tamperSource_up off battery stopping true).trans (if_pos (by rw [absent]; rfl))

theorem tamperSource_stays (off : s.pwr.mode ≠ .off) (battery : s.pwr.mode ≠ .battery)
    (stopping : s.pwr.mode ≠ .stopping) (present : s.bit Reg.KEY_TAMPER src = true) :
    tamperSource src true s = s.setBit Reg.KEY_TAMPER src true :=
  (tamperSource_up off battery stopping true).trans (if_neg (by rw [present]; decide))

theorem tamperRise_alarms (quiet : zeroizes (s.rd Reg.KPR_TAMPER_RESP) src = false) (lt : src < 12)
    (present : s.bit Reg.KEY_TAMPER src = true) : let u := tamperRise src s;
    u.bit Reg.KEY_TAMPER src = true ∧ u.bit Reg.KEY_ALARM src = true ∧ u.bit Reg.KPR_ALARM src = true ∧
    u.key = s.key ∧ u.sec = s.sec ∧ CoreRegsBut [Reg.KEY_ALARM, Reg.KEY_EVT, Reg.KPR_ALARM] s u := by
  obtain ⟨-, alarm, only⟩ :=
    keeperAlarm_keyEvent (s := s.setBit Reg.KEY_ALARM src true) (a := src) (e := 1) lt (by decide)
  have latched : (s.setBit Reg.KEY_ALARM src true).bit Reg.KEY_ALARM src = true :=
    State.bit_setBit_same _ _ _ _ (Nat.lt_trans lt (by decide))
  have shown : CoreRegsBut [Reg.KEY_ALARM, Reg.KEY_EVT, Reg.KPR_ALARM] s (s.setBit Reg.KEY_ALARM src true) :=
    fun _ _ ha => State.rd_setBit_ne _ _ _ (List.ne_of_not_mem_cons ha)
  rw [tamperRise, if_neg (Bool.eq_false_iff.mp quiet)]
  refine ⟨?_, (only.bit src (by decide) (by decide)).trans latched, alarm, only.key,
    (keeperAlarm_sec _).trans (keyEvent_sec 1), shown.trans (only.regs.mono (by decide))⟩
  exact (only.bit src (by decide) (by decide)).trans ((State.bit_setBit_ne _ _ _ _ (by decide)).trans present)

/-! ## The zeroize is recorded (R256) -/

/-- What the enrolment record says after a zeroize that leaves the module Quarantined. -/
def zeroizedRecord (mask : Nat) (r : EnrolRecord) : EnrolRecord :=
  { r with quarantined := true, zcount := r.zcount + 1, zsrc := mask }

/-- The record, the count, the cause and the time of a zeroize. -/
def zeroizeEntered (mask ns : Nat) (r : EnrolRecord) (s : State) : State :=
  let s := (setRecord (zeroizedRecord mask) s).wr Reg.KEY_ZCOUNT (r.zcount + 1)
  ({ s with key := { s.key with ztime := ns } }.wr Reg.KEY_ZSRC mask).wr Reg.KEY_ZTIME ns

theorem zeroizeEntered_key (held : s.key.record = some r) : (zeroizeEntered m ns r s).key =
    { s.key with record := some (zeroizedRecord m r), recordOld := some r, recordCtr := s.key.recordCtr + 1,
                 ztime := ns } :=
  congrArg (fun k : KeyState => { k with ztime := ns }) (setRecord_key held)

/-- A zeroize shows in KPR_STATUS, in an event where the lifecycle changed, and in an alarm where it was Operational. -/
def zeroizeReported (was : Lifecycle) (s : State) : State :=
  let s := syncStatus s
  let s := if was == s.lifecycle then s
    else evqPost 0x0E 2 (s.rd Reg.KPR_STATUS) (s.rd Reg.KEY_ZCOUNT) 0 0 s
  if was == .operational && s.lifecycle == .quarantined then keeperAlarm (2 ^ 11) s else s

theorem storeKept_zeroizeReported (was : Lifecycle) : StoreKept s (zeroizeReported was s) := by
  have posted (a b : Nat) (v : State) : StoreKept v (if was == v.lifecycle then v else evqPost 0x0E 2 a b 0 0 v) :=
    (StoreKept.refl v).ite (posts_evqPost ..).storeKept
  have alarmed (c : Bool) (v : State) : StoreKept v (if c then keeperAlarm (2 ^ 11) v else v) :=
    (storeKept_keeperAlarm _).ite (.refl v)
  exact storeKept_syncStatus.trans ((posted ..).trans (alarmed ..))

/-- A zeroize of an enrolled module is entered, shown and reported. -/
theorem recordZeroize_enrolled (enrolled : s.key.fuse = .enrolled) (held : s.key.record = some r) :
    recordZeroize m ns s = keyEvent 0 (raiseVector 5 (zeroizeReported s.lifecycle (zeroizeEntered m ns r s))) := by
  have holds : s = { s with key := { s.key with fuse := .enrolled, record := some r } } := by rw [← enrolled, ← held]
  rw [holds]
  rfl

/-- A zeroize with the sources `mask` is recorded at `ns`, in the record that was `r`; `k` is the key store before. -/
structure Recorded (mask ns : Nat) (r : EnrolRecord) (k : KeyState) (u : State) : Prop where
  key : u.key = { k with record := some (zeroizedRecord mask r), recordOld := some r, recordCtr := k.recordCtr + 1,
                         ztime := ns }
  zdone : u.bit Reg.KEY_STATUS 5 = true
  count : u.rd Reg.KEY_ZCOUNT = (r.zcount + 1) % 2 ^ 32
  time : u.rd Reg.KEY_ZTIME = ns % 2 ^ 32
  cause : u.rd Reg.KEY_ZSRC = mask % 2 ^ 32
  event : u.bit Reg.KEY_EVT 0 = true
  raised : VectorRaised 5 u

theorem StoreKept.recorded {k : KeyState} (h : StoreKept t u) (d : Recorded m ns r k t) : Recorded m ns r k u where
  key := h.key.trans d.key
  zdone := h.zdone.trans d.zdone
  count := (h.regs _ (by decide)).trans d.count
  time := (h.regs _ (by decide)).trans d.time
  cause := (h.regs _ (by decide)).trans d.cause
  event := (h.bit (by decide)).trans d.event
  raised := h.raised d.raised

theorem zeroizeEntered_pwr (held : s.key.record = some r) : (zeroizeEntered m ns r s).pwr = s.pwr := by
  rw [zeroizeEntered, setRecord, held]
  rfl

theorem zeroizeEntered_regs (held : s.key.record = some r) : let u := zeroizeEntered m ns r s;
    u.rd Reg.KEY_ZCOUNT = (r.zcount + 1) % 2 ^ 32 ∧ u.rd Reg.KEY_ZTIME = ns % 2 ^ 32 ∧
    u.rd Reg.KEY_ZSRC = m % 2 ^ 32 ∧ u.bit Reg.KEY_STATUS 5 = s.bit Reg.KEY_STATUS 5 := by
  rw [zeroizeEntered, setRecord, held]
  refine ⟨?_, State.rd_wr_same .., ?_, ?_⟩
  · exact (State.rd_wr_ne _ _ (by decide)).trans ((State.rd_wr_ne _ _ (by decide)).trans (State.rd_wr_same ..))
  · exact (State.rd_wr_ne _ _ (by decide)).trans (State.rd_wr_same ..)
  · exact (State.bit_wr_ne _ _ _ (by decide)).trans <| (State.bit_wr_ne _ _ _ (by decide)).trans
      (State.bit_wr_ne _ _ _ (by decide))

theorem recordZeroize_shows (enrolled : s.key.fuse = .enrolled) (held : s.key.record = some r)
    (zdone : s.bit Reg.KEY_STATUS 5 = true) : let u := recordZeroize m ns s;
    Recorded m ns r s.key u ∧ u.pwr = s.pwr := by
  obtain ⟨count, time, cause, done⟩ := zeroizeEntered_regs (m := m) (ns := ns) held
  have kept : StoreKept (zeroizeEntered m ns r s)
      (raiseVector 5 (zeroizeReported s.lifecycle (zeroizeEntered m ns r s))) :=
    (storeKept_zeroizeReported _).trans (posts_raiseVector 5).storeKept
  have sent : VectorRaised 5 (raiseVector 5 (zeroizeReported s.lifecycle (zeroizeEntered m ns r s))) :=
    sendVector_sent 5
  rw [recordZeroize_enrolled enrolled held]
  generalize raiseVector 5 (zeroizeReported s.lifecycle (zeroizeEntered m ns r s)) = v at kept sent
  have posts : StoreKept (v.setBit Reg.KEY_EVT 0 true) (keyEvent 0 v) := (keyEvent_posts 0).storeKept
  have same {a : Nat} (store : storeReg a = true) (ne : a ≠ Reg.KEY_EVT) :
      (keyEvent 0 v).rd a = (zeroizeEntered m ns r s).rd a :=
    (posts.regs a store).trans ((State.rd_setBit_ne _ _ _ ne).trans (kept.regs a store))
  refine ⟨?_, posts.pwr.trans (kept.pwr.trans (zeroizeEntered_pwr held))⟩
  exact {
    key := posts.key.trans (kept.key.trans (zeroizeEntered_key held))
    zdone := posts.zdone.trans <| (State.bit_setBit_ne _ _ _ _ (by decide)).trans (kept.zdone.trans (done.trans zdone))
    count := (same (by decide) (by decide)).trans count
    time := (same (by decide) (by decide)).trans time
    cause := (same (by decide) (by decide)).trans cause
    event := keyEvent_bit (by decide)
    raised := posts.raised (sent.imp_right (State.bit_setBit_ne _ _ _ _ (by decide)).trans) }

/-! ## The zeroize is done (R256 steps 3 and 4) -/

/-- Both banks and the islands are clear, and no zeroize runs. -/
def zeroizeCleared (s : State) : State :=
  let s := flushFabric (s.setBit Reg.KEY_STATUS 5 true)
  { s with key := { s.key with zeroizing := none } }

theorem syncTags_rd {a : Nat} (h : a ∉ Reg.CPH_TAG_FREE :: Reg.CPH_EVT :: postedRegs) : (syncTags s).rd a = s.rd a := by
  simp only [List.mem_cons, not_or] at h
  obtain ⟨free, event, posted⟩ := h
  have shown (k : Nat) : (s.wr Reg.CPH_TAG_FREE k).rd a = s.rd a := State.rd_wr_ne _ _ free
  unfold syncTags
  dsimp only
  split
  · exact ((posts_raiseEvent 2 4 0).regs a posted).trans ((State.rd_setBit_ne _ _ _ event).trans (shown _))
  · exact shown _

theorem zeroizeCleared_shows : (zeroizeCleared s).key = { s.key with zeroizing := none } ∧
    (zeroizeCleared s).pwr = s.pwr ∧ (zeroizeCleared s).bit Reg.KEY_STATUS 5 = true ∧
    (zeroizeCleared s).rd (Reg.TB_NS 0) = s.rd (Reg.TB_NS 0) := by
  have kept := storeKept_flushFabric (s := s.setBit Reg.KEY_STATUS 5 true)
  have time : (flushFabric (s.setBit Reg.KEY_STATUS 5 true)).rd (Reg.TB_NS 0) = s.rd (Reg.TB_NS 0) :=
    (syncTags_rd (by decide)).trans (State.rd_setBit_ne _ _ _ (by decide))
  have zdone := kept.zdone.trans (State.bit_setBit_same _ _ _ _ (by decide))
  have key := kept.key
  have pwr := kept.pwr
  unfold zeroizeCleared
  generalize flushFabric (s.setBit Reg.KEY_STATUS 5 true) = v at time zdone key pwr
  exact ⟨congrArg (fun k : KeyState => { k with zeroizing := none }) key, pwr, zdone, time⟩

/-- What waited for the end of a zeroize: the Retired fuse, a debug level, a warm reset. -/
def zeroizeFollowed (s : State) : State :=
  let s := blowRetired s
  let s := if s.key.invasiveDue then
      { s with key := { s.key with invasiveDue := false } }.setBit Reg.DBG_STATUS 2 true
    else s
  warmRelease (syncPorts (followTrunks (checkBypass s)))

theorem zeroizeDone_running (running : s.key.zeroizing = some m) : zeroizeDone s =
    zeroizeFollowed (recordZeroize m ((zeroizeCleared s).rd (Reg.TB_NS 0)) (zeroizeCleared s)) := by
  unfold zeroizeDone zeroizeFollowed zeroizeCleared
  rw [running]

/-- Where nothing waited, what follows keeps the key store. -/
theorem storeKept_zeroizeFollowed (retire : s.key.retireDue = false) (invasive : s.key.invasiveDue = false)
    (warm : s.pwr.warmHeld = none) : StoreKept s (zeroizeFollowed s) := by
  have followed : StoreKept s (syncPorts (followTrunks (checkBypass s))) :=
    storeKept_checkBypass.trans (storeKept_followTrunks.trans storeKept_syncPorts)
  have noRetire : blowRetired s = s := if_pos (by rw [retire]; rfl)
  have noWarm : warmRelease (syncPorts (followTrunks (checkBypass s))) = syncPorts (followTrunks (checkBypass s)) := by
    rw [warmRelease, followed.pwr, warm]
  unfold zeroizeFollowed
  dsimp only
  rw [noRetire, if_neg (Bool.eq_false_iff.mp invasive), noWarm]
  exact followed

theorem recorded_zeroizeDone (running : s.key.zeroizing = some m) (enrolled : s.key.fuse = .enrolled)
    (held : s.key.record = some r) (retire : s.key.retireDue = false) (invasive : s.key.invasiveDue = false)
    (warm : s.pwr.warmHeld = none) :
    Recorded m (s.rd (Reg.TB_NS 0)) r { s.key with zeroizing := none } (zeroizeDone s) := by
  obtain ⟨key, pwr, zdone, time⟩ := zeroizeCleared_shows (s := s)
  have recorded := recordZeroize_shows (m := m) (ns := s.rd (Reg.TB_NS 0)) (s := zeroizeCleared s) (r := r)
    (by rw [key]; exact enrolled) (by rw [key]; exact held) zdone
  rw [zeroizeDone_running running, time]
  generalize recordZeroize m (s.rd (Reg.TB_NS 0)) (zeroizeCleared s) = w at recorded
  obtain ⟨recorded, power⟩ := recorded
  rw [key] at recorded
  refine (storeKept_zeroizeFollowed ?_ ?_ (by rw [power, pwr, warm])).recorded recorded
  · rw [recorded.key]
    exact retire
  · rw [recorded.key]
    exact invasive

/-! ## The statement -/

/-- Settles O40: a source that zeroizes, one that raises its alarm, a repeat, a source that goes, and the end of the
zeroize. -/
theorem zeroizeClearsEveryKey : Obligations.ZeroizeClearsEveryKey := by
  unfold Obligations.ZeroizeClearsEveryKey
  intro s src
  have lt : src.val < 12 := Nat.lt_of_lt_of_le src.isLt (by decide)
  have raised : (s.fresh.setBit Reg.KEY_TAMPER src.val true).bit Reg.KEY_TAMPER src.val = true :=
    State.bit_setBit_same _ _ _ _ (by omega)
  refine ⟨fun up absent => ?rise, fun off battery stopping present => ?again, fun off battery stopping => ?gone,
    fun m r core running enrolled held retire invasive warm => ?done⟩
  case rise =>
    have off : s.pwr.mode ≠ .off := by rintro e; simp [e] at up
    have battery : s.pwr.mode ≠ .battery := by rintro e; simp [e] at up
    have stopping : s.pwr.mode ≠ .stopping := by rintro e; simp [e] at up
    have rises := tamperSource_rises (s := s.fresh) off battery stopping absent
    have response : (s.fresh.setBit Reg.KEY_TAMPER src.val true).rd Reg.KPR_TAMPER_RESP = s.rd Reg.KPR_TAMPER_RESP :=
      State.rd_setBit_ne _ _ _ (by decide)
    refine ⟨fun clears idle => answers_anyTime (f := tamperSource src.val true) rfl ?_,
      fun quiet => answers_anyTime (f := tamperSource src.val true) rfl ?_⟩
    · obtain ⟨gone, running, cause, present, staged⟩ :=
        begun_zeroizeFrom (s := s.fresh.setBit Reg.KEY_TAMPER src.val true) (src := src.val) idle (by omega)
      rw [rises, tamperRise, if_pos (by rw [response]; exact clears)]
      exact ⟨running, cause, (congrArg (Nat.testBit · src.val) present).trans raised, gone.vaultOpen, gone.vault,
        gone.parents, gone.transport, gone.keeper, gone.permD, gone.permM, gone.dram, gone.down, gone.harness, gone.slots,
        gone.unused, staged, runMode_zeroizing running⟩
    · obtain ⟨tamper, alarm, latched, key, sec, regs⟩ :=
        tamperRise_alarms (s := s.fresh.setBit Reg.KEY_TAMPER src.val true) (by rw [response]; exact quiet) lt raised
      rw [rises]
      refine ⟨tamper, alarm, latched, key, sec, fun a core out => ?_⟩
      exact (regs a core (List.not_mem_of_not_mem_cons out)).trans (State.rd_setBit_ne _ _ _ (List.ne_of_not_mem_cons out))
  case again =>
    exact answers_anyTime (f := tamperSource src.val true) rfl
      (tamperSource_stays (s := s.fresh) off battery stopping present)
  case gone =>
    refine answers_anyTime (f := tamperSource src.val false) rfl ?_
    exact (tamperSource_up (s := s.fresh) off battery stopping false).trans (if_neg Bool.false_ne_true)
  case done =>
    refine answers_powered core (f := zeroizeDone) rfl ?_
    have recorded := recorded_zeroizeDone (s := s.fresh) running enrolled held retire invasive warm
    refine ⟨by rw [recorded.key], recorded.zdone, ?_, ?_, recorded.count, ?_, recorded.cause, recorded.event,
      recorded.raised⟩
    · rw [State.lifecycle, recorded.key, State.fresh_key, enrolled]
      rfl
    · rw [recorded.key]
      rfl
    · exact recorded.time.trans (Nat.mod_eq_of_lt (State.rd_lt ..))

end Sys2Proof.Machine
end

section
/-! SUPPORT. The peer table and its engine: what a write of places changes of the classifier and what it leaves, and
when the engine does a piece of work or lets it wait (R278 to R290). -/

namespace Sys2Proof.Machine

variable {s t u : State}

/-! ## Places of the peer table (R278, R283, R289) -/

/-- The registers that show the sizes of the peer table, the queue and the table of prefixes. -/
def sizeRegs : List Nat := [Reg.CLS_ENTRIES, Reg.CLS_LEARNQ, Reg.CLS_PREFIXES]

/-- Nothing but places, bucket versions, the sizes shown and messages to the standby differs. -/
structure PlacesOnly (s u : State) : Prop where
  regs : RegsBut sizeRegs s u
  rest : u = { s with regs := u.regs, hrn := u.hrn,
                      cls := { s.cls with peers := u.cls.peers, versions := u.cls.versions } }

theorem PlacesOnly.refl (s : State) : PlacesOnly s s := ⟨fun _ _ => rfl, rfl⟩

theorem PlacesOnly.trans (h : PlacesOnly s t) (k : PlacesOnly t u) : PlacesOnly s u where
  regs a ha := (k.regs a ha).trans (h.regs a ha)
  rest := k.rest.trans (by rw [h.rest])

theorem PlacesOnly.foldl {α : Type} {f : State → α → State} (h : ∀ t x, PlacesOnly t (f t x)) (l : List α) :
    PlacesOnly s (l.foldl f s) :=
  List.foldlRecOn _ _ (.refl s) fun _ ht x _ => ht.trans (h _ x)

theorem PlacesOnly.jobs (h : PlacesOnly s u) : u.cls.jobs = s.cls.jobs := by rw [h.rest]
theorem PlacesOnly.learnQ (h : PlacesOnly s u) : u.cls.learnQ = s.cls.learnQ := by rw [h.rest]
theorem PlacesOnly.relocated (h : PlacesOnly s u) : u.cls.relocated = s.cls.relocated := by rw [h.rest]
theorem PlacesOnly.cmd (h : PlacesOnly s u) : u.cls.cmd = s.cls.cmd := by rw [h.rest]
theorem PlacesOnly.locks (h : PlacesOnly s u) : u.cls.locks = s.cls.locks := by rw [h.rest]
theorem PlacesOnly.pat (h : PlacesOnly s u) : u.pat = s.pat := by rw [h.rest]

theorem syncCls_rd {a : Nat} (h : a ∉ sizeRegs) : (syncCls s).rd a = s.rd a := by
  simp only [sizeRegs, List.mem_cons, List.not_mem_nil, or_false, not_or] at h
  obtain ⟨entries, queue, prefixes⟩ := h
  rw [syncCls, State.rd_wr_ne _ _ prefixes, State.rd_wr_ne _ _ queue, State.rd_wr_ne _ _ entries]

theorem peerAt_of_peers (h : t.cls.peers = s.cls.peers) (i : Nat) : t.peerAt i = s.peerAt i := by
  rw [State.peerAt, h, State.peerAt]

/-- The place just written holds the entry, and every other what it did. -/
theorem peerAt_setPeer (i j : Nat) (e : Bytes) : (s.setPeer i e).peerAt j = if j = i then e else s.peerAt j := by
  unfold State.setPeer
  split
  case isTrue same =>
    split
    case isTrue here => rw [here, same]
    case isFalse => rfl
  case isFalse => exact Tbl.get_set ..

theorem placesOnly_setPeer (i : Nat) (e : Bytes) : PlacesOnly s (s.setPeer i e) := by
  unfold State.setPeer
  split
  · exact .refl s
  · exact ⟨fun _ ha => syncCls_rd ha, rfl⟩

theorem placesOnly_mirror (m : HrnMsg) : PlacesOnly s (s.mirror m) := ⟨fun _ _ => rfl, rfl⟩

@[simp] theorem mirror_peerAt (m : HrnMsg) (i : Nat) : (s.mirror m).peerAt i = s.peerAt i := rfl

theorem placesOnly_clearPlaces (l : List Nat) : PlacesOnly s (clearPlaces l s) :=
  .foldl (fun _ i => (placesOnly_setPeer i _).trans (placesOnly_mirror _)) l

/-- Of the places cleared each is empty, and every other holds what it did. -/
theorem peerAt_clearPlaces (l : List Nat) (j : Nat) :
    (clearPlaces l s).peerAt j = if j ∈ l then zeros 64 else s.peerAt j := by
  induction l generalizing s with
  | nil => rfl
  | cons i l ih =>
    refine (ih (s := (s.setPeer i (zeros 64)).mirror _)).trans ?_
    rw [mirror_peerAt, peerAt_setPeer]
    by_cases later : j ∈ l <;> by_cases here : j = i <;> simp [later, here]

/-- The places of a bucket whose entries are valid and satisfy `p`. -/
theorem mem_bucketPlaces (b : Nat) (p : Bytes → Bool) (i : Nat) :
    i ∈ bucketPlaces s b p ↔ i / 8 = b ∧ eFlag (s.peerAt i) 0 = true ∧ p (s.peerAt i) = true := by
  have inBucket : (∃ k < 8, 8 * b + k = i) ↔ i / 8 = b :=
    ⟨fun ⟨k, _, _⟩ => by omega, fun _ => ⟨i % 8, by omega, by omega⟩⟩
  simp [bucketPlaces, inBucket]

/-! ## The engine (R281, R290) -/

theorem engineRun_idle (h : s.cls.jobs = []) (n : Nat) : engineRun n s = s := by
  cases n with
  | zero => rfl
  | succ n => simp [engineRun, h]

theorem engineGo_idle (h : s.cls.jobs = []) : engineGo s = s := engineRun_idle h _

/-- An engine without work does at once what it can do, where that leaves no work. -/
theorem engineDo_now {w : EngineWork} {n : Nat} (idle : s.cls.jobs = []) (ready : jobReady s ⟨w, n⟩ = true)
    (done : (runJob ⟨w, n⟩ s).cls.jobs = []) : engineDo w n s = runJob ⟨w, n⟩ s := by
  have first : [EngineJob.mk w n].find? (jobReady { s with cls := { s.cls with jobs := [⟨w, n⟩] } }) = some ⟨w, n⟩ :=
    List.find?_cons_of_pos ready
  have taken : { s with cls := { s.cls with jobs := [EngineJob.mk w n].erase ⟨w, n⟩ } } = s := by
    rw [List.erase_cons_head, ← idle]
  rw [engineDo, idle, List.nil_append, engineGo, engineRun]
  dsimp only
  rw [first]
  dsimp only
  rw [taken, engineRun_idle done]

/-- Work waits where the engine can do neither it nor any work before it. -/
theorem engineDo_waits {w : EngineWork} {n : Nat} (before : ∀ j ∈ s.cls.jobs, jobReady s j = false)
    (blocked : jobReady s ⟨w, n⟩ = false) :
    engineDo w n s = { s with cls := { s.cls with jobs := s.cls.jobs ++ [⟨w, n⟩] } } := by
  have all : ∀ j ∈ s.cls.jobs ++ [⟨w, n⟩], jobReady s j = false := by
    simpa [or_imp, forall_and] using And.intro before blocked
  have noneReady : (s.cls.jobs ++ [EngineJob.mk w n]).find?
      (jobReady { s with cls := { s.cls with jobs := s.cls.jobs ++ [⟨w, n⟩] } }) = none :=
    List.find?_eq_none.mpr fun j hj => ne_true_of_eq_false (all j hj)
  rw [engineDo, engineGo, engineRun]
  dsimp only
  rw [noneReady]

end Sys2Proof.Machine
end

section
/-! SUPPORT. Host commands of the classifier: each starts with its result and acts on the table, and its completion
shows the result (R276, R281, R283, R287, R288). -/

namespace Sys2Proof.Machine

variable {s t u : State}

/-! ## A command that runs (R287, R288) -/

/-- A command runs, recorded with its result, and BUSY is set. -/
def CommandRuns (c : ClsCmd) (u : State) : Prop := u.cls.cmd = some c ∧ u.bit Reg.CLS_CMD_STATUS 0 = true

theorem commandRuns_clsRun (c : ClsCmd) : CommandRuns c (clsRun c s) :=
  ⟨rfl, State.bit_setBit_same _ _ _ _ (by decide)⟩

theorem clsRun_rd {a : Nat} (c : ClsCmd) (h : a ≠ Reg.CLS_CMD_STATUS) : (clsRun c s).rd a = s.rd a :=
  State.rd_setBit_ne _ _ _ h

@[simp] theorem clsRun_peerAt (c : ClsCmd) (i : Nat) : (clsRun c s).peerAt i = s.peerAt i := rfl

theorem rdBytes_of_rd {a n : Nat} (h : ∀ i < n, t.rd (a + 4 * i) = s.rd (a + 4 * i)) : t.rdBytes a n = s.rdBytes a n :=
  List.flatMap_congr fun i hi => by rw [h i (List.mem_range.mp hi)]

theorem cmdData_ne {i a : Nat} (h : i < 16) (out : a < 0x180040 ∨ 0x180080 ≤ a) : Reg.CLS_CMD_DATA 0 + 4 * i ≠ a := by
  unfold Reg.CLS_CMD_DATA
  omega

@[simp] theorem cmdData_clsRun (c : ClsCmd) : cmdData (clsRun c s) = cmdData s :=
  rdBytes_of_rd fun _ hi => clsRun_rd c (cmdData_ne hi (by decide))

theorem jobReady_clsRun (c : ClsCmd) (j : EngineJob) : jobReady (clsRun c s) j = jobReady s j := by
  have data := cmdData_clsRun (s := s) c
  unfold jobReady
  rw [data]
  rfl

/-! ## A command while one runs -/

theorem clsCommand_ignored (busy : clsBusy s = true) (n : Nat) : let u := clsCommand n s;
    u.bit Reg.CLS_CMD_STATUS 1 = true ∧ OnlyRegs [Reg.CLS_CMD_STATUS] s u := by
  have ignored : clsCommand n s = s.setBit Reg.CLS_CMD_STATUS 1 true := if_pos busy
  rw [ignored]
  exact ⟨State.bit_setBit_same _ _ _ _ (by decide), onlyRegs_setBit _ _ (List.mem_singleton.mpr rfl)⟩

/-- Each command is a write of CLS_CMD with its code. -/
theorem exec_clsCommand {c : Instr}
    (h : c ∈ [Instr.lookup, .insert, .update, .delete, .ageSweep, .flushSpan, .prefixInsert, .prefixDelete]) :
    ∃ n, exec c s = powered (hostWrite Reg.CLS_CMD (clsCommand n)) s := by
  simp only [List.mem_cons, List.not_mem_nil, or_false] at h
  rcases h with rfl | rfl | rfl | rfl | rfl | rfl | rfl | rfl
  · exact ⟨1, rfl⟩
  · exact ⟨2, rfl⟩
  · exact ⟨3, rfl⟩
  · exact ⟨4, rfl⟩
  · exact ⟨5, rfl⟩
  · exact ⟨6, rfl⟩
  · exact ⟨7, rfl⟩
  · exact ⟨8, rfl⟩

theorem exec_clsBadCode {k : BitVec 4} (h : k.toNat = 0 ∨ 9 ≤ k.toNat) :
    exec (.clsBadCode k) s = powered (hostWrite Reg.CLS_CMD (clsCommand k.toNat)) s := by
  have code : clsBad k.toNat = clsCommand k.toNat := funext fun _ => if_pos h
  rw [← code]
  rfl

theorem clsCommand_undefined (idle : clsBusy s = false) {k : Nat} (h : k = 0 ∨ 9 ≤ k) :
    clsCommand k s = clsDone k 8 0 s := by
  unfold clsCommand
  rw [if_neg (by simp [idle])]
  split
  case h_9 => rfl
  all_goals omega

/-! ## LOOKUP, INSERT, UPDATE and DELETE -/

/-- Nothing stands before a command, and no bucket of its key is locked. -/
structure EngineReady (s : State) : Prop where
  relocated : s.cls.relocated = []
  learnQ : s.cls.learnQ = []
  jobs : s.cls.jobs = []
  unlocked : keyLocked s (eKey (cmdData s)) = false

/-- A command that the engine is to do has started: its result is still to come. -/
abbrev started (code : Nat) (s : State) : State := clsRun { code := code, done := false } s

/-- A command that finds the engine ready acts at once: `w` is what its work leaves. -/
theorem engineDo_command (n : Nat) {w : State} (ready : EngineReady s) (work : commandWork (started n s) = w)
    (done : w.cls.jobs = []) : engineDo .command s.cls.learnQ.length (started n s) = w := by
  obtain ⟨relocated, learnQ, jobs, unlocked⟩ := ready
  subst work
  refine engineDo_now jobs ?_ done
  rw [jobReady_clsRun]
  simp [jobReady, engineFree, relocated, learnQ, unlocked]

/-- The entry that INSERT makes of DATA (R283). -/
def insertedEntry (s : State) : Bytes :=
  let d := cmdData s
  mkEntry (byteAt d 0) (eLp d) (eVid d) (eMac d) (eStamp d) (eTarget d) 0xFFFF (s.rd (Reg.TB_NS 0)) 0 (slice d 24 40)

/-- The entry that UPDATE makes of DATA and the entry `o` there. -/
def updatedEntry (s : State) (o : Bytes) : Bytes :=
  let d := cmdData s
  mkEntry (byteAt d 0) (eLp d) (eVid d) (eMac d) (eStamp d) (eTarget d) (leAt o 14 2) (leAt o 16 4) (leAt o 20 4)
    (slice d 24 40)

theorem insertedEntry_clsRun (c : ClsCmd) : insertedEntry (clsRun c s) = insertedEntry s := by
  rw [insertedEntry, cmdData_clsRun, clsRun_rd c (by decide), insertedEntry]

theorem updatedEntry_clsRun (c : ClsCmd) (o : Bytes) : updatedEntry (clsRun c s) o = updatedEntry s o := by
  rw [updatedEntry, cmdData_clsRun, updatedEntry]

/-- An entry with room in its first bucket goes into the lowest free place there (R283). -/
theorem peerInsert_placed {e : Bytes} {i : Nat} (room : validCount s < clsLimit s)
    (free : freePlace s (peerBuckets s (eKey e)).1 = some i) : peerInsert e s = (s.setPeer i e, .done i) := by
  simp [peerInsert, Nat.not_le.mpr room, free]

theorem insertWork_placed {i : Nat} (new : findPeer s (eKey (cmdData s)) = none) (room : validCount s < clsLimit s)
    (free : freePlace s (peerBuckets s (eKey (insertedEntry s))).1 = some i) :
    insertWork s =
      (clsDone 2 0 (placeOut i) (s.setPeer i (insertedEntry s))).mirror (HrnMsg.learn 0 (insertedEntry s)) := by
  have placed := peerInsert_placed room free
  rw [insertedEntry] at placed ⊢
  rw [insertWork]
  dsimp only
  rw [new, placed]
  rfl

theorem insertWork_exists {i : Nat} (found : findPeer s (eKey (cmdData s)) = some i) :
    insertWork s = clsDone 2 2 0 s := by simp [insertWork, found]

theorem updateWork_found {i : Nat} (found : findPeer s (eKey (cmdData s)) = some i) :
    let e := updatedEntry s (s.peerAt i);
    updateWork s = (clsDone 3 0 (placeOut i) (s.setPeer i e)).mirror (HrnMsg.learn 1 e) := by
  rw [updateWork, found]
  rfl

theorem deleteWork_found {i : Nat} (found : findPeer s (eKey (cmdData s)) = some i) :
    deleteWork s = clsDone 4 0 0 (clearPlaces [i] s) := by rw [deleteWork, found]

theorem deleteWork_missing (missing : findPeer s (eKey (cmdData s)) = none) : deleteWork s = clsDone 4 1 0 s := by
  rw [deleteWork, missing]

/-- A command that writes one place: it alone changes, and the command runs. -/
theorem clsRun_setPeer (c : ClsCmd) (i : Nat) (e : Bytes) (m : HrnMsg) :
    let u := (clsRun c (s.setPeer i e)).mirror m;
    u.peerAt i = e ∧ (∀ j, j ≠ i → u.peerAt j = s.peerAt j) ∧ CommandRuns c u ∧ u.cls.jobs = s.cls.jobs :=
  ⟨(peerAt_setPeer i i e).trans (if_pos rfl), fun j ne => (peerAt_setPeer i j e).trans (if_neg ne),
    commandRuns_clsRun c, (placesOnly_setPeer i e).jobs⟩

theorem cmdLookup_runs :
    let hit := if badKey s (cmdData s) false then none else findPeer s (eKey (cmdData s));
    (cmdLookup s).cls.peers = s.cls.peers ∧
    CommandRuns { code := 1, result := if badKey s (cmdData s) false then 4 else if hit.isSome then 0 else 1,
                  out := (hit.map placeOut).getD 0, data := (hit.map s.peerAt).getD [] } (cmdLookup s) := by
  unfold cmdLookup
  dsimp only
  cases badKey s (cmdData s) false with
  | true => exact ⟨rfl, commandRuns_clsRun _⟩
  | false =>
    cases findPeer s (eKey (cmdData s)) with
    | none => exact ⟨rfl, commandRuns_clsRun _⟩
    | some i => exact ⟨rfl, commandRuns_clsRun _⟩

section
variable (key : badKey s (cmdData s) true = false) (target : badTarget s (cmdData s) = false)
include key target

theorem cmdInsert_checked : cmdInsert s = engineDo .command s.cls.learnQ.length (started 2 s) := by
  simp [cmdInsert, key, target]

theorem cmdInsert_acts {w : State} (ready : EngineReady s) (work : insertWork (started 2 s) = w)
    (done : w.cls.jobs = []) : cmdInsert s = w :=
  (cmdInsert_checked key target).trans (engineDo_command 2 ready work done)

theorem cmdUpdate_acts {w : State} (ready : EngineReady s) (work : updateWork (started 3 s) = w)
    (done : w.cls.jobs = []) : cmdUpdate s = w := by
  rw [cmdUpdate, if_neg (by simp [key]), if_neg (by simp [target]), engineDo_command 3 ready work done]

theorem cmdInsert_placed {i : Nat} (ready : EngineReady s) (new : findPeer s (eKey (cmdData s)) = none)
    (room : validCount s < clsLimit s) (free : freePlace s (peerBuckets s (eKey (insertedEntry s))).1 = some i) :
    let u := cmdInsert s;
    u.peerAt i = insertedEntry s ∧ (∀ j, j ≠ i → u.peerAt j = s.peerAt j) ∧
    CommandRuns { code := 2, out := placeOut i } u := by
  have work := insertWork_placed (s := started 2 s) (i := i)
    (by rw [cmdData_clsRun]; exact new) room (by rw [insertedEntry_clsRun]; exact free)
  rw [insertedEntry_clsRun] at work
  obtain ⟨here, others, runs, jobs⟩ := clsRun_setPeer (s := started 2 s) { code := 2, out := placeOut i } i
    (insertedEntry s) (HrnMsg.learn 0 (insertedEntry s))
  rw [cmdInsert_acts key target ready work (jobs.trans ready.jobs)]
  exact ⟨here, others, runs⟩

theorem cmdInsert_exists {i : Nat} (ready : EngineReady s) (found : findPeer s (eKey (cmdData s)) = some i) :
    let u := cmdInsert s; u.cls.peers = s.cls.peers ∧ CommandRuns { code := 2, result := 2 } u := by
  have work := insertWork_exists (s := started 2 s) (i := i) (by rw [cmdData_clsRun]; exact found)
  rw [cmdInsert_acts key target ready work ready.jobs]
  exact ⟨rfl, commandRuns_clsRun _⟩

/-- INSERT waits for a relocation, for learn requests before it and for a locked bucket (R281, R290; log entries 50 and
137). -/
theorem cmdInsert_waits (before : ∀ j ∈ s.cls.jobs, jobReady s j = false)
    (blocked : jobReady s ⟨.command, s.cls.learnQ.length⟩ = false) :
    let u := cmdInsert s;
    u.cls.peers = s.cls.peers ∧ u.cls.jobs = s.cls.jobs ++ [⟨.command, s.cls.learnQ.length⟩] ∧
    CommandRuns { code := 2, done := false } u := by
  rw [cmdInsert_checked key target, engineDo_waits]
  · exact ⟨rfl, rfl, commandRuns_clsRun _⟩
  · exact fun j hj => (jobReady_clsRun _ j).trans (before j hj)
  · exact (jobReady_clsRun _ _).trans blocked

theorem cmdUpdate_found {i : Nat} (ready : EngineReady s) (found : findPeer s (eKey (cmdData s)) = some i) :
    let u := cmdUpdate s;
    (∀ j, j ≠ i → u.peerAt j = s.peerAt j) ∧ u.peerAt i = updatedEntry s (s.peerAt i) ∧
    CommandRuns { code := 3, out := placeOut i } u := by
  have work := updateWork_found (s := started 3 s) (i := i) (by rw [cmdData_clsRun]; exact found)
  rw [updatedEntry_clsRun] at work
  obtain ⟨here, others, runs, jobs⟩ := clsRun_setPeer (s := started 3 s) { code := 3, out := placeOut i } i
    (updatedEntry s (s.peerAt i)) (HrnMsg.learn 1 (updatedEntry s (s.peerAt i)))
  rw [cmdUpdate_acts key target ready work (jobs.trans ready.jobs)]
  exact ⟨others, here, runs⟩

end

section
variable (key : badKey s (cmdData s) false = false) (ready : EngineReady s)
include key ready

theorem cmdDelete_acts {w : State} (work : deleteWork (started 4 s) = w) (done : w.cls.jobs = []) :
    cmdDelete s = w := by
  rw [cmdDelete, if_neg (by simp [key]), engineDo_command 4 ready work done]

theorem cmdDelete_found {i : Nat} (found : findPeer s (eKey (cmdData s)) = some i) :
    let u := cmdDelete s;
    u.peerAt i = zeros 64 ∧ (∀ j, j ≠ i → u.peerAt j = s.peerAt j) ∧ CommandRuns { code := 4 } u := by
  have work := deleteWork_found (s := started 4 s) (i := i) (by rw [cmdData_clsRun]; exact found)
  have places := peerAt_clearPlaces (s := started 4 s) [i]
  rw [cmdDelete_acts key ready work ((placesOnly_clearPlaces _).jobs.trans ready.jobs)]
  exact ⟨(places i).trans (by simp), fun j ne => (places j).trans (by simp [ne]), commandRuns_clsRun _⟩

theorem cmdDelete_missing (missing : findPeer s (eKey (cmdData s)) = none) :
    let u := cmdDelete s; u.cls.peers = s.cls.peers ∧ CommandRuns { code := 4, result := 1 } u := by
  have work := deleteWork_missing (s := started 4 s) (by rw [cmdData_clsRun]; exact missing)
  rw [cmdDelete_acts key ready work ready.jobs]
  exact ⟨rfl, commandRuns_clsRun _⟩

end

end Sys2Proof.Machine
end

section
/-! SUPPORT. Walks, the table of prefixes and the completion of the classifier's commands (R274, R276, R287, R288). -/

namespace Sys2Proof.Machine

variable {s t u : State}

/-! ## Walks (R287) -/

theorem cmdAgeSweep_walks (spans : spanArgOk s = true)
    (age : s.rd (Reg.CLS_CMD_ARG 1) = 0 ∨ 16 ≤ s.rd (Reg.CLS_CMD_ARG 1) ∧ s.rd (Reg.CLS_CMD_ARG 1) ≤ 1000000) :
    cmdAgeSweep s = clsRun { code := 5, bucket := some 0, done := false } s := by
  simp only [cmdAgeSweep, spans, Bool.true_and]
  exact if_pos (by simpa using age)

theorem cmdFlush_walks (spans : spanArgOk s = true) (flags : s.rd (Reg.CLS_CMD_ARG 1) < 2) :
    cmdFlush s = clsRun { code := 6, bucket := some 0, done := false } s := by
  simp [cmdFlush, spans, flags]

theorem cmdAgeSweep_refused (spans : spanArgOk s = false) : cmdAgeSweep s = clsDone 5 9 0 s := by
  simp [cmdAgeSweep, spans]

theorem cmdFlush_refused (spans : spanArgOk s = false) : cmdFlush s = clsDone 6 9 0 s := by
  simp [cmdFlush, spans]

/-! ## The table of prefixes (R274, R276) -/

/-- The entry at an index of the table of prefixes. -/
def prefixAt (s : State) (i : Nat) : Option PrefixEntry := Tbl.get (fun _ => none) s.cls.prefixes i

theorem prefixAt_setPrefix (i j : Nat) (e : Option PrefixEntry) :
    prefixAt (setPrefix i e s) j = if j = i then e else prefixAt s j := Tbl.get_set ..

/-- Entries moved up leave those below alone. -/
theorem prefixShift_below (n : Nat) {i j : Nat} (e : PrefixEntry) (h : j < i) :
    prefixAt (prefixShift n i e s) j = prefixAt s j := by
  induction n generalizing i e s with
  | zero => rfl
  | succ n ih =>
    have put : prefixAt (setPrefix i (some e) s) j = prefixAt s j := (prefixAt_setPrefix ..).trans (if_neg h.ne)
    unfold prefixShift
    split
    · exact put
    · exact (ih _ (Nat.lt_succ_of_lt h)).trans put

/-- An entry placed where others move up stands at its index. -/
theorem prefixShift_here {n : Nat} (pos : 0 < n) (i : Nat) (e : PrefixEntry) :
    prefixAt (prefixShift n i e s) i = some e := by
  have put : prefixAt (setPrefix i (some e) s) i = some e := (prefixAt_setPrefix ..).trans (if_pos rfl)
  obtain ⟨n, rfl⟩ := Nat.exists_eq_succ_of_ne_zero pos.ne'
  unfold prefixShift
  split
  · exact put
  · exact (prefixShift_below n _ (Nat.lt_succ_self i)).trans put

/-- Entries moved down leave those above alone. -/
theorem prefixShiftDown_above (n : Nat) {i j : Nat} (e : PrefixEntry) (h : i < j) :
    prefixAt (prefixShiftDown n i e s) j = prefixAt s j := by
  induction n generalizing i e s with
  | zero => rfl
  | succ n ih =>
    have put : prefixAt (setPrefix i (some e) s) j = prefixAt s j := (prefixAt_setPrefix ..).trans (if_neg h.ne')
    unfold prefixShiftDown
    split
    · exact put
    · exact (ih _ (Nat.lt_of_le_of_lt (Nat.sub_le ..) h)).trans put

/-- An entry placed where others move down stands at its index, unless that is an index 0 already taken. -/
theorem prefixShiftDown_here {n : Nat} (pos : 0 < n) {i : Nat} (e : PrefixEntry) (free : i ≠ 0 ∨ prefixAt s 0 = none) :
    prefixAt (prefixShiftDown n i e s) i = some e := by
  have put : prefixAt (setPrefix i (some e) s) i = some e := (prefixAt_setPrefix ..).trans (if_pos rfl)
  obtain ⟨n, rfl⟩ := Nat.exists_eq_succ_of_ne_zero pos.ne'
  unfold prefixShiftDown
  split
  case h_1 => exact put
  case h_2 old taken =>
    have above : i ≠ 0 := by
      rintro rfl
      exact absurd (taken.symm.trans (free.resolve_left (absurd rfl))) (by simp)
    exact (prefixShiftDown_above n _ (Nat.sub_one_lt above)).trans put

theorem Tbl.mem_keys_of_find {α : Type} {t : Tbl α} {n : Nat} (h : (Tbl.find t n).isSome = true) :
    n ∈ t.map Prod.fst := by
  induction t with
  | nil => cases h
  | cons e t ih =>
    obtain ⟨k, v⟩ := e
    by_cases hk : k = n
    · exact List.mem_cons.mpr (.inl hk.symm)
    · simp only [Tbl.find, hk, if_false] at h
      exact List.mem_cons_of_mem _ (ih h)

/-- A table with an entry under each of `n` keys has `n` entries at least. -/
theorem Tbl.length_ge_of_find {α : Type} {t : Tbl α} {n : Nat} (h : ∀ k < n, (Tbl.find t k).isSome = true) :
    n ≤ t.length := by
  have keys : List.range n ⊆ t.map Prod.fst := fun k hk => Tbl.mem_keys_of_find (h k (List.mem_range.mp hk))
  simpa using (List.nodup_range.subperm keys).length_le

/-- From the index where an entry belongs, the entries move up where there is room above, and else down. -/
theorem prefixInsertAt_cases (e : PrefixEntry) : ∃ i, prefixInsertAt e s =
    if (List.range (32768 - i)).any (fun k => (Tbl.find s.cls.prefixes (i + k)).isNone)
    then (prefixShift 32768 i e s, i)
    else (prefixShiftDown 32768 (i - 1) e s, i - 1) := ⟨_, rfl⟩

/-- An insert into a table that is not full puts the entry at the index it answers (R274, R276). -/
theorem prefixInsertAt_here (e : PrefixEntry) (room : s.cls.prefixes.length < 32768) :
    prefixAt (prefixInsertAt e s).1 (prefixInsertAt e s).2 = some e := by
  obtain ⟨i, placed⟩ := prefixInsertAt_cases (s := s) e
  rw [placed]
  split
  case isTrue => exact prefixShift_here (by decide) i e
  case isFalse full =>
    refine prefixShiftDown_here (by decide) e ?_
    by_contra taken
    obtain ⟨first, held⟩ := not_or.mp taken
    have above : ∀ k < 32768 - i, (Tbl.find s.cls.prefixes (i + k)).isSome = true := by
      simpa [Option.isSome_iff_ne_none] using full
    refine absurd (Tbl.length_ge_of_find (t := s.cls.prefixes) (n := 32768) fun k hk => ?_) (Nat.not_le.mpr room)
    by_cases low : k < i
    · have zero : k = 0 := by omega
      by_contra missing
      exact held (by rw [prefixAt, Tbl.get, ← zero, Option.not_isSome_iff_eq_none.mp missing])
    · rw [← Nat.add_sub_cancel' (Nat.not_lt.mp low)]
      exact above _ (by omega)

theorem cmdPrefixInsert_bad (bad : prefixBad s = true) : cmdPrefixInsert s = clsDone 7 7 0 s := by
  simp [cmdPrefixInsert, bad]

/-- A command that writes the index `i`: it holds what was written, and the command runs. -/
theorem clsDone_setPrefix (n i : Nat) (e : Option PrefixEntry) : let u := clsDone n 0 i (setPrefix i e s);
    prefixAt u i = e ∧ CommandRuns { code := n, out := i } u :=
  ⟨Tbl.get_set_same .., commandRuns_clsRun _⟩

theorem cmdPrefixInsert_replaces {i : Nat} (good : prefixBad s = false)
    (found : findPrefix s (prefixArgs s).key (prefixArgs s).mask = some i) : let u := cmdPrefixInsert s;
    prefixAt u i = some (prefixArgs s) ∧ CommandRuns { code := 7, out := i } u := by
  have replaced : cmdPrefixInsert s = clsDone 7 0 i (setPrefix i (some (prefixArgs s)) s) := by
    simp [cmdPrefixInsert, good, found]
  rw [replaced]
  exact clsDone_setPrefix ..

theorem cmdPrefixInsert_places (good : prefixBad s = false)
    (new : findPrefix s (prefixArgs s).key (prefixArgs s).mask = none) (room : s.cls.prefixes.length < 32768) :
    let u := cmdPrefixInsert s; ∃ i, prefixAt u i = some (prefixArgs s) ∧ CommandRuns { code := 7, out := i } u := by
  have placed : cmdPrefixInsert s =
      clsDone 7 0 (prefixInsertAt (prefixArgs s) s).2 (prefixInsertAt (prefixArgs s) s).1 := by
    simp [cmdPrefixInsert, good, new, Nat.not_le.mpr room]
  have here := prefixInsertAt_here (prefixArgs s) room
  rw [placed]
  generalize prefixInsertAt (prefixArgs s) s = x at here
  exact ⟨x.2, here, commandRuns_clsRun _⟩

theorem cmdPrefixDelete_found {i : Nat} (found : findPrefix s (prefixArgs s).key (prefixArgs s).mask = some i) :
    let u := cmdPrefixDelete s; prefixAt u i = none ∧ CommandRuns { code := 8, out := i } u := by
  rw [prefixArgs] at found
  rw [cmdPrefixDelete, found]
  exact clsDone_setPrefix ..

theorem cmdPrefixDelete_missing (missing : findPrefix s (prefixArgs s).key (prefixArgs s).mask = none) :
    cmdPrefixDelete s = clsDone 8 1 0 s := by
  rw [prefixArgs] at missing
  rw [cmdPrefixDelete, missing]

/-! ## Words and bytes (R6) -/

theorem leBytes_leNat (bs : Bytes) : leBytes bs.length (leNat bs) = bs := by
  induction bs with
  | nil => rfl
  | cons b bs ih =>
    have byte := b.isLt
    have low : BitVec.ofNat 8 (b.toNat + 256 * leNat bs) = b := BitVec.eq_of_toNat_eq (by simp; omega)
    have rest : (b.toNat + 256 * leNat bs) / 256 = leNat bs := by omega
    rw [List.length_cons, leNat, leBytes, low, rest, ih]

/-- The words of a byte string, one after another, are the string. -/
theorem flatMap_words (bs : Bytes) (n : Nat) :
    (List.range n).flatMap (fun i => slice bs (4 * i) 4) = bs.take (4 * n) := by
  induction n with
  | zero => rfl
  | succ n ih =>
    rw [List.range_succ, List.flatMap_append, ih, List.flatMap_singleton, slice, Nat.mul_succ, List.take_add]

/-- Registers read as the bytes last written to them. -/
theorem rdBytes_wrBytes (a : Nat) {n : Nat} {bs : Bytes} (len : bs.length = 4 * n) :
    (s.wrBytes a bs).rdBytes a n = bs := by
  have words : bs.length / 4 = n := by omega
  have word {i : Nat} (h : i < n) : leBytes 4 ((s.wrBytes a bs).rd (a + 4 * i)) = slice bs (4 * i) 4 := by
    have four : (slice bs (4 * i) 4).length = 4 := by
      rw [slice, List.length_take, List.length_drop]
      omega
    have fits : leAt bs (4 * i) 4 < 2 ^ 32 := (leNat_lt _).trans_le (by rw [four]; decide)
    rw [State.wrBytes, words, rd_foldl_wr (f := fun i => a + 4 * i) (g := fun i => leAt bs (4 * i) 4)
      (fun _ _ _ _ e => by omega) (List.mem_range.mpr h), Nat.mod_eq_of_lt fits, leAt]
    have whole := leBytes_leNat (slice bs (4 * i) 4)
    rwa [four] at whole
  calc (s.wrBytes a bs).rdBytes a n
      = (List.range n).flatMap (fun i => slice bs (4 * i) 4) :=
        List.flatMap_congr fun i hi => word (List.mem_range.mp hi)
    _ = bs := by rw [flatMap_words, ← len, List.take_length]

/-! ## Completion (R288) -/

/-- The command is over, and after a LOOKUP that found its entry DATA holds it. -/
def commandOver (c : ClsCmd) (s : State) : State :=
  let s := { s with cls := { s.cls with cmd := none } }
  if c.code = 1 ∧ c.result = 0 then s.wrBytes (Reg.CLS_CMD_DATA 0) c.data else s

/-- What a completion shows beside: RESULT, CLS_CMD_OUT, and BUSY at 0. -/
def completed (c : ClsCmd) (s : State) : State :=
  (((commandOver c s).wrF Reg.CLS_CMD_STATUS 8 8 c.result).wr Reg.CLS_CMD_OUT c.out).setBit Reg.CLS_CMD_STATUS 0 false

theorem clsComplete_done {c : ClsCmd} (running : s.cls.cmd = some c) (done : c.done = true) :
    clsComplete s = raiseVector 3 (completed c s) := by
  rw [clsComplete, running]
  exact if_neg (by simp [done])

theorem State.wrBytes_cls (a : Nat) (bs : Bytes) : (s.wrBytes a bs).cls = s.cls :=
  List.foldlRecOn (motive := fun t : State => t.cls = s.cls) _ _ rfl fun _ h _ _ => h

theorem completed_cls (c : ClsCmd) : (completed c s).cls = { s.cls with cmd := none } := by
  have ended : (commandOver c s).cls = { s.cls with cmd := none } := by
    unfold commandOver
    dsimp only
    split
    · exact State.wrBytes_cls ..
    · rfl
  exact ended

theorem completed_shown (c : ClsCmd) : let u := completed c s;
    u.bit Reg.CLS_CMD_STATUS 0 = false ∧ u.rdF Reg.CLS_CMD_STATUS 8 8 = c.result % 256 ∧
    u.rd Reg.CLS_CMD_OUT = c.out % 2 ^ 32 := by
  refine ⟨State.bit_setBit_same _ _ _ _ (by decide), ?_,
    (State.rd_setBit_ne _ _ _ (by decide)).trans (State.rd_wr_same ..)⟩
  exact (State.rdF_wrF_off _ _ _ _ _ (by decide) (by decide)).trans <|
    (State.rdF_wr_ne _ _ _ _ (by decide)).trans (State.rdF_wrF_same _ _ _ _ _ (by decide))

theorem cmdData_completed {c : ClsCmd} (lookup : c.code = 1) (found : c.result = 0) (len : c.data.length = 64) :
    cmdData (completed c s) = c.data := by
  have ended : cmdData (commandOver c s) = c.data := by
    rw [commandOver, if_pos ⟨lookup, found⟩]
    exact rdBytes_wrBytes _ len
  refine .trans (rdBytes_of_rd fun i hi => ?_) ended
  rw [completed, State.rd_setBit_ne _ _ _ (cmdData_ne hi (by decide)), State.rd_wr_ne _ _ (cmdData_ne hi (by decide)),
    State.rd_wrF_ne _ _ _ _ (cmdData_ne hi (by decide))]

theorem cmdData_raiseVector (v : Nat) : cmdData (raiseVector v s) = cmdData s :=
  have apart : ∀ a ∈ postedRegs, a < 0x180040 ∨ 0x180080 ≤ a := by decide
  rdBytes_of_rd fun _ hi => (posts_raiseVector v).regs _ fun posted => cmdData_ne hi (apart _ posted) rfl

/-- A finished command completes: what is shown stays through the raising of vector 3. -/
theorem clsComplete_shows {c : ClsCmd} (running : s.cls.cmd = some c) (done : c.done = true) :
    let u := clsComplete s;
    u.cls.cmd = none ∧ u.bit Reg.CLS_CMD_STATUS 0 = false ∧ u.rdF Reg.CLS_CMD_STATUS 8 8 = c.result % 256 ∧
    u.rd Reg.CLS_CMD_OUT = c.out % 2 ^ 32 ∧ VectorRaised 3 u ∧ u.cls.peers = s.cls.peers ∧
    (c.code = 1 → c.result = 0 → c.data.length = 64 → cmdData u = c.data) := by
  obtain ⟨busy, result, out⟩ := completed_shown (s := s) c
  have posts : Posts (completed c s) (raiseVector 3 (completed c s)) := posts_raiseVector 3
  have cls : (raiseVector 3 (completed c s)).cls = { s.cls with cmd := none } :=
    .trans (by rw [posts.rest]) (completed_cls c)
  have status := posts.regs Reg.CLS_CMD_STATUS (by decide)
  rw [clsComplete_done running done]
  refine ⟨by rw [cls], (congrArg (Nat.testBit · 0) status).trans busy, (congrArg (field · 8 8) status).trans result,
    (posts.regs _ (by decide)).trans out, sendVector_sent 3, by rw [cls], fun lookup found len => ?_⟩
  exact (cmdData_raiseVector 3).trans (cmdData_completed lookup found len)

/-! ## The statement -/

theorem clsCommand_idle (idle : clsBusy s = false) :
    clsCommand 1 s = cmdLookup s ∧ clsCommand 2 s = cmdInsert s ∧ clsCommand 3 s = cmdUpdate s ∧
    clsCommand 4 s = cmdDelete s ∧ clsCommand 5 s = cmdAgeSweep s ∧ clsCommand 6 s = cmdFlush s ∧
    clsCommand 7 s = cmdPrefixInsert s ∧ clsCommand 8 s = cmdPrefixDelete s := by
  have free : ¬clsBusy s = true := by simp [idle]
  exact ⟨if_neg free, if_neg free, if_neg free, if_neg free, if_neg free, if_neg free, if_neg free, if_neg free⟩

/-- A command written to CLS_CMD answers what it acts as. -/
theorem answers_clsCommand {i : Instr} {n : Nat} {w : State} {P : State → Prop} (served : Served s Reg.CLS_CMD)
    (acts : clsCommand n s.fresh = w) (e : exec i s = powered (hostWrite Reg.CLS_CMD (clsCommand n)) s) (p : P w) :
    Answers i s P := answers_hostWrite served e (acts ▸ p)

/-- Settles O42: a command while one runs, each command with what it finds, and the completion. -/
theorem classifierCommandsActAndComplete : Obligations.ClassifierCommandsActAndComplete := by
  unfold Obligations.ClassifierCommandsActAndComplete
  intro s
  refine ⟨fun served busy c row => ?busy, fun served idle => ?idle, fun c core running done => ?complete⟩
  case busy =>
    rcases row with row | ⟨k, rfl, code⟩
    · obtain ⟨n, meaning⟩ := exec_clsCommand (s := s) row
      exact answers_hostWrite served meaning (clsCommand_ignored (s := s.fresh) busy n)
    · exact answers_hostWrite served (exec_clsBadCode code) (clsCommand_ignored (s := s.fresh) busy _)
  case idle =>
    obtain ⟨lookup, insert, update, delete, sweep, flush, prefixIn, prefixOut⟩ := clsCommand_idle (s := s.fresh) idle
    have ready : s.cls.relocated = [] ∧ s.cls.learnQ = [] ∧ s.cls.jobs = [] ∧ keyLocked s (eKey (cmdData s)) = false →
        EngineReady s.fresh := fun ⟨relocated, learnQ, jobs, unlocked⟩ => ⟨relocated, learnQ, jobs, unlocked⟩
    refine ⟨?lookup, fun i key target new free room place => ?placed, fun bad => ?badKey,
      fun key target before blocked => ?waits, fun i key target found free => ⟨?present, ?updated⟩,
      fun i key found free => ?deleted, fun key missing free => ?missing, ⟨fun spans age => ?sweep,
        fun spans flags => ?flush, fun spans => ⟨?sweepRefused, ?flushRefused⟩⟩,
      ⟨fun bad => ?prefixBad, fun i good found => ?replaced, fun good new room => ?prefixed, fun i found => ?dropped,
        fun missing => ?prefixMissing⟩, fun k code => ?undefined⟩
    case lookup => exact answers_clsCommand served lookup rfl (cmdLookup_runs (s := s.fresh))
    case placed =>
      exact answers_clsCommand served insert rfl
        (cmdInsert_placed (s := s.fresh) key target (ready free) new room place)
    case badKey => exact answers_clsCommand served (insert.trans (if_pos bad)) rfl ⟨rfl, commandRuns_clsRun _⟩
    case waits => exact answers_clsCommand served insert rfl (cmdInsert_waits (s := s.fresh) key target before blocked)
    case present =>
      exact answers_clsCommand served insert rfl (cmdInsert_exists (s := s.fresh) key target (ready free) found)
    case updated =>
      exact answers_clsCommand served update rfl (cmdUpdate_found (s := s.fresh) key target (ready free) found)
    case deleted => exact answers_clsCommand served delete rfl (cmdDelete_found (s := s.fresh) key (ready free) found)
    case missing =>
      exact answers_clsCommand served delete rfl (cmdDelete_missing (s := s.fresh) key (ready free) missing)
    case sweep => exact answers_clsCommand served (sweep.trans (cmdAgeSweep_walks spans age)) rfl (commandRuns_clsRun _)
    case flush => exact answers_clsCommand served (flush.trans (cmdFlush_walks spans flags)) rfl (commandRuns_clsRun _)
    case sweepRefused =>
      exact answers_clsCommand served (sweep.trans (cmdAgeSweep_refused spans)) rfl (commandRuns_clsRun _)
    case flushRefused =>
      exact answers_clsCommand served (flush.trans (cmdFlush_refused spans)) rfl (commandRuns_clsRun _)
    case prefixBad =>
      exact answers_clsCommand served (prefixIn.trans (cmdPrefixInsert_bad bad)) rfl ⟨rfl, commandRuns_clsRun _⟩
    case replaced => exact answers_clsCommand served prefixIn rfl (cmdPrefixInsert_replaces (s := s.fresh) good found)
    case prefixed => exact answers_clsCommand served prefixIn rfl (cmdPrefixInsert_places (s := s.fresh) good new room)
    case dropped => exact answers_clsCommand served prefixOut rfl (cmdPrefixDelete_found (s := s.fresh) found)
    case prefixMissing =>
      exact answers_clsCommand served (prefixOut.trans (cmdPrefixDelete_missing missing)) rfl
        ⟨rfl, commandRuns_clsRun _⟩
    case undefined =>
      exact answers_clsCommand served (clsCommand_undefined (s := s.fresh) idle code) (exec_clsBadCode code)
        (commandRuns_clsRun _)
  case complete => exact answers_powered core (f := clsComplete) rfl (clsComplete_shows (s := s.fresh) running done)

end Sys2Proof.Machine
end

section
/-! SUPPORT. The learn engine, the ager and the walks: how the oldest request is committed, and which entries of a
bucket are removed (R281 to R287, R290). -/

namespace Sys2Proof.Machine

variable {s t u : State}

/-! ## Learn requests (R281, R282) -/

/-- The engine is free, no work waits for it, and the oldest request meets no locked bucket. -/
structure LearnReady (r : LearnReq) (rest : List LearnReq) (s : State) : Prop where
  relocated : s.cls.relocated = []
  jobs : s.cls.jobs = []
  queue : s.cls.learnQ = r :: rest
  unlocked : reqLocked s r = false

@[simp] theorem dropReq_learnQ : (dropReq s).cls.learnQ = s.cls.learnQ.tail := rfl

theorem dropReq_jobs (h : s.cls.jobs = []) : (dropReq s).cls.jobs = [] := congrArg (List.map _) h

theorem dropReq_rd {a : Nat} (h : a ∉ sizeRegs) : (dropReq s).rd a = s.rd a := syncCls_rd h

theorem Posts.cls (h : Posts s t) : t.cls = s.cls := by rw [h.rest]

theorem clsEvent_cls (b : Nat) : (clsEvent b s).cls = s.cls :=
  (posts_raiseEvent 0x07 b 0).cls.trans (State.setBit_cls ..)

/-- What a conflict or failure notes is its registers and its event. -/
theorem clsLast_cls (b lp type vid : Nat) (mac : Bytes) : (clsLast b lp type vid mac s).cls = s.cls := by
  rw [clsLast, clsEvent_cls, State.wr_cls, State.wr_cls, State.wr_cls]

theorem clsLast_rd {a b lp type vid : Nat} {mac : Bytes} (host : hostIfReg a = false)
    (h : a ∉ [Reg.CLS_LAST, Reg.CLS_LAST_MAC_LO, Reg.CLS_LAST_MAC_HI, Reg.CLS_EVT]) :
    (clsLast b lp type vid mac s).rd a = s.rd a := by
  simp only [List.mem_cons, List.not_mem_nil, or_false, not_or] at h
  obtain ⟨last, lo, hi, event⟩ := h
  exact (raiseEvent_rd (src := 0x07) b 0 host event).trans <|
    (State.rd_wr_ne _ _ hi).trans <| (State.rd_wr_ne _ _ lo).trans (State.rd_wr_ne _ _ last)

/-- A request that can be committed is: `w` is what its commit leaves. -/
theorem learnCommit_commits {r : LearnReq} {rest : List LearnReq} {w : State} (ready : LearnReady r rest s)
    (commits : commitReq r s = w) (done : w.cls.jobs = []) : learnCommit s = w := by
  obtain ⟨relocated, jobs, queue, unlocked⟩ := ready
  have head : learnHead s = w := by
    rw [learnHead, queue, ← commits]
    exact if_pos (by simp [unlocked])
  rw [learnCommit, if_pos (by simp [engineFree, relocated]), head, engineGo_idle done]

/-- The entry of a station, as a request gives it. -/
def learnedEntry (r : LearnReq) (moves : Nat) (user : Bytes) (s : State) : Bytes :=
  mkEntry (1 + 2 * b2n r.client) r.port r.vid r.mac (s.rd Reg.CLS_AGE_NOW) r.target r.rxsc (s.rd (Reg.TB_NS 0)) moves
    user

/-- A request whose commit writes one place: the place holds the entry, no other changed, and the request is gone. -/
theorem learnCommit_writes {r : LearnReq} {rest : List LearnReq} {w : State} (ready : LearnReady r rest s)
    (commits : commitReq r s = w) (same : t.cls = s.cls) (i : Nat) (e : Bytes)
    (cls : w.cls = (dropReq (t.setPeer i e)).cls) :
    learnCommit s = w ∧ w.peerAt i = e ∧ w.cls.learnQ = rest ∧ ∀ j, j ≠ i → w.peerAt j = s.peerAt j := by
  have only := placesOnly_setPeer (s := t) i e
  have places (j : Nat) : w.peerAt j = if j = i then e else s.peerAt j :=
    (peerAt_of_peers (congrArg ClsState.peers cls) j).trans <|
      (peerAt_setPeer i j e).trans (by rw [peerAt_of_peers (congrArg ClsState.peers same) j])
  refine ⟨learnCommit_commits ready commits ?_, (places i).trans (if_pos rfl), ?_,
    fun j ne => (places j).trans (if_neg ne)⟩
  · rw [cls, dropReq_jobs (by rw [only.jobs, same, ready.jobs])]
  · rw [cls, dropReq_learnQ, only.learnQ, same, ready.queue, List.tail_cons]

section
variable {r : LearnReq} {rest : List LearnReq} {i : Nat}

theorem commitReq_new {e : Bytes} (entry : e = learnedEntry r 0 (zeros 40) s)
    (new : findPeer s (peerKey r.port r.vid r.mac) = none) (room : validCount s < clsLimit s)
    (free : freePlace s (peerBuckets s (eKey e)).1 = some i) :
    commitReq r s = (dropReq ((s.setPeer i e).bump Reg.CLS_LEARNS)).mirror (HrnMsg.learn 0 e) := by
  have placed := peerInsert_placed room free
  rw [commitReq]
  dsimp only
  rw [new]
  dsimp only
  rw [← learnedEntry, ← entry, placed]

/-- A station that is not in the table gets an entry in the lowest free place of its first bucket (R283). -/
theorem learnCommit_new {e : Bytes} (ready : LearnReady r rest s) (entry : e = learnedEntry r 0 (zeros 40) s)
    (new : findPeer s (peerKey r.port r.vid r.mac) = none) (room : validCount s < clsLimit s)
    (free : freePlace s (peerBuckets s (eKey e)).1 = some i) :
    let u := learnCommit s;
    u.peerAt i = e ∧ (∀ j, j ≠ i → u.peerAt j = s.peerAt j) ∧ u.cls.learnQ = rest ∧
    u.rd Reg.CLS_LEARNS = min (s.rd Reg.CLS_LEARNS + 1) 0xFFFFFFFF := by
  obtain ⟨is, here, queue, others⟩ := learnCommit_writes ready (commitReq_new entry new room free) rfl i e rfl
  rw [is]
  refine ⟨here, others, queue, (dropReq_rd (by decide)).trans ((State.rd_bump_same ..).trans ?_)⟩
  rw [(placesOnly_setPeer i e).regs _ (by decide)]

variable (found : findPeer s (peerKey r.port r.vid r.mac) = some i)
include found

/-- How the entry found of a station is committed (R282). -/
theorem commitReq_found : commitReq r s =
    if eFlag (s.peerAt i) 2 then
      dropReq (if eFlag (s.peerAt i) 1 = r.client ∧ eTarget (s.peerAt i) = r.target then s
        else s.bump Reg.CLS_STATIC_HITS)
    else if eFlag (s.peerAt i) 1 = r.client ∧ eTarget (s.peerAt i) = r.target then
      let e := splice (s.peerAt i) 10 (leBytes 2 (s.rd Reg.CLS_AGE_NOW))
      (dropReq (s.setPeer i e)).mirror (HrnMsg.learn 1 e)
    else if holdDown s (s.peerAt i) then
      let e := splice (s.peerAt i) 0 (leBytes 1 (byteAt (s.peerAt i) 0 ||| 8))
      (dropReq ((clsLast 0 r.port (b2n r.client) r.vid r.mac (s.bump Reg.CLS_CONFLICTS)).setPeer i e)).mirror
        (HrnMsg.learn 1 e)
    else
      let e := learnedEntry r (min (leAt (s.peerAt i) 20 4 + 1) 0xFFFFFFFF) (slice (s.peerAt i) 24 40) s
      ((dropReq (s.setPeer i e)).bump Reg.CLS_MOVES).mirror (HrnMsg.learn 1 e) := by
  rw [commitReq]
  dsimp only
  rw [found]
  simp only [Bool.and_eq_true, beq_iff_eq]
  rfl

/-- A request that would change a STATIC entry is counted, and the table stays. -/
theorem learnCommit_static (ready : LearnReady r rest s) (static : eFlag (s.peerAt i) 2 = true)
    (moved : ¬(eFlag (s.peerAt i) 1 = r.client ∧ eTarget (s.peerAt i) = r.target)) : let u := learnCommit s;
    u.cls.peers = s.cls.peers ∧ u.cls.learnQ = rest ∧
    u.rd Reg.CLS_STATIC_HITS = min (s.rd Reg.CLS_STATIC_HITS + 1) 0xFFFFFFFF := by
  have commits : commitReq r s = dropReq (s.bump Reg.CLS_STATIC_HITS) := by
    rw [commitReq_found found, if_pos static, if_neg moved]
  rw [learnCommit_commits ready commits (dropReq_jobs ready.jobs)]
  exact ⟨rfl, congrArg List.tail ready.queue, (dropReq_rd (by decide)).trans (State.rd_bump_same ..)⟩

/-- A known station that has not moved gets a new STAMP. -/
theorem learnCommit_same (ready : LearnReady r rest s) (dynamic : eFlag (s.peerAt i) 2 = false)
    (same : eFlag (s.peerAt i) 1 = r.client ∧ eTarget (s.peerAt i) = r.target) : let u := learnCommit s;
    u.peerAt i = splice (s.peerAt i) 10 (leBytes 2 (s.rd Reg.CLS_AGE_NOW)) ∧ u.cls.learnQ = rest ∧
    ∀ j, j ≠ i → u.peerAt j = s.peerAt j := by
  have commits := commitReq_found found
  rw [if_neg (by simp [dynamic]), if_pos same] at commits
  obtain ⟨is, written⟩ := learnCommit_writes ready commits rfl i _ rfl
  rw [is]
  exact written

/-- A station that moved within its hold-down is CONTESTED, and the conflict is counted. -/
theorem learnCommit_contested (ready : LearnReady r rest s) (dynamic : eFlag (s.peerAt i) 2 = false)
    (moved : ¬(eFlag (s.peerAt i) 1 = r.client ∧ eTarget (s.peerAt i) = r.target))
    (held : holdDown s (s.peerAt i) = true) : let u := learnCommit s;
    u.peerAt i = splice (s.peerAt i) 0 (leBytes 1 (byteAt (s.peerAt i) 0 ||| 8)) ∧ u.cls.learnQ = rest ∧
    u.rd Reg.CLS_CONFLICTS = min (s.rd Reg.CLS_CONFLICTS + 1) 0xFFFFFFFF := by
  have commits := commitReq_found found
  rw [if_neg (by simp [dynamic]), if_neg moved, if_pos held] at commits
  have table := clsLast_cls (s := s.bump Reg.CLS_CONFLICTS) 0 r.port (b2n r.client) r.vid r.mac
  have counted : (clsLast 0 r.port (b2n r.client) r.vid r.mac (s.bump Reg.CLS_CONFLICTS)).rd Reg.CLS_CONFLICTS =
      min (s.rd Reg.CLS_CONFLICTS + 1) 0xFFFFFFFF := (clsLast_rd (by decide) (by decide)).trans (State.rd_bump_same ..)
  generalize clsLast 0 r.port (b2n r.client) r.vid r.mac (s.bump Reg.CLS_CONFLICTS) = t at commits table counted
  obtain ⟨is, here, queue, -⟩ := learnCommit_writes ready commits table i _ rfl
  rw [is]
  refine ⟨here, queue, (dropReq_rd (by decide)).trans (.trans ?_ counted)⟩
  exact (placesOnly_setPeer i _).regs _ (by decide)

/-- A station that moved after its hold-down moves, and the move is counted. -/
theorem learnCommit_moved (ready : LearnReady r rest s) (dynamic : eFlag (s.peerAt i) 2 = false)
    (moved : ¬(eFlag (s.peerAt i) 1 = r.client ∧ eTarget (s.peerAt i) = r.target))
    (past : holdDown s (s.peerAt i) = false) : let u := learnCommit s;
    u.peerAt i = learnedEntry r (min (leAt (s.peerAt i) 20 4 + 1) 0xFFFFFFFF) (slice (s.peerAt i) 24 40) s ∧
    u.cls.learnQ = rest ∧ u.rd Reg.CLS_MOVES = min (s.rd Reg.CLS_MOVES + 1) 0xFFFFFFFF := by
  have commits := commitReq_found found
  rw [if_neg (by simp [dynamic]), if_neg moved, if_neg (by simp [past])] at commits
  generalize learnedEntry r _ _ s = e at commits ⊢
  obtain ⟨is, here, queue, -⟩ := learnCommit_writes ready commits rfl i _ rfl
  rw [is]
  refine ⟨here, queue, (State.rd_bump_same ..).trans ?_⟩
  rw [dropReq_rd (by decide), (placesOnly_setPeer i _).regs _ (by decide)]

end

/-! ## Entries that go (R283, R285, R287) -/

/-- The entries of a bucket that `p` names, and no others, are removed. -/
theorem peerAt_clearBucket (b : Nat) (p : Bytes → Bool) (i : Nat) :
    (clearPlaces (bucketPlaces s b p) s).peerAt i =
      if i / 8 = b ∧ eFlag (s.peerAt i) 0 = true ∧ p (s.peerAt i) = true then zeros 64 else s.peerAt i := by
  rw [peerAt_clearPlaces]
  simp only [mem_bucketPlaces]

theorem agerWork_removes (b : Nat) : let u := agerWork b s; let old := expired s (ageTime s);
    (∀ i, u.peerAt i = if i / 8 = b ∧ eFlag (s.peerAt i) 0 = true ∧ old (s.peerAt i) = true then zeros 64
      else s.peerAt i) ∧
    u.rd Reg.CLS_AGED = min (s.rd Reg.CLS_AGED + (bucketPlaces s b old).length) 0xFFFFFFFF ∧
    u.cls.jobs = s.cls.jobs := by
  have only := placesOnly_clearPlaces (s := s) (bucketPlaces s b (expired s (ageTime s)))
  have places := peerAt_clearBucket (s := s) b (expired s (ageTime s))
  have small := s.rd_lt Reg.CLS_AGED
  unfold agerWork
  dsimp only
  split
  case isTrue kept =>
    rw [List.isEmpty_iff.mp kept] at places ⊢
    exact ⟨places, by simp only [List.length_nil]; omega, rfl⟩
  case isFalse =>
    exact ⟨places, (State.rd_bump_same ..).trans (by rw [only.regs _ (by decide)]), only.jobs⟩

theorem agerVisit_now {b : Nat} (kept : s.evr.rebuilding = false) (jobs : s.cls.jobs = [])
    (free : hostLocked s b = false) (relocated : s.cls.relocated = []) (queue : s.cls.learnQ = []) :
    agerVisit b s = agerWork b s := by
  obtain ⟨-, -, work⟩ := agerWork_removes (s := s) b
  rw [agerVisit, if_neg (by simp [kept])]
  exact engineDo_now jobs (by simp [jobReady, engineFree, relocated, queue, free]) (work.trans jobs)

/-- The visit to a bucket that the host has locked waits (R290; log entry 50). -/
theorem agerVisit_waits {b : Nat} (kept : s.evr.rebuilding = false) (jobs : s.cls.jobs = [])
    (held : hostLocked s b = true) :
    agerVisit b s = { s with cls := { s.cls with jobs := [⟨.visit b, s.cls.learnQ.length⟩] } } := by
  rw [agerVisit, if_neg (by simp [kept]), engineDo_waits (by simp [jobs]) (by simp [jobReady, held]), jobs,
    List.nil_append]

/-- The entries that the walk of a command removes: those of its spans, and of them the expired ones, or all, or those
that are not STATIC (R287). -/
def sweptBy (c : ClsCmd) (s : State) (e : Bytes) : Bool :=
  let arg := s.rd (Reg.CLS_CMD_ARG 1)
  ((bitsOf 32 (s.rd (Reg.CLS_CMD_ARG 0))).map (fun n => (spanCfg s n).line)).contains (eLp e) &&
    (if c.code = 5 then expired s (if arg = 0 then ageTime s else arg) e else arg.testBit 0 || !eFlag e 2)

theorem sweepBucket_removes {c : ClsCmd} {b : Nat} (running : s.cls.cmd = some c) (next : c.bucket = some b)
    (relocated : s.cls.relocated = []) (free : hostLocked s b = false) : let u := sweepBucket s;
    (∀ i, u.peerAt i = if i / 8 = b ∧ eFlag (s.peerAt i) 0 = true ∧ sweptBy c s (s.peerAt i) = true then zeros 64
      else s.peerAt i) ∧
    u.cls.cmd = some { c with out := c.out + (bucketPlaces s b (sweptBy c s)).length,
                              bucket := if b + 1 = clsBuckets s then none else some (b + 1),
                              done := decide (b + 1 = clsBuckets s) } := by
  have buckets : clsBuckets (clearPlaces (bucketPlaces s b (sweptBy c s)) s) = clsBuckets s := by
    rw [clsBuckets, clsLayout, (placesOnly_clearPlaces _).pat, clsBuckets, clsLayout]
  have sweeps : sweepBucket s = clsRun
      { c with out := c.out + (bucketPlaces s b (sweptBy c s)).length,
               bucket := if b + 1 = clsBuckets s then none else some (b + 1),
               done := decide (b + 1 = clsBuckets s) }
      (clearPlaces (bucketPlaces s b (sweptBy c s)) s) := by
    have unheld : ¬(!engineFree s || hostLocked s b) = true := by simp [engineFree, relocated, free]
    rw [sweepBucket, running]
    dsimp only
    rw [next]
    dsimp only
    rw [if_neg unheld, ← buckets]
    simp only [beq_iff_eq]
    rfl
  rw [sweeps]
  exact ⟨peerAt_clearBucket b _, rfl⟩

theorem relocateClear_clears {m : Nat × Nat} {rest : List (Nat × Nat)} (moved : s.cls.relocated = m :: rest)
    (cmd : s.cls.cmd = none) (queue : s.cls.learnQ = []) (jobs : s.cls.jobs = []) : let u := relocateClear s;
    u.peerAt m.1 = zeros 64 ∧ u.cls.relocated = rest ∧ ∀ j, j ≠ m.1 → u.peerAt j = s.peerAt j := by
  have only := placesOnly_setPeer (s := { s with cls := { s.cls with relocated := rest } }) m.1 (zeros 64)
  have places := peerAt_setPeer (s := { s with cls := { s.cls with relocated := rest } }) m.1 (e := zeros 64)
  have clears : relocateClear s = { s with cls := { s.cls with relocated := rest } }.setPeer m.1 (zeros 64) := by
    rw [relocateClear, moved]
    dsimp only
    generalize State.setPeer _ m.1 (zeros 64) = v at only
    rw [only.cmd, only.jobs, cmd, jobs]
    have idle : learnHead v = v := by rw [learnHead, only.learnQ, queue]
    rw [idle]
    exact engineGo_idle (only.jobs.trans jobs)
  rw [clears]
  exact ⟨(places _).trans (if_pos rfl), only.relocated, fun j ne => (places j).trans (if_neg ne)⟩

/-! ## The age time (R284) -/

theorem ageWrite_legal {v : Nat} (lo : 16 ≤ v % 2 ^ 20) (hi : v % 2 ^ 20 ≤ 1000000) : let u := ageWrite v s;
    u.rd Reg.CLS_AGE = v % 2 ^ 20 ∧ OnlyRegs [Reg.CLS_AGE] s u := by
  have wrote : ageWrite v s = s.wr Reg.CLS_AGE (v % 2 ^ 20) := if_pos ⟨lo, hi⟩
  rw [wrote]
  exact ⟨(State.rd_wr_same ..).trans (Nat.mod_eq_of_lt (by omega)), onlyRegs_wr _ (List.mem_singleton.mpr rfl)⟩

theorem ageWrite_refused {v : Nat} (out : v % 2 ^ 20 < 16 ∨ 1000000 < v % 2 ^ 20) : let u := ageWrite v s;
    u.bit Reg.CLS_STATUS 1 = true ∧ OnlyRegs [Reg.CLS_STATUS] s u := by
  have refused : ageWrite v s = s.setBit Reg.CLS_STATUS 1 true := if_neg (by omega)
  rw [refused]
  exact ⟨State.bit_setBit_same _ _ _ _ (by decide), onlyRegs_setBit _ _ (List.mem_singleton.mpr rfl)⟩

/-! ## The statement -/

/-- Settles O43: the oldest request by what it finds of its station, the visit of the ager, a walk, the end of a
relocation, and CLS_AGE. -/
theorem stationsAreLearnedAndAged : Obligations.StationsAreLearnedAndAged := by
  unfold Obligations.StationsAreLearnedAndAged
  intro s core
  refine ⟨fun r rest relocated jobs queue unlocked => ?learn, fun b jobs kept => ⟨fun free relocated queue => ?visit,
    fun held => ?waits⟩, fun c b running next relocated free => ?sweep, fun m rest moved cmd queue jobs => ?relocate,
    fun v served => ⟨fun lo hi => ?legal, fun out => ?refused⟩⟩
  case learn =>
    have ready : LearnReady r rest s.fresh := ⟨relocated, jobs, queue, unlocked⟩
    refine ⟨fun i new room free => ?new, fun i found => ⟨fun static moved => ?static, fun dynamic same => ?same,
      fun dynamic moved held => ?contested, fun dynamic moved past => ?moved⟩⟩
    case new => exact answers_powered core (f := learnCommit) rfl (learnCommit_new ready rfl new room free)
    case static => exact answers_powered core (f := learnCommit) rfl (learnCommit_static found ready static moved)
    case same => exact answers_powered core (f := learnCommit) rfl (learnCommit_same found ready dynamic same)
    case contested =>
      exact answers_powered core (f := learnCommit) rfl (learnCommit_contested found ready dynamic moved held)
    case moved => exact answers_powered core (f := learnCommit) rfl (learnCommit_moved found ready dynamic moved past)
  case visit =>
    obtain ⟨places, aged, -⟩ := agerWork_removes (s := s.fresh) b
    refine answers_powered core (f := agerVisit b) rfl ?_
    rw [agerVisit_now (s := s.fresh) kept jobs free relocated queue]
    exact ⟨places, aged⟩
  case waits => exact answers_powered core (f := agerVisit b) rfl (agerVisit_waits (s := s.fresh) kept jobs held)
  case sweep =>
    exact answers_powered core (f := sweepBucket) rfl (sweepBucket_removes (s := s.fresh) running next relocated free)
  case relocate =>
    exact answers_powered core (f := relocateClear) rfl (relocateClear_clears (s := s.fresh) moved cmd queue jobs)
  case legal => exact answers_hostWrite served (f := ageWrite v.toNat) rfl (ageWrite_legal (s := s.fresh) lo hi)
  case refused => exact answers_hostWrite served (f := ageWrite v.toNat) rfl (ageWrite_refused (s := s.fresh) out)

end Sys2Proof.Machine
end

section
/-! SUPPORT. The bucket window: locks and shadows, commits, violations and the time limit (R289, R290, R292). -/

namespace Sys2Proof.Machine

variable {s t u : State}

/-! ## Violations (R290, R292) -/

/-- A violation is counted, and its event bit set. -/
theorem winViol_counted : let u := winViol s;
    u.rd Reg.CLS_WIN_VIOL = min (s.rd Reg.CLS_WIN_VIOL + 1) 0xFFFFFFFF ∧ u.bit Reg.CLS_EVT 4 = true ∧
    OnlyHost [Reg.CLS_WIN_VIOL, Reg.CLS_EVT] s u := by
  have posts := posts_raiseEvent (s := s.bump Reg.CLS_WIN_VIOL) 0x07 4 0
  refine ⟨?_, ?_, (onlyHost_wr_mem _ (by decide)).trans (onlyHost_raiseEvent (src := 0x07) 4 0 (by decide))⟩
  · exact (raiseEvent_rd (src := 0x07) 4 0 (by decide) (by decide)).trans (State.rd_bump_same ..)
  · exact (congrArg (Nat.testBit · 4) (posts.regs Reg.CLS_EVT (by decide))).trans
      (State.bit_setBit_same _ _ _ _ (by decide))

theorem winViol_cls : (winViol s).cls = s.cls := by rw [winViol_counted.2.2.2]

/-! ## Locks and shadows (R290) -/

theorem hostLocked_of_locks (h : t.cls.locks = s.cls.locks) (b : Nat) : hostLocked t b = hostLocked s b := by
  rw [hostLocked, h, hostLocked]

/-- A bucket let go has neither lock nor shadow. -/
theorem hostLocked_unlock (b : Nat) : hostLocked (unlock b s) b = false :=
  congrArg Option.isSome (Tbl.get_set_same (fun _ => none) s.cls.locks b none)

theorem shadow_unlock (b : Nat) : Tbl.get (fun _ => none) (unlock b s).cls.shadows b = none :=
  Tbl.get_set_same (fun _ => none) s.cls.shadows b none

/-- A bucket let go with a violation: it is free, the table and the engine's work are as they were, and the violation
is counted. -/
theorem winViol_unlock (b : Nat) : let u := winViol (unlock b s);
    (hostLocked u b = false ∧ u.cls.peers = s.cls.peers ∧
      u.rd Reg.CLS_WIN_VIOL = min (s.rd Reg.CLS_WIN_VIOL + 1) 0xFFFFFFFF) ∧ u.cls.jobs = s.cls.jobs := by
  have table : (winViol (unlock b s)).cls = (unlock b s).cls := winViol_cls
  refine ⟨⟨(hostLocked_of_locks (by rw [table]) b).trans (hostLocked_unlock b), ?_, winViol_counted.1⟩, ?_⟩
  · rw [table]
    rfl
  · rw [table]
    rfl

/-- With the full layout every lock word reads as all ones. -/
theorem lockRead_full (b : Nat) (h : clsLayout s ≠ 0) : lockRead b s = s.emit (.readData [0xFFFFFFFF#32]) :=
  if_pos (.inl h)

theorem lockRead_held {b : Nat} (compact : clsLayout s = 0) (inside : b < clsBuckets s)
    (held : (hostLocked s b || engineHolds s b) = true) :
    lockRead b s = s.emit (.readData [word (lockWord s b)]) := by
  rw [lockRead, if_neg (by simp [compact, inside])]
  exact if_pos held

/-- The read of a free lock word takes the lock, with a shadow of the bucket. -/
theorem lockRead_free {b : Nat} (compact : clsLayout s = 0) (inside : b < clsBuckets s)
    (unlocked : hostLocked s b = false) (still : engineHolds s b = false) : let u := lockRead b s;
    u.out = s.out ++ [.readData [word (lockWord s b)]] ∧ Tbl.get (fun _ => none) u.cls.locks b = some s.refTick ∧
    Tbl.get (fun _ => none) u.cls.shadows b = some (bucketBytes s b) ∧ u.cls.peers = s.cls.peers ∧ RegsBut [] s u := by
  have free : ¬(hostLocked s b || engineHolds s b) = true := by simp [unlocked, still]
  rw [lockRead, if_neg (by simp [compact, inside])]
  dsimp only
  rw [if_neg free]
  exact ⟨rfl, Tbl.get_set_same (fun _ => none) s.cls.locks b (some s.refTick),
    Tbl.get_set_same (fun _ => none) s.cls.shadows b (some (bucketBytes s b)), rfl, fun _ _ => rfl⟩

/-! ## Words written (R289, R290) -/

/-- Where a BAR2 address of the window lies in the buckets. -/
def windowOffset (a : Nat) (s : State) : Nat := a - 0x2000000 + s.rdF Reg.CLS_WIN_PAGE 0 2 * 2 ^ 25

/-- A word is an access that the window takes. -/
theorem entryWrite_word {a : Nat} (lo : 0x2000000 ≤ a) (hi : a < 0x4000000) (word : a % 4 = 0) (w : Word)
    (up : hostServed s = true) : entryWrite a [w] s = windowWord a w s := by
  have size : sizeOk true a (4 * [w].length) = true := by
    have room : a % 64 + 4 ≤ 64 := by omega
    simp [sizeOk, lo, hi, word, room]
  rw [entryWrite, if_neg (by omega), if_pos size, hostWrite2_served up]
  rfl

theorem windowWord_shadow {a : Nat} {sh : Bytes} (w : Word) (compact : clsLayout s = 0)
    (held : Tbl.get (fun _ => none) s.cls.shadows (windowOffset a s / 512) = some sh) : let u := windowWord a w s;
    Tbl.get (fun _ => none) u.cls.shadows (windowOffset a s / 512) =
      some (splice sh (windowOffset a s % 512) (leBytes 4 w.toNat)) ∧
    u.cls.peers = s.cls.peers ∧ RegsBut [] s u := by
  rw [windowOffset] at held ⊢
  rw [windowWord, if_neg (by simp [compact]), held]
  exact ⟨Tbl.get_set_same (fun _ => none) s.cls.shadows _ (some _), rfl, fun _ _ => rfl⟩

theorem windowWord_unlocked {a : Nat} (w : Word) (compact : clsLayout s = 0)
    (bare : Tbl.get (fun _ => none) s.cls.shadows (windowOffset a s / 512) = none) :
    windowWord a w s = winViol s := by
  rw [windowOffset] at bare
  rw [windowWord, if_neg (by simp [compact]), bare]

/-! ## Commits (R290) -/

/-- A commit is done at once where no relocation runs: `w` is what it leaves. -/
theorem bucketCommit_now {b : Nat} {w : State} (compact : clsLayout s = 0) (held : hostLocked s b = true)
    (relocated : s.cls.relocated = []) (jobs : s.cls.jobs = []) (work : commitWork b s = w) (done : w.cls.jobs = []) :
    lockWrite b 0 s = w := by
  have ready : jobReady s ⟨.commit b, 0⟩ = true := by simp [jobReady, engineFree, relocated]
  subst work
  rw [lockWrite, if_pos rfl, bucketCommit, if_neg (by simp [compact]), if_pos held, engineDo_now jobs ready done]
  exact engineGo_idle done

theorem bucketAbort_now {b : Nat} (compact : clsLayout s = 0) (jobs : s.cls.jobs = []) :
    lockWrite b 4 s = unlock b s := by
  rw [lockWrite, if_neg (by decide), if_pos (by decide), bucketAbort, if_neg (not_not.mpr compact)]
  exact engineGo_idle jobs

/-- The eight places of a bucket, written one after another, hold the entries of the shadow. -/
theorem peerAt_setPlaces (b n : Nat) (f : Nat → Bytes) (j : Nat) :
    ((List.range n).foldl (fun s k => s.setPeer (8 * b + k) (f k)) s).peerAt j =
      if 8 * b ≤ j ∧ j < 8 * b + n then f (j - 8 * b) else s.peerAt j := by
  induction n with
  | zero => rw [if_neg (by omega)]; rfl
  | succ n ih =>
    rw [List.range_succ, List.foldl_append, List.foldl_cons, List.foldl_nil, peerAt_setPeer, ih]
    by_cases last : j = 8 * b + n
    · rw [if_pos last, if_pos (by omega), last, Nat.add_sub_cancel_left]
    · rw [if_neg last]
      by_cases inside : 8 * b ≤ j ∧ j < 8 * b + n
      · rw [if_pos inside, if_pos (by omega)]
      · rw [if_neg inside, if_neg (by omega)]

/-- The bucket that takes the entries of a shadow in one update, with the next VERSION. -/
def bucketWritten (b : Nat) (sh : Bytes) (s : State) : State :=
  let u := (List.range 8).foldl (fun s k => s.setPeer (8 * b + k) (slice sh (64 * k) 64)) s
  { u with cls := { u.cls with
    versions := Tbl.set (fun _ => 0) u.cls.versions b ((Tbl.get (fun _ => 0) s.cls.versions b + 1) % 65536) } }

theorem placesOnly_bucketWritten (b : Nat) (sh : Bytes) : PlacesOnly s (bucketWritten b sh s) :=
  .trans (.foldl (fun _ _ => placesOnly_setPeer ..) _) ⟨fun _ _ => rfl, rfl⟩

theorem bucketWritten_places (b : Nat) (sh : Bytes) : let u := bucketWritten b sh s;
    (∀ k < 8, u.peerAt (8 * b + k) = slice sh (64 * k) 64) ∧ (∀ i, i / 8 ≠ b → u.peerAt i = s.peerAt i) ∧
    Tbl.get (fun _ => 0) u.cls.versions b = (Tbl.get (fun _ => 0) s.cls.versions b + 1) % 65536 := by
  have places := peerAt_setPlaces (s := s) b 8 (fun k => slice sh (64 * k) 64)
  refine ⟨fun k hk => (places (8 * b + k)).trans ?_, fun i other => (places i).trans (if_neg (by omega)),
    Tbl.get_set_same ..⟩
  rw [if_pos (by omega), Nat.add_sub_cancel_left]

section
variable {b : Nat} {sh : Bytes} (shadow : Tbl.get (fun _ => none) s.cls.shadows b = some sh)
include shadow

theorem commitWork_unchanged (good : shadowBad s b sh = false) (same : sh = bucketBytes s b) :
    commitWork b s = unlock b s := by
  rw [commitWork, shadow]
  exact (if_neg (ne_true_of_eq_false good)).trans (if_pos same)

theorem commitWork_bad (bad : shadowBad s b sh = true) : commitWork b s = winViol (unlock b s) := by
  rw [commitWork, shadow]
  exact if_pos bad

theorem commitWork_changed (good : shadowBad s b sh = false) (new : sh ≠ bucketBytes s b) :
    commitWork b s = bucketWritten b sh (unlock b s) := by
  rw [commitWork, shadow]
  exact (if_neg (ne_true_of_eq_false good)).trans (if_neg new)

end

/-! ## The time limit (R290; log entry 50) -/

/-- Of a list, the fold that keeps the lesser time holds an entry of the list that is no later than any. -/
theorem earliest_foldl (l : List (Nat × Nat)) (h : Nat × Nat) :
    let m := l.foldl (fun m x => if x.1 < m.1 then x else m) h; m ∈ h :: l ∧ ∀ x ∈ h :: l, m.1 ≤ x.1 := by
  induction l generalizing h with
  | nil => simp
  | cons y l ih =>
    rw [List.foldl_cons]
    by_cases earlier : y.1 < h.1
    · rw [if_pos earlier]
      obtain ⟨mem, least⟩ := ih y
      refine ⟨List.mem_cons_of_mem _ mem, List.forall_mem_cons.mpr ⟨?_, least⟩⟩
      exact (least y List.mem_cons_self).trans earlier.le
    · rw [if_neg earlier]
      obtain ⟨mem, least⟩ := ih h
      obtain ⟨first, others⟩ := List.forall_mem_cons.mp least
      refine ⟨(List.mem_cons.mp mem).elim (fun e => List.mem_cons.mpr (.inl e)) fun m =>
        List.mem_cons_of_mem _ (List.mem_cons_of_mem _ m), ?_⟩
      exact List.forall_mem_cons.mpr ⟨first, List.forall_mem_cons.mpr ⟨first.trans (Nat.not_lt.mp earlier), others⟩⟩

/-- The time limit lets go of the bucket locked the longest. -/
theorem lockTimeout_oldest {b t : Nat} (jobs : s.cls.jobs = []) (mine : (b, some t) ∈ s.cls.locks)
    (oldest : ∀ b' t', (b', some t') ∈ s.cls.locks → b' ≠ b → t < t') : lockTimeout s = winViol (unlock b s) := by
  have listed (p : Nat × Nat) : p ∈ s.cls.locks.filterMap (fun e => e.2.map (fun t => (t, e.1))) ↔
      (p.2, some p.1) ∈ s.cls.locks := by
    simp [List.mem_filterMap, Prod.ext_iff]
  have idle (w : Nat) : (winViol (unlock w s)).cls.jobs = [] := (winViol_unlock w).2.trans jobs
  have all : s.cls.locks.filter (fun e => !s.cls.jobs.any (fun j => j.work == .commit e.1)) = s.cls.locks := by
    simp [jobs]
  have member := (listed (t, b)).mpr mine
  unfold lockTimeout
  dsimp only
  rw [all]
  split
  case h_1 empty =>
    rw [empty] at member
    cases member
  case h_2 h l held =>
    obtain ⟨mem, least⟩ := earliest_foldl l h
    rw [← held] at mem least
    have bucket : (l.foldl (fun m x => if x.1 < m.1 then x else m) h).2 = b := by
      by_contra other
      exact absurd (least _ member) (Nat.not_le.mpr (oldest _ _ ((listed _).mp mem) other))
    rw [engineGo_idle (idle _), bucket]

/-! ## Shadows of CLS_PORT (R292; log entry 49) -/

/-- Every register of the fold takes its shadow as its active value, and nothing else changes. -/
theorem clspCommit_active : let u := clspCommit s;
    (∀ m < 32, u.actv (Reg.CLS_PORT m) = s.rd (Reg.CLS_PORT m)) ∧ u = { s with act := u.act } := by
  have upTo (n : Nat) : let u := (List.range n).foldl (fun s m => s.wrAct (Reg.CLS_PORT m) (s.rd (Reg.CLS_PORT m))) s;
      (∀ m < n, u.actv (Reg.CLS_PORT m) = s.rd (Reg.CLS_PORT m)) ∧ u = { s with act := u.act } := by
    induction n with
    | zero => exact ⟨fun _ h => absurd h (Nat.not_lt_zero _), rfl⟩
    | succ n ih =>
      rw [List.range_succ, List.foldl_append, List.foldl_cons, List.foldl_nil]
      generalize (List.range n).foldl _ s = v at ih
      obtain ⟨active, rest⟩ := ih
      have shadow (a : Nat) : v.rd a = s.rd a := by rw [rest]; rfl
      refine ⟨fun m hm => ?_, by rw [State.wrAct, rest]⟩
      rw [State.actv_wrAct, shadow, Nat.mod_eq_of_lt (s.rd_lt _)]
      split
      case isTrue same => rw [same]
      case isFalse other =>
        have ne : m ≠ n := fun e => other (by rw [e])
        exact active m (by omega)
  exact upTo 32

/-! ## The statement -/

/-- Settles O44: the lock word, a word written, the commit and its ends, the time limit, CLSP, and a write to a table
window. -/
theorem bucketWindowWorksUnderItsLock : Obligations.BucketWindowWorksUnderItsLock := by
  unfold Obligations.BucketWindowWorksUnderItsLock
  intro s b served
  refine ⟨fun full => ?full, fun compact inside => ⟨fun held => ?held, fun _ moving => ?moving,
    fun unlocked still => ?taken⟩, fun a w lo hi word compact => ⟨fun sh held => ?shadow, fun bare => ?unshadowed⟩,
    fun sh compact held relocated jobs shadow => ⟨fun good same => ?unchanged, fun good new => ?changed,
      fun bad => ?bad, ?abort⟩, fun t jobs mine oldest _ => ?timeout, fun port => ?clsp, fun a v lo hi window => ?table⟩
  case full => exact answers_hostWrite2 served (f := lockRead b) rfl (lockRead_full (s := s.fresh) b full)
  case held =>
    exact answers_hostWrite2 served (f := lockRead b) rfl
      (lockRead_held (s := s.fresh) compact inside (Bool.or_eq_true_iff.mpr (.inl held)))
  case moving =>
    exact answers_hostWrite2 served (f := lockRead b) rfl
      (lockRead_held (s := s.fresh) compact inside (Bool.or_eq_true_iff.mpr (.inr moving)))
  case taken =>
    exact answers_hostWrite2 served (f := lockRead b) rfl (lockRead_free (s := s.fresh) compact inside unlocked still)
  case shadow =>
    refine answers_powered served.1 (f := entryWrite a.toNat [w]) rfl ?_
    rw [entryWrite_word (s := s.fresh) lo hi word w served.2]
    exact windowWord_shadow (s := s.fresh) w compact held
  case unshadowed =>
    refine answers_powered served.1 (f := entryWrite a.toNat [w]) rfl ?_
    rw [entryWrite_word (s := s.fresh) lo hi word w served.2, windowWord_unlocked (s := s.fresh) w compact bare]
    exact winViol_counted (s := s.fresh)
  case unchanged =>
    refine answers_hostWrite2 served (f := lockWrite b 0) rfl ?_
    rw [bucketCommit_now (s := s.fresh) compact held relocated jobs (commitWork_unchanged shadow good same) jobs]
    exact ⟨hostLocked_unlock b, rfl, rfl, fun _ _ => rfl⟩
  case changed =>
    have only := placesOnly_bucketWritten (s := unlock b s.fresh) b sh
    refine answers_hostWrite2 served (f := lockWrite b 0) rfl ?_
    rw [bucketCommit_now (s := s.fresh) compact held relocated jobs (commitWork_changed shadow good new)
      (only.jobs.trans jobs)]
    exact ⟨(hostLocked_of_locks only.locks b).trans (hostLocked_unlock b), bucketWritten_places b sh⟩
  case bad =>
    refine answers_hostWrite2 served (f := lockWrite b 0) rfl ?_
    obtain ⟨dropped, kept⟩ := winViol_unlock (s := s.fresh) b
    rw [bucketCommit_now (s := s.fresh) compact held relocated jobs (commitWork_bad shadow bad) (kept.trans jobs)]
    exact dropped
  case abort =>
    refine answers_hostWrite2 served (f := lockWrite b 4) rfl ?_
    rw [bucketAbort_now (s := s.fresh) compact jobs]
    exact ⟨hostLocked_unlock b, rfl, shadow_unlock b, fun _ _ => rfl⟩
  case timeout =>
    obtain ⟨dropped, -⟩ := winViol_unlock (s := s.fresh) b
    refine answers_powered served.1 (f := lockTimeout) rfl ?_
    rw [lockTimeout_oldest (s := s.fresh) jobs mine oldest]
    exact dropped
  case clsp => exact answers_hostWrite port (f := clspCommit) rfl (clspCommit_active (s := s.fresh))
  case table =>
    obtain ⟨core, up, granted⟩ := window
    refine answers_powered core (f := viewWrite a.toNat) rfl ?_
    rw [viewWrite, if_pos ⟨lo, hi⟩, hostWrite_served (s := s.fresh) up granted]
    exact winViol_counted (s := s.fresh)

end Sys2Proof.Machine
end
